-- ==== Sys2Proof/Word.lean ====
section
/-! DEFINITION. The words of the KM6400: bytes, the 36-bit container of R36, the 288-bit Pad row, the registers. -/

namespace Sys2Proof

/-- One byte of a memory, a container or a message (R5: multi-byte fields are little-endian). -/
abbrev Byte := BitVec 8

/-- A 36-bit container: one M36 word or one M18 pair (R36), and one Scriber register (R131). -/
abbrev W36 := BitVec 36

/-- A Pad row: eight containers, container k in bits [36k+35:36k] (R36). -/
abbrev Row := BitVec 288

/-- A 32-bit register. -/
abbrev W32 := BitVec 32

/-- A 64-bit register. -/
abbrev W64 := BitVec 64

end Sys2Proof
end

