-- ==== Sys2Proof/Machine/Data/Base.lean ====
section
/-! DEFINITION. Status codes, functions, calls and responses: the types every unit shares. -/

namespace Sys2Proof.Machine

/-- The status codes of Table 21.3 (R586). -/
inductive Status where
  | ok | busy | badShape | badModulus | bound | notOwner | staleHandle | overcommit | routeFrayed | clockAbsent
  | spillBound | doubleTrap | engineBusy | poison | retiredPage | signature | timeout | resetInProgress
  | notSupported | lifecycle | configMismatch | notResident
deriving DecidableEq, Repr

/-- The function a command comes from: PF0, or the VF that serves partition n (VF n + 1, R357). -/
inductive Fn where
  | pf0
  | vf (n : Nat)
deriving DecidableEq, Repr

/-- What a mailbox entry carries besides its arguments (Table 16.1): the calling function, the driver's tag, the argument
length, and whether every reserved byte of the entry is zero. The response of a quiet call is discarded (R551). -/
structure Call where
  fn : Fn
  tag : Nat := 0
  argLen : Nat := 0
  reservedZero : Bool := true
  quiet : Bool := false
deriving DecidableEq, Repr

/-- The response half of a mailbox entry (Table 16.1). -/
structure Response where
  code : Nat
  tag : Nat
  status : Status
  detail : Nat
  result : List Nat
deriving DecidableEq, Repr

/-- Who issues a Biralo slot: a running instance, a swatch of it, and in loose execution the local cell. In ganged execution
every cell of the swatch issues (R93, R94). -/
structure Issuer where
  run : Nat
  sw : BitVec 6
  cell : Option (BitVec 9) := none
deriving DecidableEq, Repr

/-- The fields of a Stipple slot besides OP (Table 6.2). -/
structure StipFields where
  m18 : Bool := false
  gd : BitVec 4 := 0
  ga : BitVec 4 := 0
  gb : BitVec 4 := 0
  gc : BitVec 4 := 0
  entry : BitVec 10 := 0
  gm : BitVec 4 := 0
  count : BitVec 8 := 0
  tap : Bool := false
  bcast : Bool := false
deriving DecidableEq, Repr

/-- The engines of a cell or panel that queue instructions. -/
inductive EngineName where
  | press | stipple | burin | hatch | weft
deriving DecidableEq, Repr

/-- The resources of a cell (R252): the port's two directions, and each stack's bolt, tack and adder path. -/
inductive Resource where
  | portRead
  | portWrite
  | boltRead (stack : BitVec 3)
  | boltWrite (stack : BitVec 3)
  | adder (stack : BitVec 3)
  | tack (stack : BitVec 3)
  | fabric
deriving DecidableEq, Repr

/-- The reservation classes of a stack's slots (R272, Table 4.4): read, write, remote, and the slots no partition holds. -/
inductive SlotClass where
  | read | write | remote | management
deriving DecidableEq, Repr

/-- Whose slot a stack serves (R271, R280, R364): a running plan's, an arrival slot of a partition, or a slot that no partition
holds. -/
inductive SlotOwner where
  | run (id : Nat)
  | arrival (part : Nat)
  | unreserved
deriving DecidableEq, Repr

/-- Service Grades of R34; `mgmt` is Management-only mode. -/
inductive Grade where
  | full | frayed | reduced | mgmt
deriving DecidableEq, Repr

/-- Lifecycle states of Table 0.6. -/
inductive Lifecycle where
  | manufacturing | provisioned | deployed | returned
deriving DecidableEq, Repr

/-- A Scriber value with its poison tag (R133). -/
structure Tagged where
  val : W36
  poison : Bool
deriving DecidableEq, Repr

/-- A first-error record: a register whose VALID bit is write-one-to-clear and re-arms it. -/
structure Latch where
  valid : Bool := false
  a : Nat := 0
  b : Nat := 0
  c : Nat := 0
  d : Nat := 0
deriving DecidableEq, Repr

end Sys2Proof.Machine
end

