-- ==== Sys2Proof/Machine/Maps.lean ====
section
/-! DEFINITION. Sparse maps with ascending keys, and the byte memory in its canonical form. -/

namespace Sys2Proof.Machine

/-- A sparse map: key and value pairs with strictly rising keys. An absent key holds a default that the reader names. -/
abbrev SMap (α : Type) := List (Nat × α)

/-- The value at a key, or none. -/
def mfind {α : Type} (k : Nat) : SMap α → Option α
  | [] => none
  | (j, v) :: rest => if j = k then some v else mfind k rest

/-- The value at a key, or the default. -/
def mget {α : Type} (d : α) (k : Nat) (m : SMap α) : α := (mfind k m).getD d

/-- Write a value at a key, keeping the keys rising. -/
def mput {α : Type} (k : Nat) (v : α) : SMap α → SMap α
  | [] => [(k, v)]
  | (j, w) :: rest =>
    if k < j then (k, v) :: (j, w) :: rest
    else if k = j then (k, v) :: rest
    else (j, w) :: mput k v rest

/-- Remove a key. -/
def mdel {α : Type} (k : Nat) (m : SMap α) : SMap α := m.filter fun e => e.1 != k

/-- Change the value at a key. -/
def mupd {α : Type} (d : α) (k : Nat) (f : α → α) (m : SMap α) : SMap α := mput k (f (mget d k m)) m

/-- Write a value, dropping the entry when the value is the default: the canonical form of a memory. -/
def mset {α : Type} [DecidableEq α] (d : α) (k : Nat) (v : α) (m : SMap α) : SMap α :=
  if v = d then mdel k m else mput k v m

/-- Keys strictly rising. -/
def keysRising {α : Type} : SMap α → Bool
  | [] => true
  | [_] => true
  | (j, _) :: (k, w) :: rest => decide (j < k) && keysRising ((k, w) :: rest)

/-- The byte memory of the package: HBM stacks, Linings and control memory at their device physical addresses.
An unlisted byte reads zero: HBM is zeroed before allocation (R294), Linings before their plate is ready (R243). -/
abbrev Mem := List Host.Cell

/-- What an unlisted byte reads as. -/
def memDefault : Byte := 0

/-- Read one byte. -/
def memRead (m : Mem) (a : Nat) : Byte := mget memDefault a m

/-- Write one byte, keeping the canonical form. -/
def memWrite (m : Mem) (a : Nat) (b : Byte) : Mem := mset memDefault a b m

/-- Read n bytes from a. -/
def memReadN (m : Mem) (a n : Nat) : List Byte := (List.range n).map fun i => memRead m (a + i)

/-- Write bytes from a upward, in order. -/
def memWriteN (m : Mem) (a : Nat) : List Byte → Mem
  | [] => m
  | b :: bs => memWriteN (memWrite m a b) (a + 1) bs

/-- Zero n bytes from a. -/
def memClear (m : Mem) (a n : Nat) : Mem := m.filter fun c => decide (c.1 < a) || decide (a + n ≤ c.1)

/-- The canonical form: addresses strictly rising and no entry equal to what an unlisted address reads as. -/
abbrev Memory.wf (m : Mem) : Prop := keysRising m = true ∧ ∀ c ∈ m, c.2 ≠ memDefault

/-- The little-endian number in a list of bytes (R5). -/
def leNat : List Byte → Nat
  | [] => 0
  | b :: bs => b.toNat + 256 * leNat bs

/-- The n little-endian bytes of a number (R5). -/
def natLE : Nat → Nat → List Byte
  | 0, _ => []
  | n + 1, v => BitVec.ofNat 8 v :: natLE n (v / 256)

/-- Field bits [hi:lo] of a number. -/
def bits (v lo n : Nat) : Nat := v / 2 ^ lo % 2 ^ n

/-- One bit of a number. -/
def bit (v i : Nat) : Bool := v / 2 ^ i % 2 == 1

/-- Replace n bits at lo. -/
def setBits (v lo n x : Nat) : Nat := v - bits v lo n * 2 ^ lo + x % 2 ^ n * 2 ^ lo

/-- Ceiling division. -/
def cdiv (a b : Nat) : Nat := (a + b - 1) / b

/-- Replace the element at a position of a list. -/
def lset {α : Type} (l : List α) (i : Nat) (v : α) : List α := l.set i v

/-- Change the element at a position of a list. -/
def lupd {α : Type} (l : List α) (i : Nat) (f : α → α) : List α :=
  match l[i]? with
  | some v => l.set i (f v)
  | none => l

/-- 1 for true, 0 for false. -/
def b2n (b : Bool) : Nat := if b then 1 else 0

end Sys2Proof.Machine
end

