-- ==== Sys2Proof/Machine/Data/Cell.lean ====
section
/-! DEFINITION. The state of one cell: Scriber, Pad, Press, Stipple, Burin and Spool contexts, and of one panel: Hatch, Weft and Lining port. -/

namespace Sys2Proof.Machine

/-- The content of a Modulus Table entry that an engine latches at issue (R42, R173). -/
structure Modulus where
  q : Nat := 0
  mu : Nat := 0
  ninv : Nat := 0
  psi : Nat := 0
  twset : Nat := 255
  logn : Nat := 0
  m18 : Bool := false
deriving DecidableEq, Repr

/-! ### Scriber -/

/-- A Scriber result that has not landed: its register key, the plan cycle at whose end it lands, its issue order (R132, R149). A word of a
window fill still to be read names its Pad row, its container and the cycle that reads it (R134). -/
structure RegLand where
  reg : Nat
  val : Tagged
  due : Nat
  seq : Nat
  src : Option (Nat × Nat × Nat) := none
deriving DecidableEq, Repr

/-- One entry of the loop stack: the address after the LOOP, END, and the remaining count (R141). -/
structure LoopEntry where
  start : Nat
  last : Nat
  count : Nat
deriving DecidableEq, Repr

/-- The six fields of a task slot and its bias region (R137, R218). -/
structure TaskSlot where
  padBase : Nat := 0
  padBound : Nat := 0
  lngBase : Nat := 0
  lngBound : Nat := 0
  spillBase : Nat := 0
  spillBound : Nat := 0
  biasFirst : Nat := 0
  biasCount : Nat := 0
deriving DecidableEq, Repr

/-- The Scriber core of a cell. Registers are keyed 0 to 15 for g0 to g15 and 16 + 16w + i for register i of window w;
an absent key reads zero and untagged; after a reset all of it reads zero (R156). `rets` holds the addresses that RET goes back to, one for each level of CDEPTH. -/
structure Scriber where
  regs : SMap Tagged := []
  lands : List RegLand := []
  cwp : Nat := 0
  wdepth : Nat := 0
  cdepth : Nat := 0
  spillp : List Nat := [0, 0, 0, 0]
  atask : Nat := 0
  loops : List LoopEntry := []
  rets : List Nat := []
  halted : Bool := false
  tasks : List TaskSlot := [{}, {}, {}, {}]
  shadowTasks : List TaskSlot := [{}, {}, {}, {}]
deriving DecidableEq, Repr

/-- Where a cell's own stream stands (R143, R145): following the swatch, running its loose store, waiting at a barrier
(scope: false panel, true swatch), or ended by a BARRIER with END. -/
inductive CellMode where
  | ganged
  | loose
  | waiting (swatchScope : Bool) (atEnd : Bool)
  | ended
deriving DecidableEq, Repr

/-- A bundle stream: the address of the next bundle, the plan cycle at which it issues (none while it issues nothing),
the address of the bundle issued last,
the plan cycle before which a released barrier and the bundle it stands in let nothing issue, the end of its window trap or IDLE (R150), and
for a ganged stream the cycle at which its resume point would have issued when loose execution began (R143). -/
structure Stream where
  pc : Nat := 0
  next : Option Nat := some 0
  last : Nat := 0
  floor : Nat := 0
  busyTill : Nat := 0
  parked : Nat := 0
deriving DecidableEq, Repr

/-! ### Pad -/

/-- Where a row of an automorphism route comes from (R192): the STAGE 0 instruction that made it (the run and its number among the run's in
the swatch), its limb, and whether the middle route has moved it. -/
structure AutoTag where
  run : Nat
  nth : Nat
  limb : Nat
  moved : Bool
deriving DecidableEq, Repr

/-- A Pad write that has not landed: its run, the cycle at whose end it lands, its order in Table 8.2, its issue order, its
physical row, the containers it writes, the data, and whether the data is poisoned. -/
structure PadLand where
  run : Nat := 0
  due : Nat
  order : Nat
  seq : Nat
  row : Nat
  mask : BitVec 8
  data : Row
  poison : Bool
  origin : Option AutoTag := none
deriving DecidableEq, Repr

/-- The Pad of a cell: rows (unlisted rows read zero), poisoned rows, the ECC pairs (4 × row + pair) whose next read finds a correctable
or an uncorrectable error, writes in flight, the accesses of each bank in recent F-cycles, keyed 16 × cycle + bank, the rows written
since the task started, and the rows that belong to an automorphism route (R112, R213, R214, R192, R217, R222, R223). -/
structure Pad where
  rows : SMap Row := []
  poison : List Nat := []
  ce : List Nat := []
  ue : List Nat := []
  lands : List PadLand := []
  use : SMap Nat := []
  written : List Nat := []
  origin : SMap AutoTag := []
deriving DecidableEq, Repr

/-! ### Press and Stipple -/

/-- What a Press instruction does (Table 6.1). -/
inductive PressKind where
  | mma | drain | zero | tapRel
deriving DecidableEq, Repr

/-- A Press instruction issued and not finished (R161 to R166). -/
structure PressOp where
  run : Nat
  seq : Nat
  bundle : Nat
  start : Nat
  occ : Nat
  kind : PressKind
  m18 : Bool := false
  rowA : Nat := 0
  rowB : Nat := 0
  count : Nat := 0
  done : Nat := 0
  tap : Bool := false
  rowD : Nat := 0
  mods : List Modulus := []
  wordsA : SMap (List Row) := []
  wordsB : SMap (List Row) := []
  drained : Option (List Row) := none
deriving DecidableEq, Repr

/-- One tap group: its four rows, and the rows that become readable in later F-cycles, the earliest first (R164, R174). -/
structure TapGroup where
  rows : List Row := [0, 0, 0, 0]
  next : List (Nat × List Row) := []
deriving DecidableEq, Repr

/-- A hold of the tap lock: from the start of a DRAIN in Tap mode, with the F-cycle each group is read in, to its release
(R166). -/
structure TapLock where
  start : Nat
  m18 : Bool
  reads : SMap Nat := []
  releaseAt : Option Nat := none
deriving DecidableEq, Repr

/-- The Press of a cell: accumulators keyed 8i + j, its queue in issue order, the first F-cycle after the last
occupancy, the tap and its lock (R162 to R166); `written` says that its accumulators were written since the task started (R112). -/
structure Press where
  acc : SMap (BitVec 80) := []
  written : Bool := false
  queue : List PressOp := []
  freeAt : Nat := 0
  tap : List TapGroup := [{}, {}, {}]
  locks : List TapLock := []
deriving DecidableEq, Repr

/-- The Stipple operations of Table 6.3. -/
inductive StipKind where
  | madd | msub | mneg | mmul | mmad | mmsb | resc | red | move | digit
deriving DecidableEq, Repr

/-- A Stipple instruction issued and not finished (R167). Rows are physical. -/
structure StipOp where
  run : Nat
  seq : Nat
  bundle : Nat
  start : Nat
  kind : StipKind
  m18 : Bool
  rowD : Nat
  rowA : Nat
  rowB : Nat
  rowC : Nat
  bcast : Option W36 := none
  modulus : Modulus := {}
  mask : BitVec 32
  count : Nat
  tapGroup : Option Nat := none
  done : Nat := 0
  suppressed : Nat := 0
deriving DecidableEq, Repr

/-- The Stipple of a cell. -/
structure Stipple where
  queue : List StipOp := []
  freeAt : Nat := 0
deriving DecidableEq, Repr

/-! ### Burin -/

/-- A Burin instruction issued and not finished (R186 to R188). `mods` holds the entry of each limb the blocks use, `ins` the rows of the
region as its reads find them, `out` what they transform to, `spoiled` the rows that hold unspecified values (R206). -/
structure BurinOp where
  run : Nat
  seq : Nat
  bundle : Nat
  start : Nat
  occ : Nat
  inverse : Bool
  final : Bool
  rowD : Nat
  rows : Nat
  count : Nat
  m : Nat
  s : Nat
  k0 : Nat
  kstep : Nat
  bplLog : Nat
  mods : List Modulus
  m18 : Bool
  ins : List Row := []
  out : List Row := []
  done : Nat := 0
  spoiled : List Nat := []
deriving DecidableEq, Repr

/-- The Burin of a cell. -/
structure Burin where
  queue : List BurinOp := []
  freeAt : Nat := 0
deriving DecidableEq, Repr

/-! ### Spool -/

/-- The kinds of Table 9.2. -/
inductive ThreadKind where
  | hbmRead | hbmWrite | hbmAdd | liningRead | liningWrite | keyRead | tackRead
deriving DecidableEq, Repr

/-- A thread descriptor (Table 9.1), with its kind code as stored. -/
structure ThreadDesc where
  kind : Nat := 0
  nseg : Nat := 0
  binding : Nat := 0
  segRows : Nat := 0
  ringBase : Nat := 0
  count : Nat := 0
  base : Nat := 0
  stride : Nat := 0
  cstride : Nat := 0
  interval : Nat := 0
  entry : Nat := 0
  modular : Bool := true
  idxRow : Nat := 0
  plateCell : Bool := false
deriving DecidableEq, Repr

/-- A thread context in use (R246 to R250). For a read thread `marked` counts units released, for a write thread units marked
full; `pendAdv` holds marks that are not yet visible, with the plan cycle at which they are. `index` is the row of the index list that a TACK_READ
read last. `presented` counts units chosen,
`moved` units landed or accepted. The context is idle from plan cycle `endAt`. -/
structure Thread where
  run : Nat
  desc : Nat
  bundle : Nat
  kind : ThreadKind
  d : ThreadDesc
  off : Nat
  task : Nat
  ringRow : Nat
  idxRow : Nat
  startAt : Nat
  marked : Nat := 0
  presented : Nat := 0
  moved : Nat := 0
  lastAdv : Nat
  pendAdv : List (Nat × Nat) := []
  stopping : Bool := false
  index : Row := 0
  endAt : Option Nat := none
deriving DecidableEq, Repr

/-- Where a unit in flight stands: its beat is to come or it is on its way to the memory, it waits in the memory's queue, its
data is on the way back, its rows are landing or its line is on its way to become visible. -/
inductive UnitStage where
  | going | queued | returning | landing
deriving DecidableEq, Repr

/-- A Spool unit in flight (R249, R251): its thread and number, the byte address it names, the plan cycle it was presented, the
plan cycle of its next stage, its data rows and their poison, and the Seam hop cost of its route. A write unit reads its rows from
physical row `row` on, row j in cycle `readAt` + j. -/
structure SpoolUnit where
  thread : Nat
  k : Nat
  run : Nat
  kind : ThreadKind
  addr : Nat
  presentedAt : Nat
  due : Nat
  stage : UnitStage
  data : List Row := []
  poison : List Bool := []
  remote : Bool := false
  fabric : Bool := false
  hop : Nat := 0
  row : Nat := 0
  readAt : Nat := 0
  origin : Option AutoTag := none
deriving DecidableEq, Repr

/-- One cell. `taken` holds, for each resource of R252, the plan cycle from which it can take a new unit. -/
structure Cell where
  scr : Scriber := {}
  mode : CellMode := .ganged
  stream : Stream := {}
  pad : Pad := {}
  press : Press := {}
  stip : Stipple := {}
  burin : Burin := {}
  threads : SMap Thread := []
  units : List SpoolUnit := []
  taken : SMap Nat := []
  looseStore : SMap (BitVec 256) := []
  seq : Nat := 0
deriving DecidableEq, Repr

/-! ### Panel units -/

/-- The movements of Table 7.4 with their arguments. -/
inductive HatchKind where
  | auto (stage : Bool) (plate : Bool) (m18 : Bool) (logn : Nat) (k : Nat)
  | trans (beta pos oc : Nat)
  | brev
  | gather (first len : Nat)
deriving DecidableEq, Repr

/-- A Hatch instruction issued and not finished (R191 to R193). Source and destination rows are physical, one of each
per cell of the panel. `reads` holds what each column read returned, a row for each cell, with none from a halted cell; `nth` numbers an AUTO with
STAGE 0 among its run's in the swatch; the instruction of one panel of a swatch `counts` for PTN_HATCH_ROWS (R183). -/
structure HatchOp where
  run : Nat
  seq : Nat
  bundle : Nat
  start : Nat
  kind : HatchKind
  rows : Nat
  src : List Nat
  dst : List Nat
  latency : Nat
  table : SMap (List Nat) := []
  nth : Nat := 0
  counts : Bool := false
  reads : List (List (Option Row)) := []
  done : Nat := 0
deriving DecidableEq, Repr

/-- What AUTO with STAGE 0 took from the cells of a panel: its tag, the parameters of the route (k, N, SPAN, FMT) and the source rows,
keyed 64 × row + cell. What the stage writes is not architectural (R192), so the source is kept for STAGE 1. -/
structure AutoMem where
  run : Nat
  nth : Nat
  k : Nat
  logn : Nat
  plate : Bool
  m18 : Bool
  rows : SMap Row := []
deriving DecidableEq, Repr

/-- The distributions of Table 7.6. -/
inductive WeftKind where
  | expand (seed : BitVec 256) (digit : Nat)
  | uniform
  | ternary
  | gaussian
deriving DecidableEq, Repr

/-- The working state of a CTR_DRBG instance: Key and V (SP 800-90A, R198). -/
structure DrbgKey where
  key : BitVec 256 := 0
  v : BitVec 128 := 0
deriving DecidableEq, Repr

/-- A DRBG: instantiated or not, its instance at the start of the present request, the requests it has completed, the bytes taken of the present
one (4 096 a request), and the second instance that a reseed prepares, which takes over at the next request boundary (R198). -/
structure Drbg where
  ready : Bool := false
  cur : DrbgKey := {}
  requests : Nat := 0
  pos : Nat := 0
  next : Option DrbgKey := none
deriving DecidableEq, Repr

/-- A Weft instruction issued and not finished (R197 to R200). Rows are physical. `drbg` is the panel's DRBG at issue, `fresh` the instance that
takes over where it reaches its reseed limit; the instruction of one panel of a swatch `counts` for PTN_WEFT_ROWS. -/
structure WeftOp where
  run : Nat
  seq : Nat
  bundle : Nat
  start : Nat
  kind : WeftKind
  p0 : Nat
  layout : Nat
  count : Nat
  rowsPerLimb : Nat
  mods : List Modulus
  dst : List Nat
  drbg : Drbg := {}
  fresh : DrbgKey := {}
  counts : Bool := false
  done : Nat := 0
deriving DecidableEq, Repr

/-- The gather store of a panel: selector rows, and the first row and length of each table id. -/
structure GatherStore where
  rows : SMap (List Nat) := []
  tables : SMap (Nat × Nat) := []
deriving DecidableEq, Repr

/-- The programs a panel's stores hold (R202): the gather store and the 32 seed slots. -/
structure PanelStore where
  gather : GatherStore := {}
  seeds : SMap (BitVec 256) := []
deriving DecidableEq, Repr

/-- One panel: its Hatch and Weft, their stores in both banks, the DRBG with the second instance that a reseed prepares,
the beats outstanding on its Lining port (R230), each with the cycle it ends in, and the control flits on their way, keyed 0 toward the panel and 1
away from it (R105). -/
structure Panel where
  hatch : List HatchOp := []
  hatchFree : Nat := 0
  weft : List WeftOp := []
  weftFree : Nat := 0
  active : PanelStore := {}
  shadow : PanelStore := {}
  drbg : Drbg := {}
  autos : List AutoMem := []
  beats : List (Nat × Nat) := []
  control : SMap Nat := []
deriving DecidableEq, Repr

/-- One Yoke lane of an entry (Table 7.5). -/
structure YokeLane where
  enabled : Bool := false
  dpanel : Nat := 0
  scell : Nat := 0
  dcell : Nat := 0
  srow : Nat := 0
  drow : Nat := 0
  words : Nat := 0
  broadcast : Bool := false
deriving DecidableEq, Repr

/-- An active Yoke lane transfer: its source panel, the F-cycle its Sync issued, its task rows as physical rows of the source cell and of each
destination cell (none where a row is out of bounds or unaligned, R137, R195), words already moved. -/
structure YokeMove where
  run : Nat
  bundle : Nat
  panel : Nat
  lane : YokeLane
  issued : Nat
  src : Nat := 0
  srcRoom : Nat := 0
  dst : List (Nat × Nat × Nat) := []
  seq : Nat := 0
  done : Nat := 0
deriving DecidableEq, Repr

end Sys2Proof.Machine
end

