-- ==== Sys2Proof/Machine/Data/Plan.lean ====
section
/-! DEFINITION. Modulus tables, installed plans and running plans. -/

namespace Sys2Proof.Machine

/-- A modulus chain descriptor (R45). -/
structure Chain where
  qcount : Nat := 0
  pcount : Nat := 0
  index : List Nat := []
deriving DecidableEq, Repr

/-- One copy of a partition's Modulus Table: entry words of Table 2.1 and chains; an absent key is clear. `chainOk` lists
the chains that R49 found valid at the copy's last change. -/
structure ModTable where
  entries : SMap (BitVec 256) := []
  chains : SMap Chain := []
  chainOk : List Nat := []
deriving DecidableEq, Repr

/-- A bound twiddle set (q, psi, N). -/
structure TwSet where
  q : Nat
  psi : Nat
  logn : Nat
deriving DecidableEq, Repr

/-- One task slot of the RESOURCES section (Table 4.3, R218). -/
structure TaskRes where
  padRows : Nat := 0
  spillRows : Nat := 0
  lining : Nat := 0
  biasFirst : Nat := 0
  biasCount : Nat := 0
deriving DecidableEq, Repr

/-- A KEYS entry (R460). -/
structure KeyEntry where
  keyId : Nat
  vplate : Nat
  offset : Nat
  first : Nat
  last : Nat
deriving DecidableEq, Repr

/-- A WEAVE transfer entry (Table 4.18). -/
structure WeaveEntry where
  src : Nat
  dst : Nat
  srow : Nat
  drow : Nat
  words : Nat
  route : Nat
  vlink : Nat
deriving DecidableEq, Repr

/-- A SEAM virtual link (Table 4.19). -/
structure VLink where
  kind : Nat
  a : Nat
  b : Nat
  assumed : Nat
deriving DecidableEq, Repr

/-- A reservation entry (Table 4.4). -/
structure Resv where
  cls : Nat
  index : Nat
  units : Nat
  strict : Bool
deriving DecidableEq, Repr

/-- A stitch record (Table 4.5) with its plan cycle (R90). -/
structure StitchRec where
  kind : Nat
  spliceOut : Bool
  spliceIn : Bool
  outputDone : Bool
  slotMask : Nat
  taskMask : Nat
  threadMask : Nat
  cycle : Nat
deriving DecidableEq, Repr

/-- An IO entry (Table 16.4) with its output template (R452). -/
structure IoEntry where
  dir : Nat
  type : Nat
  scheme : Nat
  log2n : Nat
  chain : Nat
  level : Nat
  layout : Nat
  hashed : Bool
  bolts : Nat
  template : List Byte
deriving DecidableEq, Repr

/-- A segment descriptor (R91). -/
structure Segment where
  target : Nat
  vswatch : Nat
  cell : Nat
  loadAddr : Nat
  bundles : Nat
  offset : Nat
deriving DecidableEq, Repr

/-- A record of the ENGINE section (Table 7.7). -/
inductive EngineRec where
  | gather (table : Nat) (rows : List (List Nat))
  | twiddle (ids : List Nat)
  | seed (slot keyId : Nat) (seed : BitVec 256)
  | yoke (first : Nat) (entries : List (List YokeLane))
deriving DecidableEq, Repr

/-- An installed plan: the image's parts as validated, and its binding (R92 to R104). `lining` holds for each swatch the first
line of local cell 0 and the lines per cell of each task slot; `moduliDue` says that its MODULI section is still to be written to the
shadow table (R52); `signers` are the slots that accepted it (R525). -/
structure Plan where
  hash : BitVec 384 := 0
  signer : Nat := 0
  exact : Bool := false
  fray : Bool := false
  configId : Nat := 0
  totalCycles : Nat := 1
  vswatches : List Nat := []
  swatches : List Nat := []
  plateMap : List Nat := []
  tasks : List TaskRes := []
  regions : SMap (List TaskSlot) := []
  ganged : Nat := 0
  looseUse : Nat := 0
  keys : List KeyEntry := []
  moduli : SMap (BitVec 256) := []
  chains : SMap Chain := []
  engine : List EngineRec := []
  threads : List ThreadDesc := []
  weave : List WeaveEntry := []
  seam : List VLink := []
  resvs : List Resv := []
  stitches : List StitchRec := []
  io : List IoEntry := []
  segments : List Segment := []
  binding : SMap (List Nat) := []
  rebind : SMap (List Nat) := []
  bundles : Nat := 0
  imageHandle : Nat := 0
  lining : SMap (List (Nat × Nat)) := []
  moduliDue : Bool := false
  signers : List Nat := []
  removing : Bool := false
  lastStatus : Status := .ok
deriving DecidableEq, Repr

/-- A flit of a Weave transfer over the Seam: its entry, the issue of its transfer and its word, its rows and their poison, its virtual link,
the plan cycle of its departure once it has departed, and once delivered the plan cycle at whose end it lands (R101, R303). -/
structure WeaveFlit where
  entry : Nat
  issued : Nat
  word : Nat
  rows : List Row
  poison : List Bool
  vlink : Nat
  departed : Option Nat
  due : Option Nat
deriving DecidableEq, Repr

/-- A Weave transfer started by a Sync WEAVE: its rows as physical rows of the source and of the destination cell with the rows from there to
the bounds of the tasks (none for a row that is no multiple of 4, R137), words read from the source, words that left it, words landed or dropped. -/
structure WeaveMove where
  entry : Nat
  bundle : Nat
  issued : Nat
  src : Nat := 0
  srcRoom : Nat := 0
  dst : Nat := 0
  dstRoom : Nat := 0
  read : Nat := 0
  sent : Nat := 0
  landed : Nat := 0
deriving DecidableEq, Repr

/-- A unit of the plan that holds more items than its bound (R115): a cell's outstanding rows, a partition's share of a stack's queue (stack,
class code, operation code), the flits at a gateway on a virtual link. -/
inductive Watch where
  | rows (cell : Nat)
  | queue (stack cls op : Nat)
  | credits (vlink : Nat)
deriving DecidableEq, Repr

/-- A key window on one plate, [base, bound) in lines (R227). -/
structure KeyWin where
  base : Nat := 0
  bound : Nat := 0
deriving DecidableEq, Repr

/-- The shadow copies of a partition and of a plan's swatches as they stood before the first write that was accepted in the plan cycle of a
stitch point that has not committed: that commit takes these, and the write waits for the next one (R118). -/
structure Snapshot where
  table : ModTable := {}
  twiddle : SMap TwSet := []
  keyWin : SMap KeyWin := []
  stores : SMap PanelStore := []
deriving DecidableEq, Repr

/-- A running plan is issuing, or draining its write threads after FINAL (R256). -/
inductive RunPhase where
  | issuing | draining
deriving DecidableEq, Repr

/-- A running instance of an installed plan. `cycle` counts the plan cycles of its swatches, `base` is the count at which its own plan cycle 0
fell: two spliced plans share the count, so that what one leaves under way keeps its moments for the other (R100, R108). `overs` holds for
each cycle the F-cycles already held for items beyond a bound (R115), `walled` that the endless hold of `wall` has been counted, `evs` the
EVENTs under way with the cycle they land in (R144), `traps` the ECC pairs with an error that a window trap under way will read, with their
cycle and cell (R136, R151), `snap` the shadow copies that the stitch point it stands at takes (R118), `keyUse` the
buffer each of its KEYS entries was loaded from, or will be (R80), `unitEnds` the cycles in which Spool units will have moved, with cell and thread
(R249), `checks` the write units whose address is checked when they are presented: cycle, cell, thread, unit (R264), `watch` the units beyond a
bound that are counted in every plan cycle (R115). `phase` counts time units into the current F-cycle, `hold` F-cycles still
held under R100; `frozen` holds the plan without limit (R115), `broken` at a stitch break, `breakDone` when the break at FINAL has held it (R126), `waits` lists the
Seam ports (and 1 000 + a Selvage link) whose repair, training or egress it waits for since
time `waitFrom` (R305, R306, R340, R397);
`wall` is a plan cycle from which a full bound holds it without limit. `paceAt` counts F-cycles
since its pacing windows began (R372). `stop` is the status of a stop due at the next stitch point (R117). `slots` holds the last slot
taken of each class, its plan cycle and the slots used in it (R271, R300). `slvTo` holds the Selvage link chosen for each destination, `slvWrote` the links and fabric handles
it wrote, `slvFault` its first NACK (R330, R333, R335); `pages` and `blocks` count the
entries of each stack's and Lining's retired list that hold for the plan since its last stitch point (R233, R284). -/
structure Run where
  id : Nat
  part : Nat
  slot : Nat
  plan : Plan
  request : Option Nat := none
  handles : List Nat := []
  cycle : Nat := 0
  base : Nat := 0
  phase : Nat := 0
  hold : Nat := 0
  overs : SMap Nat := []
  walled : Bool := false
  evs : List (Nat × Nat) := []
  traps : List (Nat × Nat × Nat) := []
  snap : Option Snapshot := none
  keyUse : List Nat := []
  unitEnds : List (Nat × Nat × Nat) := []
  checks : List (Nat × Nat × Nat × Nat) := []
  watch : List Watch := []
  frozen : Bool := false
  broken : Bool := false
  breakDone : Bool := false
  waits : List Nat := []
  waitFrom : Nat := 0
  wall : Option Nat := none
  pace : Nat := 64
  paceAt : Nat := 0
  nextStitch : Nat := 1
  marks : List Nat := []
  state : RunPhase := .issuing
  stop : Option Status := none
  spliced : Option Nat := none
  streams : SMap Stream := []
  armed : SMap Nat := []
  loose : List Nat := []
  weaves : List WeaveMove := []
  flits : List WeaveFlit := []
  slvTo : SMap Nat := []
  slvWrote : List (Nat × Nat) := []
  slvFault : Option Status := none
  eccAt : Option Nat := none
  slots : SMap (Nat × Nat) := []
  pages : SMap Nat := []
  blocks : SMap Nat := []
deriving DecidableEq, Repr

/-- A swatch: its owner and state (R356, Table 13.12), bundle buffer, Yoke table in use and active Yoke moves, the active
replica of its partition's Modulus Table and of the twiddle sets in its cells (R48, R202). `wakeAt` is the A-tick at which its wake began. `count` is its count of plan cycles when its last
plan ended, at time `countAt` (R100). -/
structure Swatch where
  owner : Option Nat := none
  former : Option Nat := none
  inService : Bool := false
  power : Nat := 4
  waking : Bool := false
  wakeAt : Nat := 0
  forced : Nat := 0
  idleSince : Nat := 0
  leaving : Bool := false
  lost : Bool := false
  resetting : Bool := false
  stops : W32 := 0
  selfTest : Status := .resetInProgress
  failing : List Nat := []
  testing : Bool := false
  bundles : SMap (BitVec 256) := []
  yoke : SMap (List YokeLane) := []
  moves : List YokeMove := []
  table : ModTable := {}
  twiddle : SMap TwSet := []
  twShadow : SMap TwSet := []
  pinTables : List Nat := []
  pinSeeds : List Nat := []
  count : Nat := 0
  countAt : Nat := 0
deriving DecidableEq, Repr

end Sys2Proof.Machine
end

