-- ==== Sys2Proof/Machine/Data/Partition.lean ====
section
/-! DEFINITION. The state of one partition (the PTN block) and of the service plane: buffers, services, requests. -/

namespace Sys2Proof.Machine

/-- One grant of a partition: units and the STRICT flag (R362). -/
structure Grant where
  units : Nat := 0
  strict : Bool := false
deriving DecidableEq, Repr

/-- The event counters of one function: COUNT, ACK, routes (vector, enable) and the vectors that are not ARMED
(R384 to R388). An absent key reads zero. -/
structure Events where
  count : SMap W32 := []
  ack : SMap W32 := []
  route : SMap (Nat × Bool) := []
  disarmed : List Nat := []
deriving DecidableEq, Repr

/-- The MSI-X state of one function: enable, function mask, masked vectors (all at reset, as PCI has it), pending-bit array, messages
sent per vector. -/
structure Msix where
  enabled : Bool := false
  fnMask : Bool := false
  masked : List Nat := List.range 64
  pba : List Nat := []
  sent : SMap Nat := []
deriving DecidableEq, Repr

/-- The crossing status of PTN_XING and TLR_XING (Table 14.9). -/
structure Xing where
  status : Nat := 0
  count : Nat := 0
  valid : Bool := false
deriving DecidableEq, Repr

/-- A mailbox of one function (R443, R444). -/
structure Mailbox where
  base : Nat := 0
  tail : Nat := 0
  head : Nat := 0
  overrun : Bool := false
  pending : Nat := 0
  responses : List Response := []
deriving DecidableEq, Repr

/-- Plan, fault and hazard registers of a partition (Table 4.14, Table 5.10). -/
structure PtnPlan where
  stalls : W32 := 0
  stitchMiss : W32 := 0
  fault : Latch := {}
  faultCell : Nat := 0
  faultCycle : Nat := 0
  faultBundle : Nat := 0
  hazard : Latch := {}
  hazardCell : Nat := 0
  hazardCycle : Nat := 0
  hazardBundle : Nat := 0
  hazardCount : W32 := 0
  weaveDrop : W32 := 0
  scrTraps : W32 := 0
  doubleTrap : Latch := {}
deriving DecidableEq, Repr

/-- Engine and memory counters of a partition (Tables 6.9, 7.13, 8.10, 9.10, 3.12). -/
structure PtnCounters where
  pressSteps : W64 := 0
  pressDrains : W32 := 0
  stpGroups : W64 := 0
  stpSuppressed : W32 := 0
  burinBfly : W64 := 0
  hatchRows : W64 := 0
  yokeWords : W64 := 0
  yokeDrop : W32 := 0
  weftRows : W64 := 0
  padCe : BitVec 16 := 0
  padUe : BitVec 16 := 0
  lngCe : BitVec 16 := 0
  lngUe : BitVec 16 := 0
  spoolUnits : W64 := 0
  spoolDone : W32 := 0
  spoolClamp : W32 := 0
  kctChecks : W32 := 0
  kctFails : W32 := 0
  kctLastStatus : Nat := 0
  kctLastStep : Nat := 0
  kctLastByte : Nat := 0
  hbmCe : BitVec 16 := 0
  hbmUe : BitVec 16 := 0
  bufStale : W32 := 0
  reqAdmit : W64 := 0
  reqRefused : W64 := 0
  splices : W32 := 0
  slvFault : Latch := {}
  krpRetx : W64 := 0
  handoffDone : Nat := 0
  handoffOut : Nat := 0
deriving DecidableEq, Repr

/-- The quotas of a partition (R450), stacks and plates 0 to 7. -/
structure Quotas where
  hbm : SMap Nat := []
  keyLines : SMap Nat := []
  lining : SMap Nat := []
  control : Nat := 0
  handles : Nat := 4096
  maxOpen : Nat := 16384
deriving DecidableEq, Repr

/-- One stage of a Handoff service (R489): its install slot and the IO entries of the envelope output, mask store, envelope input. -/
structure Stage where
  slot : Nat
  envOut : Nat
  mask : Nat
  envIn : Nat
deriving DecidableEq, Repr

/-- The Handoff policy of a service (R489). TIMEOUT is in A-ticks. -/
structure HandoffPolicy where
  allowed : Bool := false
  rounds : Nat := 0
  stages : List Stage := []
  timeout : Nat := 1250000
  dest : Nat := 0
deriving DecidableEq, Repr

/-- A service (R454). -/
structure Service where
  slots : List Nat
  maxOpen : Nat
  receiptKind : Nat
  handoff : HandoffPolicy := {}
deriving DecidableEq, Repr

/-- A key-window range: the key loaded there from a buffer, or being loaded (R461). A finished load waits in `staged` until the key window
commits (R228, R238). -/
structure KeyRange where
  keyId : Nat
  plate : Nat
  offset : Nat
  lines : Nat
  handle : Nat
  loaded : Bool
  staged : Option (List Byte) := none
deriving DecidableEq, Repr

/-- A key registration: its buffer, and buffers it replaced that running plans still use (R80, R459). -/
structure KeyReg where
  handle : Nat
  old : List Nat := []
  copies : SMap Nat := []
deriving DecidableEq, Repr

/-- A receipt kept in a CONTROL buffer until its expiry (R464), under the device's own number of its request. `request` is its
request id or sequence number. A KRP request is held the same way whatever its receipt kind, with its session, its status and its outputs
(handle and bytes), whose buffers stay for RESULT chunks sent again (R485). -/
structure Receipt where
  request : Nat
  body : List Byte := []
  sigKind : Nat
  signatures : List Byte := []
  ready : Bool := false
  doneAt : Nat
  handle : Nat := 0
  session : Option Nat := none
  status : Status := .ok
  outs : List (Nat × Nat) := []
  own : List Nat := []
deriving DecidableEq, Repr

/-- A token gate (R334): the token and the value it waits for, the least table version, the status of a TOKEN with ERR. -/
structure Gate where
  slot : Nat
  token : Nat
  value : Nat
  timeout : Nat
  armedAt : Nat
  version : Nat := 0
  err : Option Status := none
  expired : Bool := false
deriving DecidableEq, Repr

/-- One reset of a partition in progress or last done (PTN_RESET), with the call that waits for it. -/
structure ResetState where
  step : Nat := 0
  cause : Nat := 0
  status : Nat := 0
  done : Bool := false
  lost : Nat := 0
  startedAt : Nat := 0
  fn : Option Fn := none
  tag : Nat := 0
deriving DecidableEq, Repr

/-- A completion entry (Table 20.5). -/
structure Completion where
  status : Status
  kind : Nat
  receipt : Bool := false
  tag : Nat
  requestId : Nat := 0
  value : Nat := 0
  detail : Nat := 0
  sqHead : Nat := 0
  phase : Bool := true
deriving DecidableEq, Repr

/-- A ring pair (R557 to R562). `taken` counts entries whose completions are not yet written, `written` holds the completion entries
the host has not released, oldest first, `marks` the tail indices that were written, each with the C-cycle in which it reached the Collar (R558),
`waiting` those that wait for Bus Master Enable, `rx` the posted receive buffers and
`rxHeld` frames that wait for one. -/
structure Ring where
  enabled : Bool := false
  krp : Bool := false
  ownerPf0 : Bool := false
  sqBase : Nat := 0
  cqBase : Nat := 0
  sqSize : Nat := 0
  cqSize : Nat := 0
  sqHead : Nat := 0
  sqTail : Nat := 0
  cqHead : Nat := 0
  cqTail : Nat := 0
  seq : Nat := 0
  phase : Bool := true
  taken : Nat := 0
  flr : Bool := false
  err : Bool := false
  errIndex : Nat := 0
  overrun : Bool := false
  wrongFunc : Nat := 0
  marks : List (Nat × Nat) := []
  written : List Completion := []
  waiting : List Completion := []
  rx : List Nat := []
  rxHeld : List (List Byte) := []
deriving DecidableEq, Repr

/-- PCI_WIN_ERR of one function (Table 20.16). -/
structure WinErr where
  count : W32 := 0
  aperture : Nat := 0
  status : Nat := 0
  valid : Bool := false
deriving DecidableEq, Repr

/-- The arrival slots of a partition on a stack (R364): the grant G and the use D they follow from, the moment from which their frame is counted,
the last slot taken and how many in its F-cycle. -/
structure ArrFrame where
  grant : Nat := 0
  use : Nat := 0
  since : Nat := 0
  last : Nat := 0
  used : Nat := 0
deriving DecidableEq, Repr

/-- One partition. `ownerRows` holds the shadow copy of owner-table entries, the 32 bytes of each under its device physical address (R342).
`master` is the master active copy of its Modulus Table and `shadow` the shadow table (R48); `twDrop` lists twiddle
sets whose last entry was cleared in the shadow table only. -/
structure Partition where
  present : Bool := false
  growOnInstall : Bool := false
  suspended : Bool := false
  heatBy : List Nat := []
  floor : Nat := 2
  napDelay : Nat := 250
  restDelay : Nat := 1048576
  resetting : Bool := false
  resetSt : ResetState := {}
  debug : Bool := false
  pace : Nat := 64
  paceLimit : Nat := 0
  paceHeld : W64 := 0
  qosRes : Nat := 0
  qosShorts : Nat := 0
  qosValid : Bool := false
  grants : SMap Grant := []
  eff : SMap Nat := []
  plans : SMap Plan := []
  master : ModTable := {}
  shadow : ModTable := {}
  commits : W32 := 0
  twsets : SMap TwSet := []
  twDrop : List Nat := []
  keyWin : SMap KeyWin := []
  keyWinShadow : SMap KeyWin := []
  keyRanges : List KeyRange := []
  keys : SMap KeyReg := []
  regs : PtnPlan := {}
  cnt : PtnCounters := {}
  events : Events := {}
  msix : Msix := {}
  xing : Xing := {}
  mbx : Mailbox := {}
  lockedWrites : W32 := 0
  quotas : Quotas := {}
  services : SMap Service := []
  receipts : SMap Receipt := []
  schedHold : Bool := false
  gates : List Gate := []
  tokens : SMap Nat := []
  ownerRows : SMap (List Nat) := []
  tableVersion : Nat := 0
  arrivals : SMap ArrFrame := []
  vfEnabled : Bool := false
  busMaster : Bool := false
  rings : SMap Ring := []
  winErr : WinErr := {}
deriving DecidableEq, Repr

/-! ### Service plane -/

/-- A local grant (to a partition) or a fabric grant (to a package and partition) on a buffer (R451). -/
structure BufGrant where
  fabric : Bool
  package : Nat
  part : Nat
  first : Nat
  bolts : Nat
  read : Bool
  add : Bool
  write : Bool
  token : Option Nat
  handle : Nat
  revoked : Bool := false
deriving DecidableEq, Repr

/-- A buffer, or a grantee's view of one (R447, R451). `view` names the buffer a local grant reaches. -/
structure Buf where
  gen : Nat
  live : Bool
  part : Nat
  kind : Nat
  place : Nat
  addr : Nat
  bolts : Nat
  priv : Bool := false
  grants : List BufGrant := []
  view : Option Nat := none
  canRead : Bool := true
  canAdd : Bool := true
  canWrite : Bool := true
  incomplete : Bool := false
deriving DecidableEq, Repr

/-- Where a request came from (R454). A silent one answers nobody: PF0 was reset while it waited (R551). -/
inductive Source where
  | call (fn : Fn) (tag : Nat)
  | ring (ring : Nat) (tag : Nat) (seq : Nat)
  | krp (session : Nat) (requestId : Nat)
  | silent
deriving DecidableEq, Repr

/-- Where an admitted request stands. -/
inductive ReqPhase where
  | queued | running | signing | handoff
deriving DecidableEq, Repr

/-- An admitted, open request (R456). `came` is the C-cycle in which its submission reached the Collar (R31). `own` lists the buffers that firmware allocated for it, `first` the handles of the
request's own inputs, `hashes` the plan hashes of the stages run, `env` and `mask` the envelope and the mask store of a round, `timer` the A-tick at
which the round ends, `dest` the session the round goes to (R489, R490),
`inHashes` the hashes of its inputs as bound at its start, `late` the inputs that a plan had still to complete at admission (R79). -/
structure Request where
  id : Nat
  part : Nat
  service : Option Nat
  slot : Nat
  handles : List Nat
  source : Source
  owner : Nat
  receiptKind : Nat
  phase : ReqPhase := .queued
  status : Status := .ok
  round : Nat := 0
  admittedAt : Nat
  came : Nat := 0
  inputsReady : Bool := true
  own : List Nat := []
  receiptBuf : Nat := 0
  retain : Bool := false
  first : List Nat := []
  hashes : List (BitVec 384) := []
  env : Option Nat := none
  mask : Option Nat := none
  timer : Option Nat := none
  dest : Option Nat := none
  inHashes : Option (List Byte) := none
  late : List Nat := []
  outcome : Option Status := none
  finalAt : Nat := 0
deriving DecidableEq, Repr

end Sys2Proof.Machine
end

