-- ==== Sys2Proof/Machine/Data/Control.lean ====
section
/-! DEFINITION. The state of the debug block, the Tailor staging registers, the error log and one plate's Lining. -/

namespace Sys2Proof.Machine

/-- A command result register: STATUS and DONE. -/
structure CmdResult where
  status : Status := .ok
  done : Bool := true
deriving DecidableEq, Repr

/-- The DBG block (PF0 only). -/
structure Dbg where
  breakPart : Nat := 0
  breakIndex : Nat := 0
  breakEnable : Bool := false
  scrCell : Nat := 0
  scrSpace : Nat := 0
  scrWin : Nat := 0
  scrIndex : Nat := 0
  psSwatch : Nat := 0
  psEngine : Nat := 0
  psResult : CmdResult := {}
  engSwatch : Nat := 0
  engEngine : Nat := 0
  engOp : Nat := 0
  engResult : CmdResult := {}
  padCell : Nat := 0
  padRow : Nat := 0
  padOp : Nat := 0
  padData : Row := 0
  padPoison : Bool := false
  padValid : Bool := false
  padSettled : Bool := false
  spoolCell : Nat := 0
  spoolThread : Nat := 0
  capRes : Nat := 0
  capCap : Nat := 62
  capEnable : Bool := false
  evIndex : Nat := 0
  evFunction : Nat := 0
deriving DecidableEq, Repr

/-- The Modulus Table staging registers of the TLR block (R61). `applied` is the status of the command in progress once its write has been
accepted or lost (R50, R54). -/
structure MtStage where
  stage : BitVec 256 := 0
  index : Nat := 0
  part : Nat := 0
  chain : Nat := 0
  chainStage : Chain := {}
  status : Status := .ok
  done : Bool := true
  busySeen : Bool := false
  running : Option Nat := none
  applied : Option Status := none
  runIndex : Nat := 0
  runPart : Nat := 0
  runChain : Nat := 0
  runEntry : BitVec 256 := 0
  runDesc : Chain := {}
deriving DecidableEq, Repr

/-- One error log record (Table 21.6). -/
structure LogRec where
  time : Nat
  code : Nat
  kind : Nat
  part : Option Nat
  unit : Option Nat
  persisted : Bool
  cell : Option Nat
  addr : Nat
  seq : Nat
deriving DecidableEq, Repr

/-- A Lining write in flight: its run and the plan cycle from which read beats see it, the cell and thread that wrote it, the line, its
rows and poison, and once the line is visible the moment it became so (R229, R237). -/
structure LngLand where
  run : Nat
  due : Nat
  cell : Nat
  thread : Nat
  line : Nat
  rows : List Row
  poison : Bool
  at_ : Option Nat := none
  origin : Option AutoTag := none
deriving DecidableEq, Repr

/-- The Lining of one plate (R225 to R234). Line contents are bytes of the device memory. `ce` and `ue` are the 72-bit pairs (16 × line + pair) whose
next read meets an error, `origin` the lines that belong to an automorphism route (R192). -/
structure Lining where
  ready : Bool := false
  zeroing : Bool := false
  poison : List Nat := []
  ce : List Nat := []
  ue : List Nat := []
  retired : List Nat := []
  ceCount : BitVec 16 := 0
  ueCount : BitVec 16 := 0
  ueAddr : Latch := {}
  lands : List LngLand := []
  origin : SMap AutoTag := []
  scrubbedAt : Nat := 0
deriving DecidableEq, Repr

/-- One record of TLR_BUF_LOG (R448). -/
structure BufLogRec where
  handle : Nat
  caller : Nat
  pf0 : Bool
  code : Nat
deriving DecidableEq, Repr

/-- A debug-mode install that waits for the debug PLLs of some plates, with the call to answer (R413). -/
structure DbgInstall where
  fn : Fn
  tag : Nat
  slot : Nat
  plates : List Nat
  quiet : Bool := false
deriving DecidableEq, Repr

/-- An access of a function to a swatch over a timeout channel that has no response yet: the A-tick it began, and whether it reads (R390, R392,
R405). -/
structure Access where
  fn : Fn
  swatch : Nat
  since : Nat
  read : Bool
deriving DecidableEq, Repr

/-- The TLR block of PF0: its mailbox, events, crossing status, the accesses in flight, clock of the day, cores, locked writes. -/
structure Tlr where
  mbx : Mailbox := {}
  events : Events := {}
  msix : Msix := {}
  xing : Xing := {}
  accesses : List Access := []
  mt : MtStage := {}
  cores : BitVec 8 := 0
  timeBase : Nat := 0
  timeSetAt : Nat := 0
  timeSet : Bool := false
  bufLog : List BufLogRec := []
  bufLogHead : W32 := 0
  errLog : List LogRec := []
  errSeq : Nat := 0
  flash : List LogRec := []
  dbgInstalls : List DbgInstall := []
  lockedWrites : W32 := 0
deriving DecidableEq, Repr

end Sys2Proof.Machine
end

