-- ==== Sys2Proof/Machine/Data/Memory.lean ====
section
/-! DEFINITION. The state of the HBM stacks and of the Seam ports (chapters 10 and 11). -/

namespace Sys2Proof.Machine

/-- What a request asks of a stack (Table 9.2): a bolt read, a bolt write, an add, a tack record. -/
inductive HbmOp where
  | read | write | add | tack
deriving DecidableEq, Repr

/-- What a Selvage packet is known by at its target, wherever it is sent again: source package and partition, and the link, the key epoch and the
SEQ under which it was first sent (R339). -/
structure SlvId where
  srcPkg : Nat
  srcPart : Nat
  link : Nat
  epoch : Nat
  seq : Nat
deriving DecidableEq, Repr

/-- A request in a stack's queue (R272). `run` is none for a request that a stopped plan left or that came from another package;
`first` is the plan cycle of the first of the two slots of an add. `origin` is the Selvage packet it came in (R332). -/
structure HbmReq where
  part : Nat
  run : Option Nat
  cell : Nat := 0
  thread : Nat := 0
  k : Nat := 0
  op : HbmOp
  cls : SlotClass
  addr : Nat
  arrived : Nat := 0
  hop : Nat := 0
  data : List Row := []
  poison : List Bool := []
  modulus : Modulus := {}
  integer : Bool := false
  first : Option Nat := none
  origin : Option SlvId := none
deriving DecidableEq, Repr

/-- One HBM stack (R269 to R296). `retired` holds runs of pages in the order they were added; `ceAtoms` and `ueAtoms` are atoms
whose next controller read meets an error. `cePages` holds the most recently erring pages with their counts and the A-tick of
the first count. `thermCap` is the capacity that a thermal throttle leaves (R425).
`redirect` maps granules of the control-memory backing to spare granules, `stuck` lists affected granules that found none (R564). -/
structure Stack where
  ready : Bool := false
  zeroing : Bool := false
  degraded : Bool := false
  ce : BitVec 16 := 0
  ue : BitVec 16 := 0
  ueAddr : Latch := {}
  threshCount : Nat := 8
  threshWindow : Nat := 24
  cePage : Latch := {}
  cePages : List (Nat × Nat × Nat) := []
  retired : List (Nat × Nat) := []
  poison : List Nat := []
  ceAtoms : List Nat := []
  ueAtoms : List Nat := []
  injAtom : Nat := 0
  injKind : Nat := 0
  injArmed : Bool := false
  queue : List HbmReq := []
  thermCap : Nat := 62
  redirect : SMap Nat := []
  stuck : List Nat := []
deriving DecidableEq, Repr

/-- One direction of a Seam port: the failed lanes (0 to 67 data, 68 and 69 the clock lanes K0 and K1) and the Fray half in use
(R297, R305, R306). -/
structure SeamDir where
  failed : List Nat := []
  halfB : Bool := false
deriving DecidableEq, Repr

/-- One Seam port (R297 to R324). `state` holds the codes of Table 11.3, `mode` those of SEAM_STATE. `retried` marks that the
present training state, entered at A-tick `stateAt`, has been tried again once, `mapAgain` that MAP has been re-entered once, `entering` that the
RETRAIN in progress is the one that enters Fray (R306). -/
structure SeamPort where
  state : Nat := 0
  stateAt : Nat := 0
  mode : Nat := 3
  tx : SeamDir := {}
  rx : SeamDir := {}
  retried : Bool := false
  mapAgain : Bool := false
  entering : Bool := false
  retiredTx : List Nat := []
  retiredRx : List Nat := []
  corr : Nat := 0
  uncorr : Nat := 0
  threshCount : Nat := 16
  threshWindow : Nat := 20
  laneCorr : List (Nat × Bool × Nat × Nat) := []
  drop : W32 := 0
  repairs : Nat := 0
  frays : Nat := 0
  downs : Nat := 0
  testPhases : Nat := 0
  testD : Nat := 0
  testStatus : Status := .ok
  testDone : Bool := true
  testFailed : Nat := 0
  testFirst : Nat := 0
  testFirstRx : Bool := false
  testPhase : Nat := 0
  testTx : List Nat := []
  testRx : List Nat := []
  testFn : Option Fn := none
  testTag : Nat := 0
deriving DecidableEq, Repr

end Sys2Proof.Machine
end

