-- ==== Sys2Proof/Machine/Data/Link.lean ====
section
/-! DEFINITION. The state of the Selvage links and of the fabric block (chapter 12). -/

namespace Sys2Proof.Machine

/-- The kinds of Table 12.2. -/
inductive PacketKind where
  | write | add | token | control
deriving DecidableEq, Repr

/-- A Selvage packet as its sender holds it: waiting at egress, or sent and not yet acknowledged (R326, R332). `numbered` packets have the SEQ of
their link; `first` is the link, epoch and SEQ under which the packet was first sent (R339). -/
structure SlvPacket where
  kind : PacketKind
  dest : Nat
  part : Nat
  run : Option Nat := none
  handle : Nat := 0
  bolt : Nat := 0
  q : Nat := 0
  m18 : Bool := false
  integer : Bool := false
  err : Bool := false
  status : Nat := 0
  data : List Row := []
  poison : List Bool := []
  acceptAt : Nat := 0
  seq : Nat := 0
  numbered : Bool := false
  first : Option (Nat × Nat × Nat) := none
  sent : Bool := false
deriving DecidableEq, Repr

/-- A posted packet at its target that is not yet accepted by its stack, or a TOKEN that waits behind one (R333). -/
structure SlvArrival where
  seq : Nat
  id : SlvId
  token : Option (Nat × Bool × Nat × Nat) := none
deriving DecidableEq, Repr

/-- One Selvage link (R325 to R340). `state` holds the codes of Table 12.4, `mode` those of SLV_STATE. `tx` and `rx` list failed
lanes. `accepted` remembers the packets taken before a resend (R339), `replies` the ACKs (none) and NACKs that this end has returned, the latest
first (R332). The link sends nothing before `readyAt`; `failSeq` is the packet whose replays `failsInRow` counts (R336). -/
structure SlvLink where
  state : Nat := 0
  stateAt : Nat := 0
  mode : Nat := 3
  tx : List Nat := []
  rx : List Nat := []
  retiredTx : List Nat := []
  retiredRx : List Nat := []
  retried : Bool := false
  mapAgain : Bool := false
  peerPkg : Nat := 0
  peerKey : Nat := 0
  auth : Bool := false
  lat : Nat := 0
  replay : Nat := 0
  nack : Nat := 0
  misroute : Nat := 0
  threshCount : Nat := 16
  threshWindow : Nat := 20
  laneCorr : List (Nat × Bool × Nat × Nat) := []
  epoch : Nat := 0
  seqTx : Nat := 0
  failsInRow : Nat := 0
  failSeq : Option Nat := none
  readyAt : Nat := 0
  tagFails : Bool := false
  frameAt : Nat := 0
  lastSlot : SMap Nat := []
  packets : List SlvPacket := []
  arrivals : List SlvArrival := []
  accepted : List SlvId := []
  replies : List (Nat × Option Status) := []
  acks : W64 := 0
  testPhases : Nat := 0
  testD : Nat := 0
  testStatus : Status := .ok
  testDone : Bool := true
  testFailed : Nat := 0
  testFirst : Nat := 0
  testFirstRx : Bool := false
  testPhase : Nat := 0
  testFn : Option Fn := none
  testTag : Nat := 0
deriving DecidableEq, Repr

/-- The fabric block (R327, R352, R355): SLV_PKG as written and as it holds since the last training, the package id in the board flash, the
route table, the fabric list of package ids and identities. -/
structure Fabric where
  id : Nat := 0
  active : Nat := 0
  flashId : Nat := 0
  lock : Bool := false
  routes : SMap Nat := []
  list : List (Nat × Nat) := []
deriving DecidableEq, Repr

end Sys2Proof.Machine
end

