-- ==== Sys2Proof/Machine/Data/Power.lean ====
section
/-! DEFINITION. Clocks, power, heat, Ledgers, boot, management and test access (chapters 11, 14, 15, 20, 21, 22). -/

namespace Sys2Proof.Machine

/-- One plate (R411 to R426): its PLLs, rail, thermal figure, trips, Plate Off, and the Plate reset in progress. `tempF` is the
temperature in quarter degrees. -/
structure Plate where
  online : Bool := false
  fLock : Bool := false
  dbgLock : Bool := false
  dbgWait : Bool := false
  off : Bool := true
  offAllowed : Bool := false
  offDelay : Nat := 0
  theta : Nat := 64
  temp : Int := 0
  tripped : Bool := false
  atLimit : Bool := false
  avsErrors : Nat := 0
  railMv : Nat := 0
  railLow : Bool := false
  reset : Bool := false
  resetAt : Nat := 0
  fn : Option Fn := none
  tag : Nat := 0
  recover : Bool := false
  hot : Bool := false
deriving DecidableEq, Repr

/-- The heat state of a stack (R425, R426). -/
structure StackHeat where
  temp : Int := 0
  level : Nat := 0
  tripped : Bool := false
deriving DecidableEq, Repr

/-- A withdrawal of units that waits for stitch points (R425). -/
structure Withdrawal where
  part : Nat
  since : Nat
deriving DecidableEq, Repr

/-- Package power and heat (R424, R426, R441, R616). -/
structure Power where
  limit : Nat := 1150
  avg : Nat := 0
  collarTemp : Int := 0
  thermtrip : Bool := false
  forceSwatch : Nat := 0
  forceMode : Nat := 0
  resetLevel : Nat := 0
  resetPlate : Nat := 0
  resetBusy : Bool := false
  withdrawals : List Withdrawal := []
  overLimit : Bool := false
deriving DecidableEq, Repr

/-- The Ledgers (R427 to R430). Items are keyed 65 536 × item + index; `factoryCells` and `userCells` list retired physical cells,
66 × panel + cell. `image` is the User Ledger image in the board flash. -/
structure Ledger where
  factoryOk : Bool := false
  userApplied : Bool := false
  userRejected : Bool := false
  version : Nat := 0
  factory : SMap Int := []
  user : SMap Int := []
  factoryCells : List Nat := []
  userCells : List Nat := []
  lanes : List Nat := []
  flash : Bool := true
  image : Option (SMap Int × List Nat × List Nat × Nat) := none
  imageValid : Bool := true
deriving DecidableEq, Repr

/-- Cold start-up and reset causes (Tables 20.14 and 21.12). `cold` holds the package in Cold reset, with the causes that hold it:
1 REFA, 2 a phase that ended in it (Table 21.1), 8 and above a rail by its PWR_RAIL bit. `phaseAt` is the A-tick at which the phase began;
`mute` marks a package that could not make the Management-only set (R584). `trustDone`, `stacksDone` and `coldDone` say which work of
this Cold start-up is done and stays as it is through a Collar warm reset: policy and TRNG start-up, the stacks, all of it (R536, R596).
`took` lists the partitions whose reset a Collar warm reset has taken over (R402). `testMask` lists the swatches that a
TC_SELFTEST in progress still tests, with the call that waits (R581). -/
structure Boot where
  phase : Nat := 1
  phaseAt : Nat := 0
  cold : List Nat := []
  plateDone : Nat := 0
  step : Nat := 0
  recovery : Bool := false
  failedStep : Nat := 0
  copyB : Nat := 0
  cause : Nat := 0
  warms : Nat := 0
  refLost : Bool := false
  cLock : Bool := false
  collarReset : Bool := false
  gradeReported : Bool := false
  fwBaseline : Nat := 0
  dead : Bool := false
  mute : Bool := false
  trustDone : Bool := false
  stacksDone : Bool := false
  coldDone : Bool := false
  took : List Nat := []
  testFn : Option Fn := none
  testTag : Nat := 0
  testMask : Nat := 0
deriving DecidableEq, Repr

/-- The management endpoint (R565) with its sampled straps, the last sensor reading and the images in the inactive flash copies with
their security versions, and the Test Access Port with the value it shifts out (R313). -/
structure Mgmt where
  eid : Nat := 0
  sel : Bool := false
  addr : Nat := 0
  tapInstr : Nat := 0
  tapOut : Nat := 0
  reading : Option Int := none
  update : SMap Nat := []
deriving DecidableEq, Repr

end Sys2Proof.Machine
end

