-- ==== Sys2Proof/Machine/Data/Trust.lean ====
section
/-! DEFINITION. The Seal, measurements, policy, lifecycle, SPDM (chapter 18). -/

namespace Sys2Proof.Machine

/-- A token of R523: the public keys it is made with, by policy key slot, and its signature block. -/
structure Token where
  keys : SMap (List Byte) := []
  block : List Byte := []
deriving DecidableEq, Repr

/-- A change that a token authorises (R523): LDG_POLICY with LOCK, a policy key slot (no key revokes it), a signer slot, entry into
Returned. -/
inductive PolicyOp where
  | policy (value : Nat) (lock : Bool)
  | key (slot : Nat) (key : Option (List Byte))
  | signer (keyKind : Bool) (slot alg : Nat) (key : List Byte) (mask : Nat) (enable : Bool)
  | returned
deriving DecidableEq, Repr

/-- The SPDM responses (R520). -/
inductive SpdmKind where
  | version | capabilities | algorithms | digests | certificate | challengeAuth | measurements | keyExchange | finish
  | heartbeatAck | keyUpdateAck | endSessionAck | setCertificate | unsupportedRequest | unexpectedRequest
deriving DecidableEq, Repr

/-- An SPDM response with its fields. -/
structure SpdmReply where
  kind : SpdmKind
  data : List Nat := []
deriving DecidableEq, Repr

/-- One raw-mode operation (R507): A × B is added into the accumulator, which `clear` first clears. -/
structure RawOp where
  clear : Bool := false
  a : BitVec 512
  b : BitVec 512
deriving DecidableEq, Repr

/-- What a Seal job is for (R504): the signatures of a held receipt, an OPEN stage of a session, a Selvage PEER exchange, an SPDM response,
a token with its call, known-answer tests with the algorithms that will fail, the signature checks of an install (with the hash they are of
and the slots that accept it under the policy it was served under, R530) and of a key bundle, an attestation report, the identity key
generation, and a raw-mode sequence. -/
inductive SealUse where
  | receipt (part request : Nat)
  | openStage2 (session : Nat)
  | openStage3 (session : Nat)
  | peer (link : Nat)
  | spdm (reply : SpdmReply)
  | token (c : Call) (code : Nat) (op : PolicyOp) (token : Token)
  | kat (c : Call) (failed : List Nat)
  | install (c : Call) (part image : Nat) (plateMap : List Nat) (table : Nat) (debug : Bool) (hash : BitVec 384) (accepted : Option (List Nat))
  | keyBundle (c : Call) (part handle : Nat) (digest : BitVec 384) (authorised : Bool)
  | attest (c : Call) (body : List Byte)
  | identity (c : Call)
  | raw (ops : List RawOp)
deriving DecidableEq, Repr

/-- A Seal job: its priority, its length and the C-cycles done, the time it was last started, and whether it has yielded (R504, R505). -/
structure SealJob where
  id : Nat
  use : SealUse
  high : Bool
  length : Nat
  done : Nat := 0
  since : Nat := 0
  yielded : Bool := false
deriving DecidableEq, Repr

/-- A signer slot of plans or of keys (R525, R526). -/
structure Signer where
  alg : Nat
  key : List Byte
  mask : Nat
  enabled : Bool
deriving DecidableEq, Repr

/-- A policy key slot (R523). -/
structure PolicyKey where
  hash : BitVec 384
  revoked : Bool := false
deriving DecidableEq, Repr

/-- A plan log record (R518). -/
structure PlanLogRec where
  kind : Nat
  part : Nat
  slot : Nat
  seq : Nat
  digest : BitVec 384
  after : BitVec 384
deriving DecidableEq, Repr

/-- An SPDM session's state (R520). -/
structure Spdm where
  version : Nat := 0
  capable : Bool := false
  algorithms : Bool := false
  session : Option Nat := none
  finished : Bool := false
  phase : Nat := 0
  certs : SMap (List Byte) := []
  response : Option SpdmReply := none
deriving DecidableEq, Repr

/-- The Seal and the trust state of the device (R503 to R538). `trng` has bit k set while noise source k is healthy; `rawAcc` is the
accumulator of raw mode (R507). -/
structure Seal where
  running : Option SealJob := none
  high : List SealJob := []
  low : List SealJob := []
  nextJob : Nat := 0
  rawAcc : BitVec 1040 := 0
  trng : BitVec 4 := 0
  katOk : Bool := false
  katFailed : List Nat := []
  identity : Bool := false
  identityNo : Nat := 0
  hukKilled : Bool := false
  pending : Bool := false
  drbg : Drbg := {}
  svn : SMap Nat := []
  imageSvn : SMap Nat := []
  meas : SMap (BitVec 384) := []
  planLog : List PlanLogRec := []
  planDigest : BitVec 384 := 0
  planSeq : Nat := 0
  policySeq : Nat := 0
  policyKeys : SMap PolicyKey := []
  signers : SMap Signer := []
  keySigners : SMap Signer := []
  dualSig : Bool := false
  keySigning : Bool := false
  restricted : Bool := false
  locked : Bool := false
  policyImage : Bool := true
  spdm : Spdm := {}
deriving DecidableEq, Repr

end Sys2Proof.Machine
end

