-- ==== Sys2Proof/Machine/Data/Krp.lean ====
section
/-! DEFINITION. The Kremal Request Protocol's state (chapter 17) and the host windows (chapter 20). -/

namespace Sys2Proof.Machine

/-- The binding of a session (R476): an Ethernet port with a source address and UDP port, or the host queue of a function. -/
inductive Carrier where
  | net (port : Nat) (addr : Nat) (udp : Nat)
  | host (part : Nat) (pf0 : Bool) (ring : Nat)
deriving DecidableEq, Repr

/-- One Ethernet port (R475, Table 17.12). `answers` counts housekeeping frames answered. -/
structure KrpPort where
  link : Bool := false
  configured : Bool := false
  addr4 : Nat := 0
  addr6 : Nat := 0
  udp : Nat := 19282
  vlan : Nat := 0
  gap : Nat := 2500
  rx : W64 := 0
  tx : W64 := 0
  auth : Nat := 0
  session : Nat := 0
  replay : Nat := 0
  window : Nat := 0
  frag : Nat := 0
  test : Nat := 0
  answers : Nat := 0
deriving DecidableEq, Repr

/-- A client entry (R480). -/
structure KrpClient where
  keyId : Nat
  alg : Nat
  part : Nat
  owner : Nat
  maxOpen : Nat := 256
  window : Nat := 256
  sessions : Nat := 1
  idle : Nat := 16384
  persist : Bool := false
deriving DecidableEq, Repr

/-- What an upload carries (R482). -/
inductive TransferKind where
  | input (index : Nat)
  | key
  | handoff
deriving DecidableEq, Repr

/-- An upload in progress (R482, R484): its id as announced, size, announced header, buffer, chunks landed, the gap
reports since the last chunk, the A-ticks of the last chunk, of the start of the present gap and of the last report, the lowest
missing SEQ and the ranges reported last. -/
structure Transfer where
  id : Nat
  kind : TransferKind
  bytes : Nat
  header : List Byte
  handle : Nat
  got : List Nat := []
  nacks : Nat := 0
  since : Nat := 0
  gapSince : Option Nat := none
  nackAt : Option Nat := none
  reported : Nat := 0
  asked : List (Nat × Nat) := []
  complete : Bool := false
deriving DecidableEq, Repr

/-- A download in progress (R485): RESULT or HANDOFF-OUT chunks still to send, of one output. -/
structure Download where
  requestId : Nat
  request : Nat
  handoff : Bool
  index : Nat
  handle : Nat
  bytes : Nat
  next : Nat := 0
  again : List Nat := []
deriving DecidableEq, Repr

/-- A message the device has sent: type, then its fields. -/
structure KrpSent where
  type : Nat
  id : Nat
  status : Status
  reason : Nat := 0
  index : Nat := 0
  seq : Nat := 0
  retryAfter : Nat := 0
  ranges : List (Nat × Nat) := []
deriving DecidableEq, Repr

/-- The keys and IVs of a session, client to device and device to client (R479). -/
structure KrpKeys where
  c2dKey : List Byte := []
  d2cKey : List Byte := []
  c2dIv : List Byte := []
  d2cIv : List Byte := []
deriving DecidableEq, Repr

/-- A session (R476 to R496). `slot` is its session slot, `half` a session that awaits stage 3, `stage2`
set once stage 2 is sent, `stage3` while the Seal checks stage 3 with the verdict `verified`; `answered` remembers announcements with their bytes. `keys` are
those of the key agreement; `pnIn` is the highest packet number accepted, `seen` those accepted within the window below it. -/
structure KrpSession where
  id : Nat
  slot : Nat := 0
  carrier : Carrier
  half : Bool := true
  stage2 : Bool := false
  stage3 : Bool := false
  verified : Bool := false
  client : Nat := 0
  alg : Nat := 0
  part : Nat := 0
  owner : Nat := 0
  ownerEndpoint : Bool := false
  chunkLog2 : Nat := 13
  sigKind : Nat := 1
  rxRate : Nat := 0
  maxOpen : Nat := 256
  window : Nat := 256
  idle : Nat := 16384
  keys : KrpKeys := {}
  transcript : BitVec 384 := 0
  openedAt : Nat := 0
  lastFrame : Nat := 0
  pnIn : Nat := 0
  seen : List Nat := []
  framesIn : Nat := 0
  framesOut : Nat := 0
  pnOut : Nat := 0
  nth : Nat := 0
  transfers : List Transfer := []
  downloads : List Download := []
  announced : List (Nat × Nat × List Byte) := []
  sendAt : Nat := 0
  refusals : List (Nat × Nat × Status) := []
  sent : List KrpSent := []
deriving DecidableEq, Repr

/-- Pieces of an OPEN stage that has not wholly arrived (R479). -/
structure OpenPieces where
  carrier : Carrier
  session : Nat
  count : Nat
  pieces : SMap (List Byte) := []
  since : Nat
deriving DecidableEq, Repr

/-- KRP of the device. `flashPorts` and `flashClients` are what the board flash holds (R500), `holdoff` the carriers refused at session set-up with the A-tick
until which they are refused again (R488), `replies` messages that belong to no session. -/
structure Krp where
  ports : SMap KrpPort := []
  clients : List KrpClient := []
  flashPorts : SMap KrpPort := []
  flashClients : List KrpClient := []
  holdoff : List (Carrier × Nat) := []
  sessions : List KrpSession := []
  nextSession : Nat := 1
  pieces : List OpenPieces := []
  replies : List KrpSent := []
  loopOn : Bool := false
  loopPort : Nat := 0
  dropN : Nat := 0
  dropSession : Nat := 0
deriving DecidableEq, Repr

/-- One aperture of a function's window (R554): a buffer at an offset, or for PF0 a device physical range (R577). -/
structure Aperture where
  handle : Option Nat
  offset : Nat
deriving DecidableEq, Repr

/-- The PCIe endpoint beyond the partitions' own state (R549 to R556). Apertures are keyed 1 024 × function + aperture. -/
structure Pci where
  up : Bool := false
  speed : Nat := 0
  width : Nat := 0
  flit : Bool := false
  busMaster : Bool := false
  windows : SMap Aperture := []
  winErr : WinErr := {}
  lastRead : Nat := 0
  lastKind : Nat := 0
  retries : Nat := 0
deriving DecidableEq, Repr

end Sys2Proof.Machine
end

