-- ==== Sys2Proof/Machine/Data/Chip.lean ====
section
/-! DEFINITION. The package: everything the block holds but its queue of commands. -/

namespace Sys2Proof.Machine

/-- The whole package. -/
structure Chip where
  time : Nat := 0
  fUnit : Nat := 120
  cells : SMap Cell := []
  panels : SMap Panel := []
  swatches : SMap Swatch := []
  parts : SMap Partition := []
  runs : List Run := []
  nextRun : Nat := 0
  mem : Mem := []
  linings : SMap Lining := []
  hbm : SMap Stack := []
  seams : SMap SeamPort := []
  links : SMap SlvLink := []
  bufs : SMap Buf := []
  requests : List Request := []
  nextReq : Nat := 0
  tlr : Tlr := {}
  dbg : Dbg := {}
  grade : Grade := .mgmt
  life : Lifecycle := .manufacturing
  expert : Bool := false
  planSigning : Bool := false
  configId : Nat := 0
  free : Nat := 0
  seeds : Nat := 0
  fabric : Fabric := {}
  plates : SMap Plate := []
  heat : SMap StackHeat := []
  power : Power := {}
  ledger : Ledger := {}
  trust : Seal := {}
  krp : Krp := {}
  pci : Pci := {}
  boot : Boot := {}
  mgmt : Mgmt := {}
deriving DecidableEq, Repr

end Sys2Proof.Machine
end

