-- ==== Sys2Proof/Machine/Data/Command.lean ====
section
/-! DEFINITION. The operands of commands: what hosts, peers, sensors and the board bring. -/

namespace Sys2Proof.Machine

/-- What a request names: a service, or an install slot. -/
inductive Target where
  | service (n : Nat)
  | slot (n : Nat)
deriving DecidableEq, Repr

/-- The kinds of TC_ENGINE_STORE (Table 7.11). -/
inductive StoreItem where
  | gather (rows : List (List Nat))
  | seed (value : BitVec 256)
  | seedOfKey (keyId : Nat)
  | twiddle
deriving DecidableEq, Repr

/-- The engines of DBG_ENG_CMD (Table 7.14). -/
inductive DbgEngine where
  | none | burin | hatch | weft
deriving DecidableEq, Repr

/-- A lane that failed in a test: its number, 0 to 67 or 68 and 69 for K0 and K1, its direction, and the phase. -/
structure LaneResult where
  lane : BitVec 7
  rx : Bool
  phase : BitVec 3
deriving DecidableEq, Repr

/-- What PEER finds at the other end (R328): its package id and identity key, and the one-way latency measured. -/
structure PeerInfo where
  pkg : BitVec 12
  key : Nat
  latency : BitVec 32
deriving DecidableEq, Repr

/-- What every packet carries in its header (Table 12.2), with the key epoch it was protected under, the link, epoch and SEQ under which a resent
packet was first sent (R339), and the receive lanes whose errors were corrected in it (R338). `wellFormed` is false for a reserved encoding. -/
structure PacketHead where
  link : BitVec 4
  dest : BitVec 12
  src : BitVec 12
  srcPart : BitVec 6
  handle : BitVec 32
  bolt : BitVec 32
  seq : Nat
  wellFormed : Bool
  epoch : Nat := 0
  first : Option (BitVec 4 × Nat × Nat) := none
  corrected : List (BitVec 4) := []
deriving DecidableEq, Repr

/-- An owner-table entry (Table 12.5). -/
structure OwnerEntry where
  valid : Bool
  pkg : BitVec 12
  plate : BitVec 3
  swatch : BitVec 6
  addr : BitVec 44
  bolts : BitVec 32
  handle : BitVec 32
  boltOff : BitVec 32
deriving DecidableEq, Repr

/-- What a frame carries in the clear, the outcome of its tag check under the session's keys, and whether every reserved byte is zero. -/
structure KrpFrame where
  carrier : Carrier
  session : Nat
  pn : Nat
  tagOk : Bool := true
  reservedZero : Bool := true
deriving DecidableEq, Repr

/-- A message that a client sends (Tables 17.3 to 17.5). Pieces of OPEN carry bytes of the stage's body. -/
inductive KrpMsg where
  | open1 (piece count : Nat) (body : List Byte)
  | open3 (piece count : Nat) (body : List Byte)
  | keys (id bytes : Nat) (header : List Byte)
  | submit (id service : Nat) (inputs : List (Nat × List Byte))
  | chunk (id kind index seq : Nat) (data : List Byte)
  | handoffIn (id round bytes : Nat) (header : List Byte)
  | close
  | missing (id stream index : Nat) (ranges : List (Nat × Nat))
  | resend (id : Nat)
  | other (type : Nat)
deriving DecidableEq, Repr

/-- Frames of a port that are not KRP (R475). -/
inductive HouseFrame where
  | ndp | arp | echo | fragment
deriving DecidableEq, Repr

/-- What the work of a phase finds. Phase 2: whether the Factory Ledger loaded, with its content while the device is in Manufacturing,
and the verdict on the User Ledger image. Phase 3: plates without clock or rail. Phase 4: known-answer tests that failed, healthy noise
sources, whether the Management-only set runs, the step at which both copies failed, the copies and images that run (step, SVN, digest),
the ROM digest, the firmware baseline, the verdict on the policy image, cores that failed. Phase 5: stacks that do not train. -/
structure BootReport where
  factoryOk : Bool := true
  factory : SMap Int := []
  factoryCells : List Nat := []
  userOk : Bool := true
  lostPlates : BitVec 8 := 0
  failedKat : List (BitVec 4) := []
  trng : BitVec 4 := 15
  minimal : Bool := true
  failedStep : BitVec 3 := 0
  copyB : BitVec 5 := 0
  images : List (Nat × Nat × BitVec 384) := []
  romDigest : BitVec 384 := 0
  baseline : BitVec 16 := 0
  policyOk : Bool := true
  failedCores : BitVec 8 := 0
  badStacks : BitVec 8 := 0
deriving DecidableEq, Repr

/-- What a RESET_COMPLETION ends. -/
inductive ResetScope where
  | partition (p : BitVec 6)
  | plate (p : BitVec 3)
  | collar
deriving DecidableEq, Repr

/-- A configuration request: a read, the MSI-X enable and function mask, NumVFs with VF Enable, another write. -/
inductive ConfigOp where
  | read
  | msixEnable (on mask : Bool)
  | vfEnable (count : BitVec 7)
  | other
deriving DecidableEq, Repr

/-- The AtomicOps of PCIe (R549). -/
inductive AtomicOp where
  | fetchAdd (x : W64)
  | swap (x : W64)
  | cas (compare x : W64)
deriving DecidableEq, Repr

/-- The sensors of PLDM Type 2 (Table 20.7): temperatures in quarter degrees, power in W, thermal figures; grade, lifecycle, a plate online. -/
inductive Sensor where
  | plateTemp (plate : BitVec 3)
  | stackTemp (stack : BitVec 3)
  | collarTemp
  | power
  | theta (plate : BitVec 3)
  | grade
  | lifecycle
  | online (plate : BitVec 3)
deriving DecidableEq, Repr

/-- A write of a register whose fields have no other command, with its data. Registers of a partition carry its number, those of a port, a
link, a stack or a plate theirs. `swtOther` is a write to the SWT block of a swatch, all of whose fields are read-only, `expertOther` one to a
read-only field of an Expert register. Every other offset is read-only or reserved. -/
inductive RegWrite where
  | mtStage (k : BitVec 2) (data : W64)
  | mtTarget (data : W32)
  | mtChainStage (word : BitVec 5) (data : W64)
  | mtResult (data : W32)
  | ptnPlanFault (part : BitVec 6) (data : W32)
  | ptnHazard (part : BitVec 6) (data : W32)
  | ptnDoubleTrap (part : BitVec 6) (data : W32)
  | ptnSlvFault (part : BitVec 6) (data : W32)
  | ptnQos (part : BitVec 6) (data : W32)
  | ptnXing (part : BitVec 6) (data : W32)
  | ptnMbxBase (part : BitVec 6) (data : W64)
  | ptnMbxState (part : BitVec 6) (data : W32)
  | ringState (part : BitVec 6) (ring : BitVec 3) (data : W32)
  | ringErr (part : BitVec 6) (ring : BitVec 3) (data : W32)
  | tlrXing (data : W32)
  | tlrMbxBase (data : W64)
  | tlrMbxState (data : W32)
  | dbgStitchBreak (data : W32)
  | dbgScrSel (data : W32)
  | dbgPsAbort (data : W32)
  | dbgEngCmd (data : W32)
  | dbgPadSel (data : W32)
  | dbgPadData (k : BitVec 3) (data : W64)
  | dbgSpoolSel (data : W32)
  | dbgEvInject (data : W32)
  | hbmUeAddr (stack : BitVec 3) (data : W64)
  | hbmCeThresh (stack : BitVec 3) (data : W32)
  | hbmCePage (stack : BitVec 3) (data : W32)
  | hbmInject (stack : BitVec 3) (data : W64)
  | lngUeAddr (plate : BitVec 3) (data : W32)
  | seamLaneThresh (plate : BitVec 3) (port : BitVec 2) (data : W32)
  | seamTestCtrl (plate : BitVec 3) (port : BitVec 2) (data : W32)
  | slvLaneThresh (link : BitVec 4) (data : W32)
  | slvTestCtrl (link : BitVec 4) (data : W32)
  | slvRoute (dest : BitVec 12) (data : W32)
  | pwrResetCtrl (data : W32)
  | pwrLimit (data : W32)
  | pwrForce (data : W32)
  | krpTest (data : W32)
  | pciWinErr (function : BitVec 7) (data : W64)
  | resetCause (data : W32)
  | msixMask (vector : BitVec 6)
  | swtOther (swatch : BitVec 6)
  | expertOther
  | other
deriving DecidableEq, Repr

end Sys2Proof.Machine
end

