-- ==== Sys2Proof/Syntax.lean ====
section
/-! DEFINITION. The commands of the KM6400: one constructor per row of the opcode table, with its operands. Biralo slots carry their issuer;
Tailor calls the mailbox entry they came in; events what the hardware finds. -/

namespace Sys2Proof

open Sys2Proof.Machine

/-- A command. -/
inductive Instr where
  /-- NOP (R127). -/
  | nop (i : Issuer)
  /-- ADD (R147). -/
  | add (i : Issuer) (rd ra rb : BitVec 5)
  /-- SUB (R147). -/
  | sub (i : Issuer) (rd ra rb : BitVec 5)
  /-- AND (R147). -/
  | and (i : Issuer) (rd ra rb : BitVec 5)
  /-- OR (R147). -/
  | or (i : Issuer) (rd ra rb : BitVec 5)
  /-- XOR (R147). -/
  | xor (i : Issuer) (rd ra rb : BitVec 5)
  /-- SHL (R147). -/
  | shl (i : Issuer) (rd ra rb : BitVec 5)
  /-- SHR (R147). -/
  | shr (i : Issuer) (rd ra rb : BitVec 5)
  /-- SRA (R147). -/
  | sra (i : Issuer) (rd ra rb : BitVec 5)
  /-- MUL (R147). -/
  | mul (i : Issuer) (rd ra rb : BitVec 5)
  /-- MULHU (R147). -/
  | mulhu (i : Issuer) (rd ra rb : BitVec 5)
  /-- SLT (R147). -/
  | slt (i : Issuer) (rd ra rb : BitVec 5)
  /-- SLTU (R147). -/
  | sltu (i : Issuer) (rd ra rb : BitVec 5)
  /-- SEL (R133). -/
  | sel (i : Issuer) (rd ra rb : BitVec 5)
  /-- ADDI (R147). -/
  | addi (i : Issuer) (rd ra : BitVec 5) (imm : W36)
  /-- ANDI (R147). -/
  | andi (i : Issuer) (rd ra : BitVec 5) (imm : W36)
  /-- ORI (R147). -/
  | ori (i : Issuer) (rd ra : BitVec 5) (imm : W36)
  /-- XORI (R147). -/
  | xori (i : Issuer) (rd ra : BitVec 5) (imm : W36)
  /-- SHLI (R147). -/
  | shli (i : Issuer) (rd ra : BitVec 5) (imm : W36)
  /-- SHRI (R147). -/
  | shri (i : Issuer) (rd ra : BitVec 5) (imm : W36)
  /-- LI (R147). -/
  | li (i : Issuer) (rd : BitVec 5) (imm : W36)
  /-- MODADD (R147). -/
  | modadd (i : Issuer) (rd ra rb : BitVec 5) (entry : BitVec 10)
  /-- MODMUL (R147). -/
  | modmul (i : Issuer) (rd ra rb : BitVec 5) (entry : BitVec 10)
  /-- LDN (R139). -/
  | ldn (i : Issuer) (rd ra : BitVec 5) (off : BitVec 16)
  /-- STN (R139). -/
  | stn (i : Issuer) (ra rb : BitVec 5) (off : BitVec 16)
  /-- MFS (R148). -/
  | mfs (i : Issuer) (rd : BitVec 5) (sr : BitVec 8)
  /-- MTS (R148). -/
  | mts (i : Issuer) (ra : BitVec 5) (sr : BitVec 8)
  /-- TSEL (R137). -/
  | tsel (i : Issuer) (slot : BitVec 2)
  /-- BR (R140). -/
  | br (i : Issuer) (target : BitVec 16)
  /-- BEQ (R140). -/
  | beq (i : Issuer) (ra rb : BitVec 5) (target : BitVec 16)
  /-- BNE (R140). -/
  | bne (i : Issuer) (ra rb : BitVec 5) (target : BitVec 16)
  /-- BLT (R140). -/
  | blt (i : Issuer) (ra rb : BitVec 5) (target : BitVec 16)
  /-- BLTU (R140). -/
  | bltu (i : Issuer) (ra rb : BitVec 5) (target : BitVec 16)
  /-- CALL (R134). -/
  | call (i : Issuer) (target : BitVec 16)
  /-- RET (R134). -/
  | ret (i : Issuer)
  /-- LOOP (R141). -/
  | loop (i : Issuer) (ra : BitVec 5) (last : BitVec 16)
  /-- IDLE (R147). -/
  | idle (i : Issuer) (count : BitVec 16)
  /-- LOOSE (R143). -/
  | loose (i : Issuer) (target : BitVec 16)
  /-- SCRIBER_WRITEBACK (R132). -/
  | scriberWriteback (i : Issuer)
  /-- STITCH (R107). -/
  | stitch (i : Issuer) (index : BitVec 12)
  /-- BARRIER (R145). -/
  | barrier (i : Issuer) (scope : BitVec 2) (atEnd : Bool)
  /-- YOKE (R195). -/
  | yoke (i : Issuer) (entry : BitVec 12)
  /-- WEAVE (R101). -/
  | weave (i : Issuer) (entry : BitVec 12)
  /-- EVENT (R145). -/
  | event (i : Issuer) (counter : BitVec 3)
  /-- MMA (R162). -/
  | mma (i : Issuer) (m18 : Bool) (ga gb : BitVec 4) (count : BitVec 9)
  /-- MMA_STEP (R162). -/
  | mmaStep (i : Issuer)
  /-- DRAIN (R163). -/
  | drain (i : Issuer) (m18 tap rowmod : Bool) (gd : BitVec 4) (entry : BitVec 10)
  /-- DRAIN_WORD_LAND (R164). -/
  | drainWordLand (i : Issuer)
  /-- ZERO (R164). -/
  | zero (i : Issuer)
  /-- TAPREL (R164). -/
  | taprel (i : Issuer)
  /-- ENGINE_START (R161). -/
  | engineStart (i : Issuer) (panel : BitVec 3) (engine : EngineName)
  /-- MADD (R167). -/
  | madd (i : Issuer) (f : StipFields)
  /-- MSUB (R167). -/
  | msub (i : Issuer) (f : StipFields)
  /-- MNEG (R167). -/
  | mneg (i : Issuer) (f : StipFields)
  /-- MMUL (R167). -/
  | mmul (i : Issuer) (f : StipFields)
  /-- MMAD (R167). -/
  | mmad (i : Issuer) (f : StipFields)
  /-- MMSB (R167). -/
  | mmsb (i : Issuer) (f : StipFields)
  /-- RESC (R167). -/
  | resc (i : Issuer) (f : StipFields)
  /-- RED (R167). -/
  | red (i : Issuer) (f : StipFields)
  /-- MOVE (R167). -/
  | move (i : Issuer) (f : StipFields)
  /-- DIGIT (R167). -/
  | digit (i : Issuer) (f : StipFields)
  /-- STIPPLE_GROUP (R167). -/
  | stippleGroup (i : Issuer)
  /-- NTT (R187). -/
  | ntt (i : Issuer) (gd gk gp logm : BitVec 4) (sstart : BitVec 5)
  /-- INTT (R187). -/
  | intt (i : Issuer) (gd gk gp logm : BitVec 4) (sstart : BitVec 5)
  /-- BURIN_ROW_WRITE (R188). -/
  | burinRowWrite (i : Issuer)
  /-- AUTO (R192). -/
  | auto (i : Issuer) (stage span m18 : Bool) (logn : BitVec 3) (gs gd gp : BitVec 4)
  /-- TRANS (R193). -/
  | trans (i : Issuer) (beta pos : BitVec 3) (oc : BitVec 2) (gs gd gp : BitVec 4)
  /-- BREV (R191). -/
  | brev (i : Issuer) (gs gd gp : BitVec 4)
  /-- GATHER (R191). -/
  | gather (i : Issuer) (table gs gd gp : BitVec 4)
  /-- HATCH_ROW_LAND (R193). -/
  | hatchRowLand (i : Issuer) (panel : BitVec 3)
  /-- EXPAND (R200). -/
  | expand (i : Issuer) (slot : BitVec 5) (gd gp : BitVec 4)
  /-- SAMPLE (R198). -/
  | sample (i : Issuer) (dist : BitVec 2) (gd gp : BitVec 4)
  /-- WEFT_ROW_LAND (R200). -/
  | weftRowLand (i : Issuer) (panel : BitVec 3)
  /-- TSTART (R250). -/
  | tstart (i : Issuer) (thread : BitVec 4) (desc : BitVec 8) (gr : BitVec 4)
  /-- ADVANCE (R249). -/
  | advance (i : Issuer) (thread : BitVec 4) (segs : BitVec 2)
  /-- TSTOP (R250). -/
  | tstop (i : Issuer) (thread : BitVec 4)
  /-- SPOOL_PRESENT (R252). -/
  | spoolPresent (i : Issuer) (resource : Resource)
  /-- UNIT_LAND (R251). -/
  | unitLand (i : Issuer) (thread : BitVec 4)
  /-- WRITE_DRAIN_DONE (R256). -/
  | writeDrainDone (run : Nat)
  /-- LINING_READ_BEAT (R229). -/
  | liningReadBeat (i : Issuer) (panel : BitVec 3)
  /-- LINING_WRITE_BEAT (R229). -/
  | liningWriteBeat (i : Issuer) (panel : BitVec 3)
  /-- LINING_LINE_LAND (R229). -/
  | liningLineLand (i : Issuer) (panel : BitVec 3)
  /-- LINING_PATROL_SCRUB (R232). -/
  | liningPatrolScrub (plate : BitVec 3)
  /-- HBM_REQUEST_ARRIVE (R272). -/
  | hbmRequestArrive (run : Nat) (stack : BitVec 3)
  /-- HBM_SLOT_SERVE (R272). -/
  | hbmSlotServe (stack : BitVec 3) (owner : SlotOwner) (cls : SlotClass)
  /-- CONTROL_TACK_RETURN (R276). -/
  | controlTackReturn (i : Issuer) (thread : BitVec 4) (late : Nat)
  /-- WEAVE_FLIT_LAND (R101). -/
  | weaveFlitLand (run : Nat) (entry : BitVec 12)
  /-- YOKE_WORD_LAND (R195). -/
  | yokeWordLand (i : Issuer) (panel : BitVec 3)
  /-- CONTROL_FLIT_DELIVER (R105). -/
  | controlFlitDeliver (panel : BitVec 9)
  /-- SEAM_FLIT_DEPART (R300). -/
  | seamFlitDepart (run : Nat) (vlink : BitVec 5)
  /-- SEAM_FLIT_DELIVER (R303). -/
  | seamFlitDeliver (run : Nat) (vlink : BitVec 5) (uncorrectable : Bool) (corrected : List (BitVec 7))
  /-- STITCH_COMMIT (R106). -/
  | stitchCommit (run : Nat)
  /-- PLAN_FINAL (R108). -/
  | planFinal (run : Nat)
  /-- PLAN_START (R458). -/
  | planStart (part : BitVec 6)
  /-- PLAN_SPLICE (R108). -/
  | planSplice (run : Nat)
  /-- RESIDENCY_LOAD_START (R461). -/
  | residencyLoadStart (part : BitVec 6)
  /-- RESIDENCY_LOAD_DONE (R461). -/
  | residencyLoadDone (part : BitVec 6)
  /-- SEAL_JOB_DONE (R504). -/
  | sealJobDone
  /-- SEAL_YIELD (R505). -/
  | sealYield
  /-- TC_MODULUS_SET (R43). -/
  | tcModulusSet (c : Call) (part index q logn fmt psi tw : Nat)
  /-- TC_MODULUS_CLEAR (R60). -/
  | tcModulusClear (c : Call) (part index : Nat)
  /-- TC_CHAIN_SET (R46). -/
  | tcChainSet (c : Call) (part chain qcount pcount : Nat) (index : List Nat)
  /-- TC_CHAIN_CLEAR (R60). -/
  | tcChainClear (c : Call) (part chain : Nat)
  /-- TC_MODULUS_GET (R48). -/
  | tcModulusGet (c : Call) (part index : Nat) (isChain : Bool)
  /-- TC_CONTAINER_CHECK (R83). -/
  | tcContainerCheck (c : Call) (part handle offset : Nat)
  /-- TC_CONTAINER_SIZE (R72). -/
  | tcContainerSize (c : Call) (header : List Byte)
  /-- TC_PLAN_INSTALL (R109). -/
  | tcPlanInstall (c : Call) (part image : Nat) (plateMap : List Nat) (table : Nat) (debug : Bool)
  /-- TC_PLAN_START (R453). -/
  | tcPlanStart (c : Call) (part : Nat) (target : Target) (handles : List Nat)
  /-- TC_PLAN_REMOVE (R120). -/
  | tcPlanRemove (c : Call) (part slot : Nat)
  /-- TC_PLAN_QUERY (R88). -/
  | tcPlanQuery (c : Call) (part slot : Nat)
  /-- TC_SCRIBER_QUERY (R157). -/
  | tcScriberQuery (c : Call) (part cell : Nat)
  /-- TC_PS_QUERY (R180). -/
  | tcPsQuery (c : Call) (part cell : Nat)
  /-- TC_ENGINE_STORE (R202). -/
  | tcEngineStore (c : Call) (part mask id : Nat) (item : StoreItem)
  /-- TC_ENGINE_QUERY (R211). -/
  | tcEngineQuery (c : Call) (part swatch : Nat)
  /-- TC_SPOOL_QUERY (R267). -/
  | tcSpoolQuery (c : Call) (part cell : Nat)
  /-- TC_LINING_RETIRE (R233). -/
  | tcLiningRetire (c : Call) (plate block : Nat)
  /-- TC_MEM_QUERY (R244). -/
  | tcMemQuery (c : Call) (part plate : Nat)
  /-- TC_PAGE_RETIRE (R284). -/
  | tcPageRetire (c : Call) (stack first count : Nat)
  /-- TC_HBM_QUERY (R295). -/
  | tcHbmQuery (c : Call) (stack : Nat)
  /-- TC_SEAM_QUERY (R323). -/
  | tcSeamQuery (c : Call) (plate port : Nat)
  /-- TC_SEAM_TEST (R318). -/
  | tcSeamTest (c : Call) (plate port phases d : Nat)
  /-- SEAM_TEST_DONE (R314). -/
  | seamTestDone (plate : BitVec 3) (port : BitVec 2) (failed : List LaneResult) (margins : List Nat)
  /-- TC_SEAM_LANE_RETIRE (R323). -/
  | tcSeamLaneRetire (c : Call) (plate port dir lane : Nat)
  /-- TC_PLATE_RECOVER (R311). -/
  | tcPlateRecover (c : Call) (plate : Nat)
  /-- TC_FABRIC_JOIN (R355). -/
  | tcFabricJoin (c : Call) (id : Nat) (list : List (Nat × Nat)) (lock : Bool)
  /-- TC_ROUTE_SET (R327). -/
  | tcRouteSet (c : Call) (dest mask : Nat)
  /-- TC_SLV_QUERY (R353). -/
  | tcSlvQuery (c : Call) (link : Nat)
  /-- TC_SLV_TEST (R352). -/
  | tcSlvTest (c : Call) (link phases d : Nat)
  /-- TC_SLV_LANE_RETIRE (R338). -/
  | tcSlvLaneRetire (c : Call) (link dir lane : Nat)
  /-- TC_OWNER_SET (R342). -/
  | tcOwnerSet (c : Call) (part table block : Nat) (entry : OwnerEntry)
  /-- TC_TOKEN_GATE (R334). -/
  | tcTokenGate (c : Call) (part slot token value version timeout : Nat)
  /-- TC_FABRIC_FETCH (R352). -/
  | tcFabricFetch (c : Call) (part table block local_ : Nat) (remote : List Byte)
  /-- TC_PARTITION_CREATE (R356). -/
  | tcPartitionCreate (c : Call) (part mask : Nat) (grow : Bool)
  /-- TC_PARTITION_GROW (R358). -/
  | tcPartitionGrow (c : Call) (part mask : Nat)
  /-- TC_PARTITION_SHRINK (R378). -/
  | tcPartitionShrink (c : Call) (part mask : Nat)
  /-- TC_PARTITION_DESTROY (R379). -/
  | tcPartitionDestroy (c : Call) (part : Nat)
  /-- TC_PARTITION_QUERY (R380). -/
  | tcPartitionQuery (c : Call) (part : Nat)
  /-- TC_SPLIT_SET (R366). -/
  | tcSplitSet (c : Call) (part resource cls units : Nat) (strict : Bool)
  /-- TC_SPLIT_QUERY (R380). -/
  | tcSplitQuery (c : Call) (resource : Nat)
  /-- TC_PARTITION_RESET (R395). -/
  | tcPartitionReset (c : Call) (part : Nat)
  /-- TC_PLATE_RESET (R397). -/
  | tcPlateReset (c : Call) (plate : Nat)
  /-- TC_COLLAR_RESET (R398). -/
  | tcCollarReset (c : Call)
  /-- TC_EVENT_ROUTE (R388). -/
  | tcEventRoute (c : Call) (function ev vector : Nat) (enable : Bool)
  /-- TC_POWER_POLICY (R417). -/
  | tcPowerPolicy (c : Call) (part floor nap rest : Nat)
  /-- TC_PLATE_POWER (R418). -/
  | tcPlatePower (c : Call) (plate : Nat) (allow : Bool) (delay : Nat)
  /-- TC_POWER_LIMIT (R424). -/
  | tcPowerLimit (c : Call) (watts : Nat)
  /-- TC_POWER_QUERY (R416). -/
  | tcPowerQuery (c : Call) (plate : Bool) (index : Nat)
  /-- TC_THERMAL_QUERY (R421). -/
  | tcThermalQuery (c : Call)
  /-- TC_LEDGER_GET (R427). -/
  | tcLedgerGet (c : Call) (item index : Nat)
  /-- TC_LEDGER_SET (R427). -/
  | tcLedgerSet (c : Call) (items : List (Nat × Nat × Int))
  /-- TC_LEDGER_COMMIT (R430). -/
  | tcLedgerCommit (c : Call)
  /-- TC_CELL_RETIRE (R429). -/
  | tcCellRetire (c : Call) (cell : Nat) (force : Bool)
  /-- TC_BUF_ALLOC (R447). -/
  | tcBufAlloc (c : Call) (part kind place bolts : Nat) (priv : Bool)
  /-- TC_BUF_FREE (R448). -/
  | tcBufFree (c : Call) (handle : Nat)
  /-- TC_BUF_SHARE (R451). -/
  | tcBufShare (c : Call) (handle : Nat) (fabric : Bool) (package part first bolts : Nat) (read add write : Bool) (token : Nat)
  /-- TC_BUF_REVOKE (R451). -/
  | tcBufRevoke (c : Call) (handle : Nat)
  /-- TC_BUF_QUERY (R447). -/
  | tcBufQuery (c : Call) (handle : Nat)
  /-- TC_QUOTA_SET (R450). -/
  | tcQuotaSet (c : Call) (part : Nat) (hbm keyLines lining : List Nat) (control handles maxOpen : Nat)
  /-- TC_KEY_REGISTER (R459). -/
  | tcKeyRegister (c : Call) (part handle bundle : Nat)
  /-- TC_KEY_EVICT (R459). -/
  | tcKeyEvict (c : Call) (part keyId : Nat)
  /-- TC_KEY_QUERY (R459). -/
  | tcKeyQuery (c : Call) (part : Nat)
  /-- TC_SERVICE_DEFINE (R454). -/
  | tcServiceDefine (c : Call) (part service : Nat) (slots : List Nat) (maxOpen kind : Nat) (policy : HandoffPolicy)
  /-- TC_SERVICE_REMOVE (R467). -/
  | tcServiceRemove (c : Call) (part service : Nat)
  /-- TC_SERVICE_QUERY (R454). -/
  | tcServiceQuery (c : Call) (part service : Nat)
  /-- TC_RECEIPT_GET (R464). -/
  | tcReceiptGet (c : Call) (part request : Nat)
  /-- TC_TIME_SET (R463). -/
  | tcTimeSet (c : Call) (time : Nat)
  /-- TC_BUF_ALLOC_AT (R474). -/
  | tcBufAllocAt (c : Call) (part addr bolts : Nat)
  /-- TC_SCHED_HOLD (R474). -/
  | tcSchedHold (c : Call) (part : Nat) (hold : Bool)
  /-- TC_KRP_PORT_SET (R475). -/
  | tcKrpPortSet (c : Call) (port addr4 addr6 udp vlan gap : Nat) (persist : Bool)
  /-- TC_KRP_CLIENT_SET (R480). -/
  | tcKrpClientSet (c : Call) (client : KrpClient)
  /-- TC_KRP_CLIENT_REMOVE (R496). -/
  | tcKrpClientRemove (c : Call) (keyId : Nat)
  /-- TC_KRP_SESSION_QUERY (R501). -/
  | tcKrpSessionQuery (c : Call) (part : Nat)
  /-- TC_KRP_SESSION_CLOSE (R495). -/
  | tcKrpSessionClose (c : Call) (session : Nat)
  /-- TC_SEAL_QUERY (R503). -/
  | tcSealQuery (c : Call)
  /-- TC_ATTEST (R519). -/
  | tcAttest (c : Call) (nonce : List Byte)
  /-- TC_MEAS_LOG (R518). -/
  | tcMeasLog (c : Call) (first count : Nat)
  /-- TC_LIFECYCLE_SET (R521). -/
  | tcLifecycleSet (c : Call) (target : Nat) (token : Token)
  /-- TC_POLICY_SET (R523). -/
  | tcPolicySet (c : Call) (value : Nat) (lock : Bool) (token : Token)
  /-- TC_POLICY_KEY_SET (R523). -/
  | tcPolicyKeySet (c : Call) (slot : Nat) (key : Option (List Byte)) (token : Token)
  /-- TC_SIGNER_SET (R525). -/
  | tcSignerSet (c : Call) (keyKind : Bool) (slot alg : Nat) (key : List Byte) (mask : Nat) (enable : Bool) (token : Token)
  /-- TC_SVN_COMMIT (R514). -/
  | tcSvnCommit (c : Call)
  /-- TC_SEAL_KAT (R538). -/
  | tcSealKat (c : Call) (failed : List (BitVec 4))
  /-- TC_TRNG_RAW (R538). -/
  | tcTrngRaw (c : Call) (source count : Nat)
  /-- TC_RING_SET (R557). -/
  | tcRingSet (c : Call) (part ring : Nat) (krp : Bool) (sqBase sqSize cqBase cqSize : Nat)
  /-- TC_RING_QUERY (R576). -/
  | tcRingQuery (c : Call) (part ring : Nat)
  /-- TC_WINDOW_MAP (R554). -/
  | tcWindowMap (c : Call) (function aperture handle offset : Nat)
  /-- TC_WINDOW_UNMAP (R570). -/
  | tcWindowUnmap (c : Call) (function aperture : Nat)
  /-- TC_WINDOW_QUERY (R576). -/
  | tcWindowQuery (c : Call) (function : Nat)
  /-- TC_WINDOW_MAP_PHYS (R577). -/
  | tcWindowMapPhys (c : Call) (aperture addr : Nat)
  /-- TC_GRADE_QUERY (R601). -/
  | tcGradeQuery (c : Call)
  /-- TC_SELFTEST (R581). -/
  | tcSelftest (c : Call) (mask : Nat)
  /-- SELFTEST_DONE (R581). -/
  | selftestDone (swatch : BitVec 6) (failing : List Nat)
  /-- TC_ERROR_LOG (R598). -/
  | tcErrorLog (c : Call) (first count : Nat) (flash : Bool)
  /-- TC_ERRLOG_CLEAR (R602). -/
  | tcErrlogClear (c : Call)
  /-- MAILBOX_TAIL_WRITE (R443). -/
  | mailboxTailWrite (fn : Fn) (tail : BitVec 4)
  /-- MT_CMD_WRITE_ENTRY (R61). -/
  | mtCmdWriteEntry
  /-- MT_CMD_CLEAR_ENTRY (R61). -/
  | mtCmdClearEntry
  /-- MT_CMD_WRITE_CHAIN (R61). -/
  | mtCmdWriteChain
  /-- MT_CMD_CLEAR_CHAIN (R61). -/
  | mtCmdClearChain
  /-- MT_CMD_RESERVED (R61). -/
  | mtCmdReserved (op : BitVec 3)
  /-- MT_CMD_DONE (R61). -/
  | mtCmdDone
  /-- DBG_STITCH_GO (R126). -/
  | dbgStitchGo
  /-- DBG_PS_ABORT (R181). -/
  | dbgPsAbort (swatch : BitVec 6) (engine : BitVec 2)
  /-- DBG_ENG_SWAP_NOW (R212). -/
  | dbgEngSwapNow (swatch : BitVec 6) (engine : DbgEngine)
  /-- DBG_ENG_ABORT (R212). -/
  | dbgEngAbort (swatch : BitVec 6) (engine : DbgEngine)
  /-- DBG_ENG_CMD_RESERVED (R212). -/
  | dbgEngCmdReserved (swatch : BitVec 6) (engine : DbgEngine) (op11 : Bool)
  /-- DBG_PAD_READ (R224). -/
  | dbgPadRead (cell : BitVec 15) (row : BitVec 12)
  /-- DBG_PAD_WRITE (R224). -/
  | dbgPadWrite (cell : BitVec 15) (row : BitVec 12)
  /-- HBM_INJECT_GO (R296). -/
  | hbmInjectGo (stack : BitVec 3) (atom : BitVec 30) (kind : BitVec 2)
  /-- SEAM_TEST_CTRL_GO (R324). -/
  | seamTestCtrlGo (plate : BitVec 3) (port : BitVec 2) (phases : BitVec 4) (d : BitVec 5)
  /-- SLV_TEST_CTRL_GO (R354). -/
  | slvTestCtrlGo (link phases : BitVec 4) (d : BitVec 5)
  /-- PWR_RESET_PLATE (R410). -/
  | pwrResetPlate (plate : BitVec 3)
  /-- PWR_RESET_COLLAR_WARM (R410). -/
  | pwrResetCollarWarm
  /-- DBG_EV_INJECT (R410). -/
  | dbgEvInject (ev function : BitVec 7)
  /-- PWR_FORCE_RUN (R441). -/
  | pwrForceRun (swatch : BitVec 6)
  /-- PWR_FORCE_DOZE (R441). -/
  | pwrForceDoze (swatch : BitVec 6)
  /-- LDG_USER_WRITE (R441). -/
  | ldgUserWrite (item : BitVec 4) (index : BitVec 16) (value : Int)
  /-- DBG_CAP_OVERRIDE_WRITE (R383). -/
  | dbgCapOverrideWrite (resource cap : BitVec 6) (enable : Bool)
  /-- SLV_PKG_WRITE (R355). -/
  | slvPkgWrite (id : BitVec 12) (lock : Bool)
  /-- EV_ACK_WRITE (R385). -/
  | evAckWrite (fn : Fn) (ev : BitVec 7) (value : W32)
  /-- VEC_REARM_WRITE (R388). -/
  | vecRearmWrite (fn : Fn) (mask : W64)
  /-- EV_ROUTE_WRITE (R388). -/
  | evRouteWrite (fn : Fn) (index : BitVec 5) (data : W32)
  /-- REGISTER_WRITE (R8). -/
  | registerWrite (fn : Fn) (write : RegWrite)
  /-- MSIX_SEND (R387). -/
  | msixSend (fn : Fn) (vector : BitVec 6)
  /-- MSIX_UNMASK (R388). -/
  | msixUnmask (fn : Fn) (vector : BitVec 6)
  /-- SQ_DOORBELL (R557). -/
  | sqDoorbell (fn : Fn) (part : BitVec 6) (ring : BitVec 3) (tail : BitVec 12)
  /-- CQ_DOORBELL (R557). -/
  | cqDoorbell (fn : Fn) (part : BitVec 6) (ring : BitVec 3) (head : BitVec 12)
  /-- SQ_START (R559). -/
  | sqStart (part : BitVec 6) (ring : BitVec 3) (reservedOk service : Bool) (target : BitVec 16) (tag : W32) (nhandles : Byte) (indirect :
    Bool) (handles : List W32)
  /-- SQ_FRAME_TX (R559). -/
  | sqFrameTx (part : BitVec 6) (ring : BitVec 3) (reservedOk : Bool) (tag len : W32) (f : KrpFrame) (m : KrpMsg)
  /-- SQ_RXBUF (R559). -/
  | sqRxbuf (part : BitVec 6) (ring : BitVec 3) (reservedOk : Bool) (tag len : W32)
  /-- SQ_NOP (R559). -/
  | sqNop (part : BitVec 6) (ring : BitVec 3) (reservedOk : Bool) (tag : W32)
  /-- RING_DMA_ERROR (R561). -/
  | ringDmaError (part : BitVec 6) (ring : BitVec 3) (write : Bool)
  /-- WINDOW_READ (R555). -/
  | windowRead (fn : Fn) (aperture : BitVec 10) (offset : BitVec 22) (n : Nat)
  /-- WINDOW_WRITE (R555). -/
  | windowWrite (fn : Fn) (aperture : BitVec 10) (offset : BitVec 22) (data : List Byte)
  /-- ATOMIC_OP (R279). -/
  | atomicOp (fn : Fn) (aperture : BitVec 10) (offset : BitVec 22) (bits64 : Bool) (op : AtomicOp)
  /-- PCIE_CONFIG_REQUEST (R579). -/
  | pcieConfigRequest (fn : Fn) (op : ConfigOp)
  /-- BUS_MASTER_ENABLE_CHANGE (R552). -/
  | busMasterEnableChange (fn : Fn) (on : Bool)
  /-- PCIE_HOT_RESET (R550). -/
  | pcieHotReset
  /-- PF0_FLR (R551). -/
  | pf0Flr
  /-- VF_FLR (R395). -/
  | vfFlr (vf : BitVec 6)
  /-- OPEN_STAGE1 (R479). -/
  | openStage1 (f : KrpFrame) (piece count : Nat) (body : List Byte)
  /-- OPEN_STAGE3 (R480). -/
  | openStage3 (f : KrpFrame) (piece count : Nat) (body : List Byte)
  /-- KEYS (R482). -/
  | keys (f : KrpFrame) (id bytes : Nat) (header : List Byte)
  /-- SUBMIT (R483). -/
  | submit (f : KrpFrame) (id service : Nat) (inputs : List (Nat × List Byte))
  /-- CHUNK (R482). -/
  | chunk (f : KrpFrame) (id kind index seq : Nat) (data : List Byte)
  /-- HANDOFF_IN (R490). -/
  | handoffIn (f : KrpFrame) (id round bytes : Nat) (header : List Byte)
  /-- CLOSE (R495). -/
  | close (f : KrpFrame)
  /-- NACK_MISSING_RECEIVE (R485). -/
  | nackMissingReceive (f : KrpFrame) (id stream index : Nat) (ranges : List (Nat × Nat))
  /-- NACK_RESEND_RECEIVE (R485). -/
  | nackResendReceive (f : KrpFrame) (id : Nat)
  /-- RESULT_CHUNK_SEND (R485). -/
  | resultChunkSend (session : Nat)
  /-- KRP_GAP_TIMER (R484). -/
  | krpGapTimer (session id kind index : Nat)
  /-- OPEN_PIECE_TIMEOUT (R479). -/
  | openPieceTimeout (carrier : Carrier) (session : Nat)
  /-- HALF_OPEN_EXPIRY (R492). -/
  | halfOpenExpiry (session : Nat)
  /-- SESSION_IDLE_TIMEOUT (R492). -/
  | sessionIdleTimeout (session : Nat)
  /-- KRP_SESSION_REKEY (R481). -/
  | krpSessionRekey (session : Nat)
  /-- HANDOFF_TIMEOUT (R491). -/
  | handoffTimeout (request : Nat)
  /-- NET_HOUSEKEEPING_FRAME (R475). -/
  | netHousekeepingFrame (port : BitVec 1) (kind : HouseFrame)
  /-- RECEIPT_EXPIRY (R464). -/
  | receiptExpiry (part : BitVec 6) (id : Nat)
  /-- TOKEN_GATE_TIMEOUT (R334). -/
  | tokenGateTimeout (part slot : BitVec 6)
  /-- SLV_EGRESS_ACCEPT (R329). -/
  | slvEgressAccept (run : Nat)
  /-- SLV_PACKET_SEND (R331). -/
  | slvPacketSend (link : BitVec 4) (part : BitVec 6)
  /-- SLV_WRITE_RECEIVE (R332). -/
  | slvWriteReceive (h : PacketHead) (data : List Row) (poison : List Bool)
  /-- SLV_ADD_RECEIVE (R332). -/
  | slvAddReceive (h : PacketHead) (integer : Bool) (q : W36) (m18 : Bool) (data : List Row) (poison : List Bool)
  /-- SLV_TOKEN_RECEIVE (R333). -/
  | slvTokenReceive (h : PacketHead) (err : Bool) (status : BitVec 16)
  /-- SLV_CONTROL_RECEIVE (R342). -/
  | slvControlReceive (h : PacketHead) (part : BitVec 6) (table block version : BitVec 32) (entry : OwnerEntry)
  /-- SLV_ACK_RECEIVE (R332). -/
  | slvAckReceive (link : BitVec 4) (seq : Nat)
  /-- SLV_NACK_RECEIVE (R335). -/
  | slvNackReceive (link : BitVec 4) (seq status : Nat) (pkg : BitVec 12)
  /-- SLV_PACKET_ERROR (R336). -/
  | slvPacketError (link : BitVec 4) (seq : Nat) (tag : Bool)
  /-- SLV_REKEY (R328). -/
  | slvRekey (link : BitVec 4)
  /-- SLV_LANE_FAIL (R338). -/
  | slvLaneFail (link : BitVec 4) (tx rx : List (BitVec 4))
  /-- SLV_TRAIN_STATE_DONE (R337). -/
  | slvTrainStateDone (link : BitVec 4) (tx rx : List (BitVec 4)) (peer : Option PeerInfo)
  /-- SLV_TRAIN_TIMEOUT (R337). -/
  | slvTrainTimeout (link : BitVec 4)
  /-- SEAM_LANE_FAIL (R305). -/
  | seamLaneFail (plate : BitVec 3) (port : BitVec 2) (tx rx : List (BitVec 7))
  /-- SEAM_REPAIR_DONE (R305). -/
  | seamRepairDone (plate : BitVec 3) (port : BitVec 2)
  /-- SEAM_RETRAIN_DONE (R307). -/
  | seamRetrainDone (plate : BitVec 3) (port : BitVec 2)
  /-- SEAM_TRAIN_STATE_DONE (R304). -/
  | seamTrainStateDone (plate : BitVec 3) (port : BitVec 2) (tx rx : List (BitVec 7))
  /-- SEAM_TRAIN_TIMEOUT (R304). -/
  | seamTrainTimeout (plate : BitVec 3) (port : BitVec 2)
  /-- TAP_BYPASS (R313). -/
  | tapBypass
  /-- TAP_IDCODE (R313). -/
  | tapIdcode
  /-- TAP_SAMPLE_PRELOAD (R313). -/
  | tapSamplePreload
  /-- TAP_EXTEST (R313). -/
  | tapExtest
  /-- TAP_DIE_ACCESS (R313). -/
  | tapDieAccess
  /-- TAP_SEAM_INTERCONNECT_TEST (R314). -/
  | tapSeamInterconnectTest (plate : BitVec 3) (port : BitVec 2) (phases : BitVec 4) (d : BitVec 5)
  /-- SPDM_GET_VERSION (R520). -/
  | spdmGetVersion
  /-- SPDM_GET_CAPABILITIES (R520). -/
  | spdmGetCapabilities (version : Byte)
  /-- SPDM_NEGOTIATE_ALGORITHMS (R520). -/
  | spdmNegotiateAlgorithms (asym hash dhe aead : Bool)
  /-- SPDM_GET_DIGESTS (R520). -/
  | spdmGetDigests
  /-- SPDM_GET_CERTIFICATE (R520). -/
  | spdmGetCertificate (slot : BitVec 3) (offset length : BitVec 16)
  /-- SPDM_CHALLENGE (R520). -/
  | spdmChallenge (slot : BitVec 3) (nonce : BitVec 256)
  /-- SPDM_GET_MEASUREMENTS (R520). -/
  | spdmGetMeasurements (index : Byte) (sign : Bool) (nonce : BitVec 256)
  /-- SPDM_KEY_EXCHANGE (R520). -/
  | spdmKeyExchange (slot : BitVec 3) (session : BitVec 16) (exchange : List Byte)
  /-- SPDM_FINISH (R520). -/
  | spdmFinish (macOk : Bool)
  /-- SPDM_HEARTBEAT (R520). -/
  | spdmHeartbeat
  /-- SPDM_KEY_UPDATE (R520). -/
  | spdmKeyUpdate (op : BitVec 2)
  /-- SPDM_END_SESSION (R520). -/
  | spdmEndSession
  /-- SPDM_SET_CERTIFICATE (R520). -/
  | spdmSetCertificate (slot : BitVec 3) (chain : List Byte)
  /-- SPDM_UNSUPPORTED_REQUEST (R520). -/
  | spdmUnsupportedRequest
  /-- PLDM_SENSOR_READ (R565). -/
  | pldmSensorRead (sensor : Sensor)
  /-- PLDM_FIRMWARE_UPDATE (R516). -/
  | pldmFirmwareUpdate (component : BitVec 3) (sigOk : Bool) (svn : BitVec 6)
  /-- COLD_RESET (R394). -/
  | coldReset (powerOn sel : Bool) (addr : BitVec 2)
  /-- BRINGUP_PHASE_DONE (R578). -/
  | bringupPhaseDone (r : BootReport)
  /-- BRINGUP_PHASE_TIMEOUT (R578). -/
  | bringupPhaseTimeout (r : BootReport)
  /-- COLLAR_WARM_RESET (R398). -/
  | collarWarmReset (cause : BitVec 3)
  /-- TAILOR_WATCHDOG_EXPIRY (R399). -/
  | tailorWatchdogExpiry
  /-- TAILOR_CORE_FAIL (R442). -/
  | tailorCoreFail (core : BitVec 3)
  /-- RESET_DRAIN_TIMEOUT (R395). -/
  | resetDrainTimeout (part : BitVec 6)
  /-- PARTITION_RESET_TIMEOUT (R396). -/
  | partitionResetTimeout (part : BitVec 6) (unscrubbed : W64)
  /-- PLATE_RESET_TIMEOUT (R394). -/
  | plateResetTimeout (plate : BitVec 3)
  /-- TIMEOUT_CHANNEL_EXPIRY (R390). -/
  | timeoutChannelExpiry (fn : Fn)
  /-- REFA_LOSS (R414). -/
  | refaLoss
  /-- REFA_RETURN (R414). -/
  | refaReturn
  /-- PLATE_PLL_UNLOCK (R414). -/
  | platePllUnlock (plate : BitVec 3)
  /-- COLLAR_PLL_UNLOCK (R414). -/
  | collarPllUnlock
  /-- DEBUG_PLL_LOCK (R413). -/
  | debugPllLock (plate : BitVec 3)
  /-- PLATE_RAIL_UNDERVOLTAGE (R616). -/
  | plateRailUndervoltage (plate : BitVec 3)
  /-- RAIL_UNDERVOLTAGE (R616). -/
  | railUndervoltage (rail : BitVec 5)
  /-- PLATE_TEMP_TRIP (R426). -/
  | plateTempTrip (plate : BitVec 3)
  /-- STACK_TEMP_TRIP (R426). -/
  | stackTempTrip (stack : BitVec 3)
  /-- STACK_TRIP_RELEASE (R426). -/
  | stackTripRelease (stack : BitVec 3)
  /-- COLLAR_TEMP_TRIP (R426). -/
  | collarTempTrip
  /-- THERMAL_EVALUATION (R421). -/
  | thermalEvaluation (plates : List (List Int)) (hs collar : List Int) (watts : BitVec 11)
  /-- WITHDRAWAL_TIMEOUT (R425). -/
  | withdrawalTimeout (part : BitVec 6)
  /-- AVS_LIMIT_TIMEOUT (R420). -/
  | avsLimitTimeout (plate : BitVec 3)
  /-- AVSBUS_TRANSACTION_ERROR (R619). -/
  | avsbusTransactionError (plate : BitVec 3)
  /-- TRNG_SOURCE_FAIL (R508). -/
  | trngSourceFail (source : BitVec 2)
  /-- DRBG_RESEED (R198). -/
  | drbgReseed (panel : Option (BitVec 9))
  /-- DOZE_ENTRY (R417). -/
  | dozeEntry (swatch : BitVec 6)
  /-- NAP_ENTRY (R417). -/
  | napEntry (swatch : BitVec 6)
  /-- REST_ENTRY (R417). -/
  | restEntry (swatch : BitVec 6)
  /-- PLATE_OFF_ENTRY (R418). -/
  | plateOffEntry (plate : BitVec 3)
  /-- SWATCH_WAKE_DONE (R416). -/
  | swatchWakeDone (swatch : BitVec 6)
  /-- RESET_COMPLETION (R395). -/
  | resetCompletion (scope : ResetScope)
  /-- ZEROING_DONE (R294). -/
  | zeroingDone (lining : Bool) (index : BitVec 3)
  /-- RAIL_RETURN (R616). -/
  | railReturn (rail : BitVec 5)
  /-- AVS_MARGIN_RETURN (R420). -/
  | avsMarginReturn (plate : BitVec 3)
  /-- SLV_TEST_DONE (R352). -/
  | slvTestDone (link : BitVec 4) (failed : List LaneResult) (margins : List Nat)
  /-- MCTP_SET_ENDPOINT_ID (R565). -/
  | mctpSetEndpointId (eid : Byte)
  /-- PCIE_LINK_UP (R575). -/
  | pcieLinkUp (speed : BitVec 3) (width : BitVec 5) (flit : Bool)
  /-- ETHERNET_LINK_CHANGE (R500). -/
  | ethernetLinkChange (port : BitVec 1) (up : Bool)
deriving DecidableEq, Repr

end Sys2Proof
end

