-- ==== Sys2Proof/Decode.lean ====
section
/-! DEFINITION. Commands spelled by words of the opcode table: it gives no row bits. -/

namespace Sys2Proof

/-- The command that a word spells by the table's bits: none, since no row of the table has bits. -/
def decodeTableWord (_nbits _w : Nat) : Option Instr := none

end Sys2Proof
end

