-- ==== Sys2Proof/Machine/Hash.lean ====
section
/-! DEFINITION. The hash functions the spec names by their standards: SHAKE256 (FIPS 202), SHA-384 (FIPS 180-4), and the
CRC-32C of R64. -/

namespace Sys2Proof.Machine

/-! ### CRC-32C (R64) -/

/-- One bit of the reflected Castagnoli division. -/
def crcBit (c : BitVec 32) : BitVec 32 := if c.getLsbD 0 then (c >>> 1) ^^^ 0x82F63B78 else c >>> 1

/-- One byte. -/
def crcByte (c : BitVec 32) (b : Byte) : BitVec 32 :=
  crcBit (crcBit (crcBit (crcBit (crcBit (crcBit (crcBit (crcBit (c ^^^ b.setWidth 32))))))))

/-- CRC-32C of bytes: polynomial 0x1EDC_6F41 reflected, initial value and final XOR 0xFFFF_FFFF. -/
def crc32c (bs : List Byte) : Nat := (bs.foldl crcByte 0xFFFFFFFF ^^^ 0xFFFFFFFF).toNat

/-! ### SHAKE256 (FIPS 202) -/

/-- Round constants of Keccak-f[1600]. -/
def keccakRc : List W64 :=
  [0x1, 0x8082, 0x800000000000808a, 0x8000000080008000,
   0x808b, 0x80000001, 0x8000000080008081, 0x8000000000008009,
   0x8a, 0x88, 0x80008009, 0x8000000a,
   0x8000808b, 0x800000000000008b, 0x8000000000008089, 0x8000000000008003,
   0x8000000000008002, 0x8000000000000080, 0x800a, 0x800000008000000a] ++
  [0x8000000080008081, 0x8000000000008080, 0x80000001, 0x8000000080008008]

/-- Rotation of lane x + 5y. -/
def keccakRot : List Nat :=
  [0, 1, 62, 28, 27, 36, 44, 6, 55, 20,
   3, 10, 43, 25, 39, 41, 45, 15, 21, 8] ++
  [18, 2, 61, 56, 14]

/-- One round: lanes are listed x + 5y. -/
def keccakRound (a : List W64) (rc : W64) : List W64 :=
  let l := fun i => a[i]?.getD 0
  let par := (List.range 5).map fun x => l x ^^^ l (x + 5) ^^^ l (x + 10) ^^^ l (x + 15) ^^^ l (x + 20)
  let d := (List.range 5).map fun x => par[(x + 4) % 5]?.getD 0 ^^^ (par[(x + 1) % 5]?.getD 0).rotateLeft 1
  let t := (List.range 25).map fun i => l i ^^^ d[i % 5]?.getD 0
  -- rho and pi: lane (x, y) goes to (y, 2x + 3y)
  let b := (List.range 25).map fun i =>
    let x' := i % 5
    let y' := i / 5
    let x := (x' + 3 * y') % 5
    let y := x'
    (t[x + 5 * y]?.getD 0).rotateLeft (keccakRot[x + 5 * y]?.getD 0)
  let e := (List.range 25).map fun i =>
    let y := 5 * (i / 5)
    b[i]?.getD 0 ^^^ (~~~ (b[y + (i % 5 + 1) % 5]?.getD 0) &&& b[y + (i % 5 + 2) % 5]?.getD 0)
  (e[0]?.getD 0 ^^^ rc) :: e.tail

/-- Keccak-f[1600]. -/
def keccakF (a : List W64) : List W64 := keccakRc.foldl keccakRound a

/-- Absorb one block of 136 bytes. -/
def keccakAbsorb (a : List W64) (block : List Byte) : List W64 :=
  keccakF (a.zipIdx.map fun v => v.1 ^^^ BitVec.ofNat 64 (leNat ((block.drop (8 * v.2)).take 8)))

/-- Cut bytes into blocks of n, for at most k blocks. -/
def blocksOf (n : Nat) : Nat → List Byte → List (List Byte)
  | 0, _ => []
  | k + 1, bs => if bs.isEmpty then [] else bs.take n :: blocksOf n k (bs.drop n)

/-- The first n bytes of SHAKE256, n at most 136. -/
def shake256 (input : List Byte) (n : Nat) : List Byte :=
  let pad := 136 - input.length % 136
  let tail : List Byte := if pad = 1 then [0x9F] else [0x1F] ++ List.replicate (pad - 2) 0 ++ [0x80]
  let msg := input ++ tail
  let st := (blocksOf 136 (msg.length / 136) msg).foldl keccakAbsorb (List.replicate 25 0)
  (st.flatMap fun w => natLE 8 w.toNat).take n

/-! ### SHA-384 (FIPS 180-4) -/

/-- Round constants. -/
def sha384K : List W64 :=
  [0x428a2f98d728ae22, 0x7137449123ef65cd, 0xb5c0fbcfec4d3b2f, 0xe9b5dba58189dbbc,
   0x3956c25bf348b538, 0x59f111f1b605d019, 0x923f82a4af194f9b, 0xab1c5ed5da6d8118,
   0xd807aa98a3030242, 0x12835b0145706fbe, 0x243185be4ee4b28c, 0x550c7dc3d5ffb4e2,
   0x72be5d74f27b896f, 0x80deb1fe3b1696b1, 0x9bdc06a725c71235, 0xc19bf174cf692694,
   0xe49b69c19ef14ad2, 0xefbe4786384f25e3, 0xfc19dc68b8cd5b5, 0x240ca1cc77ac9c65] ++
  [0x2de92c6f592b0275, 0x4a7484aa6ea6e483, 0x5cb0a9dcbd41fbd4, 0x76f988da831153b5,
   0x983e5152ee66dfab, 0xa831c66d2db43210, 0xb00327c898fb213f, 0xbf597fc7beef0ee4,
   0xc6e00bf33da88fc2, 0xd5a79147930aa725, 0x6ca6351e003826f, 0x142929670a0e6e70,
   0x27b70a8546d22ffc, 0x2e1b21385c26c926, 0x4d2c6dfc5ac42aed, 0x53380d139d95b3df,
   0x650a73548baf63de, 0x766a0abb3c77b2a8, 0x81c2c92e47edaee6, 0x92722c851482353b] ++
  [0xa2bfe8a14cf10364, 0xa81a664bbc423001, 0xc24b8b70d0f89791, 0xc76c51a30654be30,
   0xd192e819d6ef5218, 0xd69906245565a910, 0xf40e35855771202a, 0x106aa07032bbd1b8,
   0x19a4c116b8d2d0c8, 0x1e376c085141ab53, 0x2748774cdf8eeb99, 0x34b0bcb5e19b48a8,
   0x391c0cb3c5c95a63, 0x4ed8aa4ae3418acb, 0x5b9cca4f7763e373, 0x682e6ff3d6b2b8a3,
   0x748f82ee5defb2fc, 0x78a5636f43172f60, 0x84c87814a1f0ab72, 0x8cc702081a6439ec] ++
  [0x90befffa23631e28, 0xa4506cebde82bde9, 0xbef9a3f7b2c67915, 0xc67178f2e372532b,
   0xca273eceea26619c, 0xd186b8c721c0c207, 0xeada7dd6cde0eb1e, 0xf57d4f7fee6ed178,
   0x6f067aa72176fba, 0xa637dc5a2c898a6, 0x113f9804bef90dae, 0x1b710b35131c471b,
   0x28db77f523047d84, 0x32caab7b40c72493, 0x3c9ebe0a15c9bebc, 0x431d67c49c100d4c,
   0x4cc5d4becb3e42b6, 0x597f299cfc657e2a, 0x5fcb6fab3ad6faec, 0x6c44198c4a475817]

/-- Initial hash value. -/
def sha384Init : List W64 :=
  [0xcbbb9d5dc1059ed8, 0x629a292a367cd507, 0x9159015a3070dd17, 0x152fecd8f70e5939,
   0x67332667ffc00b31, 0x8eb44a8768581511, 0xdb0c2e0d64f98fa7, 0x47b5481dbefa4fa4]

/-- Extend the message schedule by one word; the newest word comes first. -/
def shaExtend (w : List W64) : List W64 :=
  let x := fun i => w[i - 1]?.getD 0
  let s1 := (x 2).rotateRight 19 ^^^ (x 2).rotateRight 61 ^^^ (x 2) >>> 6
  let s0 := (x 15).rotateRight 1 ^^^ (x 15).rotateRight 8 ^^^ (x 15) >>> 7
  (s1 + x 7 + s0 + x 16) :: w

/-- One round on the eight working words. -/
def shaRound (v : List W64) (kw : W64 × W64) : List W64 :=
  let a := v[0]?.getD 0
  let b := v[1]?.getD 0
  let c := v[2]?.getD 0
  let e := v[4]?.getD 0
  let f := v[5]?.getD 0
  let g := v[6]?.getD 0
  let h := v[7]?.getD 0
  let t1 := h + (e.rotateRight 14 ^^^ e.rotateRight 18 ^^^ e.rotateRight 41) + ((e &&& f) ^^^ (~~~e &&& g)) + kw.1 + kw.2
  let t2 := (a.rotateRight 28 ^^^ a.rotateRight 34 ^^^ a.rotateRight 39) + ((a &&& b) ^^^ (a &&& c) ^^^ (b &&& c))
  [t1 + t2, a, b, c, v[3]?.getD 0 + t1, e, f, g]

/-- One block of 128 bytes. -/
def shaBlock (h : List W64) (block : List Byte) : List W64 :=
  let w0 := (List.range 16).map fun i => BitVec.ofNat 64 (leNat (((block.drop (8 * i)).take 8).reverse))
  let w := ((List.range 64).foldl (fun w _ => shaExtend w) w0.reverse).reverse
  let v := (sha384K.zip w).foldl shaRound h
  (h.zip v).map fun p => p.1 + p.2

/-- The 48 bytes of SHA-384. -/
def sha384 (input : List Byte) : List Byte :=
  let zeros := (239 - input.length % 128) % 128
  let msg := input ++ [0x80] ++ List.replicate zeros 0 ++ (natLE 16 (8 * input.length)).reverse
  let st := (blocksOf 128 (msg.length / 128) msg).foldl shaBlock sha384Init
  ((st.flatMap fun w => (natLE 8 w.toNat).reverse)).take 48

/-- HMAC with SHA-384 (FIPS 198-1). -/
def hmac384 (key message : List Byte) : List Byte :=
  let k := if 128 < key.length then sha384 key else key
  let block := k ++ List.replicate (128 - k.length) 0
  sha384 ((block.map (· ^^^ 0x5C)) ++ sha384 ((block.map (· ^^^ 0x36)) ++ message))

/-- HKDF-Extract with SHA-384 (RFC 5869). -/
def hkdfExtract (salt ikm : List Byte) : List Byte := hmac384 salt ikm

/-- HKDF-Expand with SHA-384 for at most 48 bytes: one block (RFC 5869). -/
def hkdfExpand (prk info : List Byte) (n : Nat) : List Byte := (hmac384 prk (info ++ [1])).take n

/-- A SHA-384 digest as a number, byte 0 lowest. -/
def sha384Num (input : List Byte) : BitVec 384 := BitVec.ofNat 384 (leNat (sha384 input))

/-! ### Gaussian table (R198) -/

/-- CDT[k] = round(2^63 F(k)), k = 0 to 41, sigma = 3.19 (R198). -/
def gaussCdt : List Nat :=
  [1153477452468229224, 3349820430805593270, 5245143829349442938,
   6727622992311224449, 7778655094148702640, 8454061963716837078,
   8847464427593976181, 9055161697081982973, 9154552593608142009,
   9197663240382149865, 9214612259843553562, 9220652117835847120,
   9222602999767745941, 9223174159202072686, 9223325726613166616,
   9223362183234700014, 9223370131440734060, 9223371702107022666,
   9223371983440126813, 9223372029115264285] ++
  [9223372035836683724, 9223372036733212517, 9223372036841602611,
   9223372036853480440, 9223372036854660235, 9223372036854766453,
   9223372036854775121, 9223372036854775762, 9223372036854775805,
   9223372036854775808, 9223372036854775808, 9223372036854775808,
   9223372036854775808, 9223372036854775808, 9223372036854775808,
   9223372036854775808, 9223372036854775808, 9223372036854775808,
   9223372036854775808, 9223372036854775808] ++
  [9223372036854775808, 9223372036854775808]

/-- The least k with v < CDT[k]. -/
def gaussMagnitude (v : Nat) : Nat := (gaussCdt.findIdx? fun c => decide (v < c)).getD 41

end Sys2Proof.Machine
end

