-- ==== Sys2Proof/Config.lean ====
section
/-! DEFINITION. What the spec leaves open, as constants without a body, and the algorithms of outside standards that the spec
only names. Nothing can be proved of their values. -/

namespace Sys2Proof.Config

/-! ### Free values. Each is applied to the counter of the state, so that every use is its own value. -/

/-- A container or row whose content is unspecified inside the partition (R3, R176, R207, R219). -/
opaque freeRow : Nat → Row

/-- A number the spec does not state. -/
opaque freeNat : Nat → Nat

/-- A bit the spec does not state. -/
opaque freeBit : Nat → Bool

/-! ### Outside standards -/

/-- A signature check by algorithm code (Table 18.7): algorithm, public key, message, signature. -/
opaque sigVerify : Nat → List Byte → List Byte → List Byte → Bool

/-- ECDSA P-384 signature by a key named by number. -/
opaque ecdsaSign : Nat → List Byte → List Byte

/-- ML-DSA-87 signature by a key named by number. -/
opaque mldsaSign : Nat → List Byte → List Byte

/-- The shared secrets and the reply of a key exchange over an initiator's message, with the responder's randomness. -/
opaque kexReply : Nat → List Byte → List Byte × List Byte

/-- Bytes of the Collar TRNG, by the number of the draw. -/
opaque trng : Nat → Byte

/-! ### Layouts the spec names and does not give -/

/-- The entries and chain descriptors in a MODULI section (R89, Table 4.2): the index of each entry image with its 256 bits, the number
of each chain with its QCOUNT, PCOUNT and indices. -/
opaque moduliSection : List Byte → List (Nat × Nat) × List (Nat × Nat × Nat × List Nat)

/-- A measurement's digest over its content as numbers: the encoding is not given (R517, R523). The first argument names the measurement. -/
opaque measure : Nat → List Nat → BitVec 384

/-- The public identity keys and the certificate chain of the identity with a number (R512). -/
opaque identityKeys : Nat → List Byte
opaque identityCert : Nat → List Byte

/-- The stepping of the device, 0 for A0 and 1 for B0 (R549, Table 20.14). -/
opaque stepping : BitVec 4

/-- The defect-map hash of the Configuration ID, from the retired physical cells (Table 0.5). -/
opaque defectHash : List Nat → Nat

end Sys2Proof.Config
end

