-- ==== Sys2Proof/Machine/Ops.lean ====
section
/-! DEFINITION. The named operations over the package: cells, swatches, partitions, events, the error log, free values. -/

namespace Sys2Proof.Machine

/-! ### Status codes -/

/-- The code of a status (Table 21.3). -/
def Status.code : Status → Nat
  | .ok => 0x0000
  | .busy => 0x0001
  | .badShape => 0x0002
  | .badModulus => 0x0003
  | .bound => 0x0004
  | .notOwner => 0x0005
  | .staleHandle => 0x0006
  | .overcommit => 0x0007
  | .routeFrayed => 0x0008
  | .clockAbsent => 0x0009
  | .spillBound => 0x000A
  | .doubleTrap => 0x000B
  | .engineBusy => 0x000C
  | .poison => 0x000D
  | .retiredPage => 0x000E
  | .signature => 0x000F
  | .timeout => 0x0010
  | .resetInProgress => 0x0011
  | .notSupported => 0x0012
  | .lifecycle => 0x0013
  | .configMismatch => 0x0014
  | .notResident => 0x0015

/-! ### Numbering of R21 -/

/-- The plate of a swatch. -/
def plateOf (sw : Nat) : Nat := sw / 8

/-- The cell number of local cell c of swatch sw. -/
def cellNo (sw c : Nat) : Nat := sw * 512 + c % 512

/-- The swatch of a cell number. -/
def swatchOf (cn : Nat) : Nat := cn / 512

/-- The global panel number of a cell number. -/
def panelOf (cn : Nat) : Nat := cn / 64

/-- The cell numbers of a swatch. -/
def swatchCells (sw : Nat) : List Nat := (List.range 512).map fun c => cellNo sw c

/-- The cell numbers of a panel. -/
def panelCells (p : Nat) : List Nat := (List.range 64).map fun c => p * 64 + c

/-! ### Reading and changing parts of the package -/

/-- A cell; one never touched is in its reset state. -/
def Chip.cell (s : Chip) (n : Nat) : Cell := mget {} n s.cells

/-- Change a cell. -/
def Chip.setCell (s : Chip) (n : Nat) (c : Cell) : Chip := { s with cells := mput n c s.cells }

/-- Change a cell by a function. -/
def Chip.updCell (s : Chip) (n : Nat) (f : Cell → Cell) : Chip := s.setCell n (f (s.cell n))

/-- Change cells by a function. -/
def Chip.updCells (s : Chip) (ns : List Nat) (f : Nat → Cell → Cell) : Chip :=
  ns.foldl (fun t n => t.updCell n (f n)) s

/-- A panel. -/
def Chip.panel (s : Chip) (n : Nat) : Panel := mget {} n s.panels

/-- Change a panel. -/
def Chip.updPanel (s : Chip) (n : Nat) (f : Panel → Panel) : Chip :=
  { s with panels := mput n (f (s.panel n)) s.panels }

/-- A swatch. -/
def Chip.swatch (s : Chip) (n : Nat) : Swatch := mget {} n s.swatches

/-- Change a swatch. -/
def Chip.updSwatch (s : Chip) (n : Nat) (f : Swatch → Swatch) : Chip :=
  { s with swatches := mput n (f (s.swatch n)) s.swatches }

/-- Change swatches. -/
def Chip.updSwatches (s : Chip) (ns : List Nat) (f : Swatch → Swatch) : Chip :=
  ns.foldl (fun t n => t.updSwatch n f) s

/-- A partition; one that was never created reads its reset state (R357). -/
def Chip.part (s : Chip) (n : Nat) : Partition := mget {} n s.parts

/-- Change a partition. -/
def Chip.updPart (s : Chip) (n : Nat) (f : Partition → Partition) : Chip :=
  { s with parts := mput n (f (s.part n)) s.parts }

/-- Change the counters of a partition. -/
def Chip.updCnt (s : Chip) (n : Nat) (f : PtnCounters → PtnCounters) : Chip :=
  s.updPart n fun p => { p with cnt := f p.cnt }

/-- Change the plan registers of a partition. -/
def Chip.updRegs (s : Chip) (n : Nat) (f : PtnPlan → PtnPlan) : Chip :=
  s.updPart n fun p => { p with regs := f p.regs }

/-- The Lining of a plate. -/
def Chip.lining (s : Chip) (p : Nat) : Lining := mget {} p s.linings

/-- Change the Lining of a plate. -/
def Chip.updLining (s : Chip) (p : Nat) (f : Lining → Lining) : Chip :=
  { s with linings := mput p (f (s.lining p)) s.linings }

/-- An HBM stack. -/
def Chip.stack (s : Chip) (h : Nat) : Stack := mget {} h s.hbm

/-- Change an HBM stack. -/
def Chip.updStack (s : Chip) (h : Nat) (f : Stack → Stack) : Chip :=
  { s with hbm := mput h (f (s.stack h)) s.hbm }

/-- The key of a Seam port: plate and port index C 0, W 1, E 2, V 3. -/
def portKey (plate port : Nat) : Nat := 4 * plate + port

/-- A Seam port. -/
def Chip.seam (s : Chip) (key : Nat) : SeamPort := mget {} key s.seams

/-- Change a Seam port. -/
def Chip.updSeam (s : Chip) (key : Nat) (f : SeamPort → SeamPort) : Chip :=
  { s with seams := mput key (f (s.seam key)) s.seams }

/-- The plate and port at the other end of a ring port (R19); none for port C and for an idle port. -/
def seamPeer (plate port : Nat) : Option (Nat × Nat) :=
  match port with
  | 1 => if plate % 4 = 0 || 8 ≤ plate then none else some (plate - 1, 2)
  | 2 => if plate % 4 = 3 || 8 ≤ plate then none else some (plate + 1, 1)
  | 3 => if plate = 0 || plate = 3 then some (plate + 4, 3) else if plate = 4 || plate = 7 then some (plate - 4, 3) else none
  | _ => none

/-- The ring of plates P0–P1–P2–P3–P7–P6–P5–P4 (R19). -/
def ringOrder : List Nat := [0, 1, 2, 3, 7, 6, 5, 4]

/-- The place of a plate on the ring. -/
def ringPos (plate : Nat) : Nat := (ringOrder.idxOf? plate).getD 0

/-- The plate at a place of the ring. -/
def ringAt (i : Nat) : Nat := (ringOrder[i % 8]?).getD 0

/-- The plates passed from a to b along the ring, the shorter way round, a included. -/
def ringPath (a b : Nat) : List Nat :=
  let d := (ringPos b + 8 - ringPos a) % 8
  if d ≤ 4 then (List.range (d + 1)).map fun k => ringAt (ringPos a + k)
  else (List.range (8 - d + 1)).map fun k => ringAt (ringPos a + 8 - k)

/-- The port of a plate that leads to a neighbour. -/
def portTo (a b : Nat) : Nat :=
  ([1, 2, 3].find? fun x => (seamPeer a x).any fun y => y.1 == b).getD 0

/-- The swatches of a partition, rising (R356). -/
def Chip.swatchesOf (s : Chip) (p : Nat) : List Nat :=
  (List.range 64).filter fun sw => (s.swatch sw).owner == some p

/-- A running instance by its number. -/
def Chip.run? (s : Chip) (id : Nat) : Option Run := s.runs.find? fun r => r.id == id

/-- Replace a running instance. -/
def Chip.setRun (s : Chip) (r : Run) : Chip :=
  { s with runs := s.runs.map fun x => if x.id == r.id then r else x }

/-- Change a running instance by a function. -/
def Chip.updRun (s : Chip) (id : Nat) (f : Run → Run) : Chip :=
  { s with runs := s.runs.map fun x => if x.id == id then f x else x }

/-- The running instances of a partition. -/
def Chip.runsOf (s : Chip) (p : Nat) : List Run := s.runs.filter fun r => r.part == p

/-- A partition runs no plan, or every plan of it is held at a stitch break (R126, R157, R180, R224). -/
def Chip.quiet (s : Chip) (p : Nat) : Bool := (s.runsOf p).all fun r => r.broken

/-- The running instance whose plan issues on a swatch. -/
def Chip.runOn (s : Chip) (sw : Nat) : Option Run :=
  s.runs.find? fun r => r.plan.swatches.contains sw && r.state == .issuing

/-! ### Time -/

/-- The A-tick count: an A-tick is 10 560 time units (40 ns), an F-cycle 132, 120 or 110 units at 2.0, 2.2 or 2.4 GHz,
a C-cycle 165 (Table 0.3). -/
def Chip.aTick (s : Chip) : Nat := s.time / 10560

/-- A swatch starts to wake, unless it does already (R419). -/
def Swatch.startWake (now : Nat) (w : Swatch) : Swatch := if w.waking then w else { w with waking := true, wakeAt := now }

/-! ### Free values -/

/-- Take a free row and count its use. -/
def Chip.takeFree (s : Chip) : Nat × Chip := (s.free, { s with free := s.free + 1 })

/-! ### Events -/

/-- Add n to the COUNT of an event (R384). -/
def Events.bump (e : Events) (i n : Nat) : Events :=
  { e with count := mupd 0 i (fun c => c + BitVec.ofNat 32 n) e.count }

/-- The error log of R589: append one record; the log keeps 4 096, the flash ring 256. -/
def Chip.logRec (s : Chip) (code kind : Nat) (part unit cell : Option Nat) (addr : Nat) : Chip :=
  let fatal := kind == 3
  let r : LogRec := ⟨s.aTick, code, kind, part, unit, fatal, cell, addr, s.tlr.errSeq⟩
  let log := r :: s.tlr.errLog
  { s with tlr := { s.tlr with
      errLog := log.take 4096, errSeq := s.tlr.errSeq + 1,
      flash := if fatal then (r :: s.tlr.flash).take 256 else s.tlr.flash } }

/-- The fatal device events of R589: EV_PLATE_LOST and EV_STACK_DEGRADED. -/
def fatalEvent (i : Nat) : Bool := i == 8 || i == 11

/-- The device events that leave no error log record: EV_LANE_REPAIRED and EV_UNPLANNED_STALL (R589). -/
def unloggedEvent (i : Nat) : Bool := i == 12 || i == 1

/-- Raise a device event (R386), with its error log record. -/
def Chip.raiseDev (s : Chip) (i : Nat) (part unit cell : Option Nat) (addr : Nat) : Chip :=
  let s := { s with tlr := { s.tlr with events := s.tlr.events.bump i 1 } }
  if unloggedEvent i then s
  else s.logRec (i + 0x8000) (if fatalEvent i then 3 else 1) part unit cell addr

/-- Raise a partition event. -/
def Chip.raisePart (s : Chip) (p i : Nat) : Chip :=
  s.updPart p fun x => { x with events := x.events.bump i 1 }

/-- Raise an event in a partition and its device index (Table 14.1). -/
def Chip.raiseBoth (s : Chip) (p pi di : Nat) (unit cell : Option Nat) (addr : Nat) : Chip :=
  (s.raisePart p pi).raiseDev di (some p) unit cell addr

/-! ### Plan cycles, hazards and holds (R100, R112, R115) -/

/-- The count of the swatches' plan cycles at a run's own plan cycle c. -/
def Run.at (r : Run) (c : Nat) : Nat := r.base + c

/-- The run's own plan cycle. -/
def Run.planCycle (r : Run) : Nat := r.cycle - r.base

/-- The cycle of the next stitch point to commit. -/
def Run.stitchAt (r : Run) : Option Nat :=
  match r.state with
  | .issuing => (r.plan.stitches[r.nextStitch]?).map fun x => r.at x.cycle
  | .draining => none

/-- Two runs issue on a common swatch. -/
def Run.meets (a b : Run) : Bool := a.plan.swatches.any fun sw => b.plan.swatches.contains sw

/-- A hazard found in debug mode (R112): the first is latched with its kind, plan-cycle stamp, cell and bundle and raises EV_HAZARD; every
later one is counted. -/
def Chip.hazard (s : Chip) (r : Run) (kind cell bundle : Nat) : Chip :=
  if (s.part r.part).debug then
    let q := (s.part r.part).regs
    if q.hazard.valid then
      s.updRegs r.part fun g => { g with hazardCount := g.hazardCount + 1 }
    else
      let s := s.updRegs r.part fun g =>
        { g with
          hazard := { valid := true, a := kind }
          hazardCell := cell
          hazardCycle := r.planCycle
          hazardBundle := bundle }
      s.raisePart r.part 4
  else s

/-- The cell and the bundle that a hazard of the whole plan names: local cell 0 of the first swatch and the bundle it issued last. -/
def Run.markAt (r : Run) : Nat × Nat :=
  let sw := (r.plan.swatches.head?).getD 0
  (cellNo sw 0, ((mfind sw r.streams).map (·.last)).getD 0)

/-- Unplanned stalls of a run counted: EV_UNPLANNED_STALL once for each, their F-cycles in PTN_PLAN_STALLS, and in debug mode hazard kind 3
once for each (R100, R112, R115). -/
def Chip.countStalls (s : Chip) (r : Run) (stalls cycles cell bundle : Nat) : Chip :=
  let s := s.updRegs r.part fun g => { g with stalls := g.stalls + BitVec.ofNat 32 cycles }
  (List.range stalls).foldl (fun t _ => (t.raiseBoth r.part 3 1 none none 0).hazard r 3 cell bundle) s

/-- Hold a run for n F-cycles, and with it every run on a swatch of its plan: the stall holds the swatches (R100). -/
def Chip.holdSwatches (s : Chip) (r : Run) (n : Nat) : Chip :=
  { s with runs := s.runs.map fun x => if x.id == r.id || x.meets r then { x with hold := x.hold + n } else x }

/-- A stall of n F-cycles under R100; it is part of the stall in progress when the run is held already. -/
def Chip.stall (s : Chip) (id n cell bundle : Nat) : Chip :=
  match s.run? id with
  | none => s
  | some r =>
    if n = 0 then s
    else (s.holdSwatches r n).countStalls r (if r.hold = 0 then 1 else 0) n cell bundle

/-- Take the F-cycles that a unit's items beyond its bound cost in each plan cycle: one for each item beyond the bound, at the one unit of
the plan that has the most (R115). Answers what each cycle holds now, the F-cycles added and the cycles held for the first time. -/
def overTake (held : SMap Nat) : List (Nat × Nat) → SMap Nat × Nat × Nat
  | [] => (held, 0, 0)
  | (c, n) :: rest =>
    let old := mget 0 c held
    let (o, added, fresh) := overTake (if old < n then mput c n held else held) rest
    (o, added + (n - old), fresh + if old = 0 && n != 0 then 1 else 0)

/-- Items of a run beyond an on-die bound of a unit: plan cycles and how many items lie beyond it in each (R115). The item keeps its plan
cycles; the plan is held. -/
def Chip.overflow (s : Chip) (id : Nat) (demand : List (Nat × Nat)) (cell bundle : Nat) : Chip :=
  match s.run? id with
  | none => s
  | some r =>
    if demand.isEmpty then s
    else
      let (o, added, fresh) := overTake (r.overs.filter fun e => decide (r.cycle ≤ e.1)) demand
      let s := s.updRun id fun r => { r with overs := o }
      if added = 0 then s else (s.holdSwatches r added).countStalls r fresh added cell bundle

/-- The items that wait in a queue in each plan cycle from `now` on, those beyond a bound: `starts` are the cycles in which the waiting
items start, each before its start counting as waiting. -/
def queueDemand (bound now : Nat) (starts : List Nat) : List (Nat × Nat) :=
  let waiting := fun c => (starts.filter fun x => c < x).length
  let till := ((starts.mergeSort fun a b => decide (b ≤ a))[bound]?).getD 0
  (List.range (till - now)).map fun k => (now + k, waiting (now + k) - bound)

/-! ### Stops at a stitch point (R117) -/

/-- The rank of a stop cause: a fault, a double trap, a frayed route, a stop for capacity (R117). -/
def stopRank : Status → Nat
  | .doubleTrap => 1
  | .routeFrayed => 2
  | .overcommit => 3
  | _ => 0

/-- Note a stop cause of a run. -/
def Run.stopDue (st : Status) (r : Run) : Run :=
  { r with stop := match r.stop with
      | none => some st
      | some old => if stopRank st < stopRank old then some st else some old }

/-! ### Shadow copies (R106, R118) -/

/-- The shadow copies that a run's stitch points take, as they stand. -/
def Chip.snapshot (s : Chip) (r : Run) : Snapshot :=
  let q := s.part r.part
  { table := q.shadow, twiddle := q.twsets, keyWin := q.keyWinShadow
    stores := r.plan.swatches.foldl (fun (m : SMap PanelStore) sw =>
      (List.range 8).foldl (fun (m : SMap PanelStore) p => mput (8 * sw + p) (s.panel (8 * sw + p)).shadow m) m) [] }

/-- A write of a partition's shadow copies is about to be accepted: a run that stands at the plan cycle of a stitch point it has not
committed keeps the copies as they are for that commit, since the write waits for the stitch point after it (R118). -/
def Chip.keepShadow (s : Chip) (part : Nat) : Chip :=
  { s with runs := s.runs.map fun r =>
      if r.part == part && r.snap.isNone && r.stitchAt == some r.cycle then { r with snap := some (s.snapshot r) } else r }

/-! ### Reservation classes -/

/-- The key of a class on a resource (Table 4.4): stack read, write and remote 1 to 3 by stack, Seam links 4 by the port key of
the lower end, Selvage links 5 by link. -/
def resKey (cls index : Nat) : Nat := 256 * cls + index

/-- The key of a grant: resource 0 to 39 of Table 13.1 and class, 0 read or link, 1 write, 2 remote. -/
def grantKey (r cls : Nat) : Nat := 4 * r + cls

/-- A Selvage link. -/
def Chip.link (s : Chip) (l : Nat) : SlvLink := mget {} l s.links

/-- Change a Selvage link. -/
def Chip.updLink (s : Chip) (l : Nat) (f : SlvLink → SlvLink) : Chip :=
  { s with links := mput l (f (s.link l)) s.links }

/-- The units a plan reserves in a class; indices of stacks and Seam links are those of the plan (Table 4.4). -/
def Plan.units (p : Plan) (cls index : Nat) : Nat :=
  ((p.resvs.filter fun x => x.cls == cls && x.index == index).map (·.units)).sum

/-- The physical plate of a virtual plate, 255 for none (R104). -/
def Plan.plate (p : Plan) (v : Nat) : Nat := (p.plateMap[v]?).getD 255

/-- The units a plan reserves in a class of a physical stack. -/
def Plan.stackUnits (p : Plan) (cls h : Nat) : Nat :=
  match p.plateMap.idxOf? h with
  | some v => p.units cls v
  | none => 0

/-! ### Sets of numbers, kept rising -/

/-- Insert into a rising list. -/
def sinsert (k : Nat) : List Nat → List Nat
  | [] => [k]
  | j :: rest => if k < j then k :: j :: rest else if k = j then j :: rest else j :: sinsert k rest

/-- Remove from a list. -/
def sremove (k : Nat) (l : List Nat) : List Nat := l.filter fun j => j != k

end Sys2Proof.Machine
end

