-- ==== Sys2Proof/Machine/Aes.lean ====
section
/-! DEFINITION. AES-256 (FIPS 197) and the CTR_DRBG that the panels and the Seal hold: AES-256, no derivation function (SP 800-90A, R198, R509). -/

namespace Sys2Proof.Machine

/-! ### AES-256 -/

/-- Double a byte in the field of FIPS 197. -/
def gfDouble (b : Byte) : Byte := if b.getLsbD 7 then (b <<< 1) ^^^ 0x1B else b <<< 1

/-- The product of two bytes in the field, by the bits of the second. -/
def gfMul (a b : Byte) : Byte :=
  ((List.range 8).foldl (fun (acc : Byte × Byte) k =>
    (if b.getLsbD k then acc.1 ^^^ acc.2 else acc.1, gfDouble acc.2)) (0, a)).1

/-- The S-box: the field inverse b^254 under the affine map. -/
def aesSub (b : Byte) : Byte :=
  let sq := (List.range 6).foldl (fun (acc : Byte × Byte) _ =>
    let p := gfMul acc.2 acc.2
    (gfMul acc.1 p, p)) (gfMul b b, gfMul b b)
  let v := sq.1
  v ^^^ v.rotateLeft 1 ^^^ v.rotateLeft 2 ^^^ v.rotateLeft 3 ^^^ v.rotateLeft 4 ^^^ 0x63

/-- The key schedule: four-byte words, the newest first. -/
def aesWords : Nat → List (List Byte) → List (List Byte)
  | 0, ws => ws
  | n + 1, ws =>
    let i := ws.length
    let t := ws.headD []
    let u := if i % 8 = 0 then
        let r := (t.drop 1 ++ t.take 1).map aesSub
        let rc := (List.range (i / 8 - 1)).foldl (fun (c : Byte) _ => gfDouble c) 1
        (r.headD 0 ^^^ rc) :: r.drop 1
      else if i % 8 = 4 then t.map aesSub else t
    aesWords n ((List.zipWith (· ^^^ ·) ((ws[7]?).getD []) u) :: ws)

/-- The fifteen round keys of a 32-byte key. -/
def aesRoundKeys (key : List Byte) : List (List Byte) :=
  let ws := (aesWords 52 (((List.range 8).map fun i => (key.drop (4 * i)).take 4).reverse)).reverse
  (List.range 15).map fun r => ((ws.drop (4 * r)).take 4).flatten

/-- Byte 4c + r of a block takes byte 4(c + r) + r. -/
def aesShift (b : List Byte) : List Byte := (List.range 16).map fun i => (b[(4 * (i / 4 + i % 4) + i % 4) % 16]?).getD 0

/-- The columns of a block mixed. -/
def aesMix (b : List Byte) : List Byte :=
  (List.range 16).map fun i =>
    let x := fun k => (b[4 * (i / 4) + (i + k) % 4]?).getD 0
    gfDouble (x 0) ^^^ gfDouble (x 1) ^^^ x 1 ^^^ x 2 ^^^ x 3

/-- One block under a 32-byte key. -/
def aes256 (key block : List Byte) : List Byte :=
  let ks := aesRoundKeys key
  let add := fun (b k : List Byte) => List.zipWith (· ^^^ ·) b k
  let mid := (ks.drop 1).take 13
  let b := mid.foldl (fun b k => add (aesMix (aesShift (b.map aesSub))) k) (add block (ks.headD []))
  add (aesShift (b.map aesSub)) ((ks[14]?).getD [])

/-! ### CTR_DRBG -/

/-- A number as n bytes, the most significant first. -/
def beBytes (n v : Nat) : List Byte := (natLE n v).reverse

/-- The number of bytes, the most significant first. -/
def beNat (bs : List Byte) : Nat := leNat bs.reverse

/-- Block j of what the instance produces next: the cipher of V + 1 + j. -/
def DrbgKey.block (d : DrbgKey) (j : Nat) : List Byte := aes256 (beBytes 32 d.key.toNat) (beBytes 16 ((d.v.toNat + 1 + j) % 2 ^ 128))

/-- CTR_DRBG_Update after n blocks with 48 bytes of provided data. -/
def DrbgKey.update (d : DrbgKey) (n : Nat) (data : List Byte) : DrbgKey :=
  let temp := List.zipWith (· ^^^ ·) (d.block n ++ d.block (n + 1) ++ d.block (n + 2)) data
  { key := BitVec.ofNat 256 (beNat (temp.take 32)), v := BitVec.ofNat 128 (beNat (temp.drop 32)) }

/-- The instance after a generate request of 4 096 B: 256 blocks, and the update of zeros. -/
def DrbgKey.step (d : DrbgKey) : DrbgKey := d.update 256 (List.replicate 48 0)

/-- The instance after n requests. -/
def DrbgKey.after : Nat → DrbgKey → DrbgKey
  | 0, d => d
  | n + 1, d => DrbgKey.after n d.step

/-- An instance made from 384 bits of the Collar TRNG: the n-th seeding of the package (R198, R509). -/
def DrbgKey.instantiate (n : Nat) : DrbgKey :=
  ({ } : DrbgKey).update 0 ((List.range 48).map fun i => Config.trng (48 * n + i))

/-- The requests after which an instance is replaced (R198). -/
def reseedLimit : Nat := 2 ^ 20

/-- The request, counted from the present one, in which another instance takes over: the prepared one at the next request boundary, or a fresh
one where the reseed limit is reached (R198). -/
def Drbg.switch (d : Drbg) (fresh : DrbgKey) : Nat × DrbgKey :=
  match d.next with
  | some k => (if d.pos = 0 then 0 else 1, k)
  | none => (reseedLimit - d.requests, fresh)

/-- The requests that n bytes more begin. -/
def Drbg.span (d : Drbg) (n : Nat) : Nat := (d.pos + n - 1) / 4096

/-- An instance that has no replacement prepared reaches its reseed limit within n bytes more. -/
def Drbg.spent (d : Drbg) (n : Nat) : Bool := d.next.isNone && decide (reseedLimit ≤ d.requests + d.span n)

/-- The DRBG after n bytes more (R198). -/
def Drbg.draw (n : Nat) (fresh : DrbgKey) (d : Drbg) : Drbg :=
  if n = 0 then d
  else
    let q := d.span n
    let (at_, k) := d.switch fresh
    let pos := d.pos + n - 4096 * q
    if q < at_ then { d with cur := d.cur.after q, requests := d.requests + q, pos := pos }
    else { d with cur := k.after (q - at_), requests := q - at_, pos := pos, next := none }

/-- Byte b of the stream from here on. -/
def Drbg.byte (d : Drbg) (fresh : DrbgKey) (b : Nat) : Byte :=
  let q := (d.pos + b) / 4096
  let x := (d.pos + b) % 4096
  let (at_, k) := d.switch fresh
  let cur := if q < at_ then d.cur.after q else k.after (q - at_)
  ((cur.block (x / 16))[x % 16]?).getD 0

end Sys2Proof.Machine
end

