-- ==== Sys2Proof/Machine/Operands.lean ====
section
/-! DEFINITION. The operand forms of the engine slots: which field values are reserved encodings (R6, R146, R165, R170, R186,
R191, R199, R250). -/

namespace Sys2Proof.Machine

/-- MMA: COUNT above 256 is reserved (R165). -/
def mmaOk (count : BitVec 9) : Bool := decide (count.toNat ≤ 256)

/-- DRAIN: a nonzero GD with DEST = 1 is reserved (R165). -/
def drainOk (tap : Bool) (gd : BitVec 4) : Bool := !tap || gd == 0

/-- The number of sources of a Stipple opcode (Table 6.3). -/
def StipKind.sources : StipKind → Nat
  | .madd | .msub | .mmul | .digit => 2
  | .mneg | .red | .move => 1
  | .mmad | .mmsb | .resc => 3

/-- The Stipple opcode uses a Modulus Table entry. -/
def StipKind.modular : StipKind → Bool
  | .move | .digit => false
  | _ => true

/-- The latency L of Table 6.3. -/
def StipKind.latency : StipKind → Nat
  | .madd | .msub | .mneg | .red => 4
  | .mmul => 7
  | .mmad | .mmsb | .resc => 9
  | .move => 2
  | .digit => 3

/-- A Stipple slot free of reserved encodings (R170, Table 6.2). -/
def stipOk (k : StipKind) (f : StipFields) : Bool :=
  (k.sources != 1 || f.gb == 0) && (k.sources == 3 || f.gc == 0)
    && (k.modular || f.entry == 0)
    && (!f.tap || decide (f.ga.toNat < 3))
    && (!f.bcast || k.sources != 1)
    && (k != .digit || f.bcast)

/-- A Burin slot free of reserved encodings: LOGM 9 to 15 and SSTART 17 to 31 are reserved (Table 7.1). -/
def burinOk (logm : BitVec 4) (sstart : BitVec 5) : Bool := decide (logm.toNat ≤ 8) && decide (sstart.toNat ≤ 16)

/-- AUTO: LOGN 6 and 7 are reserved (R191). -/
def autoOk (logn : BitVec 3) : Bool := decide (logn.toNat ≤ 5)

/-- TRANS: BETA 1 to 6 and BETA + oc at most 6 (R191). -/
def transOk (beta : BitVec 3) (oc : BitVec 2) : Bool :=
  decide (1 ≤ beta.toNat) && decide (beta.toNat ≤ 6) && decide (beta.toNat + oc.toNat ≤ 6)

/-- SAMPLE: DIST 11 is reserved (R199). -/
def sampleOk (dist : BitVec 2) : Bool := dist != 3

/-- BARRIER: scopes 10 and 11 are reserved (Table 5.2). -/
def barrierOk (scope : BitVec 2) : Bool := decide (scope.toNat < 2)

end Sys2Proof.Machine
end

