-- ==== Sys2Proof/Machine/PadRows.lean ====
section
/-! DEFINITION. The rows of a Pad: containers, landing order, ECC pairs and poison, banks and bias (R213, R214, R216 to R219, R222, R223). -/

namespace Sys2Proof.Machine

/-- Container k of a row (R36). -/
def container (r : Row) (k : Nat) : W36 := (r >>> (36 * k)).truncate 36

/-- The row with container k replaced. -/
def setContainer (r : Row) (k : Nat) (v : W36) : Row :=
  let m : Row := (BitVec.ofNat 288 (2 ^ 36 - 1)) <<< (36 * k)
  (r &&& ~~~m) ||| ((v.setWidth 288) <<< (36 * k))

/-- The row of eight containers, container 0 first. -/
def rowOf (vs : List W36) : Row :=
  (vs.zipIdx).foldl (fun r vk => setContainer r vk.2 vk.1) 0

/-- The eight containers of a row. -/
def containers (r : Row) : List W36 := (List.range 8).map (container r)

/-- Byte 36r + k of a bolt holds bits [8k+7:8k] of row r (R71): the 36 bytes of a row. -/
def rowBytes (r : Row) : List Byte := (List.range 36).map fun k => (r >>> (8 * k)).truncate 8

/-- The row in 36 bytes (R71). -/
def rowOfBytes (bs : List Byte) : Row := BitVec.ofNat 288 (leNat bs)

/-- Merge the containers a mask names. -/
def mergeRow (old new : Row) (mask : BitVec 8) : Row :=
  (List.range 8).foldl (fun r k => if mask.getLsbD k then setContainer r k (container new k) else r) old

/-! ### Landing -/

/-- One landing comes before another: earlier cycle, then the order of Table 8.2, then issue order (R217). -/
def PadLand.before (a b : PadLand) : Bool :=
  a.due < b.due || (a.due == b.due && (a.order < b.order || (a.order == b.order && a.seq ≤ b.seq)))

/-- Insert a landing in order. -/
def landInsert (l : PadLand) : List PadLand → List PadLand
  | [] => [l]
  | x :: rest => if x.before l then x :: landInsert l rest else l :: x :: rest

/-- The number of an ECC pair: containers 2m and 2m + 1 of a row (R216, R222). -/
def pairKey (row m : Nat) : Nat := 4 * row + m

/-- The ECC pairs that hold the containers of a mask. -/
def maskPairs (mask : BitVec 8) : List Nat := (List.range 4).filter fun m => mask.getLsbD (2 * m) || mask.getLsbD (2 * m + 1)

/-- The ECC pairs that a mask covers whole: a write of them stores valid check bytes. -/
def maskWhole (mask : BitVec 8) : List Nat := (List.range 4).filter fun m => mask.getLsbD (2 * m) && mask.getLsbD (2 * m + 1)

/-- One write reaches its row: the containers it names, and the poison bit (R223). -/
def Pad.apply (p : Pad) (l : PadLand) : Pad :=
  let new := mergeRow (mget 0 l.row p.rows) l.data l.mask
  let full := l.mask == BitVec.allOnes 8
  let sound := fun k => k / 4 == l.row && (maskWhole l.mask).contains (k % 4)
  { p with
    rows := mset 0 l.row new p.rows
    poison := if l.poison then sinsert l.row p.poison else if full then sremove l.row p.poison else p.poison
    ce := p.ce.filter fun k => !sound k
    ue := p.ue.filter fun k => !sound k
    written := sinsert l.row p.written
    origin := match l.origin with
      | some a => mput l.row a p.origin
      | none => mdel l.row p.origin }

/-- Every write due before plan cycle `now` has landed. -/
def Pad.settle (now : Nat) (p : Pad) : Pad :=
  let due := p.lands.takeWhile fun l => l.due < now
  due.foldl Pad.apply { p with lands := p.lands.dropWhile fun l => l.due < now }

/-- A write that lands at the end of plan cycle due. -/
def Pad.schedule (l : PadLand) (p : Pad) : Pad := { p with lands := landInsert l p.lands }

/-- What a read of a row finds besides its data: how many pairs it corrected, and whether it found an uncorrectable error first (R222). -/
structure PadErr where
  ce : Nat := 0
  ue : Bool := false
deriving DecidableEq, Repr

/-- A read finds the errors of the ECC pairs it takes: correctable ones are written back corrected, an uncorrectable one sets the poison bit
of a row that does not have it yet (R222). Answers the Pad and what was found. -/
def Pad.sense (row : Nat) (pairs : List Nat) (p : Pad) : Pad × PadErr :=
  let mine := fun k => k / 4 == row && pairs.contains (k % 4)
  let p' := { p with ce := p.ce.filter fun k => !mine k }
  let n := (p.ce.filter mine).length
  if !p.poison.contains row && p.ue.any mine then
    ({ p' with poison := sinsert row p.poison, ue := p.ue.filter fun k => !mine k }, ⟨n, true⟩)
  else (p', ⟨n, false⟩)

/-- A read of ECC pairs of a row in plan cycle `now`: the pad with what the read finds recorded, the row, its poison, the errors. -/
def Pad.read (now row : Nat) (p : Pad) (pairs : List Nat := [0, 1, 2, 3]) : Pad × Row × Bool × PadErr :=
  let (p, e) := (p.settle now).sense row pairs
  (p, mget 0 row p.rows, p.poison.contains row, e)

/-! ### Banks -/

/-- The bias region of a task slot covers a physical row, at this offset. -/
def TaskSlot.biasOffset (t : TaskSlot) (row : Nat) : Option Nat :=
  let first := t.padBase + t.biasFirst
  if t.biasCount != 0 && first ≤ row && row < first + t.biasCount then some (row - first) else none

/-- The bank of a physical row: the lowest-numbered task slot whose bias region covers it governs (R213, R219). -/
def bankOf (tasks : List TaskSlot) (row : Nat) : Nat :=
  match tasks.findSome? (fun t => t.biasOffset row) with
  | some x => (x / 16 % 16 + x % 16) % 16
  | none => row % 16

/-- Count the access of a bank in a plan cycle; answers the surplus over one access (R214). -/
def Pad.noteUse (cycle bank now : Nat) (p : Pad) : Pad × Nat :=
  let k := 16 * cycle + bank
  let n := mget 0 k p.use + 1
  ({ p with use := mput k n (p.use.filter fun e => 16 * now ≤ e.1 + 4096) }, n - 1)

/-- Record what a Pad read found: the counters, EV_PAD_UE, the hold of 3 F-cycles once for each F-cycle (R222). -/
def Chip.notePad (s : Chip) (id part cn now : Nat) (e : PadErr) (bundle : Nat := 0) : Chip :=
  let s := if e.ue then
      (s.updCnt part fun c => { c with padUe := c.padUe + 1 }).raiseBoth part 5 2 (some (plateOf (swatchOf cn))) (some cn) 0
    else s
  if e.ce = 0 then s
  else
    let s := s.updCnt part fun c => { c with padCe := c.padCe + BitVec.ofNat 16 e.ce }
    match s.run? id with
    | none => s
    | some r =>
      if r.eccAt == some now then s
      else (s.updRun id fun r => { r with eccAt := some now }).stall id 3 cn bundle

/-! ### Column reads (R193, R220) -/

/-- Exchange n bits at position p of a with n bits at position q of b. -/
def exchange (a p b q n : Nat) : Nat × Nat :=
  (setBits a p n (bits b q n), setBits b q n (bits a p n))

/-- The source of destination word j of local cell c under TRANS (Table 7.4): cell bits [oc+β−1:oc] exchange with region-word
bits [o+β−1:o]. -/
def transSource (beta pos oc c j : Nat) : Nat × Nat := exchange c oc j pos beta

/-- The column read that returns a word of a region row (R220): column group, half, container. -/
def columnRead (word : Nat) : Nat :=
  let row := word / 8
  256 * (row / 256) + row % 16 + 16 * (row % 256 / 128) + 32 * (word % 8)

/-- The eight region rows of column read n (R220). -/
def columnRows (n : Nat) : List Nat :=
  let t := n % 256
  (List.range 8).map fun i => 256 * (n / 256) + 16 * (8 * (t / 16 % 2) + i) + t % 16

/-- The last column read that returns a word of destination row t of local cell c (R193). -/
def transLast (beta pos oc c t : Nat) : Nat :=
  ((List.range 8).map fun k => columnRead (transSource beta pos oc c (8 * t + k)).2).foldl max 0

/-- A TRANS that moves words between rows reads by columns (R193). -/
def HatchOp.byColumn (o : HatchOp) : Bool :=
  match o.kind with
  | .trans beta pos _ => decide (3 < pos + beta)
  | _ => false

/-- The F-cycle, from the start, of the last read that destination row t of local cell c takes a word of: max(t, c_t) of R193. -/
def HatchOp.readAt (o : HatchOp) (c t : Nat) : Nat :=
  match o.kind with
  | .trans beta pos oc => if o.byColumn then max t (transLast beta pos oc c t) else t
  | _ => t

end Sys2Proof.Machine
end

