-- ==== Sys2Proof/Machine/Pad.lean ====
section
/-! DEFINITION. The Pad as the units of a run reach it: reads, writes, hazards, banks (R112, R206, R214 to R223, R234). -/

namespace Sys2Proof.Machine

/-- An access of a cell's bank at a plan cycle; a surplus is an item beyond the bank's budget (R214, R115). -/
def Chip.noteBank (s : Chip) (id cn row cycle now : Nat) (bundle : Nat := 0) : Chip :=
  let c := s.cell cn
  let (p, n) := c.pad.noteUse cycle (bankOf c.scr.tasks row) now
  let s := s.setCell cn { c with pad := p }
  if n = 0 then s else s.overflow id [(cycle, n)] cn bundle

/-- The unit rows of a thread kind (Table 9.2). -/
def ThreadKind.rows : ThreadKind → Nat
  | .hbmRead | .hbmWrite | .hbmAdd => 16
  | .liningRead | .liningWrite | .keyRead => 4
  | .tackRead => 1

/-- A thread kind moves data from memory to the Pad. -/
def ThreadKind.isRead : ThreadKind → Bool
  | .hbmRead | .liningRead | .keyRead | .tackRead => true
  | .hbmWrite | .hbmAdd | .liningWrite => false

/-- The first physical row of unit k in the ring of a thread (R248). -/
def Thread.unitRow (t : Thread) (k : Nat) : Nat :=
  t.ringRow + (k * t.kind.rows) % (t.d.nseg * t.d.segRows)

/-- A row of a read thread's ring whose unit has still to land: it is not presented yet, or in flight (R259). -/
def Cell.ringAhead (c : Cell) (row : Nat) : Bool :=
  c.threads.any fun e =>
    let t := e.2
    let n := t.d.nseg * t.d.segRows
    let u := n / t.kind.rows
    let k := t.marked + ((row - t.ringRow) / t.kind.rows + (u - t.marked % u)) % u
    t.kind.isRead && t.endAt.isNone && decide (t.ringRow ≤ row) && decide (row < t.ringRow + n) && decide (k < t.d.count)
      && (decide (t.presented ≤ k) || c.units.any fun v => v.thread == e.1 && v.k == k)

/-- A write that lands in a row of a write unit after the Spool read the row, and before the room of the unit returned to the producer: it is not
carried to memory (R249, R259). -/
def Cell.ringRead (c : Cell) (row due : Nat) : Bool :=
  c.units.any fun v =>
    (v.kind == .hbmWrite || v.kind == .hbmAdd) && decide (v.row ≤ row) && decide (row < v.row + v.kind.rows)
      && decide (v.readAt + (row - v.row) ≤ due) && decide (due < v.readAt + 15)

/-- Some container of a row has a write on its way in plan cycle `now`. -/
def Cell.landing (c : Cell) (now row : Nat) (mask : BitVec 8) : Bool :=
  (c.pad.settle now).lands.any fun l => l.row == row && (l.mask &&& mask) != 0

/-- The hazard detector looks at a read: kind 1 where the producing write has not landed, or nothing was written since the
plan started the cell (R112, R174, R259). -/
def Chip.checkRead (s : Chip) (r : Run) (cn row now bundle : Nat) (mask : BitVec 8) : Chip :=
  if (s.part r.part).debug then
    let c := s.cell cn
    if c.landing now row mask || c.ringAhead row || !(c.pad.settle now).written.contains row then s.hazard r 1 cn bundle else s
  else s

/-- The hazard detector looks at a write: kind 2 where an earlier write has not landed, or the Spool has read the row for a write
unit (R112, R259). -/
def Chip.checkWrite (s : Chip) (r : Run) (cn row due bundle : Nat) (mask : BitVec 8) : Chip :=
  if (s.part r.part).debug then
    let c := s.cell cn
    if c.landing r.cycle row mask || c.ringRead row due then s.hazard r 2 cn bundle else s
  else s

/-- A Burin instruction occupies a row in plan cycle x. -/
def BurinOp.covers (o : BurinOp) (row x : Nat) : Bool :=
  decide (o.rowD ≤ row) && decide (row < o.rowD + o.rows) && decide (o.start ≤ x) && decide (x < o.start + o.occ)

/-- The F-cycle in which the Burin reads region row x (R188). -/
def BurinOp.readAt (o : BurinOp) (x : Nat) : Nat := o.start + x * o.occ / o.rows

/-- The rows whose blocks take words of region row x (R187). -/
def BurinOp.sharers (o : BurinOp) (x : Nat) : List Nat :=
  let w := if o.m18 then 16 else 8
  let n := 2 ^ o.m
  let first := x * w / n * n / w
  let till := min o.rows (cdiv (((x * w + w - 1) / n + 1) * n) w)
  (List.range (till - first)).map (first + ·)

/-- The region rows that a write of another engine, landing in region row x at the end of a cycle, leaves unspecified: that row, and where the
Burin reads the row later, the rows transformed with it (R206). -/
def BurinOp.spoils (o : BurinOp) (x due : Nat) : List Nat := if due < o.readAt x then sinsert x (o.sharers x) else [x]

/-- A write of another engine lands in a row at the end of a cycle: what becomes of the instructions that occupy the row (R206). -/
def BurinOp.hit (row due : Nat) (o : BurinOp) : BurinOp :=
  if o.covers row due then { o with spoiled := (o.spoils (row - o.rowD) due).foldl (fun m x => sinsert x m) o.spoiled } else o

/-- A unit of a run reads containers of a physical row of a cell in plan cycle `now`, for the bundle that names it. -/
def Chip.readPad (s : Chip) (r : Run) (cn row now : Nat) (bundle : Nat := 0) (mask : BitVec 8 := BitVec.allOnes 8) :
    Chip × Row × Bool :=
  let s := s.checkRead r cn row now bundle mask
  let c := s.cell cn
  let (p, v, poisoned, e) := c.pad.read now row (maskPairs mask)
  let s := s.setCell cn { c with pad := p }
  let s := s.notePad r.id r.part cn now e bundle
  (s.noteBank r.id cn row now now bundle, v, poisoned)

/-- Read several rows of a cell. -/
def Chip.readRows (s : Chip) (r : Run) (cn now bundle : Nat) : List Nat → Chip × List Row × List Bool
  | [] => (s, [], [])
  | row :: rest =>
    let (s, v, p) := s.readPad r cn row now bundle
    let (s, vs, ps) := s.readRows r cn now bundle rest
    (s, v :: vs, p :: ps)

/-- A row as a read in plan cycle `at_` finds it, with the landings known now (R161, R217): row and poison. -/
def Pad.peek (at_ row : Nat) (p : Pad) : Row × Bool :=
  let q := (p.lands.filter fun l => l.row == row && l.due < at_).foldl Pad.apply p
  (mget 0 row q.rows, q.poison.contains row || q.ue.any fun k => k / 4 == row)

/-- Reads that a trap or a Spool unit makes of a row in a cycle after a write of it lands see that write: the words of a window fill and the
rows of a write unit take what the Pad will hold in their own cycles (R134, R251). -/
def Cell.reread (l : PadLand) (c : Cell) : Cell :=
  let word := fun (x : RegLand) =>
    match x.src with
    | some (row, k, at_) =>
      if row == l.row && l.due < at_ then
        let v := c.pad.peek at_ row
        { x with val := ⟨container v.1 k, v.2⟩ }
      else x
    | none => x
  let unit := fun (u : SpoolUnit) =>
    let j := l.row - u.row
    if u.kind.isRead || l.row < u.row || u.data.length ≤ j || u.readAt + j ≤ l.due then u
    else
      let v := c.pad.peek (u.readAt + j) l.row
      { u with data := lset u.data j v.1, poison := lset u.poison j v.2 }
  { c with scr := { c.scr with lands := c.scr.lands.map word }, units := c.units.map unit }

/-- A write of a run to containers of a physical row of a cell is on its way, to land at the end of plan cycle due. A row that
another engine writes while a Burin instruction occupies it holds an unspecified value, whichever write lands last (R206). -/
def Chip.landPad (s : Chip) (r : Run) (cn row due order : Nat) (mask : BitVec 8) (data : Row) (poison : Bool)
    (bundle : Nat := 0) (origin : Option AutoTag := none) : Chip :=
  let hit := if order = 5 then [] else (s.cell cn).burin.queue.filter fun o => o.covers row due
  let s := if hit.isEmpty then s.checkWrite r cn row due bundle mask else s.hazard r 2 cn bundle
  let k := s.free
  let s := if hit.isEmpty then s else { s with free := k + 4097 }
  let c := s.cell cn
  let l : PadLand :=
    { run := r.id, due := due, order := order, seq := c.seq, row := row, mask := if hit.isEmpty then mask else BitVec.allOnes 8
      data := if hit.isEmpty then data else Config.freeRow (k + 4096), poison := poison
      origin := if hit.isEmpty then origin else none }
  let lost := hit.flatMap fun o => (o.spoils (row - o.rowD) due).map (o.rowD + ·)
  let pad := { c.pad with lands := c.pad.lands.map fun (x : PadLand) =>
    if x.order == 5 && lost.contains x.row then { x with data := Config.freeRow (k + x.row) } else x }
  s.setCell cn (Cell.reread l { c with
    pad := pad.schedule l
    seq := c.seq + 1
    burin := { c.burin with queue := if hit.isEmpty then c.burin.queue else c.burin.queue.map (BurinOp.hit row due) } })

/-- A unit of a run writes containers of a physical row of a cell, landing at the end of plan cycle due, in the bank of the row
(R214). -/
def Chip.writePad (s : Chip) (r : Run) (cn row due order : Nat) (mask : BitVec 8) (data : Row) (poison : Bool)
    (bundle : Nat := 0) (origin : Option AutoTag := none) : Chip :=
  (s.landPad r cn row due order mask data poison bundle origin).noteBank r.id cn row due r.cycle bundle

/-- Write whole rows from a physical row upward. -/
def Chip.writeRows (s : Chip) (r : Run) (cn row due order : Nat) (data : List (Row × Bool)) (bundle : Nat := 0)
    (origin : Option AutoTag := none) : Chip :=
  data.zipIdx.foldl (fun t d => t.writePad r cn (row + d.2) due order (BitVec.allOnes 8) d.1.1 d.1.2 bundle origin) s

/-- A row whose content becomes unspecified inside the partition (R3): a free value, and its poison bit as it was. -/
def Chip.freePadRow (s : Chip) (cn row : Nat) : Chip :=
  let (k, s) := s.takeFree
  s.updCell cn fun c =>
    { c with pad := { c.pad with
        rows := mset 0 row (Config.freeRow k) c.pad.rows, origin := mdel row c.pad.origin, lands := c.pad.lands.filter fun l => l.row != row } }

/-- Make rows of a cell unspecified. -/
def Chip.freePadRows (s : Chip) (cn : Nat) (rows : List Nat) : Chip :=
  rows.eraseDups.foldl (fun t r => t.freePadRow cn r) s

/-- The bank of a row differs between two sets of task slots. -/
def bankMoves (a b : List TaskSlot) (row : Nat) : Bool := bankOf a row != bankOf b row

/-- Make task slots active in a cell: rows whose bank the bias moves hold unspecified values (R219). -/
def Chip.setTasks (s : Chip) (cn : Nat) (ts : List TaskSlot) : Chip :=
  let old := (s.cell cn).scr.tasks
  let biased := (old ++ ts).any fun t => t.biasCount != 0
  let moved := if biased then (List.range 4096).filter fun r => bankMoves old ts r else []
  let s := s.freePadRows cn moved
  s.updCell cn fun c => { c with scr := { c.scr with tasks := ts, shadowTasks := ts } }

/-- The tag of the automorphism route that all these rows of a Pad belong to, as the middle route passes it on (R192). -/
def Pad.originOf (rows : List Nat) (p : Pad) : Option AutoTag :=
  match rows.map fun x => mfind x p.origin with
  | some a :: rest => if rest.all (· == some a) then some { a with moved := true } else none
  | _ => none

/-- Mark a row poisoned. -/
def Chip.poisonRow (s : Chip) (cn row : Nat) : Chip :=
  s.updCell cn fun c => { c with pad := { c.pad with poison := sinsert row c.pad.poison } }

/-- A scrub of a cell's Pad: zero with valid check bytes, no poison (R234). -/
def Chip.scrubPad (s : Chip) (cn : Nat) : Chip := s.updCell cn fun c => { c with pad := {} }

/-- A scrub of every cell of a swatch. Cells that were never touched read zero already. -/
def Chip.scrubSwatch (s : Chip) (sw : Nat) : Chip :=
  { s with cells := s.cells.map fun e => if swatchOf e.1 = sw then (e.1, { e.2 with pad := {} }) else e }

end Sys2Proof.Machine
end

