-- ==== Sys2Proof/Machine/Modular.lean ====
section
/-! DEFINITION. Modular words, reduction, Modulus Table entries and chains (R36 to R49). -/

namespace Sys2Proof.Machine

/-! ### Reduction (R37, R38, R41) -/

/-- The reduction width: 36 for M36 and 18 for M18. -/
def redWidth (m18 : Bool) : Nat := if m18 then 18 else 36

/-- barrett(x, q, mu, w) of the Reduction section. -/
def barrett (x q mu w : Nat) : Nat :=
  let t := (x / 2 ^ (w - 1) * mu) / 2 ^ (w + 1)
  let r := x - t * q
  let r := if q ≤ r then r - q else r
  if q ≤ r then r - q else r

/-- correct(v, q): three conditional subtractions. -/
def correct (v q : Nat) : Nat :=
  let v := if q ≤ v then v - q else v
  let v := if q ≤ v then v - q else v
  if q ≤ v then v - q else v

/-- The reduction width of an entry. -/
def Modulus.w (m : Modulus) : Nat := redWidth m.m18

/-- mod_mul. -/
def Modulus.mul (m : Modulus) (a b : Nat) : Nat := barrett (a * b) m.q m.mu m.w

/-- mod_add. -/
def Modulus.add (m : Modulus) (a b : Nat) : Nat := correct (a + b) m.q

/-- mod_sub: a + 2q - b, which is not negative for operands below 2^w. -/
def Modulus.sub (m : Modulus) (a b : Nat) : Nat := correct (a + 2 * m.q - b) m.q

/-- Drain-reduce of an accumulator (R41). -/
def Modulus.drain (m : Modulus) (a : Nat) : Nat :=
  let r1 := barrett (a / 2 ^ m.w) m.q m.mu m.w
  barrett (r1 * 2 ^ m.w + a % 2 ^ m.w) m.q m.mu m.w

/-- b^e mod q by repeated squaring over n bits of e. -/
def powMod (q b : Nat) : Nat → Nat → Nat
  | 0, _ => 1 % q
  | n + 1, e =>
    let h := powMod q (b * b % q) n (e / 2)
    if e % 2 = 1 then h * b % q else h

/-! ### Entries (Table 2.1) -/

/-- A field of an entry word. -/
def entryBits (e : BitVec 256) (lo n : Nat) : Nat := bits e.toNat lo n

/-- VALID of an entry word. -/
def entryValid (e : BitVec 256) : Bool := bit e.toNat 255

/-- The fields of an entry word that engines use. -/
def Modulus.ofEntry (e : BitVec 256) : Modulus :=
  { q := entryBits e 0 36, mu := entryBits e 64 37, ninv := entryBits e 128 36, psi := entryBits e 192 36,
    twset := entryBits e 228 8, logn := entryBits e 236 5, m18 := entryBits e 241 2 == 1 }

/-- The entry word of fields, with VALID as given. -/
def entryWord (q mu ninv psi twset logn fmt : Nat) (valid : Bool) : BitVec 256 :=
  BitVec.ofNat 256 (q % 2 ^ 36 + mu % 2 ^ 37 * 2 ^ 64 + ninv % 2 ^ 36 * 2 ^ 128 + psi % 2 ^ 36 * 2 ^ 192
    + twset % 256 * 2 ^ 228 + logn % 32 * 2 ^ 236 + fmt % 4 * 2 ^ 241 + b2n valid * 2 ^ 255)

/-- The entry that a passing write of an image stores: its fields, VALID set, reserved bits zero (R42, R43). -/
def validEntry (e : BitVec 256) : BitVec 256 :=
  let m := Modulus.ofEntry e
  entryWord m.q m.mu m.ninv m.psi m.twset m.logn (b2n m.m18) true

/-- Clear VALID of an entry word. -/
def clearValid (e : BitVec 256) : BitVec 256 := e &&& (BitVec.ofNat 256 (2 ^ 255 - 1))

/-- n = d × 2^s with d odd: the exponent of 2, over at most k halvings. -/
def twos : Nat → Nat → Nat
  | 0, _ => 0
  | k + 1, n => if n % 2 = 0 then twos k (n / 2) + 1 else 0

/-- One base of the Miller–Rabin test: x, x², x⁴, … over s squarings reaches n − 1. -/
def mrReaches (n : Nat) : Nat → Nat → Bool
  | 0, _ => false
  | s + 1, x => x == n - 1 || mrReaches n s (x * x % n)

/-- Deterministic Miller–Rabin with bases 2, 3, 5, 7 and 11 (Table 2.2). -/
def isPrimeMR (n : Nat) : Bool :=
  if n < 13 then [2, 3, 5, 7, 11].contains n
  else
    let s := twos 40 (n - 1)
    let d := (n - 1) / 2 ^ s
    [2, 3, 5, 7, 11].all fun a =>
      let x := powMod n (a % n) 40 d
      x == 1 || mrReaches n s x

/-- The smallest ψ ≥ b with ψ^N ≡ −1 mod q, over at most k candidates (R44). -/
def findPsi (q logn : Nat) : Nat → Nat → Nat
  | 0, b => b
  | k + 1, b => if powMod q b 20 (2 ^ logn) == q - 1 then b else findPsi q logn k (b + 1)

/-- The canonical root: the smallest integer in [2, q) with ψ^N ≡ q − 1 (R44). Half of the residues of order dividing 2N
have it, so a bounded search finds it. -/
def canonicalPsi (q logn : Nat) : Nat := findPsi q logn (q - 2) 2

/-- q in the range of R37 for its format, q ≡ 1 mod 2N. -/
def qInRange (q logn : Nat) (m18 : Bool) : Bool :=
  let w := redWidth m18
  decide (2 ^ (w - 1) < q) && decide (q < 2 ^ w) && q % 2 ^ (logn + 1) == 1

/-- The checks of Table 2.2 from the FMT check to the PSI check, in order, on fields. `tw` is the twiddle argument. -/
def checkEntryFields (fmt logn q mu ninv psi tw : Nat) : Status :=
  if 2 ≤ fmt || 2 ≤ tw then .notSupported
  else if logn < 12 || 17 < logn then .badShape
  else if !qInRange q logn (fmt == 1) then .badModulus
  else if !isPrimeMR q then .badModulus
  else if mu != 2 ^ (2 * redWidth (fmt == 1)) / q || ninv * 2 ^ logn % q != 1 || q ≤ ninv then .badModulus
  else if q ≤ psi || powMod q psi 20 (2 ^ logn) != q - 1 then .badModulus
  else .ok

/-- A twiddle set named by an entry is bound to the same q, ψ and LOG2N, or the entry names none (Table 2.2). -/
def twsetMatches (sets : SMap TwSet) (id q psi logn : Nat) : Bool :=
  id == 255 || mfind id sets == some ⟨q, psi, logn⟩

/-- The checks of Table 2.2 on a whole entry word, from its FMT check onward. -/
def checkEntry (sets : SMap TwSet) (e : BitVec 256) : Status :=
  let m := Modulus.ofEntry e
  match checkEntryFields (entryBits e 241 2) m.logn m.q m.mu m.ninv m.psi 0 with
  | .ok => if twsetMatches sets m.twset m.q m.psi m.logn then .ok else .badModulus
  | st => st

/-! ### Chains (R45, R46) -/

/-- The entries a chain names. -/
def ModTable.chainEntries (t : ModTable) (c : Chain) : List (BitVec 256) :=
  (c.index.take (c.qcount + c.pcount)).map fun i => mget 0 (i % 1024) t.entries

/-- The count condition of R46: QCOUNT from 1, QCOUNT + PCOUNT at most 64. -/
def Chain.shapeOk (c : Chain) : Bool := c.qcount != 0 && decide (c.qcount + c.pcount ≤ 64)

/-- A chain is valid against a table (R46): its entries are valid, share one FMT and LOG2N, and hold distinct primes. An index list
shorter than QCOUNT + PCOUNT names no entry for its last positions and so fails here, with ST_BAD_MODULUS (DESIGN CHOICE, log entry 84). -/
def ModTable.chainMeets (t : ModTable) (c : Chain) : Bool :=
  let es := t.chainEntries c
  c.shapeOk && es.length == c.qcount + c.pcount && es.all entryValid
    && (es.map fun e => (entryBits e 241 2, entryBits e 236 5)).eraseDups.length ≤ 1
    && (es.map fun e => entryBits e 0 36).eraseDups.length == es.length

/-- Evaluate the validity of every chain again (R49). -/
def ModTable.revalidate (t : ModTable) : ModTable :=
  { t with chainOk := (t.chains.filter fun c => t.chainMeets c.2).map (·.1) }

/-- The check of a chain write, in two stages (R46). -/
def ModTable.checkChain (t : ModTable) (c : Chain) : Status :=
  if !c.shapeOk then .badShape else if !t.chainMeets c then .badModulus else .ok

/-! ### Use at issue (R55) -/

/-- The check of an entry at issue: VALID, the format, and for the Burin a twiddle set. -/
def ModTable.use (t : ModTable) (i : Nat) (m18 : Bool) (burin : Bool) : Option Modulus :=
  let e := mget 0 (i % 1024) t.entries
  let m := Modulus.ofEntry e
  if entryValid e && m.m18 == m18 && (!burin || m.twset != 255) then some m else none

/-- An entry whatever its format, when valid. -/
def ModTable.useAny (t : ModTable) (i : Nat) (burin : Bool) : Option Modulus :=
  let e := mget 0 (i % 1024) t.entries
  let m := Modulus.ofEntry e
  if entryValid e && (!burin || m.twset != 255) then some m else none

/-- A partition takes effect with new contents: the master active copy, counted when it changes (R48). -/
def Partition.activate (t : ModTable) (p : Partition) : Partition :=
  if p.master = t then p else { p with master := t, commits := p.commits + 1 }

/-- The shadow table becomes active in the swatches of a partition that run no plan (R48). -/
def Chip.takeEffect (s : Chip) (p : Nat) : Chip :=
  let t := (s.part p).shadow.revalidate
  let idle := (s.swatchesOf p).filter fun sw => (s.runOn sw).isNone
  let s := s.updSwatches idle fun w => { w with table := t }
  if idle.isEmpty then s else s.updPart p (Partition.activate t)

end Sys2Proof.Machine
end

