-- ==== Sys2Proof/Machine/Header.lean ====
section
/-! DEFINITION. The header of a KCT container: its fields, its size, its checks (R62 to R86). -/

namespace Sys2Proof.Machine

/-- The header and extension of a container (Tables 3.1 and 3.4). -/
structure Header where
  magic : Nat
  type : Nat
  scheme : Nat
  log2n : Nat
  limbs : Nat
  chain : Nat
  level : Nat
  domain : Nat
  layout : Nat
  scale : Nat
  slots : Nat
  noise : Nat
  parts : Nat
  flags : Nat
  owner : Nat
  seed : Nat
  hcrc : Nat
  keyId : Nat
  keyKind : Nat
  digits : Nat
  galois : Nat
  plain : Nat
  lweDim : Nat
  lweCount : Nat
  request : Nat
  round : Nat
  direction : Nat
  raw : List Byte
deriving DecidableEq, Repr

/-- The little-endian number in n bytes of a list from byte i. -/
def leAt (bs : List Byte) (i n : Nat) : Nat := leNat ((bs.drop i).take n)

/-- The header in 128 bytes. -/
def Header.ofBytes (bs : List Byte) : Header :=
  { magic := leAt bs 0 4, type := leAt bs 4 1, scheme := leAt bs 5 1, log2n := leAt bs 6 1, limbs := leAt bs 7 1
    chain := leAt bs 8 1, level := leAt bs 9 1, domain := leAt bs 10 1, layout := leAt bs 11 1, scale := leAt bs 12 4
    slots := leAt bs 16 4, noise := leAt bs 20 2, parts := leAt bs 22 1, flags := leAt bs 23 1, owner := leAt bs 24 4
    seed := leAt bs 28 32, hcrc := leAt bs 60 4, keyId := leAt bs 64 4, keyKind := leAt bs 68 1, digits := leAt bs 69 1
    galois := leAt bs 72 4, plain := leAt bs 80 8, lweDim := leAt bs 88 2, lweCount := leAt bs 92 4
    request := leAt bs 96 8, round := leAt bs 104 2, direction := leAt bs 106 1, raw := bs }

/-- The MAGIC of a container. -/
def kctMagic : Nat := 0x3154434B

/-- HCRC is the CRC-32C of header bytes 0 to 59 and extension bytes 64 to 127 (R64). -/
def headerCrc (bs : List Byte) : Nat := crc32c (bs.take 60 ++ (bs.drop 64).take 64)

/-- A key container: TYPE 0x04 or 0x05. -/
def Header.isKey (h : Header) : Bool := h.type == 4 || h.type == 5

/-- A seeded container. -/
def Header.seeded (h : Header) : Bool := h.type == 2 || h.type == 5

/-- An LWE vector. -/
def Header.isLwe (h : Header) : Bool := h.type == 6

/-- EXT of FLAGS. -/
def Header.ext (h : Header) : Bool := bit h.flags 0

/-- Stored polynomials (Table 3.3). -/
def Header.stored (h : Header) : Nat :=
  match h.type with
  | 1 | 7 => h.parts
  | 4 => 2 * h.digits
  | 5 => h.digits
  | _ => 1

/-- Size in bytes: R74 for an LWE vector, else R72. -/
def Header.size (h : Header) (m18 : Bool) : Nat :=
  if h.isLwe then 576 * (1 + cdiv (h.lweCount * cdiv (h.lweDim + 1) (if m18 then 16 else 8)) 16)
  else 576 * (1 + h.stored * h.limbs * (2 ^ h.log2n / (if m18 then 256 else 128)))

/-- The extension bytes a type uses; every other one is reserved (R73). -/
def Header.extUsed (h : Header) : List Nat :=
  (if h.isKey then [64, 65, 66, 67, 68, 69] else [])
  ++ (if h.isKey && h.keyKind == 2 then [72, 73, 74, 75] else [])
  ++ (if h.scheme == 2 || h.scheme == 3 then (List.range 8).map (80 + ·) else [])
  ++ (if h.isLwe then [88, 89, 92, 93, 94, 95] else [])
  ++ (if h.type == 7 then (List.range 11).map (96 + ·) else [])

/-- The first reserved byte that is not zero (R65, R66, R73). A nonzero SEED in an unseeded container counts as one, so that step 6 refuses it
(DESIGN CHOICE, log entry 80). -/
def Header.reservedByte (h : Header) : Option Nat :=
  let b := fun i => ((h.raw[i]?).getD 0) != 0
  if h.chain / 16 != 0 then some 8
  else if h.flags / 2 != 0 then some 23
  else if h.scale != 0 && (h.scheme == 2 || h.scheme == 3 || h.isKey) then some 12
  else if h.slots != 0 && h.isKey then some 16
  else if h.seed != 0 && !h.seeded then some 28
  else ((List.range 64).map (64 + ·)).find? fun i => b i && !h.extUsed.contains i

/-- The chain of a header against a table: its fields, its format, its ring degree. -/
def ModTable.chainInfo (t : ModTable) (id : Nat) : Option (Chain × Bool × Nat) :=
  if t.chainOk.contains id then
    match mfind id t.chains with
    | some c =>
      let m := Modulus.ofEntry (mget 0 ((c.index[0]?).getD 0) t.entries)
      some (c, m.m18, m.logn)
    | none => none
  else none

/-- The PARTS of a type (Table 3.3). -/
def Header.partsOk (h : Header) : Bool :=
  match h.type with
  | 1 => h.parts == 2 || h.parts == 3
  | 2 | 4 | 5 | 7 => h.parts == 2
  | _ => h.parts == 1

/-- Steps 6 and 7 of Table 3.8: failing condition, status, step, and the byte that PTN_KCT_LAST.BYTE names: that of the field's first byte, the
first failing line of this list where several fields of a step fail (DESIGN CHOICE, log entry 79). -/
def Header.checks67 (h : Header) : List (Bool × Status × Nat × Nat) :=
  [ (h.type = 0 || 7 < h.type, .notSupported, 6, 4),
    (h.scheme = 0 || 4 < h.scheme || (h.scheme == 4) != (h.type == 6), .notSupported, 6, 5),
    (2 ≤ h.domain, .notSupported, 6, 10),
    (5 ≤ h.layout, .notSupported, 6, 11),
    (h.isKey && (h.keyKind = 0 || 3 < h.keyKind), .notSupported, 6, 68),
    (h.type == 7 && 2 ≤ h.direction, .notSupported, 6, 106),
    (h.reservedByte.isSome, .notSupported, 6, h.reservedByte.getD 0),
    (h.log2n < 12 || 17 < h.log2n, .badShape, 7, 6),
    (!h.partsOk, .badShape, 7, 22),
    (h.isKey && (h.digits = 0 || 8 < h.digits), .badShape, 7, 69),
    (h.isLwe && (h.lweDim = 0 || 2048 < h.lweDim), .badShape, 7, 88),
    (!h.isLwe && !h.isKey && (if h.scheme = 1 then 2 ^ h.log2n / 2 else 2 ^ h.log2n) < h.slots, .badShape, 7, 16),
    (h.isKey && h.keyKind == 2 && (h.galois % 2 = 0 || 2 ^ (h.log2n + 1) ≤ h.galois), .badShape, 7, 72),
    (!h.isLwe && (h.layout = 2 || h.layout = 4) && h.log2n < 15, .badShape, 7, 11),
    (h.isLwe && h.layout != 0, .badShape, 7, 11),
    (h.isLwe && h.domain != 0, .badShape, 7, 10) ]

/-- A format suits a layout at a ring degree (R75). -/
def layoutSuits (layout log2n : Nat) (m18 : Bool) : Bool :=
  match layout with
  | 1 | 3 => !m18 || decide (13 ≤ log2n)
  | 2 | 4 => if m18 then decide (16 ≤ log2n) else decide (15 ≤ log2n)
  | _ => true

/-- The LIMBS of R67, or 1 for an LWE vector. -/
def Header.limbsWant (h : Header) (c : Chain) : Nat :=
  if h.isLwe then 1 else h.level + 1 + if h.ext then c.pcount else 0

/-- Steps 8 and 9 of Table 3.8 against a table (R81 repeats them). -/
def Header.checks89 (h : Header) (t : ModTable) : List (Bool × Status × Nat × Nat) :=
  match t.chainInfo (h.chain % 16) with
  | none => [(true, .badModulus, 8, 8)]
  | some (c, m18, logn) =>
    [ (logn != h.log2n, .badModulus, 8, 8),
      (!layoutSuits h.layout h.log2n m18, .badModulus, 8, 8),
      (c.qcount ≤ h.level, .badShape, 9, 9),
      (h.limbs = 0 || h.limbs != h.limbsWant c, .badShape, 9, 7),
      (h.isKey && !h.ext, .badShape, 9, 23),
      (h.isLwe && h.ext, .badShape, 9, 23) ]

/-- The format of a header's chain. -/
def Header.m18 (h : Header) (t : ModTable) : Bool := ((t.chainInfo (h.chain % 16)).map fun x => x.2.1).getD false

/-- Steps 10 to 12 of Table 3.8. -/
def Header.checks1012 (h : Header) (t : ModTable) (room : Nat) (owner : Option Nat) : List (Bool × Status × Nat × Nat) :=
  [ ((h.scheme == 2 || h.scheme == 3) && (h.plain < 2 || 2 ^ 36 ≤ h.plain), .badModulus, 10, 80),
    (room < h.size (h.m18 t), .bound, 11, 0),
    (match owner with | some o => o != h.owner | none => false, .notOwner, 12, 24) ]

/-- The first failing check: status, step, byte. -/
def firstFail : List (Bool × Status × Nat × Nat) → Option (Status × Nat × Nat)
  | [] => none
  | (bad, st, step, byte) :: rest => if bad then some (st, step, byte) else firstFail rest

end Sys2Proof.Machine
end

