-- ==== Sys2Proof/Machine/Respond.lean ====
section
/-! DEFINITION. How the device answers: mailbox responses, completion entries, KRP messages, and the submission of Seal jobs. -/

namespace Sys2Proof.Machine

/-! ### Mailboxes -/

/-- The mailbox of a function. -/
def Chip.mbx (s : Chip) : Fn → Mailbox
  | .pf0 => s.tlr.mbx
  | .vf n => (s.part n).mbx

/-- Change the mailbox of a function. -/
def Chip.updMbx (s : Chip) (f : Fn) (g : Mailbox → Mailbox) : Chip :=
  match f with
  | .pf0 => { s with tlr := { s.tlr with mbx := g s.tlr.mbx } }
  | .vf n => s.updPart n fun p => { p with mbx := g p.mbx }

/-- Write the response half of the entry at the head and advance the head (R443). A call that no tail advance announced leaves the
ring's counts alone. -/
def Mailbox.answer (r : Response) (m : Mailbox) : Mailbox :=
  if 0 < m.pending then
    { m with head := (m.head + 1) % 16, pending := m.pending - 1, responses := r :: m.responses.take 15 }
  else { m with responses := r :: m.responses.take 15 }

/-- Answer a call. -/
def Chip.respond (s : Chip) (c : Call) (code : Nat) (st : Status) (detail : Nat) (result : List Nat) : Chip :=
  if c.quiet then s
  else s.updMbx c.fn (Mailbox.answer ⟨code, c.tag, st, if st = .ok then 0 else detail, result⟩)

/-! ### Completion rings (R558 to R562) -/

/-- The owner of a ring may be written to: Bus Master Enable is set and no FLR has stopped the ring (R552, R562). -/
def Chip.ringOpen (s : Chip) (p : Nat) (r : Ring) : Bool :=
  (if r.ownerPf0 then s.pci.busMaster else (s.part p).busMaster) && !r.flr

/-- Change a ring pair of a partition. -/
def Chip.updRing (s : Chip) (p n : Nat) (f : Ring → Ring) : Chip :=
  s.updPart p fun q => { q with rings := mupd {} n f q.rings }

/-- Write one completion entry: SQ_HEAD and PHASE as they stand; PHASE changes on each wrap (R560). -/
def Ring.write (c : Completion) (r : Ring) : Ring :=
  let t := (r.cqTail + 1) % (max 1 r.cqSize)
  { r with
    written := r.written ++ [{ c with sqHead := r.sqHead, phase := r.phase }]
    cqTail := t
    phase := if t = 0 then !r.phase else r.phase
    taken := r.taken - 1 }

/-- A completion entry falls due: it is written and counted in event 24 + r, or waits in the Collar (R552, R560). -/
def Chip.complete (s : Chip) (p n : Nat) (c : Completion) : Chip :=
  let r := mget {} n (s.part p).rings
  if !r.enabled then s
  else if s.ringOpen p r then (s.updRing p n (Ring.write c)).raisePart p (24 + n)
  else s.updRing p n fun r => { r with waiting := r.waiting ++ [c] }

/-! ### KRP messages -/

/-- A session by its number. -/
def Chip.session? (s : Chip) (id : Nat) : Option KrpSession := s.krp.sessions.find? fun x => x.id == id

/-- Change a session. -/
def Chip.updSession (s : Chip) (id : Nat) (f : KrpSession → KrpSession) : Chip :=
  { s with krp := { s.krp with sessions := s.krp.sessions.map fun (x : KrpSession) => if x.id == id then f x else x } }

/-- Change an Ethernet port. -/
def Chip.updKrpPort (s : Chip) (p : Nat) (f : KrpPort → KrpPort) : Chip :=
  { s with krp := { s.krp with ports := mupd {} p f s.krp.ports } }

/-- A frame leaves on a carrier: counted on an Ethernet port, written into a posted receive buffer of a host queue or held until
one is posted (R559). A looped port receives its own frames, which are on no session's binding (R476, R502). -/
def Chip.frameOut (s : Chip) (c : Carrier) (len : Nat) : Chip :=
  match c with
  | .net p _ _ =>
    let loop := s.krp.loopOn && s.krp.loopPort == p
    s.updKrpPort p fun x =>
      if loop then { x with tx := x.tx + 1, rx := x.rx + 1, session := (x.session + 1) % 2 ^ 12 } else { x with tx := x.tx + 1 }
  | .host p _ n =>
    let r := mget {} n (s.part p).rings
    match r.rx with
    | tag :: rest =>
      (s.updRing p n fun r => { r with rx := rest }).complete p n { status := .ok, kind := 2, tag := tag, value := len }
    | [] => s.updRing p n fun r => { r with rxHeld := r.rxHeld ++ [List.replicate len 0] }

/-- The device sends a message of a session (R477): packet number and frame count advance. -/
def Chip.krpSend (s : Chip) (id : Nat) (m : KrpSent) (len : Nat) : Chip :=
  match s.session? id with
  | none => s
  | some x =>
    (s.updSession id fun x =>
      { x with sent := x.sent ++ [m], pnOut := x.pnOut + 1, framesOut := x.framesOut + 1 }).frameOut x.carrier len

/-- A NACK (R487). -/
def Chip.nack (s : Chip) (session id : Nat) (st : Status) (reason index retry : Nat) (ranges : List (Nat × Nat)) : Chip :=
  s.krpSend session ⟨0x0A, id, st, reason, index, 0, retry, ranges⟩ (24 + 24 + 8 * ranges.length + 16)

/-! ### Seal jobs (R504, R527) -/

/-- C-cycles since a time. -/
def Chip.cCycles (s : Chip) (since : Nat) : Nat := (s.time - since) / 165

/-- Start the next job of the Seal when none runs: HIGH jobs first, then a LOW job that has yielded, then LOW jobs in order
(R504, R505, R528). -/
def Seal.next (time : Nat) (x : Seal) : Seal :=
  match x.running with
  | some _ => x
  | none =>
    match x.high with
    | j :: rest => { x with running := some { j with since := time }, high := rest }
    | [] =>
      match x.low.find? (·.yielded), x.low with
      | some j, _ =>
        { x with running := some { j with yielded := false, since := time + 64 * 165 }, low := x.low.filter fun k => k.id != j.id }
      | none, j :: rest => { x with running := some { j with since := time }, low := rest }
      | none, [] => x

/-- The algorithms that have not failed their known-answer tests; codes 1 to 7 are those of Table 18.7, 8 X25519, 9 ML-KEM-768, 10
ML-KEM-1024, 11 the hash unit, 12 the session crypto unit, 13 the Seal's raw mode. -/
def Chip.algorithm (s : Chip) (n : Nat) : Bool := !s.trust.katFailed.contains n

/-- Submit a Seal job: refused when its queue is full. -/
def Chip.sealSubmit (s : Chip) (use : SealUse) (high : Bool) (length : Nat) : Chip × Bool :=
  let x := s.trust
  if high && 256 ≤ x.high.length || !high && 1024 ≤ x.low.length then (s, false)
  else
    let j : SealJob := { id := x.nextJob, use := use, high := high, length := length }
    let x := { x with nextJob := x.nextJob + 1 }
    let x := if high then { x with high := x.high ++ [j] } else { x with low := x.low ++ [j] }
    ({ s with trust := x.next s.time }, true)

/-- C-cycles of a signature check by ALG and the signature's length, which tells the RSA key sizes apart (Table 18.2). -/
def verifyCycles : Nat → Nat → Nat
  | 1, _ => 19200
  | 2, _ => 28800
  | 3, _ => 64000
  | 4, _ => 128000
  | 5, _ => 48000
  | _, 256 => 4000
  | _, 384 => 8000
  | _, _ => 12000

/-- A signature's ALG and key size are those of Table 18.2, and its algorithm works (R506, R536). -/
def Chip.checkable (s : Chip) (alg len : Nat) : Bool := s.algorithm alg && (alg < 6 || [256, 384, 512].contains len)

/-- The C-cycles of the signatures of a SIG_KIND: the attempts of an ML-DSA signature are a free number (R506, Table 18.2). -/
def Chip.signLength (s : Chip) (kind : Nat) : Nat × Chip :=
  let (k, t) := s.takeFree
  ((if kind = 3 then 0 else 24000 * (1 + Config.freeNat k)) + (if kind = 2 then 0 else 64000), t)

end Sys2Proof.Machine
end

