-- ==== Sys2Proof/Machine/Handles.lean ====
section
/-! DEFINITION. Handles and the release of buffers (R447 to R449). -/

namespace Sys2Proof.Machine

/-- The stack of a device physical address below the Linings (R270). -/
def stackOf (addr : Nat) : Nat := addr / 0x1000000000

/-- The line at a device physical address of a plate's Lining (R225). -/
def lineOf (addr : Nat) : Nat := (addr % 0x40000000) / 144

/-- The first device physical address of control memory (Table 20.6). -/
def controlBase : Nat := 0xA000000000

/-- The index and the generation of a handle. -/
def handleOf (index gen : Nat) : Nat := index % 2 ^ 24 + gen % 256 * 2 ^ 24

/-- The generation after this one: 255 is followed by 1. -/
def nextGen (g : Nat) : Nat := if 255 ≤ g then 1 else g + 1

/-- The buffer a handle names when it is current (R447, R448). -/
def Chip.bufOf (s : Chip) (handle : Nat) : Option Buf :=
  match mfind (handle % 2 ^ 24) s.bufs with
  | some b => if b.live && b.gen == handle / 2 ^ 24 % 256 && b.gen != 0 then some b else none
  | none => none

/-- The stack offset that backs byte y of control memory on its stack, spare granules included (R564). -/
def Stack.backing (x : Stack) (y : Nat) : Nat := 0x8F8000000 + 4096 * mget (y / 32768) (y / 32768) x.redirect + y % 4096

/-- The byte of control memory that an atom of stack h backs, if it backs one. -/
def Stack.backs (x : Stack) (h atom : Nat) : Option Nat :=
  if atom * 64 < 0x8F8000000 then none
  else
    let g := (atom * 64 - 0x8F8000000) / 4096
    let own := if g < 28672 && (mfind g x.redirect).isNone then some g else (x.redirect.find? fun e => e.2 == g).map (·.1)
    own.map fun k => 32768 * k + 4096 * h + atom * 64 % 4096

/-- The errors of the backing atoms of some 64-byte lines of control memory are gone: the lines hold new data. -/
def Chip.clearBacking (s : Chip) (mine : Nat → Bool) : Chip :=
  { s with hbm := s.hbm.map fun (e : Nat × Stack) =>
      let keep := fun (l : List Nat) => l.filter fun k => !((e.2.backs e.1 k).any fun y => mine (y / 64))
      if 8 ≤ e.1 then e
      else (e.1, { e.2 with poison := keep e.2.poison, ceAtoms := keep e.2.ceAtoms, ueAtoms := keep e.2.ueAtoms }) }

/-- Zero the bytes of a region and clear their poison (R294, R449). -/
def Chip.clearRegion (s : Chip) (a n : Nat) : Chip :=
  let s := { s with mem := memClear s.mem a n }
  if n = 0 then s
  else if a < 0x8000000000 || controlBase ≤ a then
    let first := (a % 0x1000000000) / 64
    let last := (a % 0x1000000000 + n - 1) / 64
    let s := if controlBase ≤ a then s.clearBacking fun k => decide (first ≤ k) && decide (k ≤ last) else s
    s.updStack (stackOf a) fun x => { x with
      poison := x.poison.filter fun k => decide (k < first) || decide (last < k)
      ceAtoms := x.ceAtoms.filter fun k => decide (k < first) || decide (last < k)
      ueAtoms := x.ueAtoms.filter fun k => decide (k < first) || decide (last < k) }
  else
    let plate := (a - 0x8000000000) / 0x40000000
    s.updLining plate fun x => { x with
      poison := x.poison.filter fun k => decide (k < lineOf a) || decide (lineOf (a + n - 1) < k)
      ce := x.ce.filter fun k => decide (k / 16 < lineOf a) || decide (lineOf (a + n - 1) < k / 16)
      ue := x.ue.filter fun k => decide (k / 16 < lineOf a) || decide (lineOf (a + n - 1) < k / 16)
      origin := x.origin.filter fun e => decide (e.1 < lineOf a) || decide (lineOf (a + n - 1) < e.1) }

/-- A handle index stops naming a buffer: its generation advances, and apertures that map it are unmapped (R448, R570). -/
def Chip.killHandle (s : Chip) (i : Nat) : Chip :=
  match mfind i s.bufs with
  | none => s
  | some b =>
    let h := handleOf i b.gen
    { s with
      bufs := mput i { b with gen := nextGen b.gen, live := false, grants := [], view := none } s.bufs
      pci := { s.pci with windows := s.pci.windows.filter fun w => w.2.handle != some h } }

/-- Revoke every grant on a buffer: the grantees' handles are no longer current (R348, R449). -/
def Chip.revokeAll (s : Chip) (i : Nat) : Chip :=
  match mfind i s.bufs with
  | none => s
  | some b =>
    let s := b.grants.foldl (fun t g => t.killHandle (g.handle % 2 ^ 24)) s
    { s with bufs := mput i { (mget b i s.bufs) with grants := [] } s.bufs }

/-- Release a buffer: its grants are revoked, its bytes zeroed, its generation advances (R448, R449). -/
def Chip.releaseBuf (s : Chip) (handle : Nat) : Chip :=
  match s.bufOf handle with
  | none => s
  | some b =>
    let i := handle % 2 ^ 24
    let s := s.revokeAll i
    let s := if b.view.isNone then s.clearRegion b.addr (576 * b.bolts) else s
    let s := match b.view with
      | some o =>
        match mfind o s.bufs with
        | some ob => { s with bufs := mput o { ob with grants := ob.grants.filter fun g => g.handle != handle } s.bufs }
        | none => s
      | none => s
    s.killHandle i

/-- The header and extension that firmware writes for a produced container: the template with its HCRC (R66). -/
def outputHeader (template : List Byte) : List Byte :=
  let bs := (template ++ List.replicate (128 - template.length) 0).take 128
  bs.take 60 ++ natLE 4 (headerCrc bs) ++ bs.drop 64

/-- Write the request id, the round and DIRECTION 0 into an envelope, whose HCRC follows; its TYPE is 0x07 (R490). -/
def Chip.stampEnvelope (s : Chip) (handle request round : Nat) : Chip :=
  match s.bufOf handle with
  | none => s
  | some b =>
    let h := memReadN s.mem b.addr 128
    let h := h.take 4 ++ natLE 1 7 ++ (h.drop 5).take 91 ++ natLE 8 request ++ natLE 2 round ++ natLE 1 0 ++ h.drop 107
    { s with mem := memWriteN s.mem b.addr (outputHeader h) }

end Sys2Proof.Machine
end

