-- ==== Sys2Proof/Machine/Complete.lean ====
section
/-! DEFINITION. Receipts and the completion of a request (R456, R462 to R464). -/

namespace Sys2Proof.Machine

/-- UTC nanoseconds of the device (R463): relative to the Cold reset until the time is first set. -/
def Chip.utc (s : Chip) : Nat :=
  if s.tlr.timeSet then s.tlr.timeBase + 40 * (s.aTick - s.tlr.timeSetAt) else 40 * s.aTick

/-- The bytes of the container in a buffer, over the size of R72 or R74. -/
def Chip.containerBytes (s : Chip) (part handle : Nat) : List Byte :=
  match s.bufOf handle with
  | none => []
  | some b =>
    let h := Header.ofBytes (memReadN s.mem b.addr 128)
    memReadN s.mem b.addr (h.size (h.m18 (s.part part).master))

/-- The number by which a request is known outside: its KRP id, its ring and sequence number, or the device's own number. -/
def Request.outer (q : Request) : Nat :=
  match q.source with
  | .krp _ id => id
  | .ring n _ seq => n * 2 ^ 56 + seq % 2 ^ 56
  | .call _ _ | .silent => q.id

/-- The plan a request runs, while its slot is occupied. -/
def Chip.planOf (s : Chip) (q : Request) : Option Plan := mfind q.slot (s.part q.part).plans

/-- The hashes of the HASHED entries of one direction (R462): zero for the outputs of a request that stopped. -/
def Chip.ioHashes (s : Chip) (q : Request) (pl : Plan) (hs : List Nat) (dir : Nat) (zero : Bool) : List Byte :=
  (pl.io.zip hs).flatMap fun x =>
    if x.1.dir == dir && x.1.hashed then
      if zero then List.replicate 48 0 else sha384 (s.containerBytes q.part x.2)
    else []

/-- The Handoff policy of a request's service (R489). -/
def Chip.policyFor (s : Chip) (q : Request) : HandoffPolicy :=
  ((q.service.bind fun n => mfind n (s.part q.part).services).map (·.handoff)).getD {}

/-- A request runs as stages with Handoff rounds between them. -/
def Chip.staged (s : Chip) (q : Request) : Bool :=
  let h := s.policyFor q
  !q.hashes.isEmpty || (h.allowed && h.rounds != 0)

/-- The plan hash that a receipt states: of a Handoff service the hash of the hashes of the stages that ran (R489). -/
def Chip.statedHash (s : Chip) (q : Request) (pl : Plan) : Nat :=
  if s.staged q then
    let hs := q.hashes ++ if q.phase = .running then [pl.hash] else []
    (sha384Num (hs.flatMap fun h => natLE 48 h.toNat)).toNat
  else pl.hash.toNat

/-- The body of a receipt, bytes 0 to BODY_LEN − 1 of Table 16.6. Input hashes are those taken at the start; of a request that never
started, the containers as they stand. -/
def Chip.receiptBody (s : Chip) (q : Request) (st : Status) : List Byte :=
  let pl := (s.planOf q).getD {}
  let ins := q.inHashes.getD (s.ioHashes q pl q.handles 0 false)
  let outs := s.ioHashes q pl q.handles 1 (st != .ok)
  natLE 4 0x3143524B ++ natLE 2 1 ++ natLE 1 q.receiptKind ++ natLE 1 0 ++ natLE 4 (96 + ins.length + outs.length)
    ++ natLE 1 q.part ++ natLE 1 (q.service.getD 0) ++ natLE 2 st.code ++ natLE 8 q.outer ++ natLE 8 s.utc
    ++ natLE 8 s.configId ++ natLE 48 (s.statedHash q pl) ++ natLE 1 (ins.length / 48) ++ natLE 1 (outs.length / 48) ++ natLE 2 0
    ++ natLE 4 q.owner ++ ins ++ outs

/-- The outputs of a request, handle and bytes, in IO order. -/
def Chip.outputsOf (s : Chip) (q : Request) : List (Nat × Nat) :=
  let pl := (s.planOf q).getD {}
  ((pl.io.zip q.handles).filter fun x => x.1.dir == 1).map fun x => (x.2, (s.containerBytes q.part x.2).length)

/-- Submit the signatures of a held receipt; a full queue leaves them for later (R527). -/
def Chip.submitReceipt (s : Chip) (part id kind : Nat) : Chip :=
  let (n, s) := s.signLength kind
  (s.sealSubmit (.receipt part id) true n).1

/-- Hold a completed request: its receipt, with its signatures submitted, where the service has one (R462), and for a KRP request its
outputs, for as long as R464 holds it. Its other own buffers are released. A request that a reset ends is not held (R470). -/
def Chip.holdRequest (s : Chip) (q : Request) (st : Status) : Chip :=
  let session := match q.source with
    | .krp x _ => some x
    | _ => none
  if st = .resetInProgress || (q.receiptKind = 0 && session.isNone) then s
  else
    let outs := if session.isSome && st = .ok then s.outputsOf q else []
    let keep := q.own.filter fun h => outs.any fun o => o.1 == h
    let r : Receipt := {
      request := q.outer, body := if q.receiptKind = 0 then [] else s.receiptBody q st, sigKind := q.receiptKind
      ready := q.receiptKind == 0, doneAt := s.aTick, handle := q.receiptBuf, session := session, status := st, outs := outs
      own := keep }
    let s := (q.own.filter fun h => !keep.contains h).foldl (fun (t : Chip) h => t.releaseBuf h) s
    let s := s.updPart q.part fun p => { p with receipts := mput q.id r p.receipts }
    if q.receiptKind = 0 then s else s.submitReceipt q.part q.id q.receiptKind

/-- A request that a service gives a receipt is held. -/
def Chip.holdsReceipt (s : Chip) (q : Request) : Bool := (mfind q.id (s.part q.part).receipts).any fun r => r.sigKind != 0

/-- Send a RECEIPT: the notice, the status, the receipt where there is one. -/
def Chip.receiptOut (s : Chip) (part id session rid : Nat) (st : Status) : Chip :=
  let len := match mfind id (s.part part).receipts with
    | some r => r.body.length + r.signatures.length
    | none => 0
  s.krpSend session { type := 0x06, id := rid, status := st } (24 + 16 + len + 16)

/-- An open request is complete. -/
def Chip.dropRequest (s : Chip) (id : Nat) : Chip := { s with requests := s.requests.filter fun x => x.id != id }

/-- Send the RECEIPT of a KRP request, which is then complete (R456). -/
def Chip.sendReceipt (s : Chip) (q : Request) (session rid : Nat) (st : Status) : Chip :=
  (s.receiptOut q.part q.id session rid st).dropRequest q.id

/-- The session of a KRP request is open. -/
def Chip.sessionOpen (s : Chip) (id : Nat) : Bool := (s.session? id).any fun x => !x.half

/-- Downloads of a request's RESULT chunks are still to send. -/
def Chip.downloading (s : Chip) (session id : Nat) : Bool :=
  (s.session? session).any fun x => x.downloads.any fun d => d.request == id && !d.handoff && decide (d.next * 2 ^ x.chunkLog2 < d.bytes)

/-- A KRP request whose results are sent and whose receipt is signed sends its RECEIPT (R464). -/
def Chip.tryReceipt (s : Chip) (id : Nat) : Chip :=
  match s.requests.find? fun q => q.id == id with
  | none => s
  | some q =>
    match q.source, q.outcome with
    | .krp session rid, some st =>
      let ready := (mfind id (s.part q.part).receipts).all (·.ready)
      if s.sessionOpen session && ready && !s.downloading session id then s.sendReceipt q session rid st else s
    | _, _ => s

/-- Complete an open request with a status: it is held, and its completion is written where its source waits. Over KRP an ST_OK request
first sends its outputs; its RECEIPT follows them and the signatures (R456, R462, R464, R485, R495). -/
def Chip.completeRequest (s : Chip) (id : Nat) (st : Status) : Chip :=
  match s.requests.find? fun q => q.id == id && q.outcome.isNone with
  | none => s
  | some q =>
    let s := s.holdRequest q st
    match q.source with
    | .call fn tag => (s.dropRequest id).respond ⟨fn, tag, 0, true, false⟩ 0x0302 st 0 [q.id]
    | .silent => s.dropRequest id
    | .ring r tag _ =>
      (s.dropRequest id).complete q.part r
        { status := st, kind := 0, receipt := s.holdsReceipt q, tag := tag, requestId := q.outer }
    | .krp session rid =>
      if !s.sessionOpen session then s.dropRequest id
      else
        let outs := ((mfind id (s.part q.part).receipts).map (·.outs)).getD []
        let s := s.updSession session fun x => { x with
          transfers := x.transfers.filter fun (t : Transfer) => t.id != rid || t.kind == TransferKind.key
          downloads := x.downloads ++ outs.zipIdx.map fun o =>
            { requestId := rid, request := id, handoff := false, index := o.2, handle := o.1.1, bytes := o.1.2 } }
        let s := { s with requests := s.requests.map fun (x : Request) =>
          if x.id == id then { x with outcome := some st, phase := .signing, timer := none } else x }
        s.tryReceipt id

/-! ### Handoff rounds (R489 to R491) -/

/-- The owner endpoint of a request: of the open sessions with its owner tag that set OWNER_ENDPOINT, the one open longest (R489). -/
def Chip.ownerEndpoint (s : Chip) (part owner : Nat) : Option Nat :=
  let l := s.krp.sessions.filter fun x => !x.half && x.ownerEndpoint && x.part == part && x.owner == owner
  match l with
  | [] => none
  | x :: rest => some (rest.foldl (fun (a : KrpSession) y => if y.openedAt < a.openedAt then y else a) x).id

/-- The session a round goes to. -/
def Chip.roundSession (s : Chip) (q : Request) (h : HandoffPolicy) : Option Nat :=
  if h.dest = 0 then
    match q.source with
    | .krp x _ => if s.sessionOpen x then some x else none
    | _ => none
  else s.ownerEndpoint q.part q.owner

/-- Zero and release some handles, and take them from a request. -/
def Chip.dropHandles (s : Chip) (id : Nat) (hs : List Nat) : Chip :=
  let s := hs.foldl (fun (t : Chip) h => t.releaseBuf h) s
  { s with requests := s.requests.map fun (x : Request) =>
      if x.id == id then { x with own := x.own.filter fun h => !hs.contains h } else x }

/-- A round fails: the event and the count, the mask store and the envelopes zeroed and released, the request completed with ST_TIMEOUT
(R491). -/
def Chip.failRound (s : Chip) (id : Nat) : Chip :=
  match s.requests.find? fun q => q.id == id && q.phase == .handoff with
  | none => s
  | some q =>
    let mine := fun (x : Transfer) => x.kind == TransferKind.handoff && some x.handle == q.env
    let here := fun (x : KrpSession) (t : Transfer) => t.kind == TransferKind.handoff && t.id == q.outer && some x.id == q.dest
    let back := s.krp.sessions.flatMap fun (x : KrpSession) => (x.transfers.filter (here x)).map (·.handle)
    let s := { s with krp := { s.krp with sessions := s.krp.sessions.map fun (x : KrpSession) => { x with
      transfers := x.transfers.filter fun (t : Transfer) => !(mine t || here x t)
      downloads := x.downloads.filter fun d => !(d.handoff && (d.request == id)) } } }
    let s := s.dropHandles id (q.env.toList ++ q.mask.toList ++ back)
    let s := s.updCnt q.part fun c => { c with handoffOut := c.handoffOut + 1 }
    (s.raiseBoth q.part 11 9 none none 0).completeRequest id .timeout

/-- A stage that is not the last has passed FINAL: the round begins. The envelope is completed with the request's id, the round and
direction 0, and is sent to the round's session; without one the round fails (R490, R491). -/
def Chip.beginRound (s : Chip) (q : Request) (h : HandoffPolicy) : Chip :=
  let pl := (s.planOf q).getD {}
  let stage := (h.stages[q.round]?).getD ⟨0, 0, 0, 0⟩
  let env := q.handles[stage.envOut]?
  let s := match env with
    | some e => s.stampEnvelope e q.outer q.round
    | none => s
  let dest := s.roundSession q h
  let q := { q with
    phase := .handoff, hashes := q.hashes ++ [pl.hash], env := env, mask := q.handles[stage.mask]?, timer := none, dest := dest
    first := if q.round = 0 then q.handles else q.first }
  let s := { s with requests := s.requests.map fun (x : Request) => if x.id == q.id then q else x }
  match dest, env with
  | some session, some e =>
    s.updSession session fun x => { x with
      downloads := x.downloads ++ [{
        requestId := q.outer, request := q.id, handoff := true, index := q.round, handle := e
        bytes := (s.containerBytes q.part e).length }] }
  | _, _ => s.failRound q.id

/-- The run of a request ended: a stage of a Handoff service that completed and is not the last is followed by a round, every other run
completes the request. -/
def Chip.endRequest (s : Chip) (id : Nat) (st : Status) : Chip :=
  match s.requests.find? fun q => q.id == id && q.outcome.isNone with
  | none => s
  | some q =>
    let h := s.policyFor q
    if st = .ok && h.allowed && q.round < h.rounds then s.beginRound q h else s.completeRequest id st

end Sys2Proof.Machine
end

