-- ==== Sys2Proof/Machine/Stop.lean ====
section
/-! DEFINITION. How a plan stops: at a fault in the same F-cycle (R119, R122), or at a stitch point (R117). -/

namespace Sys2Proof.Machine

/-! ### Service Grade (R34, R580, R597) -/

/-- The connected Seam ports (R19). -/
def seamPorts : List Nat :=
  (List.range 8).flatMap fun p => ([0, 1, 2, 3].filter fun x => x == 0 || (seamPeer p x).isSome).map fun x => portKey p x

/-- A Seam port is in Fray or down. A port that trains or is under test counts as neither: the grade that holds without it stays (R34; log 83,
DESIGN CHOICE). -/
def SeamPort.degraded (p : SeamPort) : Bool := p.state == 11 || (p.mode == 1 && decide (8 ≤ p.state) && decide (p.state ≤ 10))

/-- A Selvage link is in Fray or down. -/
def SlvLink.degraded (l : SlvLink) : Bool := l.state == 10 || (l.mode == 1 && decide (7 ≤ l.state) && decide (l.state ≤ 9))

/-- The grade that the units in service make (R34): a Selvage link is in use when a route names it; none above Management-only until the first report of R580. -/
def Chip.gradeNow (s : Chip) : Grade :=
  let n := ((List.range 64).filter fun sw => (s.swatch sw).inService).length
  if !s.boot.gradeReported || n = 0 then .mgmt
  else if n < 64 then .reduced
  else if (seamPorts.any fun k => (s.seam k).degraded)
      || ((List.range 16).any fun l => (s.link l).degraded && s.fabric.routes.any fun m => bit m.2 l) then .frayed
  else .full

/-- Take the present grade: a change raises EV_GRADE_CHANGE (R580, R597). -/
def Chip.regrade (s : Chip) : Chip :=
  let g := s.gradeNow
  if g == s.grade then s else { s with grade := g }.raiseDev 20 none none none 0

/-! ### Rows of unfinished work -/

/-- The Pad rows a Press instruction has still to write. -/
def PressOp.dest (o : PressOp) : List Nat :=
  if o.kind == .drain && !o.tap then (List.range 12).map (o.rowD + ·) |>.drop (4 * o.done) else []

/-- The Pad rows a Stipple instruction has still to write: those with an enabled lane. -/
def StipOp.dest (o : StipOp) : List Nat :=
  ((List.range (4 * o.count)).drop (4 * o.done)).filterMap fun r =>
    if (o.mask.toNat / 2 ^ (8 * (r % 4))) % 256 = 0 then none else some (o.rowD + r)

/-- The Pad rows a Burin instruction has still to write. -/
def BurinOp.dest (o : BurinOp) : List Nat := ((List.range o.rows).drop o.done).map (o.rowD + ·)

/-- The ring rows of the read units in flight of a cell for a run. -/
def Cell.flightRows (c : Cell) (id : Nat) : List Nat :=
  c.units.flatMap fun u =>
    if u.run == id && u.kind.isRead && u.stage != .landing then
      match mfind u.thread c.threads with
      | some t => (List.range u.kind.rows).map (t.unitRow u.k + ·)
      | none => []
    else []

/-- The rows that a run's engine work in a cell has still to write. -/
def Cell.pendingRows (c : Cell) (id : Nat) : List Nat :=
  (c.press.queue.flatMap fun o => if o.run == id then o.dest else [])
  ++ (c.stip.queue.flatMap fun o => if o.run == id then o.dest else [])
  ++ (c.burin.queue.flatMap fun o => if o.run == id then o.dest else [])

/-- The rows that a stop leaves unspecified in a cell: those of discarded work and of writes that had not landed (R176, R207,
R262). -/
def Cell.strandedRows (c : Cell) (id : Nat) : List Nat :=
  c.pendingRows id ++ c.flightRows id
  ++ (c.pad.lands.filter (·.run == id)).map (·.row)

/-- A cell once a run has stopped: its engine work and threads are gone, the accumulators and the tap lock cleared; units already presented for
writing go on in the memory (R176, R207, R262). Where another plan shares the swatch, what is that plan's stays (R108). -/
def Cell.stopRun (id : Nat) (shared : Bool) (c : Cell) : Cell :=
  { c with
    press := if shared then { c.press with queue := c.press.queue.filter (·.run != id) } else {}
    stip := { queue := c.stip.queue.filter (·.run != id), freeAt := if shared then c.stip.freeAt else 0 }
    burin := { queue := c.burin.queue.filter (·.run != id), freeAt := if shared then c.burin.freeAt else 0 }
    threads := c.threads.filter fun t => t.2.run != id
    taken := if shared then c.taken else []
    units := c.units.filter fun u => u.run != id }

/-- The rows a Hatch instruction has still to write in local cell c of its panel. -/
def HatchOp.dest (o : HatchOp) (c : Nat) : List Nat :=
  ((List.range o.rows).filter fun t => decide (o.done ≤ o.readAt c t)).map ((o.dst.getD c 0) + ·)

/-- The rows a Weft instruction has still to write in local cell c of its panel. -/
def WeftOp.dest (o : WeftOp) (c : Nat) : List Nat :=
  ((List.range (o.count * o.rowsPerLimb)).drop o.done).map ((o.dst.getD c 0) + ·)

/-- Discard the work of a run in one panel (R207). -/
def Chip.discardPanel (s : Chip) (id p : Nat) : Chip :=
  let pn := s.panel p
  let hs := pn.hatch.filter (·.run == id)
  let ws := pn.weft.filter (·.run == id)
  let s :=
    if hs.isEmpty && ws.isEmpty then s
    else (List.range 64).foldl (fun t c =>
      t.freePadRows (p * 64 + c) ((hs.flatMap (·.dest c)) ++ (ws.flatMap (·.dest c)))) s
  s.updPanel p fun pn =>
    { pn with hatch := pn.hatch.filter (·.run != id), weft := pn.weft.filter (·.run != id), hatchFree := 0, weftFree := 0 }

/-- Write and add units that a stopping run has presented and that have not reached their stack go to its queue without the run,
for the slots that no plan holds (R262). -/
def Chip.orphanUnits (s : Chip) (r : Run) (cn : Nat) : Chip :=
  (s.cell cn).units.foldl (fun t u =>
    if u.run == r.id && u.stage == .going && !u.fabric && decide (u.presentedAt ≤ r.cycle)
        && (u.kind == .hbmWrite || u.kind == .hbmAdd) then
      let e := (((mfind u.thread (t.cell cn).threads).map fun x => x.d.entry).getD 0)
      let q : HbmReq := {
        part := r.part, run := none, cell := cn, thread := u.thread, k := u.k,
        op := if u.kind == .hbmAdd then .add else .write, cls := .management, addr := u.addr, data := u.data,
        poison := u.poison, integer := bit e 15,
        modulus := (mget 0 (e % 1024) (t.swatch (swatchOf cn)).table.entries |> fun w =>
          { q := bits w.toNat 0 36, mu := bits w.toNat 64 37, m18 := bits w.toNat 241 2 == 1 }) }
      t.updStack (u.addr / 0x1000000000) fun x => { x with queue := x.queue ++ [q] }
    else t) s

/-- The requests of a stopped run in the stacks' queues: reads are discarded, writes and adds stay without the run (R262). -/
def Chip.orphanQueues (s : Chip) (id : Nat) : Chip :=
  { s with hbm := s.hbm.map fun e => (e.1, { e.2 with
      queue := e.2.queue.filterMap fun q =>
        if q.run != some id then some q
        else if q.op == .write || q.op == .add then some { q with run := none, cls := .management }
        else none }) }

/-- Discard the work of a run in the panels of a swatch and in its Yoke: the rows it would have written hold unspecified values (R207). -/
def Chip.discardPanels (s : Chip) (id sw : Nat) : Chip :=
  let s := (List.range 8).foldl (fun t p => t.discardPanel id (sw * 8 + p)) s
  let moves := (s.swatch sw).moves.filter (·.run == id)
  let s := moves.foldl (fun t m =>
    m.dst.foldl (fun t d =>
      t.freePadRows d.1 (((List.range (min d.2.2 (4 * m.lane.words))).drop (4 * m.done)).map (d.2.1 + ·))) t) s
  s.updSwatch sw fun w => { w with moves := w.moves.filter (·.run != id) }

/-- The words of a run's Weave transfers that have still to land are discarded with it: their rows hold unspecified values (R176, R207). -/
def Chip.strandWeaves (s : Chip) (r : Run) : Chip :=
  r.weaves.foldl (fun (t : Chip) m =>
    match r.plan.weave[m.entry]? with
    | none => t
    | some e =>
      let dst := r.plan.plate (e.dst / 4096 % 8) * 4096 + e.dst % 4096
      let gone := (r.flits.filter fun f => f.entry == m.entry && f.issued == m.issued).map (·.word)
      let ahead := (List.range e.words).drop (if e.route = 2 then m.read else m.landed)
      t.freePadRows dst (((gone ++ ahead).filter fun w => decide (4 * w + 4 ≤ m.dstRoom)).flatMap fun w =>
        (List.range 4).map (m.dst + 4 * w + ·))) s

/-- Discard everything a run has queued or in flight on one swatch. -/
def Chip.discardSwatch (s : Chip) (id sw : Nat) : Chip :=
  let s := s.discardPanels id sw
  let touched := s.cells.filterMap fun e => if swatchOf e.1 = sw then some e.1 else none
  touched.foldl (fun t cn =>
    let t := match t.run? id with | some r => t.orphanUnits r cn | none => t
    let t := t.freePadRows cn ((t.cell cn).strandedRows id)
    t.updCell cn (Cell.stopRun id (s.runs.any fun x => x.id != id && x.plan.swatches.contains sw))) s

/-- The task slots of the cells of a swatch that no other installed plan of the list holds, changed by a function of the local cell and the slot
(R138, R219). A swatch that runs a plan keeps its fields until the next start. -/
def Chip.fieldSlots (s : Chip) (sw : Nat) (used : Plan → Nat → Bool) (p : Plan) (others : List Plan)
    (field : Nat → Nat → TaskSlot) : Chip :=
  let mine := (List.range 4).filter fun t => used p t && !(others.any fun o => o.swatches.contains sw && used o t)
  if mine.isEmpty || (s.runOn sw).isSome then s
  else (List.range 512).foldl (fun (t : Chip) c =>
    let cn := cellNo sw c
    t.setTasks cn ((t.cell cn).scr.tasks.zipIdx.map fun x => if mine.contains x.2 then field c x.2 else x.1)) s

/-- A plan uses a task slot (Table 4.3). -/
def Plan.usesTask (p : Plan) (t : Nat) : Bool := (p.tasks[t]?).any fun x => x.padRows != 0

/-- The shadow banks of a swatch lose the items of a plan's ENGINE section that nobody else claims, and the Yoke table its entries (R203). -/
def Chip.dropEngines (s : Chip) (sw : Nat) (pl : Plan) (others : List Plan) : Chip :=
  let engines := (others.filter fun o => o.swatches.contains sw).flatMap (·.engine)
  let tables := (engines.filterMap fun e => match e with | .gather i _ => some i | _ => none) ++ (s.swatch sw).pinTables
  let seeds := (engines.filterMap fun e => match e with | .seed i _ _ => some i | _ => none) ++ (s.swatch sw).pinSeeds
  let yoke := engines.flatMap fun e => match e with | .yoke f es => (List.range es.length).map (f + ·) | _ => []
  let panels := (List.range 8).map (sw * 8 + ·)
  pl.engine.foldl (fun (t : Chip) e =>
    match e with
    | .gather i _ =>
      if tables.contains i then t
      else panels.foldl (fun (t : Chip) q => t.updPanel q fun pn =>
        { pn with shadow := { pn.shadow with gather := { pn.shadow.gather with tables := mdel i pn.shadow.gather.tables } } }) t
    | .seed i _ _ =>
      if seeds.contains i then t
      else panels.foldl (fun (t : Chip) q => t.updPanel q fun pn =>
        { pn with shadow := { pn.shadow with seeds := mdel i pn.shadow.seeds } }) t
    | .yoke f es =>
      t.updSwatch sw fun w => { w with yoke := w.yoke.filter fun y => yoke.contains y.1 || y.1 < f || f + es.length ≤ y.1 }
    | .twiddle _ => t) s

/-- The active bank of the engine stores of a swatch takes the shadow's contents (R202). -/
def Chip.commitStores (s : Chip) (sw : Nat) : Chip :=
  (List.range 8).foldl (fun t q => t.updPanel (sw * 8 + q) fun pn => { pn with active := pn.shadow }) s

/-- A write of the stores of a swatch that runs no plan takes effect at once (R118, R202). -/
def Chip.settleStores (s : Chip) (sw : Nat) : Chip := if (s.runOn sw).isNone then s.commitStores sw else s

/-- D(r, c) of R363 over plans: the sum over the partition's swatches of the largest UNITS / SWATCHES, rounded up. Terms are
added over the common denominator of the plans' swatch counts. -/
def demand (sws : List Nat) (plans : List Plan) (units : Plan → Nat) : Nat :=
  let den := (plans.map fun p => max 1 p.vswatches.length).foldl Nat.lcm 1
  let best := fun sw => ((plans.filter fun p => p.swatches.contains sw).map fun p => units p * (den / max 1 p.vswatches.length)).foldl max 0
  cdiv ((sws.map best).sum) den

/-- The grant or the use of the arrival slots of a partition on a stack has changed: their frame is counted from now (R364). -/
def Chip.noteArrival (s : Chip) (p h : Nat) : Chip :=
  let x := s.part p
  let g := (mget {} (grantKey h 2) x.grants).units
  let d := demand (s.swatchesOf p) (x.plans.map (·.2)) fun y => y.stackUnits 3 h
  let old := mget {} h x.arrivals
  if old.grant = g && old.use = d then s
  else s.updPart p fun y => { y with arrivals := mset {} h { grant := g, use := d, since := s.time } y.arrivals }

/-- The grants, the plans or the swatches of a partition have changed (R364). -/
def Chip.noteArrivals (s : Chip) (p : Nat) : Chip := (List.range 8).foldl (fun (t : Chip) h => t.noteArrival p h) s

/-- The plates with a swatch under a debug selection (R413). -/
def Chip.debugPlates (s : Chip) : List Nat :=
  (List.range 8).filter fun p => (List.range 8).any fun i =>
    match (s.swatch (8 * p + i)).owner with
    | some q => (s.part q).debug
    | none => false

/-- The debug PLL of a plate without a debug-mode partition is not held locked (R413). -/
def Chip.dropDebugLocks (s : Chip) : Chip :=
  { s with plates := s.plates.map fun (e : Nat × Plate) =>
      if s.debugPlates.contains e.1 then e else (e.1, { e.2 with dbgLock := false }) }

/-- An installed plan leaves its slot: the items of engine stores and the task slots that only it claimed are released, and a partition with
no plan holds no debug selection (R111, R120, R203, R219). -/
def Chip.dropPlan (s : Chip) (p slot : Nat) : Chip :=
  match mfind slot (s.part p).plans with
  | none => s
  | some pl =>
    let rest := (mdel slot (s.part p).plans)
    let others := rest.map (·.2)
    let s := (s.keepShadow p).updPart p fun x => { x with plans := rest, debug := x.debug && !rest.isEmpty }
    pl.swatches.foldl (fun t sw =>
      ((t.dropEngines sw pl others).fieldSlots sw Plan.usesTask pl others fun _ _ => {}).settleStores sw) (s.noteArrivals p).dropDebugLocks

/-- Key buffers that a registration replaced are released once no run holds the key of one and no load reads it (R80, R469). -/
def Chip.dropOldKeys (s : Chip) (part : Nat) : Chip :=
  let used := fun (h : Nat) => (s.runsOf part).any (fun r => r.keyUse.contains h)
    || (s.part part).keyRanges.any fun r => r.handle == h && !r.loaded
  let gone := ((s.part part).keys.flatMap fun k => k.2.old).filter fun h => !used h
  if gone.isEmpty then s
  else
    let s := gone.foldl (fun (t : Chip) h => t.releaseBuf h) s
    s.updPart part fun p =>
      { p with keys := p.keys.map fun k => (k.1, { k.2 with old := k.2.old.filter fun h => !gone.contains h }) }

/-- End a running instance: the EVENTs it issued land (R144), its swatches are free, those that a forced retirement takes out of service leave it (R429), and a plan awaiting
removal leaves its slot (R120); key buffers that only it still used are released (R80). -/
def Chip.endRun (s : Chip) (r : Run) (st : Status) : Chip :=
  let s := { s with runs := s.runs.filter fun x => x.id != r.id }
  let s := { s with runs := s.runs.map fun (x : Run) => if x.spliced == some r.id then { x with spliced := none } else x }
  let s := r.evs.foldl (fun (t : Chip) e => t.raisePart r.part (16 + e.2)) s
  let s := s.updSwatches r.plan.swatches fun w => { w with count := max w.count r.cycle, countAt := s.time }
  let out := r.plan.swatches.filter fun sw => (s.swatch sw).leaving && !(s.runs.any fun x => x.plan.swatches.contains sw)
  let s := if out.isEmpty then s else (s.updSwatches out fun w => { w with inService := false }).regrade
  let s := s.dropOldKeys r.part
  let s := s.updPart r.part fun p =>
    { p with plans := match mfind r.slot p.plans with
                      | some pl => mput r.slot { pl with lastStatus := st } p.plans
                      | none => p.plans }
  match mfind r.slot (s.part r.part).plans with
  | some pl => if pl.removing && !(s.runs.any fun x => x.part == r.part && x.slot == r.slot) then s.dropPlan r.part r.slot else s
  | none => s

/-- A plan stops with a status (R117, R122): everything it has queued or in flight is discarded, EV_PLAN_STOP is counted, the
error log takes a record (R589), and its request completes with the status. A stop through a fault makes no commit; changes that were accepted while it
ran stay in the shadow copies until the next write or start makes them active: R48 and R118 do not say (DESIGN CHOICE, log entry 75). -/
def Chip.stopPlan (s : Chip) (r : Run) (st : Status) (cell : Option Nat) (bundle : Nat) : Chip :=
  let s := (r.plan.swatches.foldl (fun t sw => t.discardSwatch r.id sw) s).strandWeaves r
  let s := s.orphanQueues r.id
  let s := s.updSwatches r.plan.swatches fun w => { w with stops := w.stops + 1 }
  let s := s.raisePart r.part 2
  let s := s.logRec st.code 0 (some r.part) none cell bundle
  let s := s.endRun r st
  match r.request with
  | some q => s.completeRequest q st
  | none => s

/-- A trap condition inside a window trap: the cell halts, the partition hears of it, and the plan stops at its next stitch point (R136). -/
def Chip.doubleTrap (s : Chip) (r : Run) (cn : Nat) : Chip :=
  let s := s.updCell cn fun c => { c with scr := { c.scr with halted := true } }
  let s := s.updRegs r.part fun g =>
    if g.doubleTrap.valid then g else { g with doubleTrap := { valid := true, a := cn } }
  s.updRun r.id (Run.stopDue .doubleTrap)

/-- The Pad errors that window traps of a run meet before cycle c: a correctable one is corrected, an uncorrectable one halts the cell, whose
trap goes no further (R134, R136, R151, R222). -/
def Chip.ripeTraps (s : Chip) (id c : Nat) : Chip :=
  match s.run? id with
  | none => s
  | some r =>
    let ripe := r.traps.filter fun e => decide (e.1 < c)
    if ripe.isEmpty then s
    else
      let s := ripe.foldl (fun (t : Chip) e =>
        let cl := t.cell e.2.1
        let (pad, found) := cl.pad.sense (e.2.2 / 4) [e.2.2 % 4]
        let t := (t.setCell e.2.1 { cl with pad := pad }).notePad id r.part e.2.1 e.1 found
        if found.ue then t.doubleTrap r e.2.1 else t) s
      s.updRun id fun x => { x with traps := x.traps.filter fun e => decide (c ≤ e.1) }

/-- The fault record of a partition (Table 4.16): the first fault since VALID was cleared. -/
def Chip.recordFault (s : Chip) (r : Run) (st : Status) (cn bundle : Nat) : Chip :=
  if (s.part r.part).regs.fault.valid then s
  else s.updRegs r.part fun g =>
    { g with
      fault := { valid := true, a := st.code, b := r.slot }
      faultCell := cn
      faultCycle := r.planCycle
      faultBundle := bundle }

/-- A production check fails (R122): the record is made, every swatch of the plan stops, and with it a plan spliced onto it
or that it is spliced onto (R119). -/
def Chip.faultPlan (s : Chip) (id : Nat) (st : Status) (cn bundle : Nat) : Chip :=
  match s.run? id with
  | none => s
  | some r =>
    let s := (s.ripeTraps id (r.cycle + 1)).recordFault r st cn bundle
    let partners := s.runs.filter fun x =>
      x.id != id && x.part == r.part && (r.spliced == some x.id || x.spliced == some id) && x.meets r
    let s := s.stopPlan r st (some cn) bundle
    partners.foldl (fun t x => t.stopPlan x st (some cn) bundle) s

end Sys2Proof.Machine
end

