-- ==== Sys2Proof/Machine/Units.lean ====
section
/-! DEFINITION. What a run has under way that its plan cycles bring on by themselves: Spool units that land or become visible, addresses checked at a
presentation, Weave words read at their source, units beyond a bound (R101, R115, R247 to R249, R264). -/

namespace Sys2Proof.Machine

/-- A physical row of a task-relative row, or none at or beyond the bound. -/
def TaskSlot.row (t : TaskSlot) (r n : Nat) : Option Nat :=
  if r + n ≤ t.padBound - t.padBase then some (t.padBase + r) else none

/-! ### Threads and their rings (R247 to R249) -/

/-- The ring rows of a descriptor. -/
def ThreadDesc.ring (d : ThreadDesc) : Nat := d.nseg * d.segRows

/-- The ring size in units. -/
def Thread.ringUnits (t : Thread) : Nat := t.d.ring / t.kind.rows

/-- The units of a segment: U of R252. -/
def Thread.segUnits (t : Thread) : Nat := t.d.segRows / t.kind.rows

/-- The memory unit that unit k names, without an index list (R247). -/
def unitNo (d : ThreadDesc) (off cn k : Nat) : Nat :=
  let c := if d.plateCell then cn % 4096 else cn % 512
  (d.base + off + c * d.cstride + k * d.stride) % 2 ^ 32

/-- Marks visible in plan cycle `now` (Table 9.3). -/
def Thread.settle (now : Nat) (t : Thread) : Thread :=
  let due := t.pendAdv.takeWhile fun a => a.1 ≤ now
  due.foldl (fun t a => { t with marked := t.marked + a.2, lastAdv := a.1 })
    { t with pendAdv := t.pendAdv.dropWhile fun a => a.1 ≤ now }

/-- A context is idle in plan cycle `now`. -/
def Thread.idle (now : Nat) (t : Thread) : Bool := t.endAt.any fun e => decide (e ≤ now)

/-- The IO entry a binding names, its handle included (R453). -/
def Run.ioEntry (r : Run) (b : Nat) : Option (IoEntry × Nat) :=
  match r.plan.io[b]? with
  | some e => some (e, (r.handles[b]?).getD 0)
  | none => none

/-- The first device physical address of a plate's Lining (R225). -/
def liningBase (plate : Nat) : Nat := 0x8000000000 + plate * 0x40000000

/-- A buffer kind of control memory. -/
def isControl (kind : Nat) : Bool := kind == 2

/-! ### Addresses and their checks (R247, R264, R292) -/

/-- Pages of a stack that hold for a run as retired (R284): the first entries of the list that its last stitch point took. -/
def Chip.pageRetired (s : Chip) (r : Run) (h first last : Nat) : Bool :=
  ((s.stack h).retired.take (mget 0 h r.pages)).any fun e => decide (first < e.1 + e.2) && decide (e.1 ≤ last)

/-- A retired block holds a line for a run (R233). -/
def Chip.blockRetired (s : Chip) (r : Run) (plate line : Nat) : Bool :=
  ((s.lining plate).retired.take (mget 0 plate r.blocks)).contains (line / 4 / 1024)

/-- The bytes [a, a + n) of a stack lie in its 36 GiB below the top 128 MiB (R270, R564). -/
def inStack (a n : Nat) : Bool := decide (a % 0x1000000000 + n ≤ 0x8F8000000)

/-- A byte of control memory, at its device physical address, has its backing granule on a retired page (R564). -/
def Chip.controlStuck (s : Chip) (a : Nat) : Bool :=
  let y := a - 0xA000000000
  (s.stack (y / 4096 % 8)).stuck.contains (y / 32768)

/-- Check the address of one unit of a thread: the byte address, or the status of the first condition of Table 9.6 that fails.
The address is the unit number itself for a fabric binding. -/
def Chip.unitCheck (s : Chip) (r : Run) (cn : Nat) (kind : ThreadKind) (d : ThreadDesc) (task u : Nat) : Except Status Nat :=
  let plate := plateOf (swatchOf cn)
  let slot := ((s.cell cn).scr.tasks[task]?).getD {}
  let line := fun (base bound : Nat) =>
    let n := base + u
    if bound ≤ n || 7456540 ≤ n then .error .bound
    else if s.blockRetired r plate n then .error .retiredPage
    else .ok (liningBase plate + 144 * n)
  match kind with
  | .liningRead | .liningWrite => line slot.lngBase slot.lngBound
  | .keyRead =>
    let w := mget {} plate (s.part r.part).keyWin
    line w.base w.bound
  | _ =>
    match r.ioEntry d.binding with
    | none => .error .bound
    | some (e, h) =>
      if e.dir == 3 then .ok u
      else
        match s.bufOf h with
        | none => .error .bound
        | some b =>
          let size := if kind == .tackRead then 32 else 576
          let a := b.addr + size * u
          if (isControl b.kind && kind != .tackRead) || 576 * b.bolts < size * (u + 1) then .error .bound
          else if isControl b.kind then
            if s.controlStuck a || s.controlStuck (a + size - 1) then .error .retiredPage else .ok a
          else if !inStack a size then .error .bound
          else if s.pageRetired r (stackOf a) (a % 0x1000000000 / 65536) ((a + size - 1) % 0x1000000000 / 65536) then
            .error .retiredPage
          else if (kind.isRead && !b.canRead) || (kind == .hbmWrite && !b.canWrite) || (kind == .hbmAdd && !b.canAdd) then
            .error .notOwner
          else .ok a

/-! ### Units that have moved (R249) -/

/-- A thread that is stopped and has nothing left to move ends (R249, R250). -/
def Thread.stopNow (now : Nat) (t : Thread) : Thread :=
  let left := if t.kind.isRead then t.presented - t.moved else t.marked + (t.pendAdv.map (·.2)).sum - t.moved
  if t.stopping && left = 0 && t.endAt.isNone then { t with endAt := some (now + 1) } else t

/-- A unit of a thread has landed or been accepted: it is counted, and a thread whose units are all done ends in plan cycle
`last + 1`. Counters take one count for a swatch in ganged execution and one for a cell in loose execution. -/
def Chip.unitMoved (s : Chip) (r : Run) (cn th last : Nat) (count : Bool) : Chip :=
  match mfind th (s.cell cn).threads with
  | none => s
  | some t =>
    let t' := { t.settle r.cycle with moved := t.moved + 1 }
    let t' := if t'.moved = t'.d.count && t'.endAt.isNone then { t' with endAt := some (last + 1) } else t'.stopNow last
    let ended := t.endAt.isNone && t'.endAt.isSome
    let s := s.updCell cn fun c => { c with threads := mput th t' c.threads }
    if count then s.updCnt r.part fun c =>
      { c with spoolUnits := c.spoolUnits + 1, spoolDone := c.spoolDone + if ended then 1 else 0 }
    else s

/-- Counting is by swatch when the swatch runs ganged, by cell when it runs loose. -/
def Run.countsCell (r : Run) (cn : Nat) : Bool := r.loose.contains (swatchOf cn) || cn % 512 == 0

/-- Remove a unit of a cell. -/
def Chip.dropUnit (s : Chip) (cn : Nat) (u : SpoolUnit) : Chip :=
  s.updCell cn fun c => { c with units := c.units.filter fun v => !(v.thread == u.thread && v.k == u.k && v.run == u.run) }

/-! ### Queues, links and their bounds (R114, R115, R257, R286, R301) -/

/-- The rows that a cell's units in flight stand for (Table 9.5). -/
def Cell.outstanding (c : Cell) : Nat := (c.units.map fun u => u.kind.rows).sum

/-- The class number of Table 4.4 of a slot class. -/
def SlotClass.code : SlotClass → Nat
  | .read => 1
  | .write => 2
  | .remote => 3
  | .management => 0

/-- The code of an operation of a stack's queue, in the order of Table 10.5. -/
def HbmOp.code : HbmOp → Nat
  | .read => 0
  | .write => 1
  | .tack => 2
  | .add => 3

/-- The bound of a stack's queue for an operation (Table 10.5). -/
def queueBound : Nat → Nat
  | 0 => 1024
  | 1 => 512
  | 2 => 256
  | _ => 128

/-- A partition's share of a queue (R286). -/
def Chip.queueShare (s : Chip) (p h cls op : Nat) : Nat :=
  max 16 (queueBound op * (mget {} (grantKey h (cls - 1)) (s.part p).grants).units / 64)

/-- Flits of a run that wait at a gateway for slots of a virtual link in plan cycle `now`: they reach it 8 plan cycles after their read (R101). -/
def Run.waitingFlits (r : Run) (v now : Nat) : Nat :=
  (r.flits.filter fun f => f.vlink == v && f.departed.isNone && decide (f.issued + 9 + f.word ≤ now)).length

/-- The physical cell of a virtual cell number (Table 4.18). -/
def Plan.cellOf (p : Plan) (v : Nat) : Nat := p.plate (v / 4096 % 8) * 4096 + v % 4096

/-- Mesh row, column and plate of a cell number (R99). -/
def meshAt (cn : Nat) : Nat × Nat × Nat := (plateOf (swatchOf cn), swatchOf cn % 8, panelOf cn % 8)

/-- Distance of two numbers. -/
def absDiff (a b : Nat) : Nat := (a - b) + (b - a)

/-- The latency of a mesh route (Table 4.7). -/
def meshLatency (a b : Nat) : Nat :=
  let (_, w, p) := meshAt a
  let (_, w', p') := meshAt b
  4 + 2 * (absDiff w w' + absDiff p p')

/-- A number for a link direction of a plate: 0 to 3 the mesh links out of a panel, 4 and 5 its express link up and down. -/
def linkId (plate w p dir : Nat) : Nat := ((plate * 8 + w) * 8 + p) * 8 + dir

/-- The links a route crosses, each with the F-cycle after the read in which the flit crosses it. A mesh route runs along its
source's mesh row, then along the destination's column (R102); two F-cycles of injection come before its first link. -/
def routeLinks (route src dst : Nat) : List (Nat × Nat) :=
  let (pl, w, p) := meshAt src
  let (_, w', p') := meshAt dst
  if route = 0 then
    let across := (List.range (absDiff p p')).map fun k =>
      (linkId pl w (if p ≤ p' then p + k else p - k) (if p ≤ p' then 0 else 1), 2 + 2 * k)
    let down := (List.range (absDiff w w')).map fun k =>
      (linkId pl (if w ≤ w' then w + k else w - k) p' (if w ≤ w' then 2 else 3), 2 + 2 * (absDiff p p' + k))
    across ++ down
  else if route = 1 then [(linkId pl w p 4, 0), (linkId pl w' p' 5, 10)]
  else [(linkId pl w p 4, 0)]

/-- The entry of a transfer. -/
def Run.weaveEntry (r : Run) (e : Nat) : Option WeaveEntry := r.plan.weave[e]?

/-- The links of a transfer of a run. -/
def Run.links (r : Run) (m : WeaveMove) : List (Nat × Nat) :=
  match r.weaveEntry m.entry with
  | some e => routeLinks e.route (r.plan.cellOf e.src) (r.plan.cellOf e.dst)
  | none => []

/-- The words of a transfer. -/
def Run.words (r : Run) (m : WeaveMove) : Nat := ((r.weaveEntry m.entry).map (·.words)).getD 0

/-- A unit that holds items beyond its bound in plan cycle c, and how many (Table 4.11, R257, R286). -/
def Chip.beyond (s : Chip) (r : Run) (c : Nat) : Watch → Nat
  | .rows cn =>
    let gone := (r.unitEnds.filter fun e => decide (e.1 ≤ c) && e.2.1 == cn).map fun e =>
      ((mfind e.2.2 (s.cell cn).threads).map fun t => t.kind.rows).getD 0
    (s.cell cn).outstanding - gone.sum - 32
  | .queue h cls op =>
    let q := (s.stack h).queue.filter fun x => x.op.code == op
    let mine := q.filter fun x => x.part == r.part && x.cls.code == cls
    max (mine.length - s.queueShare r.part h cls op) (q.length - queueBound op)
  | .credits v => r.waitingFlits v c - 256

/-- A bound of a run is passed in the present plan cycle: the items beyond it hold the plan now and in every plan cycle in which they still lie
beyond it (R115). -/
def Chip.watch (s : Chip) (id : Nat) (w : Watch) (cell bundle : Nat) : Chip :=
  match s.run? id with
  | none => s
  | some r =>
    let n := s.beyond r r.cycle w
    if n = 0 then s
    else
      (s.updRun id fun r => { r with watch := if r.watch.contains w then r.watch else r.watch ++ [w] }).overflow id [(r.cycle, n)] cell bundle

/-- The plan cycles after `old` up to the present one in which the watched bounds of a run are passed (R115). -/
def Chip.ripeWatch (s : Chip) (id old : Nat) : Chip :=
  match s.run? id with
  | none => s
  | some r =>
    if r.watch.isEmpty then s
    else
      let cycles := (List.range (r.cycle - old)).map (old + 1 + ·)
      let s := r.watch.foldl (fun (t : Chip) w =>
        t.overflow id ((cycles.map fun c => (c, s.beyond r c w)).filter fun d => d.2 != 0) r.markAt.1 r.markAt.2) s
      s.updRun id fun x => { x with watch := x.watch.filter fun w => s.beyond r r.cycle w != 0 }

/-! ### What plan cycles bring by themselves -/

/-- Time units of one F-cycle of a run: the effective bin, or the 1.6 GHz cap of debug mode (R111). -/
def Chip.unitOf (s : Chip) (r : Run) : Nat :=
  if (s.part r.part).debug then 165 else s.fUnit

/-- Plan cycles among the first a F-cycles of pacing windows with figure p (R372). -/
def paced (p a : Nat) : Nat := a * p / 64

/-- The time at which a run that stood as r at time t reaches its cycle c, when its F-cycles last u time units and nothing else holds it. -/
def Run.reaches (r : Run) (t u c : Nat) : Nat :=
  t - r.phase + u * (r.hold + (cdiv ((paced r.pace r.paceAt + (c - r.cycle)) * 64) r.pace - r.paceAt))

/-- A line that a run has written becomes visible at a moment; the same line made visible in the same F-cycle by the port of another panel, whatever
run it writes for, is hazard kind 4 (R229, R237). -/
def Chip.lineVisible (s : Chip) (r : Run) (cn th due moment : Nat) : Chip :=
  let plate := plateOf (swatchOf cn)
  let mine := fun (x : LngLand) => x.run == r.id && x.cell == cn && x.thread == th && x.due == due && x.at_.isNone
  match (s.lining plate).lands.find? mine with
  | none => s
  | some x =>
    let clash := (s.lining plate).lands.any fun y =>
      y.line == x.line && panelOf y.cell != panelOf cn && y.at_.any fun m => m / s.fUnit == moment / s.fUnit
    let s := s.updLining plate fun l => { l with lands := l.lands.map fun y => if mine y then { y with at_ := some moment } else y }
    if clash then s.hazard r 4 cn (((mfind th (s.cell cn).threads).map (·.bundle)).getD 0) else s

/-- A run stops on a fault found in plan cycle c (R122). -/
def Chip.faultAt (s : Chip) (id c : Nat) (st : Status) (cn bundle : Nat) : Chip :=
  (s.updRun id fun r => { r with cycle := max r.base (min c r.cycle) }).faultPlan id st cn bundle

/-- Spool units whose rows have landed, or whose lines have become visible, by the run's present plan cycle (R249, R251); `when_` gives the moment
at which the run came to a cycle. -/
def Chip.ripeUnits (s : Chip) (id : Nat) (when_ : Nat → Nat) : Chip :=
  match s.run? id with
  | none => s
  | some r =>
    let ripe := r.unitEnds.filter fun e => decide (e.1 ≤ r.cycle)
    if ripe.isEmpty then s
    else
      let s := s.updRun id fun x => { x with unitEnds := x.unitEnds.filter fun e => decide (r.cycle < e.1) }
      ripe.foldl (fun (t : Chip) e =>
        match (t.cell e.2.1).units.find? fun u => u.run == id && u.thread == e.2.2 && u.stage == .landing with
        | some u =>
          let t := if u.kind == .liningWrite then t.lineVisible r e.2.1 e.2.2 e.1 (when_ e.1) else t
          (t.dropUnit e.2.1 u).unitMoved r e.2.1 e.2.2 (e.1 - 1) (r.countsCell e.2.1)
        | none => t) s

/-- The status that a write unit's address or entry earns when it is presented (R264). -/
def Chip.writeCheck (s : Chip) (r : Run) (cn : Nat) (t : Thread) (k : Nat) : Option Status :=
  match s.unitCheck r cn t.kind t.d t.task (unitNo t.d t.off cn k) with
  | .error st => some st
  | .ok _ =>
    if t.kind == .hbmAdd && !bit t.d.entry 15 && !entryValid (mget 0 (t.d.entry % 1024) (s.swatch (swatchOf cn)).table.entries) then
      some .badModulus
    else none

/-- The addresses of the write units presented by the run's present plan cycle are checked; the first that fails stops the plan (R264). -/
def Chip.ripeChecks (s : Chip) (id : Nat) : Chip :=
  match s.run? id with
  | none => s
  | some r =>
    let ripe := r.checks.filter fun e => decide (e.1 ≤ r.cycle)
    if ripe.isEmpty then s
    else
      let s := s.updRun id fun x => { x with checks := x.checks.filter fun e => decide (r.cycle < e.1) }
      ripe.foldl (fun (t : Chip) e =>
        let (c, cn, th, k) := e
        match mfind th (t.cell cn).threads with
        | none => t
        | some x =>
          match t.writeCheck r cn x k with
          | some st => t.faultAt id c st cn x.bundle
          | none => t) s

/-- One flit of a transfer as it claims links: the order in which transfers start (count, then run, then place), and for each link it crosses the
link and the moment, both on the scale of one run (R102). -/
structure WeaveClaim where
  start : Nat
  links : List (Nat × Nat)
  words : Nat
deriving DecidableEq, Repr

/-- The transfers of a partition that started before one, the latest first, on the cycle scale of its run: of two begun in the same plan cycle the
one whose Sync was commanded first counts as the earlier, and of two runs the one that started first (DESIGN CHOICE, log entry 72). -/
def Chip.earlierMoves (s : Chip) (r : Run) (idx : Nat) : List WeaveClaim :=
  match r.weaves[idx]? with
  | none => []
  | some m =>
    let all := s.runs.zipIdx.flatMap fun x =>
      if x.1.part != r.part then []
      else (x.1.weaves.zipIdx.map fun w => (x.1, x.2, w.1, w.2))
    let shift := fun (x : Run) (c : Nat) => c + r.cycle - x.cycle
    let mine := ((s.runs.findIdx? fun x => x.id == r.id).getD 0)
    let before := all.filter fun x =>
      let start := shift x.1 x.2.2.1.issued
      decide (start < m.issued) || (start == m.issued && (decide (x.2.1 < mine) || (x.2.1 == mine && decide (x.2.2.2 < idx))))
    ((before.map fun x =>
      ({ start := shift x.1 x.2.2.1.issued, words := x.1.words x.2.2.1
         links := (x.1.links x.2.2.1) } : WeaveClaim)).mergeSort fun a b => decide (b.start ≤ a.start))

/-- The links that word w of a transfer passes before it meets a flit of an earlier one in a link direction (R102). -/
def linksPassed : List WeaveClaim → WeaveClaim → Nat → Nat
  | [], m, _ => m.links.length
  | e :: rest, m, w =>
    let own := linksPassed rest m w
    let met := m.links.zipIdx.findIdx? fun a =>
      e.links.zipIdx.any fun b =>
        a.1.1 == b.1.1 && decide (e.start + b.1.2 ≤ m.start + w + a.1.2)
          && (let v := m.start + w + a.1.2 - e.start - b.1.2
              decide (v < e.words) && decide (b.2 ≤ linksPassed rest e v))
    min own (met.getD own)

/-- Word w of a run's transfer is delivered: no earlier transfer takes one of its links (R102). -/
def Chip.weaveWins (s : Chip) (r : Run) (idx w : Nat) : Bool :=
  match r.weaves[idx]? with
  | none => true
  | some m =>
    let x : WeaveClaim := { start := m.issued, links := r.links m, words := r.words m }
    linksPassed (s.earlierMoves r idx) x w == x.links.length

/-- Change the transfer at a place of a run's list. -/
def Chip.updMove (s : Chip) (id idx : Nat) (f : WeaveMove → WeaveMove) : Chip :=
  s.updRun id fun r => { r with weaves := lupd r.weaves idx f }

/-- A flit is not delivered: its rows keep their values (R102). -/
def Chip.weaveDrop (s : Chip) (r : Run) (cell bundle : Nat) : Chip :=
  (s.updRegs r.part fun g => { g with weaveDrop := g.weaveDrop + 1 }).hazard r 4 cell bundle

/-- Word w of a transfer is read at its source in plan cycle I + 1 + w: its rows and their poison (R101). -/
def Chip.weaveRead (s : Chip) (r : Run) (e : WeaveEntry) (m : WeaveMove) (w : Nat) : Chip × List Row × List Bool :=
  s.readRows r (r.plan.cellOf e.src) (m.issued + 1 + w) m.bundle ((List.range 4).map (m.src + 4 * w + ·))

/-- The cell of a transfer whose rows for word w lie outside its task (R101). -/
def WeaveMove.outside (m : WeaveMove) (src dst w : Nat) : Option Nat :=
  if m.srcRoom < 4 * w + 4 then some src else if m.dstRoom < 4 * w + 4 then some dst else none

/-- The next word of a Seam transfer is read and goes to the gateway, or is dropped on its express link (R101, R102). -/
def Chip.seamRead (s : Chip) (r : Run) (idx : Nat) (e : WeaveEntry) (m : WeaveMove) : Chip :=
  let w := m.read
  match m.outside (r.plan.cellOf e.src) (r.plan.cellOf e.dst) w with
  | some cn => s.faultAt r.id (m.issued + 1 + w) .bound cn m.bundle
  | none =>
    if !s.weaveWins r idx w then
      (s.updMove r.id idx fun m => { m with read := w + 1, landed := m.landed + 1 }).weaveDrop r (r.plan.cellOf e.src) m.bundle
    else
      let (s, rows, ps) := s.weaveRead r e m w
      (s.updMove r.id idx fun m => { m with read := w + 1 }).updRun r.id fun r =>
        { r with flits := r.flits ++ [{
          entry := m.entry, issued := m.issued, word := w, rows := rows, poison := ps, vlink := e.vlink, departed := none, due := none }] }

/-- The Seam words of a run that its plan cycles have come to are read, at most n of them. -/
def Chip.ripeWords (s : Chip) (id : Nat) : Nat → Chip
  | 0 => s
  | n + 1 =>
    match s.run? id with
    | none => s
    | some r =>
      let next := r.weaves.findIdx? fun m =>
        match r.weaveEntry m.entry with
        | some e => e.route == 2 && decide (m.read < e.words) && decide (m.issued + 1 + m.read ≤ r.cycle)
        | none => false
      match next with
      | none => s
      | some idx =>
        match r.weaves[idx]? with
        | none => s
        | some m =>
          match r.weaveEntry m.entry with
          | none => s
          | some e => (s.seamRead r idx e m).ripeWords id n

/-- The Seam words of a run that are still to be read. -/
def Run.wordsLeft (r : Run) : Nat :=
  (r.weaves.map fun m => match r.weaveEntry m.entry with | some e => if e.route = 2 then e.words - m.read else 0 | none => 0).sum

/-- What the plan cycles of a run bring by themselves since it stood as `old` at time t. -/
def Chip.ripe (s : Chip) (old : Run) (t : Nat) : Chip :=
  let id := old.id
  let s := ((s.ripeWatch id old.cycle).ripeTraps id (((s.run? id).map (·.cycle)).getD 0)).ripeUnits id (old.reaches t (s.unitOf old))
  let s := s.ripeWords id (((s.run? id).map (·.wordsLeft)).getD 0)
  s.ripeChecks id

end Sys2Proof.Machine
end

