-- ==== Sys2Proof/Machine/Clock.lean ====
section
/-! DEFINITION. Time: the clocks run on, and each running plan counts its plan cycles (R100, R372, Table 0.3). -/

namespace Sys2Proof.Machine

/-- The cycle a run cannot pass by itself: that of its next stitch point before the commit, or of a bound that holds it (R115). -/
def Run.limit (r : Run) : Option Nat :=
  match r.stitchAt, r.wall with
  | some a, some b => some (min a b)
  | some a, none => some a
  | none, b => b

/-- The earlier of two cycles that may be absent. -/
def earlier : Option Nat → Option Nat → Option Nat
  | some a, some b => some (min a b)
  | some a, none => some a
  | none, b => b

/-- The runs that issue on the swatches of a run beside it: a plan it is spliced with shares its cycles (R100, R108). -/
def Chip.mates (s : Chip) (r : Run) : List Run :=
  s.runs.filter fun x => x.id != r.id && x.state == .issuing && r.state == .issuing && x.meets r

/-- The cycle a run cannot pass: its own limit, or that of a run beside it on its swatches. -/
def Chip.limitOf (s : Chip) (r : Run) : Option Nat := (s.mates r).foldl (fun l x => earlier l x.limit) r.limit

/-- A run takes no plan cycle at all: held at a break, or held by a request that has no slot (R115, R126). -/
def Run.stopped (r : Run) : Bool := r.frozen || r.broken || !r.waits.isEmpty

/-- A run takes no plan cycle, itself stopped or a run beside it: a hold holds the swatches (R100). -/
def Chip.heldWith (s : Chip) (r : Run) : Bool := r.stopped || (s.mates r).any fun x => x.stopped

/-- Let du time units pass for a run whose F-cycle lasts u units, which is held or cannot pass a limit: F-cycles of a hold pass first, then
plan cycles. Answers the run and its pacing holds. -/
def Run.elapse (u du : Nat) (held : Bool) (limit : Option Nat) (r : Run) : Run × Nat :=
  let n := (r.phase + du) / u
  let ph := (r.phase + du) % u
  if held then ({ r with phase := ph }, 0)
  else
    let h := min n r.hold
    let m := n - h
    let adv := paced r.pace (r.paceAt + m) - paced r.pace r.paceAt
    let stop := match limit with
      | some l => min (r.cycle + adv) (max l r.cycle)
      | none => r.cycle + adv
    ({ r with phase := ph, hold := r.hold - h, paceAt := r.paceAt + m, cycle := stop }, m - adv)

/-- The plan cycles that a run's wall kept it from while it was to take adv of them: F-cycles of the endless hold of R115. -/
def Run.walledFor (r : Run) (adv : Nat) : Nat :=
  match r.wall with
  | some w => if (r.stitchAt.all fun x => decide (w < x)) && !r.stopped then r.cycle + adv - max w r.cycle else 0
  | none => 0

/-- What a run's time brings by itself: what it has under way, EVENTs that land (R144), and the F-cycles of an endless hold are counted, the hold
once (R100, R115). -/
def Chip.runPassed (s : Chip) (old : Run) (t adv : Nat) : Chip :=
  let s := s.ripe old t
  match s.run? old.id with
  | none => s
  | some r =>
    let ripe := r.evs.filter fun e => decide (e.1 ≤ r.cycle)
    let s := ripe.foldl (fun t e => t.raisePart r.part (16 + e.2)) s
    let w := old.walledFor adv
    if ripe.isEmpty && w = 0 then s
    else
      let s := s.updRun r.id fun x =>
        { x with evs := x.evs.filter fun e => decide (r.cycle < e.1), walled := x.walled || w != 0 }
      if w = 0 then s else s.countStalls r (if r.walled then 0 else 1) w r.markAt.1 r.markAt.2

/-- Let du time units pass for the package. -/
def Chip.advance (s : Chip) (du : Nat) : Chip :=
  let gone := s.runs.map fun r => (r, r.elapse (s.unitOf r) du (s.heldWith r) (s.limitOf r))
  let s1 := { s with time := s.time + du, runs := gone.map fun x => x.2.1 }
  gone.foldl (fun t x =>
    let t := if x.2.2 = 0 then t else t.updPart x.1.part fun p => { p with paceHeld := p.paceHeld + BitVec.ofNat 64 x.2.2 }
    t.runPassed x.1 s.time (paced x.1.pace x.2.1.paceAt - paced x.1.pace x.1.paceAt)) s1

/-- The F-cycles a run needs to reach cycle c, or none when it never does by itself. -/
def Chip.need (s : Chip) (r : Run) (c : Nat) : Option Nat :=
  if c ≤ r.cycle then some 0
  else if s.heldWith r || r.pace == 0 then none
  else if (match s.limitOf r with | some l => decide (l < c) | none => false) then none
  else
    let target := paced r.pace r.paceAt + (c - r.cycle)
    some (r.hold + (cdiv (target * 64) r.pace - r.paceAt))

/-- The F-cycles until a run stands at cycle c with no hold left: a commit waits for the end of a hold that begins in its cycle (R121). -/
def Chip.needFree (s : Chip) (r : Run) (c : Nat) : Option Nat :=
  if c ≤ r.cycle then (if s.heldWith r then none else some r.hold) else s.need r c

/-- Let time pass until a run stands at a cycle, by the F-cycles it needs. None when the run does not exist or does not reach it. -/
def Chip.waitBy (s : Chip) (id : Nat) (need : Run → Option Nat) : Option Chip :=
  match s.run? id with
  | none => none
  | some r =>
    match need r with
    | none => none
    | some 0 => some s
    | some n => some (s.advance (n * s.unitOf r - r.phase))

/-- Let time pass until a run stands at cycle c. -/
def Chip.waitRun (s : Chip) (id c : Nat) : Option Chip := s.waitBy id fun r => s.need r c

/-- Let time pass until a run stands at cycle c and no hold is left (R121). -/
def Chip.waitFree (s : Chip) (id c : Nat) : Option Chip := s.waitBy id fun r => s.needFree r c

/-- The count of plan cycles of a swatch now: that of a run on it, else F-cycles go on from its last one. -/
def Chip.countNow (s : Chip) (sw : Nat) : Nat :=
  match s.runs.find? fun r => r.plan.swatches.contains sw with
  | some r => r.cycle
  | none => (s.swatch sw).count + (s.time - (s.swatch sw).countAt) / s.fUnit

/-- Act at cycle c of a run: nothing happens when the run does not reach it. -/
def Chip.atCycle (s : Chip) (id c : Nat) (f : Chip → Chip) : Chip :=
  match s.waitRun id c with
  | none => s
  | some t => f t

/-- Commit at cycle c of a run, in the first plan cycle after a hold (R121). -/
def Chip.atCommit (s : Chip) (id c : Nat) (f : Chip → Chip) : Chip :=
  match s.waitFree id c with
  | none => s
  | some t => f t

end Sys2Proof.Machine
end

