-- ==== Sys2Proof/Machine/Scriber.lean ====
section
/-! DEFINITION. The Scriber core: issue, registers, windows and traps, control flow (R128 to R158). -/

namespace Sys2Proof.Machine

/-! ### Issue -/

/-- The cells that issue: the named cell in loose execution, else every cell of the swatch that is not halted (R136). -/
def Chip.issuers (s : Chip) (i : Issuer) : List Nat :=
  match i.cell with
  | some c => [cellNo i.sw.toNat c.toNat]
  | none => (swatchCells i.sw.toNat).filter fun cn => !(s.cell cn).scr.halted

/-- The stream a slot issues from: the swatch's in ganged execution, the cell's own in loose execution. -/
def Chip.streamFor (s : Chip) (r : Run) (i : Issuer) : Option Stream :=
  let sw := i.sw.toNat
  if r.state != .issuing || !r.plan.swatches.contains sw then none
  else
    match i.cell with
    | none => if r.loose.contains sw then none else mfind sw r.streams
    | some c =>
      let cl := s.cell (cellNo sw c.toNat)
      if r.loose.contains sw && !cl.scr.halted && cl.mode != .ganged then some cl.stream else none

/-- The bundle address as PTN_FAULT_BUNDLE holds it: bit 16 for a loose store (Table 4.16). -/
def bundleAddr (i : Issuer) (st : Stream) : Nat := st.pc + if i.cell.isSome then 65536 else 0

/-- What a slot command knows of its issue: the run, the issuing cells, the plan cycle, the bundle address. -/
structure Slot where
  r : Run
  cells : List Nat
  now : Nat
  bundle : Nat
  st : Stream
  i : Issuer

/-- The local cell 0 of the stream: it decides for all cells of a ganged swatch (R140), with the values it was halted at
once it is halted itself (DESIGN CHOICE, log entry 70). -/
def Slot.lead (k : Slot) : Nat :=
  match k.i.cell with
  | some c => cellNo k.i.sw.toNat c.toNat
  | none => cellNo k.i.sw.toNat 0

/-- A slot issues in loose execution. -/
def Slot.isLoose (k : Slot) : Bool := k.i.cell.isSome

/-- What issues next from a stream, after time has run on to the plan cycle of its next bundle. A stream that issues nothing (bubbles of
no known end, a barrier, a halted cell, an ended loose stream), a run that does not reach the cycle, and a plan cycle whose stitch point has
not committed let nothing issue. -/
def Chip.slotOf (s : Chip) (i : Issuer) : Chip × Option Slot :=
  match (s.run? i.run).bind fun r => (s.streamFor r i).bind fun st => st.next.map fun x => (st, x) with
  | none => (s, none)
  | some (st, x) =>
    match s.waitRun i.run x with
    | none => (s, none)
    | some t =>
      match t.run? i.run with
      | none => (t, none)
      | some r =>
        if (match t.limitOf r with | some l => decide (l ≤ r.cycle) | none => true) then (t, none)
        else (t, some ⟨r, t.issuers i, r.cycle, bundleAddr i st, st, i⟩)

/-- Issue a slot: its effect in the plan cycle of the stream's next bundle. -/
def Chip.issue (s : Chip) (i : Issuer) (f : Slot → Chip → Chip) : Chip :=
  match s.slotOf i with
  | (t, some k) => f k t
  | (t, none) => t

/-- The plan stops on a slot: the status, the cell, the bundle (R122). -/
def Slot.fault (k : Slot) (st : Status) (cn : Nat) (s : Chip) : Chip := s.faultPlan k.r.id st cn k.bundle

/-- A reserved encoding met while the plan runs (R122, R154). -/
def Slot.reserved (k : Slot) (s : Chip) : Chip := k.fault .notSupported k.lead s

/-- Change the stream of a slot. -/
def Slot.setStream (k : Slot) (st : Stream) (s : Chip) : Chip :=
  match k.i.cell with
  | none => s.updRun k.r.id fun r => { r with streams := mput k.i.sw.toNat st r.streams }
  | some _ => s.updCell k.lead fun c => { c with stream := st }

/-- The modulus table a swatch's engines read. -/
def Slot.table (k : Slot) (s : Chip) : ModTable := (s.swatch k.i.sw.toNat).table

/-! ### Registers -/

/-- The key of a register field in the window in use: 0 to 15 globals, 16 to 31 windowed (R131). -/
def regKey (cwp r : Nat) : Nat := if r < 16 then r else 16 + 16 * cwp + (r - 16)

/-- The value at a register key; g0 is never written and reads zero (R131). -/
def Scriber.getKey (c : Scriber) (k : Nat) : Tagged := mget ⟨0, false⟩ k c.regs

/-- Write a register key; a write to g0 is discarded (R131). -/
def Scriber.putKey (c : Scriber) (k : Nat) (v : Tagged) : Scriber :=
  if k = 0 then c else { c with regs := mset ⟨0, false⟩ k v c.regs }

/-- A register landing comes before another: the earlier cycle, then the earlier issue (R149). -/
def RegLand.before (a b : RegLand) : Bool := a.due < b.due || (a.due == b.due && a.seq ≤ b.seq)

/-- Insert a landing in order. -/
def regInsert (l : RegLand) : List RegLand → List RegLand
  | [] => [l]
  | x :: rest => if x.before l then x :: regInsert l rest else l :: x :: rest

/-- Every result due before plan cycle `now` has landed (R132). -/
def Scriber.settle (now : Nat) (c : Scriber) : Scriber :=
  (c.lands.takeWhile fun l => l.due < now).foldl (fun d l => d.putKey l.reg l.val)
    { c with lands := c.lands.dropWhile fun l => l.due < now }

/-- Every result under way has landed: no plan runs on the cell any more. -/
def Scriber.settleAll (c : Scriber) : Scriber := c.lands.foldl (fun d l => d.putKey l.reg l.val) { c with lands := [] }

/-- Read a register field in plan cycle `now`. -/
def Cell.reg (c : Cell) (now r : Nat) : Tagged :=
  let t := c.scr.settle now
  t.getKey (regKey t.cwp r)

/-- A result of latency lat issued at `now` is to land at the end of now + lat − 1 (R132). -/
def Cell.land (c : Cell) (now lat rd : Nat) (v : Tagged) : Cell :=
  let t := c.scr.settle now
  { c with
    scr := { t with lands := regInsert ⟨regKey t.cwp rd, v, now + lat - 1, c.seq, none⟩ t.lands }
    seq := c.seq + 1 }

/-- A Scriber global that an engine slot names (R159). -/
def Cell.global (c : Cell) (now v : Nat) : Tagged := c.reg now (v % 16)

/-! ### Values -/

/-- The 36-bit operations of Table 5.4. -/
inductive Alu where
  | add | sub | and | or | xor | shl | shr | sra | mul | mulhu | slt | sltu
deriving DecidableEq, Repr

/-- The value of an operation (R147). -/
def Alu.eval : Alu → W36 → W36 → W36
  | .add, a, b => a + b
  | .sub, a, b => a - b
  | .and, a, b => a &&& b
  | .or, a, b => a ||| b
  | .xor, a, b => a ^^^ b
  | .shl, a, b => if 36 ≤ b.toNat % 64 then 0 else a <<< (b.toNat % 64)
  | .shr, a, b => if 36 ≤ b.toNat % 64 then 0 else a >>> (b.toNat % 64)
  | .sra, a, b => a.sshiftRight (b.toNat % 64)
  | .mul, a, b => a * b
  | .mulhu, a, b => BitVec.ofNat 36 (a.toNat * b.toNat / 2 ^ 36)
  | .slt, a, b => if a.toInt < b.toInt then 1 else 0
  | .sltu, a, b => if a.toNat < b.toNat then 1 else 0

/-- The latency of an operation (Table 5.4). -/
def Alu.latency : Alu → Nat
  | .mul | .mulhu => 3
  | _ => 1

/-- The poison tag of a result: any operand tagged, but that a shift whose result the amount alone fixes ignores ra's tag
(R133, R147). -/
def Alu.poison (o : Alu) (a b : Tagged) : Bool :=
  match o with
  | .shl | .shr => b.poison || (a.poison && decide (b.val.toNat % 64 < 36))
  | _ => a.poison || b.poison

/-- An operation on tagged values. -/
def Alu.apply (o : Alu) (a b : Tagged) : Tagged := ⟨o.eval a.val b.val, o.poison a b⟩

/-! ### The next bundle -/

/-- The loop rule at the issue of an END bundle: the stack and the address to go back to, if any (R141). -/
def loopStep (pc : Nat) : List LoopEntry → List LoopEntry × Option Nat
  | [] => ([], none)
  | e :: rest =>
    if e.last = pc then
      if 1 < e.count then ({ e with count := e.count - 1 } :: rest, some e.start) else (rest, none)
    else (e :: rest, none)

/-- The run shares its swatches with a spliced plan: neither uses the Scriber slot, and each bundle address advances by one (R129). -/
def Chip.overlapped (s : Chip) (r : Run) : Bool :=
  s.runs.any fun x => x.id != r.id && x.state == .issuing && (r.spliced == some x.id || x.spliced == some r.id)

/-- The stream of a slot as it now stands: a barrier of the same bundle can have changed that of a loose cell. -/
def Slot.stream (k : Slot) (s : Chip) : Stream :=
  match k.i.cell with
  | none => k.st
  | some _ => (s.cell k.lead).stream

/-- A loose cell waits at a barrier or has ended: it issues nothing more until the release (R143, R145). -/
def Slot.held (k : Slot) (s : Chip) : Bool :=
  match k.i.cell, (s.cell k.lead).mode with
  | some _, .waiting _ _ => true
  | some _, .ended => true
  | _, _ => false

/-- The stream goes on at an address `gap` F-cycles after this bundle, or once a barrier of the same bundle has released (R135, R145). -/
def Slot.goOn (k : Slot) (pc gap : Nat) (busy : Bool) (s : Chip) : Chip :=
  let cur := k.stream s
  let from_ := max (k.now + gap) cur.floor
  k.setStream { cur with
    pc := pc
    next := if k.held s then none else some from_
    floor := if k.held s then from_ else cur.floor
    busyTill := if busy then k.now + gap else cur.busyTill
    last := k.st.pc } s

/-- The bundle has issued and the next one follows after `gap` F-cycles: at the loop's start when the innermost END issued,
else at the next address (R128, R141). In ganged execution every cell follows local cell 0's loop stack (R140, R622). -/
def Slot.follow (k : Slot) (gap : Nat) (s : Chip) (busy : Bool := false) : Chip :=
  let pc := k.st.pc
  if s.overlapped k.r then k.goOn ((pc + 1) % 65536) gap busy s
  else
    let (loops, back) := loopStep pc (s.cell k.lead).scr.loops
    let s := s.updCells k.cells fun _ c => { c with scr := { c.scr with loops := loops } }
    k.goOn (back.getD ((pc + 1) % 65536)) gap busy s

/-- A target that a loose stream cannot go to: TARGET[15:13] is not zero (R147). -/
def Slot.farTarget (k : Slot) (target : Nat) : Bool := k.isLoose && decide (8192 ≤ target)

/-- Control goes to a target after `gap` F-cycles, loop entries untouched (R140, R142). In loose execution a target at or
above 8 192 stops the plan (R147). -/
def Slot.goto (k : Slot) (target gap : Nat) (s : Chip) (busy : Bool := false) : Chip :=
  if k.farTarget target then k.fault .bound k.lead s else k.goOn (target % 65536) gap busy s

/-- The first issuing cell in which a register is tagged (R133). -/
def Slot.tagged (k : Slot) (s : Chip) (regs : List Nat) : Option Nat :=
  k.cells.find? fun cn => regs.any fun r => ((s.cell cn).reg k.now r).poison

/-- Stop on a tagged register, else go on (R133, R160, R184, R250). -/
def Slot.untagged (k : Slot) (regs : List Nat) (f : Chip → Chip) (s : Chip) : Chip :=
  match k.tagged s regs with
  | some cn => k.fault .poison cn s
  | none => f s

/-- The checks of Table 5.7 in its order: a bound that every issuing cell must meet, then the tags (R4a, R154). -/
def Slot.bounded (k : Slot) (ok : Cell → Bool) (regs : List Nat) (f : Chip → Chip) (s : Chip) : Chip :=
  match k.cells.find? fun cn => !ok (s.cell cn) with
  | some cn => k.fault .bound cn s
  | none => k.untagged regs f s

/-! ### Arithmetic -/

/-- A Scriber instruction that computes one result in every issuing cell. -/
def Slot.compute (k : Slot) (lat rd : Nat) (v : Cell → Tagged) (s : Chip) : Chip :=
  k.follow 1 (s.updCells k.cells fun _ c => c.land k.now lat rd (v c))

/-- Register form: rd := ra op rb. -/
def scrAlu (o : Alu) (i : Issuer) (rd ra rb : BitVec 5) (s : Chip) : Chip :=
  s.issue i fun k => k.compute o.latency rd.toNat fun c => o.apply (c.reg k.now ra.toNat) (c.reg k.now rb.toNat)

/-- Immediate form: rd := ra op IMM. -/
def scrAluImm (o : Alu) (i : Issuer) (rd ra : BitVec 5) (imm : W36) (s : Chip) : Chip :=
  s.issue i fun k => k.compute 1 rd.toNat fun c => o.apply (c.reg k.now ra.toNat) ⟨imm, false⟩

/-- Shift by an immediate: IMM[35:6] is zero (Table 5.4). -/
def scrShiftImm (o : Alu) (i : Issuer) (rd ra : BitVec 5) (imm : W36) (s : Chip) : Chip :=
  s.issue i fun k t =>
    if 64 ≤ imm.toNat then k.reserved t
    else k.compute 1 rd.toNat (fun c => o.apply (c.reg k.now ra.toNat) ⟨imm, false⟩) t

/-- LI: rd := IMM. -/
def scrLi (i : Issuer) (rd : BitVec 5) (imm : W36) (s : Chip) : Chip :=
  s.issue i fun k => k.compute 1 rd.toNat fun _ => ⟨imm, false⟩

/-- SEL: rd := rb if ra ≠ 0, else the old rd; tagged when ra is or when the chosen value is (R133). -/
def scrSel (i : Issuer) (rd ra rb : BitVec 5) (s : Chip) : Chip :=
  s.issue i fun k => k.compute 1 rd.toNat fun c =>
    let a := c.reg k.now ra.toNat
    let v := if a.val = 0 then c.reg k.now rd.toNat else c.reg k.now rb.toNat
    ⟨v.val, a.poison || v.poison⟩

/-- MODADD and MODMUL: an M36 entry, checked under R55. -/
def scrMod (mul : Bool) (i : Issuer) (rd ra rb : BitVec 5) (entry : BitVec 10) (s : Chip) : Chip :=
  s.issue i fun k t =>
    match (k.table t).use entry.toNat false false with
    | none => k.fault .badModulus k.lead t
    | some m => k.compute (if mul then 5 else 2) rd.toNat (fun c =>
        let a := c.reg k.now ra.toNat
        let b := c.reg k.now rb.toNat
        let v := if mul then m.mul a.val.toNat b.val.toNat else m.add a.val.toNat b.val.toNat
        ⟨BitVec.ofNat 36 v, a.poison || b.poison⟩) t

/-- The Scriber slot is a no-op. -/
def scrNop (i : Issuer) (s : Chip) : Chip := s.issue i fun k => k.follow 1

/-! ### Loads and stores (R139, R152, R216) -/

/-- The task slot in use. -/
def Scriber.task (c : Scriber) : TaskSlot := c.tasks[c.atask]?.getD {}

/-- The Pad word of a narrow access: physical row and container, or none outside the task (R139). -/
def Cell.narrow (c : Cell) (now ra : Nat) (off : BitVec 16) : Option (Nat × Nat) :=
  let t := c.scr.task
  let e := ((c.reg now ra).val + off.signExtend 36).toNat
  if (t.padBound - t.padBase) * 8 ≤ e then none else some (t.padBase + e / 8, e % 8)

/-- After loose execution a cell of a ganged swatch has another task slot in use than local cell 0: what its accesses move is unspecified
inside the partition (R622). -/
def Slot.strays (k : Slot) (s : Chip) (cn : Nat) : Bool :=
  !k.isLoose && (s.cell cn).scr.atask != (s.cell k.lead).scr.atask

/-- LDN in one cell: the word as it stood at the end of the F-cycle before; the bank is used one F-cycle later (Table 8.1). -/
def Slot.loadOne (k : Slot) (rd ra : Nat) (off : BitVec 16) (cn : Nat) (s : Chip) : Chip :=
  let c := s.cell cn
  match c.narrow k.now ra off with
  | none => s
  | some (row, w) =>
    let mask : BitVec 8 := (1 : BitVec 8) <<< w
    let s := s.checkRead k.r cn row k.now k.bundle mask
    let (p, v, poisoned, e) := c.pad.read k.now row [w / 2]
    let (free, s) := if k.strays s cn then s.takeFree else (0, s)
    let v := if k.strays s cn then BitVec.ofNat 36 (Config.freeNat free) else container v w
    let s := s.setCell cn ({ c with pad := p }.land k.now 4 rd ⟨v, poisoned⟩)
    (s.notePad k.r.id k.r.part cn k.now e k.bundle).noteBank k.r.id cn row (k.now + 1) k.now k.bundle

/-- LDN. -/
def scrLdn (i : Issuer) (rd ra : BitVec 5) (off : BitVec 16) (s : Chip) : Chip :=
  s.issue i fun k t => k.bounded (fun c => (c.narrow k.now ra.toNat off).isSome) [ra.toNat]
    (fun t => k.follow 1 (k.cells.foldl (fun u cn => k.loadOne rd.toNat ra.toNat off cn u) t)) t

/-- STN in one cell: the ECC pair is read at issue and written at the end of the next F-cycle (R216). -/
def Slot.storeOne (k : Slot) (ra rb : Nat) (off : BitVec 16) (cn : Nat) (s : Chip) : Chip :=
  let c := s.cell cn
  match c.narrow k.now ra off with
  | none => s
  | some (row, w) =>
    let d := c.reg k.now rb
    let pair : BitVec 8 := (3 : BitVec 8) <<< (2 * (w / 2))
    let (s, v, _) := s.readPad k.r cn row k.now k.bundle (pair &&& ~~~((1 : BitVec 8) <<< w))
    let (free, s) := if k.strays s cn then s.takeFree else (0, s)
    let v := setContainer v w (if k.strays s cn then BitVec.ofNat 36 (Config.freeNat free) else d.val)
    s.writePad k.r cn row (k.now + 1) 9 pair v d.poison k.bundle

/-- STN. -/
def scrStn (i : Issuer) (ra rb : BitVec 5) (off : BitVec 16) (s : Chip) : Chip :=
  s.issue i fun k t => k.bounded (fun c => (c.narrow k.now ra.toNat off).isSome) [ra.toNat]
    (fun t => k.follow 1 (k.cells.foldl (fun u cn => k.storeOne ra.toNat rb.toNat off cn u) t)) t

/-! ### Special registers (Table 5.5) -/

/-- Field k of a task slot. -/
def TaskSlot.field (t : TaskSlot) : Nat → Nat
  | 0 => t.padBase
  | 1 => t.padBound
  | 2 => t.lngBase
  | 3 => t.lngBound
  | 4 => t.spillBase
  | _ => t.spillBound

/-- Set field k of a task slot. -/
def TaskSlot.setField (t : TaskSlot) (k v : Nat) : TaskSlot :=
  match k with
  | 0 => { t with padBase := v }
  | 1 => { t with padBound := v }
  | 2 => { t with lngBase := v }
  | 3 => { t with lngBound := v }
  | 4 => { t with spillBase := v }
  | _ => { t with spillBound := v }

/-- A task-slot field number. -/
def srTask (sr : Nat) : Option (Nat × Nat) :=
  if 0x20 ≤ sr && sr < 0x40 && (sr - 0x20) % 8 < 6 then some ((sr - 0x20) / 8, (sr - 0x20) % 8) else none

/-- The virtual swatch a physical swatch serves in a plan: its place v in the VSWATCH list (Table 4.3). -/
def Plan.virtual (p : Plan) (sw : Nat) : Nat := (p.swatches.idxOf? sw).getD 0

/-- The value of a special register in cycle `now`, plan cycle `pcyc` of its plan, or none for an undefined one (R148). -/
def Cell.special (c : Cell) (p : Plan) (cn now pcyc sr : Nat) (looseX : Bool) : Option Nat :=
  let t := c.scr.settle now
  match sr with
  | 0x00 => some cn
  | 0x01 => some (cn % 512)
  | 0x02 => some (cn % 4096)
  | 0x03 => some (p.virtual (swatchOf cn))
  | 0x04 => some (pcyc % 2 ^ 36)
  | 0x05 => some (pcyc / 2 ^ 36 % 2 ^ 12)
  | 0x06 => some (t.cwp + 8 * t.wdepth)
  | 0x07 => some t.cdepth
  | 0x08 => some (t.spillp[t.atask]?.getD 0)
  | 0x09 => some t.atask
  | 0x0A => some (b2n looseX)
  | 0x0B => some t.loops.length
  | _ =>
    match srTask sr with
    | some (s, k) => some ((t.tasks[s]?.getD {}).field k)
    | none => none

/-- A special register that MFS reads. -/
def srReadable (sr : Nat) : Bool := sr ≤ 0x0B || (srTask sr).isSome

/-- A special register that MTS writes. -/
def srWritable (sr : Nat) : Bool := sr == 0x08 || (srTask sr).isSome

/-- MFS. -/
def scrMfs (i : Issuer) (rd : BitVec 5) (sr : BitVec 8) (s : Chip) : Chip :=
  s.issue i fun k t =>
    if !srReadable sr.toNat then k.reserved t
    else k.follow 1 (t.updCells k.cells fun cn c =>
      c.land k.now 2 rd.toNat
        ⟨BitVec.ofNat 36 ((c.special k.r.plan cn k.now k.r.planCycle sr.toNat k.isLoose).getD 0), false⟩)

/-- MTS: SPILLP of ATASK, or the shadow copy of a task-slot field (R138). -/
def scrMts (i : Issuer) (ra : BitVec 5) (sr : BitVec 8) (s : Chip) : Chip :=
  s.issue i fun k t =>
    if !srWritable sr.toNat then k.reserved t
    else k.untagged [ra.toNat] (fun t => k.follow 1 (t.updCells k.cells fun _ c =>
      let v := (c.reg k.now ra.toNat).val.toNat
      match srTask sr.toNat with
      | some (sl, f) => { c with scr := { c.scr with shadowTasks := lupd c.scr.shadowTasks sl fun x => x.setField f v } }
      | none => { c with scr := { c.scr with spillp := lset c.scr.spillp c.scr.atask v } })) t

/-- TSEL: ATASK for later bundles (R137). -/
def scrTsel (i : Issuer) (slot : BitVec 2) (s : Chip) : Chip :=
  s.issue i fun k t => k.follow 1 (t.updCells k.cells fun _ c => { c with scr := { c.scr with atask := slot.toNat } })

/-! ### Control flow -/

/-- The comparisons of the branches. -/
inductive Cond where
  | always | eq | ne | lt | ltu
deriving DecidableEq, Repr

/-- A comparison holds. -/
def Cond.holds : Cond → W36 → W36 → Bool
  | .always, _, _ => true
  | .eq, a, b => a == b
  | .ne, a, b => a != b
  | .lt, a, b => decide (a.toInt < b.toInt)
  | .ltu, a, b => decide (a.toNat < b.toNat)

/-- The registers a branch reads. -/
def Cond.regs (c : Cond) (ra rb : Nat) : List Nat := if c == .always then [] else [ra, rb]

/-- A branch: local cell 0 decides, the tags of every cell are checked (R133, R140). Where local cell 0 is halted, its registers decide as the
halt left them (DESIGN CHOICE, log entry 70). -/
def scrBranch (c : Cond) (i : Issuer) (ra rb : BitVec 5) (target : BitVec 16) (s : Chip) : Chip :=
  s.issue i fun k t =>
    let l := t.cell k.lead
    let taken := c.holds (l.reg k.now ra.toNat).val (l.reg k.now rb.toNat).val
    k.bounded (fun _ => !(taken && k.farTarget target.toNat)) (c.regs ra.toNat rb.toNat)
      (fun t => if taken then k.goto target.toNat 3 t else k.follow 1 t) t

/-- Read and write cycles of word w of a window trap of an instruction issued at x (R134). -/
def trapCycle (x w : Nat) : Nat := x + 6 + 2 * w

/-- The words of a window trap up to the one that meets a trap condition: an uncorrectable error in its ECC pair of a row that is not poisoned
yet (R136, R222). -/
def Pad.trapEnd (p : Pad) (sp : Nat) : Nat :=
  ((List.range 16).find? fun w =>
    !p.poison.contains (sp + w / 8) && p.ue.contains (pairKey (sp + w / 8) (w % 8 / 2))).getD 16

/-- The errors that the words of a window trap will meet, each when its word is reached (R134). -/
def Slot.trapErrors (k : Slot) (cn sp : Nat) (s : Chip) : Chip :=
  let p := (s.cell cn).pad
  let hits := (List.range (min 16 (p.trapEnd sp + 1))).filterMap fun w =>
    let e := pairKey (sp + w / 8) (w % 8 / 2)
    if w % 2 = 0 && (p.ce.contains e || p.ue.contains e) then some (trapCycle k.now w, cn, e) else none
  if hits.isEmpty then s else s.updRun k.r.id fun r => { r with traps := r.traps ++ hits }

/-- The spill of window (CWP + 1) mod 7 of one cell to rows SPILLP and SPILLP + 1: word k is written as an STN issued at X + 6 + 2k would
write it (R134, R216). -/
def Slot.spill (k : Slot) (cn : Nat) (s : Chip) : Chip :=
  let c := s.cell cn
  let sp := c.scr.spillp[c.scr.atask]?.getD 0
  let regs := c.scr.settle (trapCycle k.now 0)
  let win := (c.scr.cwp + 1) % 7
  let s := k.trapErrors cn sp s
  let s := (List.range (min 16 (c.pad.trapEnd sp + 1))).foldl (fun t w =>
    let row := sp + w / 8
    let d := regs.getKey (16 + 16 * win + w)
    let x := trapCycle k.now w
    let pair : BitVec 8 := (3 : BitVec 8) <<< (2 * (w % 8 / 2))
    let v := ((t.cell cn).pad.peek x row).1
    (t.noteBank k.r.id cn row x k.now k.bundle).writePad k.r cn row (x + 1) 9 pair (setContainer v (w % 8) d.val) d.poison k.bundle) s
  s.updCell cn fun c => { c with scr := { c.scr with spillp := lset c.scr.spillp c.scr.atask (sp + 2) } }

/-- The fill of window `win` of one cell from the two rows below SPILLP: word k is read as an LDN issued at X + 6 + 2k would read it, and is in
its register before the target issues (R134). -/
def Slot.fill (k : Slot) (cn win : Nat) (s : Chip) : Chip :=
  let c := s.cell cn
  let sp := (c.scr.spillp[c.scr.atask]?.getD 0) - 2
  let s := k.trapErrors cn sp s
  let s := (List.range (c.pad.trapEnd sp)).foldl (fun t w =>
    let row := sp + w / 8
    let x := trapCycle k.now w
    let t := t.updCell cn fun c =>
      let v := c.pad.peek x row
      let l : RegLand := ⟨16 + 16 * win + w, ⟨container v.1 (w % 8), v.2⟩, x + 3, c.seq, some (row, w % 8, x)⟩
      { c with scr := { c.scr with lands := regInsert l c.scr.lands }, seq := c.seq + 1 }
    t.noteBank k.r.id cn row (x + 1) k.now k.bundle) s
  s.updCell cn fun c => { c with scr := { c.scr with spillp := lset c.scr.spillp c.scr.atask sp } }

/-- Count a window trap: once per swatch in ganged execution, once per cell in loose execution. -/
def Slot.countTrap (k : Slot) (s : Chip) : Chip :=
  s.updRegs k.r.part fun g => { g with scrTraps := g.scrTraps + 1 }

/-- A cell of a ganged swatch whose window state differs from local cell 0's after loose execution (R622). -/
def Scriber.differs (a b : Scriber) : Bool := a.cwp != b.cwp || a.wdepth != b.wdepth || a.cdepth != b.cdepth || a.rets != b.rets

/-- The registers of a window hold unspecified values (R622). -/
def Chip.freeWindow (s : Chip) (cn win : Nat) : Chip :=
  (List.range 16).foldl (fun t w =>
    let (n, t) := t.takeFree
    t.updCell cn fun c => { c with scr := c.scr.putKey (16 + 16 * win + w) ⟨BitVec.ofNat 36 (Config.freeNat n), false⟩ }) s

/-- CALL: rotate to the next window, spilling when all seven are resident (R134). Every cell of a ganged swatch follows local cell 0; in a
cell whose own window state differed the words moved and the new window are unspecified (R622). -/
def scrCall (i : Issuer) (target : BitVec 16) (s : Chip) : Chip :=
  s.issue i fun k t =>
    if k.farTarget target.toNat then k.fault .bound k.lead t
    else
      let lead := (t.cell k.lead).scr
      let trap := lead.wdepth == 7
      let full := k.cells.find? fun cn =>
        let c := (t.cell cn).scr
        trap && decide (c.task.spillBound < (c.spillp[c.atask]?.getD 0) + 2)
      match full with
      | some cn => k.fault .spillBound cn t
      | none =>
        let t := k.cells.foldl (fun u cn =>
          let c := (u.cell cn).scr
          let odd := c.differs lead
          let sp := c.spillp[c.atask]?.getD 0
          let u := if trap then k.spill cn u else u
          let u := if trap && odd then (u.freePadRow cn sp).freePadRow cn (sp + 1) else u
          let u := u.updCell cn fun c => { c with scr := { c.scr with
            cwp := (lead.cwp + 1) % 7, wdepth := if trap then 7 else lead.wdepth + 1, cdepth := lead.cdepth + 1
            rets := (k.st.pc + 1) % 65536 :: lead.rets } }
          if odd then u.freeWindow cn ((lead.cwp + 1) % 7) else u) t
        k.goto target.toNat (if trap then 41 else 3) (if trap then k.countTrap t else t) trap

/-- RET: rotate back, filling when only the current window is resident (R134). Every cell of a ganged swatch follows local cell 0 (R622). -/
def scrRet (i : Issuer) (s : Chip) : Chip :=
  s.issue i fun k t =>
    let lead := (t.cell k.lead).scr
    let trap := lead.wdepth == 1
    let bad := if lead.cdepth = 0 then k.cells.head?
      else k.cells.find? fun cn =>
        let c := (t.cell cn).scr
        trap && decide ((c.spillp[c.atask]?.getD 0) < c.task.spillBase + 2)
    match bad with
    | some cn => k.fault .spillBound cn t
    | none =>
      let win := (lead.cwp + 6) % 7
      let t := k.cells.foldl (fun u cn =>
        let odd := (u.cell cn).scr.differs lead
        let u := if trap then k.fill cn win u else u
        let u := u.updCell cn fun c => { c with scr := { c.scr with
          cwp := win, cdepth := lead.cdepth - 1, rets := lead.rets.tail
          wdepth := if trap then lead.wdepth else lead.wdepth - 1
          lands := if odd then c.scr.lands.filter fun l => l.src.isNone else c.scr.lands } }
        if odd then u.freeWindow cn win else u) t
      k.goto (lead.rets.headD 0) (if trap then 41 else 3) (if trap then k.countTrap t else t) trap

/-- LOOP: push (END, count); count 0 skips the body (R141). The checks come in the order of Table 5.7 (R154). -/
def scrLoop (i : Issuer) (ra : BitVec 5) (last : BitVec 16) (s : Chip) : Chip :=
  s.issue i fun k t =>
    let lead := t.cell k.lead
    let count := (lead.reg k.now ra.toNat).val.toNat
    if count = 0 && k.farTarget last.toNat then k.fault .bound k.lead t
    else
      k.bounded (fun _ => count == 0 || decide (lead.scr.loops.length < 4)) [ra.toNat] (fun t =>
        if count = 0 then k.goto (last.toNat + 1) 3 t
        else
          let t := k.follow 1 t
          t.updCells k.cells fun _ c => { c with scr := { c.scr with
            loops := ⟨(k.st.pc + 1) % 65536, last.toNat, count⟩ :: c.scr.loops } }) t

/-- IDLE: nothing issues for COUNT F-cycles. -/
def scrIdle (i : Issuer) (count : BitVec 16) (s : Chip) : Chip := s.issue i fun k t => k.follow (1 + count.toNat) t true

/-- LOOSE: arm loose execution at the next stitch point; reserved in loose execution (R143). A TARGET outside the loose stores stops the plan
(R154). -/
def scrLoose (i : Issuer) (target : BitVec 16) (s : Chip) : Chip :=
  s.issue i fun k t =>
    if k.isLoose then k.reserved t
    else if 8192 ≤ target.toNat then k.fault .bound k.lead t
    else k.follow 1 (t.updRun k.r.id fun r => { r with armed := mput i.sw.toNat target.toNat r.armed })

/-- A Scriber result lands: time runs past the plan cycle of the oldest result in flight, and it is in its register. -/
def scrWriteback (i : Issuer) (s : Chip) : Chip :=
  let cells := match i.cell with
    | some c => [cellNo i.sw.toNat c.toNat]
    | none => swatchCells i.sw.toNat
  match s.run? i.run with
  | none => s
  | some r =>
    if !r.plan.swatches.contains i.sw.toNat then s
    else
      match (cells.filterMap fun cn => ((s.cell cn).scr.lands.head?).map (·.due)).min? with
      | none => s
      | some d => s.atCycle i.run (d + 1) fun t =>
          t.updCells cells fun _ c => { c with scr := c.scr.settle (d + 1) }

/-! ### Sync slot -/

/-- The cells of a barrier's scope (Table 5.2). -/
def barrierScope (cn : Nat) (swatchScope : Bool) : List Nat :=
  if swatchScope then swatchCells (swatchOf cn) else panelCells (panelOf cn)

/-- A cell has arrived at a barrier of the scope. -/
def Cell.arrived (c : Cell) (swatchScope : Bool) : Bool :=
  !c.scr.halted && match c.mode with
    | .waiting sc _ => sc == swatchScope
    | _ => false

/-- Release every cell of a scope at plan cycle x (R145). -/
def Cell.release (x : Nat) (c : Cell) : Cell :=
  match c.mode with
  | .waiting _ true => { c with mode := .ended }
  | .waiting _ false =>
    let from_ := max x c.stream.floor
    { c with mode := .loose
             stream := { c.stream with floor := from_, next := some (c.stream.next.getD from_) } }
  | _ => c

/-- BARRIER (R144, R145). -/
def syncBarrier (i : Issuer) (scope : BitVec 2) (atEnd : Bool) (s : Chip) : Chip :=
  s.issue i fun k t =>
    if 2 ≤ scope.toNat || (!k.isLoose && atEnd) then k.reserved t
    else if !k.isLoose then t
    else
      let sc := scope.toNat == 1
      let cn := k.lead
      let t := t.updCell cn fun c => { c with mode := .waiting sc atEnd }
      let cells := barrierScope cn sc
      if cells.all fun c => (t.cell c).arrived sc then
        t.updCells cells fun _ c => c.release (k.now + if sc then 10 else 6)
      else t

/-- EVENT: once per swatch in ganged execution, once per issuing cell in loose execution; it lands 3 F-cycles after its issue (R144, R145). -/
def syncEvent (i : Issuer) (counter : BitVec 3) (s : Chip) : Chip :=
  s.issue i fun k t =>
    if k.cells.isEmpty then t else t.updRun k.r.id fun r => { r with evs := r.evs ++ [(k.now + 3, counter.toNat)] }

/-- STITCH: a mark at another plan cycle than the listed one counts a miss; a mark in place is noted (R107). -/
def syncStitch (i : Issuer) (index : BitVec 12) (s : Chip) : Chip :=
  s.issue i fun k t =>
    match k.r.plan.stitches[index.toNat]? with
    | some st =>
      if st.cycle = k.r.planCycle then t.updRun k.r.id fun r => { r with marks := sinsert index.toNat r.marks }
      else (t.updRegs k.r.part fun g => { g with stitchMiss := g.stitchMiss + 1 }).hazard k.r 3 k.lead k.bundle
    | none => (t.updRegs k.r.part fun g => { g with stitchMiss := g.stitchMiss + 1 }).hazard k.r 3 k.lead k.bundle

/-! ### Queries and the debug window (R157, R158) -/

/-- The value DBG_SCR_DATA shows: data, tag, VALID (R158). -/
def Chip.scrDebug (s : Chip) : Nat × Bool × Bool :=
  let d := s.dbg
  let sw := swatchOf d.scrCell
  let w := s.swatch sw
  let ok := match w.owner with
    | some p => s.quiet p
    | none => true
  let now := (s.runOn sw).map fun r => (r, r.cycle)
  let c := match now with
    | some (_, n) => (s.cell d.scrCell).scr.settle n
    | none => (s.cell d.scrCell).scr.settleAll
  if !ok then (2 ^ 36 - 1, false, false)
  else
    match d.scrSpace with
    | 0 => let v := c.getKey (d.scrIndex % 16); (v.val.toNat, v.poison, true)
    | 1 => let v := c.getKey (16 + 16 * d.scrWin + d.scrIndex % 16); (v.val.toNat, v.poison, true)
    | 2 =>
      match now with
      | some (r, n) => (((s.cell d.scrCell).special r.plan d.scrCell n r.planCycle d.scrIndex (r.loose.contains sw)).getD 0, false, true)
      | none => (((s.cell d.scrCell).special {} d.scrCell 0 0 d.scrIndex false).getD 0, false, true)
    | _ => (0, false, true)

end Sys2Proof.Machine
end

