-- ==== Sys2Proof/Machine/PressStipple.lean ====
section
/-! DEFINITION. The Press and the Stipple (R159 to R181, R623). -/

namespace Sys2Proof.Machine

/-! ### Common issue rules (R161, R115) -/

/-- Issue into an engine queue of n places: the issue cycles and starts of the queues it joins, the new instruction's start included. Items
beyond the bound hold the plan (R115, R161). -/
def Slot.queueBound (k : Slot) (n : Nat) (queues : List (List Nat)) (s : Chip) : Chip :=
  queues.eraseDups.foldl (fun t q => t.overflow k.r.id (queueDemand n k.now q) k.lead k.bundle) s

/-- The value of a global register in a cell at issue. -/
def Slot.g (k : Slot) (s : Chip) (cn v : Nat) : Nat := ((s.cell cn).global k.now v).val.toNat

/-- The first issuing cell that fails a check. -/
def Slot.failing (k : Slot) (s : Chip) (bad : Nat → Cell → Bool) : Option Nat :=
  k.cells.find? fun cn => bad cn (s.cell cn)

/-- Stop with a status in the first cell that fails a check, else go on. -/
def Slot.check (k : Slot) (st : Status) (bad : Nat → Cell → Bool) (f : Chip → Chip) (s : Chip) : Chip :=
  match k.failing s bad with
  | some cn => k.fault st cn s
  | none => f s

/-! ### Press issue -/

/-- The tap lock that holds in a plan cycle (R166). -/
def Press.lockAt (p : Press) (x : Nat) : Option TapLock :=
  p.locks.find? fun l => decide (l.start ≤ x) && l.releaseAt.all fun r => decide (x < r)

/-- A TAPREL that starts in a cycle releases the lock that holds then (R164, R166). -/
def TapLock.release (start : Nat) (l : TapLock) : TapLock :=
  if l.start ≤ start && l.releaseAt.all fun r => decide (start < r) then { l with releaseAt := some start } else l

/-- An MMA, DRAIN or ZERO that starts while the lock of another DRAIN holds (R166). -/
def Press.lockedOut (p : Press) (o : PressOp) : Bool :=
  o.kind != .tapRel && p.locks.any fun l =>
    decide (l.start ≤ o.start) && (l.releaseAt.all fun r => decide (o.start < r)) && !(o.kind == .drain && o.tap && l.start == o.start)

/-- Press instructions that need no event of their own are done when their turn has come by plan cycle `now`: ZERO and TAPREL
clear the accumulators, an MMA of no steps does nothing. -/
def Press.quick (now : Nat) : Nat → Press → Press
  | 0, p => p
  | n + 1, p =>
    match p.queue with
    | [] => p
    | o :: rest =>
      if now < o.start then p
      else
        match o.kind with
        | .zero => if p.lockedOut o then p else Press.quick now n { p with queue := rest, acc := [], written := true }
        | .tapRel => Press.quick now n { p with queue := rest, acc := [], written := true }
        | .mma => if o.count = 0 && !p.lockedOut o then Press.quick now n { p with queue := rest } else p
        | .drain => p

/-- The Press instructions of cells that need no event are done by plan cycle `now`. -/
def Chip.pressQuick (s : Chip) (cells : List Nat) (now : Nat) : Chip :=
  s.updCells cells fun _ c => { c with press := c.press.quick now c.press.queue.length }

/-- Put a Press instruction in the queue of each issuing cell. -/
def Slot.pressPut (k : Slot) (o : Nat → Cell → PressOp) (s : Chip) : Chip :=
  let s := s.pressQuick k.cells k.now
  let s := k.queueBound 4 (k.cells.map fun cn =>
    let p := (s.cell cn).press
    (p.queue.map (·.start)) ++ [max k.now p.freeAt]) s
  s.updCells k.cells fun cn c =>
    let op := o cn c
    let start := max k.now c.press.freeAt
    let op := { op with start := start, seq := c.seq }
    let locks := match op.kind with
      | .drain => if op.tap then c.press.locks ++ [{ start := start, m18 := op.m18 }] else c.press.locks
      | .tapRel => c.press.locks.map (TapLock.release start)
      | _ => c.press.locks
    { c with
      press := { c.press with queue := c.press.queue ++ [op], freeAt := start + op.occ, locks := locks }
      seq := c.seq + 1 }

/-- A Press instruction of a kind with the slot's marks. -/
def Slot.pressOp (k : Slot) (kind : PressKind) (occ : Nat) : PressOp :=
  { run := k.r.id, seq := 0, bundle := k.bundle, start := 0, occ := occ, kind := kind }

/-- Rows of stream A that hold containers MMA steps use (R177). -/
def mmaRowsA (count : Nat) : Nat := (12 * count - 1) / 8 + 1

/-- Rows of stream B that hold containers MMA steps use (R177). -/
def mmaRowsB (m18 : Bool) (count : Nat) : Nat := if m18 then 2 * count else count

/-- MMA (R162). -/
def pressMma (i : Issuer) (m18 : Bool) (ga gb : BitVec 4) (count : BitVec 9) (s : Chip) : Chip :=
  s.issue i fun k t =>
    if !mmaOk count then k.reserved t
    else
      let n := count.toNat
      let row := fun (cn : Nat) (c : Cell) (g : BitVec 4) (rows : Nat) =>
        c.scr.task.row (k.g t cn g.toNat) rows
      k.check .bound (fun cn c => n != 0 &&
          ((row cn c ga (mmaRowsA n)).isNone || (row cn c gb (mmaRowsB m18 n)).isNone))
        (k.check .bound (fun cn _ => k.g t cn ga.toNat % 4 != 0 || k.g t cn gb.toNat % 4 != 0)
          (k.untagged [ga.toNat, gb.toNat]
            (k.pressPut fun cn c =>
              { k.pressOp .mma (max n 1) with
                m18 := m18
                rowA := c.scr.task.padBase + k.g t cn ga.toNat
                rowB := c.scr.task.padBase + k.g t cn gb.toNat
                count := n }))) t

/-- DRAIN (R163, R164). -/
def pressDrain (i : Issuer) (m18 tap rowmod : Bool) (gd : BitVec 4) (entry : BitVec 10) (s : Chip) : Chip :=
  s.issue i fun k t =>
    if !drainOk tap gd then k.reserved t
    else
      let idx := if rowmod then (List.range 12).map fun r => (entry.toNat + r) % 1024 else List.replicate 12 entry.toNat
      let mods := idx.map fun e => (k.table t).use e m18 false
      k.check .bound (fun cn c => !tap && (c.scr.task.row (k.g t cn gd.toNat) 12).isNone)
        (k.check .bound (fun cn _ => !tap && k.g t cn gd.toNat % 4 != 0)
          (k.check .badModulus (fun _ _ => mods.any Option.isNone)
            (k.untagged [gd.toNat]
              (k.pressPut fun cn c =>
                { k.pressOp .drain 3 with
                  m18 := m18
                  tap := tap
                  rowD := c.scr.task.padBase + k.g t cn gd.toNat
                  mods := mods.map (·.getD {}) })))) t

/-- ZERO (R164). -/
def pressZero (i : Issuer) (s : Chip) : Chip := s.issue i fun k => k.pressPut fun _ _ => k.pressOp .zero 1

/-- TAPREL (R164, R166). -/
def pressTapRel (i : Issuer) (s : Chip) : Chip := s.issue i fun k => k.pressPut fun _ _ => k.pressOp .tapRel 1

/-! ### Press work -/

/-- Container n of a stream held in its wide words. -/
def streamAt (words : SMap (List Row)) (n : Nat) : Nat :=
  (container ((mget [] (n / 32) words)[n / 8 % 4]?.getD 0) (n % 8)).toNat

/-- One step of MMA on the accumulators (R162). -/
def mmaStep (m18 : Bool) (a b : SMap (List Row)) (t : Nat) (acc : SMap (BitVec 80)) : SMap (BitVec 80) :=
  (List.range 12).foldl (fun acc i =>
    let x := streamAt a (12 * t + i)
    if m18 then
      (List.range 16).foldl (fun acc c =>
        let y := streamAt b (16 * t + c)
        let v := x % 2 ^ 18 * (y % 2 ^ 18) + x / 2 ^ 18 * (y / 2 ^ 18)
        let key := 8 * i + c / 2
        let old := (mget 0 key acc).toNat
        let lo := old % 2 ^ 40
        let hi := old / 2 ^ 40
        let new := if c % 2 = 0 then (lo + v) % 2 ^ 40 + hi * 2 ^ 40 else lo + (hi + v) % 2 ^ 40 * 2 ^ 40
        mset 0 key (BitVec.ofNat 80 new) acc) acc
    else
      (List.range 8).foldl (fun acc j =>
        let key := 8 * i + j
        mset 0 key (BitVec.ofNat 80 ((mget 0 key acc).toNat + x * streamAt b (8 * t + j))) acc) acc) acc

/-- The twelve reduced rows of a drain (R163). -/
def drainRows (m18 : Bool) (mods : List Modulus) (acc : SMap (BitVec 80)) : List Row :=
  (List.range 12).map fun i =>
    let m := mods[i]?.getD {}
    rowOf ((List.range 8).map fun j =>
      let a := (mget 0 (8 * i + j) acc).toNat
      if m18 then BitVec.ofNat 36 (m.drain (a % 2 ^ 40) + m.drain (a / 2 ^ 40) * 2 ^ 18)
      else BitVec.ofNat 36 (m.drain a))

/-- The wide words a step needs of a stream of n containers a step. -/
def stepWords (n t : Nat) : List Nat := ((List.range n).map fun i => (n * t + i) / 32).eraseDups

/-- Read the wide words a step is the first to use; rows that hold no container of the stream are not checked for poison
(R162, R177). Answers the words and whether a checked row is poisoned. -/
def Chip.readWords (s : Chip) (r : Run) (cn base lastRow now bundle : Nat) (need : List Nat) (have_ : SMap (List Row)) :
    Chip × SMap (List Row) × Bool :=
  need.foldl (fun acc w =>
    let (s, ws, bad) := acc
    if (mfind w ws).isSome then (s, ws, bad)
    else
      let (s, rows, ps) := s.readRows r cn now bundle ((List.range 4).map fun j => base + 4 * w + j)
      let bad' := ps.zipIdx.any fun p => p.1 && decide (4 * w + p.2 ≤ lastRow)
      (s, mput w rows (ws.filter fun e => decide (w ≤ e.1 + 1)), bad || bad')) (s, have_, false)

/-- One MMA step in one cell. Answers the package and whether it stopped on poison. -/
def Chip.mmaStepCell (s : Chip) (r : Run) (cn now : Nat) (o : PressOp) : Chip × Bool :=
  let nb := if o.m18 then 16 else 8
  let (s, wa, pa) := s.readWords r cn o.rowA (mmaRowsA o.count - 1) now o.bundle (stepWords 12 o.done) o.wordsA
  let (s, wb, pb) := s.readWords r cn o.rowB (mmaRowsB o.m18 o.count - 1) now o.bundle (stepWords nb o.done) o.wordsB
  let o := { o with wordsA := wa, wordsB := wb, done := o.done + 1 }
  let s := s.updCell cn fun c =>
    { c with press := { c.press with
        acc := mmaStep o.m18 wa wb (o.done - 1) c.press.acc
        written := true
        queue := if o.count ≤ o.done then c.press.queue.drop 1 else o :: c.press.queue.drop 1 } }
  (s, pa || pb)

/-- The cells an engine event acts on: the named cell, or every cell of the swatch. -/
def Issuer.cells (i : Issuer) : List Nat :=
  match i.cell with
  | some c => [cellNo i.sw.toNat c.toNat]
  | none => swatchCells i.sw.toNat

/-- The first cell of an issuer. -/
def Issuer.lead (i : Issuer) : Nat := i.cells.headD 0

/-- The cycle of the next event of a Press instruction: the next step of an MMA, the start of a DRAIN whose lock is still to be checked, then
the cycle in which it reads the accumulators (R162 to R166). -/
def PressOp.dueAt (o : PressOp) : Nat := if o.kind == .drain then o.start + 3 else o.start + o.done

/-- A Press instruction has events of its own: steps or words. -/
def PressOp.worked (o : PressOp) : Bool := o.kind == .drain || (o.kind == .mma && o.count != 0)

/-- The earliest of the Press instructions of a kind that come next in the cells, for a run. -/
def Chip.pressHead (s : Chip) (i : Issuer) (kind : PressKind) : Option PressOp :=
  i.cells.foldl (fun (best : Option PressOp) cn =>
    match (s.cell cn).press.queue.find? PressOp.worked with
    | some o =>
      if o.run != i.run || o.kind != kind then best
      else if best.any fun b => decide (b.dueAt ≤ o.dueAt) then best else some o
    | none => best) none

/-- A Press instruction found locked out at its start: its cell and itself (R166). -/
def Chip.pressLocked (s : Chip) (i : Issuer) (now : Nat) : Option (Nat × PressOp) :=
  i.cells.findSome? fun cn =>
    match (s.cell cn).press.queue with
    | o :: _ => if decide (o.start ≤ now) && o.done == 0 && (s.cell cn).press.lockedOut o then some (cn, o) else none
    | [] => none

/-- A Press instruction stops the plan at its start and writes nothing in any cell (R166, R177). -/
def Chip.pressFault (s : Chip) (i : Issuer) (cn : Nat) (o : PressOp) (st : Status) : Chip :=
  (s.updCells i.cells fun _ c => { c with press := { c.press with
    queue := c.press.queue.filter fun x => !(x.start == o.start && x.bundle == o.bundle) } }).faultPlan i.run st cn o.bundle

/-- One step of every cell whose MMA is due; with the cells whose streams are poisoned and their bundles. -/
def Chip.mmaStepAll (s : Chip) (i : Issuer) (r : Run) (due : Nat) : Chip × List (Nat × Nat) :=
  i.cells.foldl (fun acc cn =>
    let (t, bad) := acc
    match (t.cell cn).press.queue with
    | o :: _ =>
      if o.kind == .mma && o.run == i.run && o.dueAt == due then
        let (t, p) := t.mmaStepCell r cn due o
        (t, if p then bad ++ [(cn, o.bundle)] else bad)
      else (t, bad)
    | [] => (t, bad)) (s, [])

/-- One step of the MMA at the head of the queues of the cells: its reads are made in start + t, its sum lands in order. A halted cell's work
under way goes on (R136). -/
def mmaStepEvent (i : Issuer) (s : Chip) : Chip :=
  match s.run? i.run with
  | none => s
  | some r =>
    let s := s.pressQuick i.cells r.cycle
    match s.pressHead i .mma with
    | none => s
    | some o =>
      s.atCycle i.run o.dueAt fun t =>
        let t := t.pressQuick i.cells o.dueAt
        match t.run? i.run, t.pressLocked i o.dueAt with
        | none, _ => t
        | some _, some (cn, b) => t.pressFault i cn b .engineBusy
        | some r, none =>
          match t.mmaStepAll i r o.dueAt with
          | (t, (cn, b) :: _) => t.faultPlan i.run .poison cn b
          | (t, []) => t.updCnt r.part fun c => { c with pressSteps := c.pressSteps + 1 }

/-- The remaining steps of every MMA ahead of the first DRAIN, for at most n steps. -/
def mmaStepsLeft (i : Issuer) : Nat → Chip → Chip
  | 0, s => s
  | n + 1, s => if (s.pressHead i .mma).isSome then mmaStepsLeft i n (mmaStepEvent i s) else s

/-- New rows for a tap group, readable from a cycle on; what was readable before is settled (R164, R174). -/
def TapGroup.put (now due : Nat) (rows : List Row) (g : TapGroup) : TapGroup :=
  let past := g.next.filter fun x => decide (x.1 ≤ now)
  { rows := (past.getLast?.map (·.2)).getD g.rows, next := (g.next.filter fun x => decide (now < x.1)) ++ [(due, rows)] }

/-- The rows of a tap group in plan cycle x: the previous contents before the group becomes readable (R174). -/
def TapGroup.at (g : TapGroup) (x : Nat) : List Row :=
  (((g.next.filter fun n => decide (n.1 ≤ x)).getLast?).map (·.2)).getD g.rows

/-- The next drained word of every cell whose DRAIN is due: to the tap, or on its way to the Pad. A DRAIN of accumulators that nothing has written
since the task started is hazard kind 1 (R112). -/
def Chip.drainAll (s : Chip) (i : Issuer) (r : Run) (due : Nat) : Chip :=
  i.cells.foldl (fun t cn =>
    let c := t.cell cn
    match c.press.queue with
    | o :: rest =>
      if o.kind != .drain || o.run != i.run || o.dueAt != due then t
      else
        let rows := o.drained.getD (drainRows o.m18 o.mods c.press.acc)
        let word := (rows.drop (4 * o.done)).take 4
        let k := o.done
        let o' := { o with drained := some rows, done := o.done + 1 }
        let p := { c.press with
          acc := if o.drained.isNone then [] else c.press.acc
          queue := if k = 2 then rest else o' :: rest
          tap := if o.tap then lupd c.press.tap k (TapGroup.put r.cycle (o.start + 8 + k) word) else c.press.tap }
        let t := t.setCell cn { c with press := { p with written := true } }
        let t := if c.press.written then t else t.hazard r 1 cn o.bundle
        if o.tap then t
        else t.writeRows r cn (o.rowD + 4 * k) (o.start + 10 + k) 6 (word.map fun w => (w, false)) o.bundle
    | [] => t) s

/-- One wide word of the DRAIN at the head of the queues: the lock is checked at its start, the accumulators are read and cleared at the end
of start + 3; word k lands in the Pad at the end of start + 10 + k, or is readable in the tap from start + 8 + k (R163, R164, R166). -/
def drainWordEvent (i : Issuer) (s : Chip) : Chip :=
  let s := mmaStepsLeft i 4096 s
  match s.run? i.run with
  | none => s
  | some r =>
    let s := s.pressQuick i.cells r.cycle
    match s.pressHead i .drain with
    | none => s
    | some o =>
      s.atCycle i.run o.start fun t =>
        match t.pressLocked i o.start with
        | some (cn, b) => t.pressFault i cn b .engineBusy
        | none =>
          t.atCycle i.run o.dueAt fun t =>
            match t.run? i.run with
            | none => t
            | some r =>
              let t := if o.done = 0 then t.updCnt r.part fun c => { c with pressDrains := c.pressDrains + 1 } else t
              t.drainAll i r o.dueAt

/-! ### Stipple -/

/-- The registers a Stipple slot names (R160): a tap group is no register. -/
def stipRegs (k : StipKind) (f : StipFields) : List Nat :=
  [f.gd.toNat] ++ (if f.tap then [] else [f.ga.toNat]) ++ (if 2 ≤ k.sources then [f.gb.toNat] else [])
    ++ (if 3 ≤ k.sources then [f.gc.toNat] else []) ++ (if f.gm = 0 then [] else [f.gm.toNat])

/-- The lane mask in a cell: field 0 enables all lanes (R159). -/
def Slot.mask (k : Slot) (s : Chip) (cn : Nat) (gm : BitVec 4) : BitVec 32 :=
  if gm = 0 then BitVec.allOnes 32 else BitVec.ofNat 32 (k.g s cn gm.toNat)

/-- The eight lanes of row r of a group. -/
def rowMask (mask : BitVec 32) (r : Nat) : BitVec 8 := (mask >>> (8 * (r % 4))).truncate 8

/-- The Pad base rows a Stipple instruction uses in a cell, task-relative: destination, then the sources read from the Pad. -/
def stipBases (k : Slot) (s : Chip) (kind : StipKind) (f : StipFields) (cn : Nat) : List Nat :=
  let last := fun n => f.bcast && kind.sources == n
  [k.g s cn f.gd.toNat] ++ (if f.tap then [] else [k.g s cn f.ga.toNat])
    ++ (if 2 ≤ kind.sources && !last 2 then [k.g s cn f.gb.toNat] else [])
    ++ (if 3 ≤ kind.sources && !last 3 then [k.g s cn f.gc.toNat] else [])

/-- The groups and rows of a cell that lie at or beyond the bound: (group, row of the group). -/
def stipBeyond (lim count : Nat) (bases : List Nat) : List (Nat × Nat) :=
  (List.range count).flatMap fun g => (List.range 4).filterMap fun r =>
    if bases.any fun b => decide (lim ≤ b + 4 * g + r) then some (g, r) else none

/-- Stipple instructions that process no group are done when their turn has come by plan cycle `now`. -/
def Stipple.quick (now : Nat) (x : Stipple) : Stipple :=
  { x with queue := x.queue.dropWhile fun o => o.count == 0 && decide (o.start ≤ now) }

/-- The groups a Stipple instruction reads from the tap are consumed in their cycles; the read of the last one releases the lock in the
F-cycle after it (R166). -/
def TapLock.consume (first count start : Nat) (l : TapLock) : TapLock :=
  let reads := (List.range count).foldl (fun (m : SMap Nat) g =>
    if (mfind (first + g) m).isSome then m else mput (first + g) (start + g) m) l.reads
  let done := [0, 1, 2].all fun g => (mfind g reads).isSome
  let last := (reads.map (·.2)).foldl max 0
  { l with reads := reads, releaseAt := if l.releaseAt.isNone && done then some (last + 1) else l.releaseAt }

/-- Issue of a Stipple instruction (R167, R168, R177, R623). -/
def stipIssue (kind : StipKind) (i : Issuer) (f : StipFields) (s : Chip) : Chip :=
  s.issue i fun k t =>
    let n := f.count.toNat
    let mask := fun cn => k.mask t cn f.gm
    let live := k.cells.filter fun cn => mask cn != 0
    let lock := fun cn => (t.cell cn).press.lockAt k.now
    let lim := fun (cn : Nat) => let ts := (t.cell cn).scr.task; ts.padBound - ts.padBase
    let beyond := fun (cn : Nat) => stipBeyond (lim cn) n (stipBases k t kind f cn)
    let modulus := if kind.modular then (k.table t).use f.entry.toNat f.m18 false else some {}
    let boundSup := (k.cells.flatMap fun cn => (beyond cn).filter fun gr => rowMask (mask cn) gr.2 == 0).eraseDups
    let put := fun (u : Chip) =>
      let u := u.updCells k.cells fun _ c => { c with stip := c.stip.quick k.now }
      let u := k.queueBound 4 (k.cells.map fun cn =>
        let x := (u.cell cn).stip
        (x.queue.map (·.start)) ++ [max k.now x.freeAt]) u
      let sup := if n = 0 then 0 else 8 * boundSup.length + (if modulus.isNone then 32 * n else 0)
      let u := u.updCnt k.r.part fun c => { c with stpSuppressed := c.stpSuppressed + BitVec.ofNat 32 sup }
      u.updCells k.cells fun cn c =>
        let start := max k.now c.stip.freeAt
        let base := c.scr.task.padBase
        let op : StipOp :=
          { run := k.r.id, seq := c.seq, bundle := k.bundle, start := start, kind := kind, m18 := f.m18
            rowD := base + k.g t cn f.gd.toNat
            rowA := base + k.g t cn f.ga.toNat
            rowB := base + k.g t cn f.gb.toNat
            rowC := base + k.g t cn f.gc.toNat
            bcast := if f.bcast then
              some (((t.cell cn).global k.now (if kind.sources = 3 then f.gc.toNat else f.gb.toNat)).val) else none
            modulus := modulus.getD {}
            mask := if modulus.isNone then 0 else mask cn
            count := n
            tapGroup := if f.tap && n != 0 then some f.ga.toNat else none }
        let locks := if f.tap && n != 0 then c.press.locks.map fun l =>
            if (lock cn).map (·.start) == some l.start then l.consume f.ga.toNat n start else l
          else c.press.locks
        { c with
          stip := { queue := c.stip.queue ++ [op], freeAt := start + max n 1 }
          press := { c.press with locks := locks }
          seq := c.seq + 1 }
    let checks : List (Status × (Nat → Bool)) := if n = 0 then [] else [
      (.notSupported, fun cn => f.tap && (lock cn).any fun l => l.m18 != f.m18),
      (.bound, fun cn => (beyond cn).any fun gr => rowMask (mask cn) gr.2 != 0),
      (.bound, fun cn => f.tap && (decide (3 < f.ga.toNat + n) || (lock cn).isNone)),
      (.badModulus, fun _ => modulus.isNone)]
    let tags := fun cn => (stipRegs kind f).any fun v => ((t.cell cn).global k.now v).poison
    let bad := checks.findSome? fun x => (live.find? x.2).map fun cn => (x.1, cn)
    if !stipOk kind f then k.reserved t
    else
      match bad, (if n = 0 then k.cells else live).find? tags with
      | some (st, cn), _ => k.fault st cn t
      | none, some cn => k.fault .poison cn t
      | none, none => put t

/-- One element of a Stipple opcode (Table 6.3), on a word of width w. -/
def StipKind.elem (kind : StipKind) (m : Modulus) (w a b c : Nat) : Nat :=
  match kind with
  | .madd => m.add a b
  | .msub => m.sub a b
  | .mneg => m.sub 0 a
  | .mmul => m.mul a b
  | .mmad => m.add (m.mul a b) c
  | .mmsb => m.sub c (m.mul a b)
  | .resc => m.mul (m.sub a b) c
  | .red => correct a m.q
  | .move => a
  | .digit =>
    let sh := a / 2 ^ (b % 64)
    if w < b / 64 % 64 then sh else sh % 2 ^ (b / 64 % 64)

/-- One lane: a container, each half of it in M18 (R36). -/
def StipKind.lane (kind : StipKind) (m18 : Bool) (m : Modulus) (a b c : W36) : W36 :=
  if m18 then
    let h := fun (x : W36) => x.toNat % 2 ^ 18
    let g := fun (x : W36) => x.toNat / 2 ^ 18
    BitVec.ofNat 36 (kind.elem m 18 (h a) (h b) (h c) + kind.elem m 18 (g a) (g b) (g c) * 2 ^ 18)
  else BitVec.ofNat 36 (kind.elem m 36 a.toNat b.toNat c.toNat)

/-- What one row of a group gives in one cell: the new row of the enabled lanes unless a source was poisoned, that a source was, and that
the poison of a fully masked row was suppressed. -/
def Chip.stipRow (s : Chip) (r : Run) (cn now g j : Nat) (o : StipOp) : Chip × Option Row × Bool × Bool :=
  let mask := rowMask o.mask j
  let x := 4 * g + j
  let bcastB := o.bcast.isSome && o.kind.sources == 2
  let bcastC := o.bcast.isSome && o.kind.sources == 3
  let readsB := decide (2 ≤ o.kind.sources) && !bcastB
  let readsC := decide (3 ≤ o.kind.sources) && !bcastC
  if mask = 0 then
    let p := ((s.cell cn).pad.settle now).poison
    let hit := (o.tapGroup.isNone && p.contains (o.rowA + x)) || (readsB && p.contains (o.rowB + x))
      || (readsC && p.contains (o.rowC + x))
    (s, none, false, hit)
  else
    let (s, a, pa) := match o.tapGroup with
      | some t =>
        let group := (s.cell cn).press.tap[t + g]?.getD {}
        let early := group.next.any fun n => decide (now < n.1)
        (if early then s.hazard r 1 cn o.bundle else s, (group.at now)[j]?.getD 0, false)
      | none => s.readPad r cn (o.rowA + x) now o.bundle mask
    let (s, b, pb) := if readsB then s.readPad r cn (o.rowB + x) now o.bundle mask else (s, 0, false)
    let (s, c, pc) := if readsC then s.readPad r cn (o.rowC + x) now o.bundle mask else (s, 0, false)
    if pa || pb || pc then (s, none, true, false)
    else
      let bv := fun k => if bcastB then o.bcast.getD 0 else container b k
      let cv := fun k => if bcastC then o.bcast.getD 0 else container c k
      (s, some (rowOf ((List.range 8).map fun k => o.kind.lane o.m18 o.modulus (container a k) (bv k) (cv k))), false, false)

/-- The four rows of a group in one cell. -/
def Chip.stipRows (s : Chip) (r : Run) (cn now : Nat) (o : StipOp) : Chip × List (Option Row) × Bool × List Nat :=
  (List.range 4).foldl (fun a j =>
    let (t, rows, bad, sup) := a
    let (t, v, b, sp) := t.stipRow r cn now o.done j o
    (t, rows ++ [v], bad || b, if sp then sup ++ [j] else sup)) (s, [], false, [])

/-- The cycle of the next group of a Stipple instruction. -/
def StipOp.dueAt (o : StipOp) : Nat := o.start + o.done

/-- The Stipple instruction with groups that comes next in the cells, for a run: the one that is due first. -/
def Chip.stipHead (s : Chip) (i : Issuer) : Option StipOp :=
  i.cells.foldl (fun (best : Option StipOp) cn =>
    match (s.cell cn).stip.queue.find? fun o => o.count != 0 with
    | some o =>
      if o.run != i.run then best
      else if best.any fun b => decide (b.dueAt ≤ o.dueAt) then best else some o
    | none => best) none

/-- The reads of the group that is due in every cell: what each gives, the cells that read poison with their bundles, the rows suppressed
(R168, R169). -/
def Chip.stipReadAll (s : Chip) (i : Issuer) (r : Run) (due : Nat) :
    Chip × List (Nat × StipOp × List (Option Row)) × List (Nat × Nat) × List Nat :=
  i.cells.foldl (fun acc cn =>
    let (t, out, bad, sup) := acc
    match (t.cell cn).stip.queue with
    | [] => acc
    | o :: _ =>
      if o.run != i.run || o.dueAt != due then acc
      else
        let (t, rows, b, sp) := t.stipRows r cn due o
        (t, out ++ [(cn, o, rows)], if b then bad ++ [(cn, o.bundle)] else bad, sp.foldl (fun l j => sinsert j l) sup)) (s, [], [], [])

/-- The writes of a group in one cell, and the queue after it. -/
def Chip.stipWrite (s : Chip) (r : Run) (due : Nat) (x : Nat × StipOp × List (Option Row)) : Chip :=
  let (cn, o, rows) := x
  let s := rows.zipIdx.foldl (fun (t : Chip) v =>
    match v.1 with
    | some d => t.writePad r cn (o.rowD + 4 * o.done + v.2) (due + o.kind.latency - 1) 7 (rowMask o.mask v.2) d false o.bundle
    | none => t) s
  s.updCell cn fun c => { c with stip := { c.stip with
    queue := if o.count ≤ o.done + 1 then c.stip.queue.drop 1 else { o with done := o.done + 1 } :: c.stip.queue.drop 1 } }

/-- A Stipple instruction stops the plan on a poisoned row: it writes no row from that read onward (R177). -/
def Chip.stipFault (s : Chip) (i : Issuer) (due cn bundle : Nat) : Chip :=
  (s.updCells i.cells fun _ c =>
    match c.stip.queue with
    | o :: rest => if o.run == i.run && o.dueAt == due then { c with stip := { c.stip with queue := rest } } else c
    | [] => c).faultPlan i.run .poison cn bundle

/-- One group of the Stipple instruction at the head of the queues: its sources are read in start + g, its rows land at the
end of start + g + L − 1 (R167). A halted cell's work under way goes on (R136). -/
def stipGroupEvent (i : Issuer) (s : Chip) : Chip :=
  match s.stipHead i with
  | none => s
  | some o =>
    s.atCycle i.run o.dueAt fun t =>
      let t := t.updCells i.cells fun _ c => { c with stip := c.stip.quick o.dueAt }
      match t.run? i.run with
      | none => t
      | some r =>
        match t.stipReadAll i r o.dueAt with
        | (t, _, (cn, b) :: _, _) => t.stipFault i o.dueAt cn b
        | (t, out, [], sup) =>
          (out.foldl (fun (t : Chip) x => t.stipWrite r o.dueAt x) t).updCnt r.part fun c =>
            { c with stpGroups := c.stpGroups + 1, stpSuppressed := c.stpSuppressed + BitVec.ofNat 32 (8 * sup.length) }

/-! ### Expert abort (R181) -/

/-- Abort the Press of a cell: its rows to be poisoned, its state cleared. -/
def Chip.abortPress (s : Chip) (cn : Nat) : Chip :=
  let c := s.cell cn
  let rows := (c.press.queue.flatMap (·.dest)) ++ ((c.pad.lands.filter fun l => l.order == 6).map (·.row))
  let s := rows.foldl (fun t r => t.poisonRow cn r) s
  s.updCell cn fun c => { c with
    press := {}, pad := { c.pad with lands := c.pad.lands.filter fun l => l.order != 6 } }

/-- Abort the Stipple of a cell. -/
def Chip.abortStipple (s : Chip) (cn : Nat) : Chip :=
  let c := s.cell cn
  let rows := (c.stip.queue.flatMap (·.dest)) ++ ((c.pad.lands.filter fun l => l.order == 7).map (·.row))
  let s := rows.foldl (fun t r => t.poisonRow cn r) s
  s.updCell cn fun c => { c with
    stip := {}, pad := { c.pad with lands := c.pad.lands.filter fun l => l.order != 7 } }

end Sys2Proof.Machine
end

