-- ==== Sys2Proof/Machine/Burin.lean ====
section
/-! DEFINITION. The Burin (R182 to R189, R208). -/

namespace Sys2Proof.Machine

/-- The n low bits of a number in reverse order. -/
def brev : Nat → Nat → Nat
  | 0, _ => 0
  | n + 1, v => v % 2 * 2 ^ n + brev n (v / 2)

/-- The twiddle exponent of forward stage S and group g (R185). -/
def twExp (logn stage g : Nat) : Nat := 2 ^ (logn - 1 - stage) + brev stage g * 2 ^ (logn - stage)

/-- ψ^e as the product of three table words (R185). -/
def Modulus.twiddle (m : Modulus) (e : Nat) : Nat :=
  let t0 := powMod m.q m.psi 20 (e % 64)
  let t1 := powMod m.q m.psi 20 (64 * (e / 64 % 64))
  let t2 := powMod m.q m.psi 20 (4096 * (e / 4096 % 64))
  m.mul (m.mul t0 t1) t2

/-- One forward stage of a block: pairs (t, t + h). -/
def nttStage (md : Modulus) (m s k u : Nat) (x : List Nat) : List Nat :=
  let h := 2 ^ (m - 1 - u)
  (List.range (2 ^ m)).map fun t =>
    let lo := t - (if t / h % 2 = 1 then h else 0)
    let g := k * 2 ^ u + lo / 2 ^ (m - u)
    let v := md.mul (x[lo + h]?.getD 0) (md.twiddle (twExp md.logn (s + u) g))
    if t / h % 2 = 0 then md.add (x[lo]?.getD 0) v else md.sub (x[lo]?.getD 0) v

/-- One inverse stage of a block. -/
def inttStage (md : Modulus) (m s k u : Nat) (x : List Nat) : List Nat :=
  let h := 2 ^ (m - 1 - u)
  (List.range (2 ^ m)).map fun t =>
    let lo := t - (if t / h % 2 = 1 then h else 0)
    let g := k * 2 ^ u + lo / 2 ^ (m - u)
    let e := twExp md.logn (s + u) g
    if t / h % 2 = 0 then md.add (x[lo]?.getD 0) (x[lo + h]?.getD 0)
    else
      md.mul (md.sub (x[lo]?.getD 0) (x[lo + h]?.getD 0))
        (if e = 0 then 1 else md.twiddle (2 ^ (md.logn + 1) - e))

/-- burin_block of R187. -/
def burinBlock (inverse final : Bool) (md : Modulus) (m s k : Nat) (x : List Nat) : List Nat :=
  if inverse then
    let y := (List.range m).foldl (fun x u => inttStage md m s k (m - 1 - u) x) x
    if final then y.map fun v => md.mul v md.ninv else y
  else (List.range m).foldl (fun x u => nttStage md m s k u x) x

/-- The words of rows: containers in M36, halves in M18 (R36, R187). -/
def wordsOf (m18 : Bool) (rows : List Row) : List Nat :=
  rows.flatMap fun r => (containers r).flatMap fun c =>
    if m18 then [c.toNat % 2 ^ 18, c.toNat / 2 ^ 18] else [c.toNat]

/-- Pair up halves into containers. -/
def pairUp : List Nat → List Nat
  | a :: b :: rest => (a + b * 2 ^ 18) :: pairUp rest
  | l => l

/-- Cut a list into pieces of n, for at most k pieces. -/
def piecesOf {α : Type} (n : Nat) : Nat → List α → List (List α)
  | 0, _ => []
  | k + 1, l => if l.isEmpty then [] else l.take n :: piecesOf n k (l.drop n)

/-- The rows of words. -/
def rowsOfWords (m18 : Bool) (ws : List Nat) : List Row :=
  let cs := if m18 then pairUp ws else ws
  (piecesOf 8 (cs.length / 8 + 1) cs).map fun l => rowOf (l.map (BitVec.ofNat 36))

/-- The transformed rows of a Burin instruction from the rows it reads. -/
def BurinOp.compute (o : BurinOp) (rows : List Row) : List Row :=
  let ws := wordsOf o.m18 rows
  let blocks := piecesOf (2 ^ o.m) o.count ws
  let out := blocks.zipIdx.flatMap fun xb =>
    let b := xb.2
    burinBlock o.inverse o.final (o.mods[b / 2 ^ o.bplLog]?.getD {}) o.m o.s
      (o.k0 + b % 2 ^ o.bplLog * o.kstep) xb.1
  rowsOfWords o.m18 out

/-- OCC of R188. -/
def burinOcc (m18 : Bool) (count m : Nat) : Nat :=
  max 1 (cdiv (count * m * 2 ^ (m - 1)) (if m18 then 32 else 16))

/-- A Burin instruction has left the engine at plan cycle `now`: it has written its rows and its occupancy is over. -/
def BurinOp.left (now : Nat) (o : BurinOp) : Bool := decide (o.rows ≤ o.done) && decide (o.start + o.occ ≤ now)

/-- The Burin instructions of cells that have left by plan cycle `now` leave the queue. -/
def Chip.burinQuick (s : Chip) (cells : List Nat) (now : Nat) : Chip :=
  s.updCells cells fun _ c => { c with burin := { c.burin with queue := c.burin.queue.dropWhile (BurinOp.left now) } }

/-- Issue of NTT and INTT (R186, R189, R208, R623). GP comes from local cell 0 of the swatch in ganged execution (R183). -/
def burinIssue (inverse : Bool) (i : Issuer) (gd gk gp logm : BitVec 4) (sstart : BitVec 5) (s : Chip) : Chip :=
  s.issue i fun k t =>
    let m := logm.toNat
    let st := sstart.toNat
    let gpv := k.g t k.lead gp.toNat
    let entry := bits gpv 0 10
    let count := bits gpv 10 12
    let kstep := bits gpv 22 6
    let final := bit gpv 28
    let bpl := bits gpv 29 4
    let tb := k.table t
    let limbs := if count = 0 then 0 else (count - 1) / 2 ^ bpl + 1
    let m18 := (Modulus.ofEntry (mget 0 entry tb.entries)).m18
    let mods := (List.range limbs).map fun l => tb.use ((entry + l) % 1024) m18 true
    let good := mods.map fun x => x.getD {}
    let words := count * 2 ^ m
    let perRow := if m18 then 16 else 8
    let rows := words / perRow
    let kMax := fun cn => k.g t cn gk.toNat
    let put := k.check .bound (fun cn c => count != 0 && (c.scr.task.row (k.g t cn gd.toNat) rows).isNone) fun u =>
      let u := u.burinQuick k.cells k.now
      let u := k.queueBound 2 (k.cells.map fun cn =>
        let b := (u.cell cn).burin
        (b.queue.map (·.start)) ++ [max k.now b.freeAt]) u
      u.updCells k.cells fun cn c =>
        let start := max k.now c.burin.freeAt
        let occ := if count = 0 then 1 else burinOcc m18 count m
        let op : BurinOp :=
          { run := k.r.id, seq := c.seq, bundle := k.bundle, start := start, occ := occ, inverse := inverse
            final := final, rowD := c.scr.task.padBase + k.g t cn gd.toNat, rows := rows, count := count, m := m
            s := st, k0 := kMax cn, kstep := kstep, bplLog := bpl, mods := good, m18 := m18 }
        let op := c.pad.lands.foldl (fun (o : BurinOp) l => if l.order = 5 then o else o.hit l.row l.due) op
        { c with
          burin := { queue := c.burin.queue ++ [op], freeAt := start + occ }
          seq := c.seq + 1 }
    if !burinOk logm sstart then k.reserved t
    else
      k.untagged [gd.toNat, gk.toNat, gp.toNat] (fun t =>
        if m = 0 || (final && !inverse) then k.fault .badShape k.lead t
        else if mods.any Option.isNone then k.fault .badModulus k.lead t
        else if good.any fun x => decide (x.logn < st + m) then k.fault .badShape k.lead t
        else
          k.check .badShape (fun cn _ => count != 0 &&
              (List.range (min count (2 ^ bpl))).any fun b => decide (2 ^ st ≤ kMax cn + b * kstep))
            (fun t => if words % perRow != 0 then k.fault .badShape k.lead t else put t) t) t

/-- The cycle of the next row of a Burin instruction. -/
def BurinOp.dueAt (o : BurinOp) : Nat := o.readAt o.done

/-- The Burin instruction with rows that comes next in the cells, for a run: the one that is due first. -/
def Chip.burinHead (s : Chip) (i : Issuer) : Option BurinOp :=
  i.cells.foldl (fun (best : Option BurinOp) cn =>
    match (s.cell cn).burin.queue.find? fun o => o.done < o.rows with
    | some o =>
      if o.run != i.run then best
      else if best.any fun b => decide (b.dueAt ≤ o.dueAt) then best else some o
    | none => best) none

/-- The rows of the region as the Burin is going to read them, each in its own cycle, by the landings known now (R188). -/
def BurinOp.foresee (o : BurinOp) (p : Pad) : BurinOp :=
  let ins := (List.range o.rows).map fun x => (p.peek (o.readAt x) (o.rowD + x)).1
  { o with ins := ins, out := o.compute ins }

/-- The Burin takes a row that its read has found (R188). -/
def BurinOp.take (v : Row) (o : BurinOp) : BurinOp :=
  if o.ins[o.done]? == some v then o
  else
    let ins := lset o.ins o.done v
    { o with ins := ins, out := o.compute ins }

/-- The next row of the Burin instruction of one cell: read in its own cycle (R188), and its transform on the way to the Pad unless the read
found poison. Answers whether it did (R184). -/
def Chip.burinRow (s : Chip) (r : Run) (cn now : Nat) (o : BurinOp) : Chip × Bool :=
  let o := if o.done = 0 then o.foresee (s.cell cn).pad else o
  let (s, v, poisoned) := s.readPad r cn (o.rowD + o.done) now o.bundle
  if poisoned then (s, true)
  else
    let o := o.take v
    let spoiled := o.spoiled.contains o.done
    let (k, s) := if spoiled then s.takeFree else (0, s)
    let row := if spoiled then Config.freeRow k else (o.out[o.done]?).getD 0
    let due := o.start + cdiv ((o.done + 1) * o.occ) o.rows + 9 + o.m
    let s := s.updCell cn fun c => { c with burin := { c.burin with queue := { o with done := o.done + 1 } :: c.burin.queue.drop 1 } }
    (s.writePad r cn (o.rowD + o.done) due 5 (BitVec.allOnes 8) row false o.bundle, false)

/-- The next row of every cell whose Burin instruction is due; with the cells that read poison and their bundles. A halted cell's work under
way goes on (R136). -/
def Chip.burinRowAll (s : Chip) (i : Issuer) (r : Run) (due : Nat) : Chip × List (Nat × Nat) :=
  i.cells.foldl (fun acc cn =>
    let (t, bad) := acc
    match (t.cell cn).burin.queue with
    | [] => (t, bad)
    | o :: _ =>
      if o.run != i.run || o.rows ≤ o.done || o.dueAt != due then (t, bad)
      else
        let (t, p) := t.burinRow r cn due o
        (t, if p then bad ++ [(cn, o.bundle)] else bad)) (s, [])

/-- A Burin instruction stops the plan on a poisoned row: it writes no row from that read onward (R184, R177). -/
def Chip.burinFault (s : Chip) (i : Issuer) (o : BurinOp) (cn bundle : Nat) : Chip :=
  (s.updCells i.cells fun _ c => { c with burin := { c.burin with
    queue := c.burin.queue.filter fun x => !(x.run == o.run && x.start == o.start && x.bundle == o.bundle) } }).faultPlan i.run .poison cn bundle

/-- One row of the Burin instruction at the head of the queues: row r is read in start + floor(r × OCC / R) and written at the end of
start + ceil((r + 1) × OCC / R) + 9 + m (R188). -/
def burinRowEvent (i : Issuer) (s : Chip) : Chip :=
  match s.burinHead i with
  | none => s
  | some o =>
    s.atCycle i.run o.dueAt fun t =>
      let t := t.burinQuick i.cells o.dueAt
      match t.run? i.run with
      | none => t
      | some r =>
        match t.burinRowAll i r o.dueAt with
        | (t, (cn, b) :: _) => t.burinFault i o cn b
        | (t, []) =>
          if o.rows ≤ o.done + 1 then t.updCnt r.part fun c =>
            { c with burinBfly := c.burinBfly + BitVec.ofNat 64 (o.count * o.m * 2 ^ (o.m - 1)) }
          else t

end Sys2Proof.Machine
end

