-- ==== Sys2Proof/Machine/Hatch.lean ====
section
/-! DEFINITION. The Hatch (R182, R183, R191 to R194, R220). -/

namespace Sys2Proof.Machine

/-- Rows of one limb in a cell: N / (8C) in M36, N / (16C) in M18 (R193). -/
def autoRows (logn : Nat) (plate m18 : Bool) : Nat :=
  2 ^ logn / ((if plate then 4096 else 512) * (if m18 then 16 else 8))

/-- The F-cycles in which a Hatch instruction reads or forms rows: one for each row, and for column reads all those of its tiles (R193, R220). -/
def HatchOp.cycles (o : HatchOp) : Nat := if o.byColumn then cdiv o.rows 256 * 256 else o.rows

/-- A Hatch instruction has left the unit at plan cycle `now`. -/
def HatchOp.left (now : Nat) (o : HatchOp) : Bool := decide (o.cycles ≤ o.done) && decide (o.start + max o.rows 1 ≤ now)

/-- The fields of a Hatch slot. -/
inductive HatchForm where
  | auto (stage span m18 : Bool) (logn : BitVec 3)
  | trans (beta pos : BitVec 3) (oc : BitVec 2)
  | brev
  | gather (table : BitVec 4)
deriving DecidableEq, Repr

/-- A Hatch slot free of reserved encodings. -/
def HatchForm.ok : HatchForm → Bool
  | .auto _ _ _ logn => autoOk logn
  | .trans beta _ oc => transOk beta oc
  | _ => true

/-- The shape conditions of R194 on fields, registers and tables. -/
def HatchForm.shapeOk (rows k : Nat) (st : PanelStore) : HatchForm → Bool
  | .auto _ span m18 logn =>
    let n := 12 + logn.toNat
    let rpl := autoRows n span m18
    k % 2 == 1 && decide (k < 2 ^ (n + 1)) && rpl != 0 && rows % rpl == 0
  | .trans beta pos _ => 8 * rows % 2 ^ (pos.toNat + beta.toNat) == 0
  | .brev => true
  | .gather table => ((mfind table.toNat st.gather.tables).map fun x => x.2 != 0).getD false

/-- Issue of a Hatch instruction in the eight panels of a swatch (R183, R191, R194). -/
def hatchIssue (form : HatchForm) (i : Issuer) (gs gd gp : BitVec 4) (s : Chip) : Chip :=
  s.issue i fun k t =>
    let sw := i.sw.toNat
    let panels := (List.range 8).map fun p => sw * 8 + p
    let gpv := fun (p : Nat) => k.g t (p * 64) gp.toNat
    let rows := fun p => bits (gpv p) 0 12
    let kk := fun p => bits (gpv p) 12 18
    let badShape := panels.find? fun p => !form.shapeOk (rows p) (kk p) (t.panel p).active
    let badRow := k.cells.find? fun cn =>
      let n := rows (panelOf cn)
      let ts := (t.cell cn).scr.task
      n != 0 && ((ts.row (k.g t cn gs.toNat) n).isNone || (ts.row (k.g t cn gd.toNat) n).isNone)
    if k.isLoose || !form.ok then k.reserved t
    else
      k.untagged [gs.toNat, gd.toNat, gp.toNat] (fun t =>
        match badShape, badRow with
        | some p, _ => k.fault .badShape (p * 64) t
        | none, some cn => k.fault .bound cn t
        | none, none =>
          let t := panels.foldl (fun u p => u.updPanel p fun pn => { pn with hatch := pn.hatch.filter fun o => !o.left k.now }) t
          let t := k.queueBound 1 (panels.map fun p =>
            let pn := t.panel p
            (pn.hatch.map (·.start)) ++ [max k.now pn.hatchFree]) t
          let most := (panels.map rows).foldl max 0
          let first := panels.find? fun p => rows p == most
          panels.foldl (fun u p =>
            let pn := u.panel p
            let n := rows p
            let start := max k.now pn.hatchFree
            let base := fun (g : BitVec 4) => (List.range 64).map fun c =>
              (u.cell (p * 64 + c)).scr.task.padBase + k.g u (p * 64 + c) g.toNat
            let kind : HatchKind := match form with
              | .auto stage span m18 logn => .auto stage span m18 (12 + logn.toNat) (kk p)
              | .trans beta pos oc => .trans beta.toNat pos.toNat oc.toNat
              | .brev => .brev
              | .gather table =>
                let fl := (mfind table.toNat pn.active.gather.tables).getD (0, 0)
                .gather fl.1 fl.2
            let nth := (pn.autos.filter fun a => a.run == k.r.id).length
            let op : HatchOp :=
              { run := k.r.id, seq := 0, bundle := k.bundle, start := start, kind := kind, rows := n
                src := base gs, dst := base gd, latency := if k.r.plan.exact then 6 else 8
                table := match form with | .gather _ => pn.active.gather.rows | _ => []
                nth := nth, counts := first == some p }
            u.updPanel p fun pn => { pn with
              hatch := pn.hatch ++ [op]
              hatchFree := start + max n 1
              autos := match kind with
                | .auto false plate m18 logn kv => pn.autos ++ [{ run := k.r.id, nth := nth, k := kv, logn := logn, plate := plate, m18 := m18 }]
                | _ => pn.autos }) t) t

/-- A source word of an automorphism route: the container and half of word i of a limb, from the rows its STAGE 0 kept. None where the
route's first stage did not take it with the same k, N, SPAN and FMT. -/
def Chip.autoWord (s : Chip) (panel : Nat) (tag : AutoTag) (logn k : Nat) (plate m18 : Bool) (i : Nat) : Option Nat :=
  let cells := if plate then 4096 else 512
  let ci := if m18 then i / 2 else i
  let cell := ci % cells
  let pos := ci / cells
  let p := (if plate then panel / 64 * 64 else panel / 8 * 8) + cell / 64
  let t := tag.limb * autoRows logn plate m18 + pos / 8
  match (s.panel p).autos.find? fun a => a.run == tag.run && a.nth == tag.nth && a.k == k && a.logn == logn && a.plate == plate && a.m18 == m18 with
  | none => none
  | some a =>
    match mfind (64 * t + cell % 64) a.rows with
    | none => none
    | some r =>
      let v := (container r (pos % 8)).toNat
      some (if m18 then (if i % 2 = 0 then v % 2 ^ 18 else v / 2 ^ 18) else v)

/-- The source index of destination word i under X → X^k in the NTT domain: 2 brv(i') + 1 ≡ k (2 brv(i) + 1) mod 2N (R192). -/
def autoSource (logn k i : Nat) : Nat :=
  let kinv := powMod (2 ^ (logn + 1)) k 20 (2 ^ (logn - 1) - 1)
  brev logn (((kinv * (2 * brev logn i + 1)) % 2 ^ (logn + 1) - 1) / 2)

/-- One container of the final automorphism in local cell c of a panel, row r of a limb, container x. -/
def Chip.autoContainer (s : Chip) (panel : Nat) (tag : AutoTag) (logn k : Nat) (plate m18 : Bool) (c r x : Nat) : Option W36 :=
  let cells := if plate then 4096 else 512
  let cell := (panel % (if plate then 64 else 8)) * 64 + c
  let ci := (r * 8 + x) * cells + cell
  let word := fun i => s.autoWord panel tag logn k plate m18 (autoSource logn k i)
  if m18 then
    match word (2 * ci), word (2 * ci + 1) with
    | some a, some b => some (BitVec.ofNat 36 (a + b * 2 ^ 18))
    | _, _ => none
  else (word ci).map (BitVec.ofNat 36)

/-- The source word of a destination word for the movements that stay within the panel: (cell, region word). -/
def HatchOp.source (o : HatchOp) (c j : Nat) : Nat × Nat :=
  match o.kind with
  | .trans beta pos oc => transSource beta pos oc c j
  | .brev => (brev 6 c, j)
  | .gather first len =>
    let t := j / 8
    let sel := (mget [] (first + t % max len 1) o.table)[8 * c + j % 8]?.getD 0
    (sel / 8 % 64, 8 * t + sel % 8)
  | .auto .. => (c, j)

/-- Read one row of a cell for a Hatch instruction; nothing is read in a halted cell (R136). Answers the row, and the cell where it is
poisoned (R184). -/
def Chip.hatchRead (s : Chip) (r : Run) (cn row now bundle : Nat) (mask : BitVec 8) : Chip × Option Row × Option Nat :=
  if (s.cell cn).scr.halted then (s, none, none)
  else
    let (s, v, poisoned) := s.readPad r cn row now bundle mask
    (s, some v, if poisoned then some cn else none)

/-- What each cell of a panel reads in F-cycle n of an instruction: row n of its source, or column read n: container k of up to eight rows of the
region (R191, R220). With the first cell that reads poison. -/
def Chip.hatchReads (s : Chip) (r : Run) (p now : Nat) (o : HatchOp) : Chip × List (Option Row) × Option Nat :=
  let n := o.done
  if o.rows ≤ n then (s, [], none)
  else
    (List.range 64).foldl (fun acc c =>
      let (s, vals, bad) := acc
      let cn := p * 64 + c
      let base := o.src[c]?.getD 0
      if o.byColumn then
        let k := n % 256 / 32
        let got := (columnRows n).foldl (fun acc row =>
          let (s, ws, bad) := acc
          if o.rows ≤ row then (s, ws ++ [0], bad)
          else
            let (s, v, b) := s.hatchRead r cn (base + row) now o.bundle (BitVec.ofNat 8 (2 ^ k))
            (s, ws ++ [container (v.getD 0) k], bad.orElse fun _ => b)) (s, ([] : List W36), bad)
        (got.1, vals ++ [if (s.cell cn).scr.halted then none else some (rowOf got.2.1)], got.2.2)
      else
        let (s, v, b) := s.hatchRead r cn (base + n) now o.bundle (BitVec.allOnes 8)
        (s, vals ++ [v], bad.orElse fun _ => b)) (s, [], none)

/-- The word that a destination word takes, from the reads made. A word of a region whose last tile is partial that no column read returns is
taken when its row is formed. None where a halted cell would give it. -/
def Chip.hatchWord (s : Chip) (p now : Nat) (o : HatchOp) (vals : List (Option Row)) (c j : Nat) : Option W36 :=
  let sj := o.source c j
  let cn := p * 64 + sj.1
  if o.byColumn then
    let n := columnRead sj.2
    if n < o.rows then ((o.reads[n]?.getD [])[sj.1]?.getD none).map fun v => container v (sj.2 / 128 % 8)
    else if (s.cell cn).scr.halted then none
    else some (container ((s.cell cn).pad.peek now ((o.src[sj.1]?.getD 0) + sj.2 / 8)).1 (sj.2 % 8))
  else (vals[sj.1]?.getD none).map fun v => container v (sj.2 % 8)

/-- The route that the rows STAGE 1 reads belong to: every cell of the panel reads a row of one limb that the middle route has moved (R192). -/
def Chip.autoRoute (s : Chip) (p : Nat) (o : HatchOp) : Option AutoTag :=
  let tag := fun c =>
    let cl := s.cell (p * 64 + c)
    if cl.scr.halted then none else mfind ((o.src[c]?.getD 0) + o.done) cl.pad.origin
  match tag 0 with
  | some a => if a.run == o.run && a.moved && (List.range 64).all fun c => tag c == some a then some a else none
  | none => none

/-- The rows that have all their words after this F-cycle are on their way to every cell of the panel that is not halted: local cell and row. -/
def HatchOp.ready (o : HatchOp) : List (Nat × Nat) :=
  if o.byColumn then
    (List.range 64).flatMap fun c => ((List.range o.rows).filter fun t => o.readAt c t == o.done).map fun t => (c, t)
  else (List.range 64).map fun c => (c, o.done)

/-- Destination rows of a Hatch instruction, from the words read for them, are on their way (R193). Up to sixteen rows of a TRANS by column reads land
at the end of one F-cycle; Worked case 8.1 counts the accesses of its reads alone (DEDUCED, log entry 68). -/
def Chip.hatchLand (s : Chip) (p now : Nat) (r : Run) (o : HatchOp) (vals : List (Option Row)) : Chip :=
  let due := o.start + o.done + o.latency - 1
  let route := match o.kind with | .auto true .. => s.autoRoute p o | _ => none
  o.ready.foldl (fun u ct =>
    let cn := p * 64 + ct.1
    if (u.cell cn).scr.halted then u
    else
      let (k0, u) := u.takeFree
      let free := Config.freeRow k0
      let (row, tag) : Row × Option AutoTag := match o.kind with
        | .auto true plate m18 logn k =>
          (rowOf ((List.range 8).map fun x =>
            match route with
            | some a => (u.autoContainer p a logn k plate m18 ct.1 (ct.2 % autoRows logn plate m18) x).getD (container free x)
            | none => container free x), none)
        | .auto false plate m18 logn _ =>
          (free, some { run := o.run, nth := o.nth, limb := ct.2 / autoRows logn plate m18, moved := false })
        | _ => (rowOf ((List.range 8).map fun x => (u.hatchWord p now o vals ct.1 (8 * ct.2 + x)).getD (container free x)), none)
      let x := (o.dst[ct.1]?.getD 0) + ct.2
      if o.byColumn then u.landPad r cn x due 3 (BitVec.allOnes 8) row false o.bundle tag
      else u.writePad r cn x due 3 (BitVec.allOnes 8) row false o.bundle tag) s

/-- STAGE 0 of an automorphism keeps the rows it reads (R192). -/
def HatchOp.keep (o : HatchOp) (vals : List (Option Row)) (as : List AutoMem) : List AutoMem :=
  match o.kind with
  | .auto false .. => as.map fun a =>
      if a.run == o.run && a.nth == o.nth then
        { a with rows := vals.zipIdx.foldl (fun m v => match v.1 with | some x => mput (64 * o.done + v.2) x m | none => m) a.rows }
      else a
  | _ => as

/-- The Hatch instruction of a panel that has an F-cycle of work next, for a run: its place in the queue. -/
def Panel.hatchNext (pn : Panel) (run : Nat) : Option (Nat × HatchOp) :=
  pn.hatch.zipIdx.foldl (fun (best : Option (Nat × HatchOp)) x =>
    let o := x.1
    if o.run != run || o.cycles ≤ o.done then best
    else if best.any fun b => decide (b.2.start + b.2.done ≤ o.start + o.done) then best else some (x.2, o)) none

/-- A Hatch instruction of a swatch is gone from its panels: after a poisoned read it writes no row (R177, R184). -/
def Chip.hatchDrop (s : Chip) (sw : Nat) (o : HatchOp) : Chip :=
  (List.range 8).foldl (fun u p => u.updPanel (sw * 8 + p) fun pn =>
    { pn with hatch := pn.hatch.filter fun x => !(x.run == o.run && x.start == o.start && x.bundle == o.bundle) }) s

/-- One F-cycle of a panel's Hatch: each cell reads a row or makes a column read, and the rows that have their words land L − 1 F-cycles later
(R191, R193). -/
def hatchRowEvent (i : Issuer) (panel : BitVec 3) (s : Chip) : Chip :=
  let p := i.sw.toNat * 8 + panel.toNat
  match (s.panel p).hatchNext i.run with
  | none => s
  | some (idx, o) =>
    let now := o.start + o.done
    s.atCycle i.run now fun u =>
      match u.run? i.run with
      | none => u
      | some r =>
        let (u, vals, bad) := u.hatchReads r p now o
        match bad with
        | some cn => (u.hatchDrop i.sw.toNat o).faultPlan i.run .poison cn o.bundle
        | none =>
          let o := if o.byColumn && o.done < o.rows then { o with reads := o.reads ++ [vals] } else o
          let u := u.updPanel p fun pn =>
            { pn with hatch := lset pn.hatch idx { o with done := o.done + 1 }, autos := o.keep vals pn.autos }
          let u := if o.done + 1 = o.cycles && o.counts then
              u.updCnt r.part fun c => { c with hatchRows := c.hatchRows + BitVec.ofNat 64 o.rows }
            else u
          u.hatchLand p now r o vals

end Sys2Proof.Machine
end

