-- ==== Sys2Proof/Machine/YokeWeft.lean ====
section
/-! DEFINITION. The Yoke and the Weft (R195 to R201, R205, R208), and ENGINE_START (R161, R166, R182). -/

namespace Sys2Proof.Machine

/-! ### Yoke -/

/-- The destination panels of a lane (Table 7.5). -/
def YokeLane.dests (l : YokeLane) : List Nat := if l.broadcast then List.range 8 else [l.dpanel]

/-- Two transfers use a panel's send or receive port in common (R205). -/
def YokeMove.meets (a b : YokeMove) : Bool :=
  a.panel == b.panel || a.lane.dests.any fun d => b.lane.dests.contains d

/-- Word w of a transfer gets its ports against the transfers started earlier: one that needs a common port in the same F-cycle takes it, whatever
becomes of its own word (R205). -/
def YokeMove.wins (earlier : List YokeMove) (m : YokeMove) (w : Nat) : Bool :=
  earlier.all fun e => !(e.meets m && decide (e.issued ≤ m.issued + w) && decide (m.issued + w < e.issued + e.lane.words))

/-- The F-cycle at whose end the last word of a transfer lands. -/
def YokeMove.lastLand (m : YokeMove) : Nat := m.issued + 9 + m.lane.words

/-- A transfer is active in a plan cycle. -/
def YokeMove.live (m : YokeMove) (now : Nat) : Bool := decide (m.done < m.lane.words) || decide (now ≤ m.lastLand)

/-- A row of a lane in a cell: its physical row and the rows from it to the bound of the task; none where it is no multiple of 4 (R195, R208). -/
def Cell.laneRows (c : Cell) (row : Nat) : Nat × Nat :=
  let ts := c.scr.task
  (ts.padBase + row, if row % 4 = 0 then ts.padBound - ts.padBase - row else 0)

/-- The transfer of a lane, started by a YOKE; its rows are resolved through the ATASK of the bundle (R137, R195). -/
def Slot.yokeMove (k : Slot) (s : Chip) (sw panel : Nat) (l : YokeLane) : YokeMove :=
  let src := (s.cell (sw * 512 + panel * 64 + l.scell)).laneRows l.srow
  { run := k.r.id, bundle := k.bundle, panel := panel, lane := l, issued := k.now, src := src.1, srcRoom := src.2
    dst := l.dests.map fun p =>
      let cn := sw * 512 + p * 64 + l.dcell
      (cn, (s.cell cn).laneRows l.drow) }

/-- Sync YOKE: the enabled lanes of the entry start, all of them in ganged execution, the issuing panel's in loose execution
when its local cell 0 issues (R195). Transfers beyond 16 in a swatch hold the plan (R196, R115). -/
def syncYoke (i : Issuer) (entry : BitVec 12) (s : Chip) : Chip :=
  s.issue i fun k t =>
    let sw := i.sw.toNat
    let w := t.swatch sw
    let lanes := (mget [] entry.toNat w.yoke).zipIdx.filter fun l => l.1.enabled && l.1.words != 0
    let lanes := match i.cell with
      | none => lanes
      | some c => lanes.filter fun l => c.toNat % 64 == 0 && l.2 == c.toNat / 64
    let moves := (w.moves.filter fun m => m.live k.now) ++ lanes.map fun l => k.yokeMove t sw l.2 l.1
    let t := if lanes.isEmpty then t
      else t.overflow k.r.id (queueDemand 16 k.now (moves.map fun m => m.lastLand + 1)) k.lead k.bundle
    t.updSwatch sw fun w => { w with moves := moves }

/-- One word of a transfer is on its way to the rows of every destination: none of a halted cell is written, and what a halted cell would have
supplied is unspecified (R136). -/
def Chip.yokeWrite (s : Chip) (r : Run) (m : YokeMove) (word : Nat) (rows : List Row) (origin : Option AutoTag) : Chip :=
  m.dst.foldl (fun u d =>
    if (u.cell d.1).scr.halted then u
    else u.writeRows r d.1 (d.2.1 + 4 * word) (m.issued + 10 + word) 2 (rows.map fun v => (v, false)) m.bundle origin) s

/-- The four rows of a word of a transfer from its source cell, and whether one was poisoned. -/
def Chip.yokeRead (s : Chip) (r : Run) (src now word : Nat) (m : YokeMove) : Chip × List Row × Bool × Option AutoTag :=
  let rows := (List.range 4).map (m.src + 4 * word + ·)
  if (s.cell src).scr.halted then
    ({ s with free := s.free + 4 }, (List.range 4).map fun j => Config.freeRow (s.free + j), false, none)
  else
    let (s, vals, ps) := s.readRows r src now m.bundle rows
    (s, vals, ps.any id, (s.cell src).pad.originOf rows)

/-- The transfer of a source panel whose next word comes first, for a run: its place among the swatch's transfers. -/
def yokeNext (moves : List YokeMove) (run panel : Nat) : Option (Nat × YokeMove) :=
  moves.zipIdx.foldl (fun (best : Option (Nat × YokeMove)) x =>
    let m := x.1
    if m.run != run || m.panel != panel || m.lane.words ≤ m.done then best
    else if best.any fun b => decide (b.2.issued + b.2.done ≤ m.issued + m.done) then best else some (x.2, m)) none

/-- A transfer stops the plan at a word: it moves nothing from there on (R208, R177). -/
def Chip.yokeFault (s : Chip) (sw idx : Nat) (m : YokeMove) (st : Status) (cn : Nat) : Chip :=
  (s.updSwatch sw fun w => { w with moves := w.moves.take idx ++ w.moves.drop (idx + 1) }).faultPlan m.run st cn m.bundle

/-- The next word of a source panel's transfers: word w is read in F-cycle I + 1 + w and lands at the end of I + 10 + w, or is dropped when its
port is taken (R195, R205, R208). -/
def yokeWordEvent (i : Issuer) (panel : BitVec 3) (s : Chip) : Chip :=
  let sw := i.sw.toNat
  match yokeNext (s.swatch sw).moves i.run panel.toNat with
  | none => s
  | some (idx, m) =>
    let now := m.issued + 1 + m.done
    s.atCycle i.run now fun t =>
      match t.run? i.run with
      | none => t
      | some r =>
        let word := m.done
        let src := sw * 512 + panel.toNat * 64 + m.lane.scell
        let passed := fun (u : Chip) => u.updSwatch sw fun w => { w with moves := lset w.moves idx { m with done := word + 1 } }
        if !m.wins ((t.swatch sw).moves.take idx) word then
          ((passed t).updCnt r.part fun c => { c with yokeDrop := c.yokeDrop + 1 }).hazard r 4 src m.bundle
        else if m.srcRoom < 4 * word + 4 then t.yokeFault sw idx m .bound src
        else
          match m.dst.find? fun d => decide (d.2.2 < 4 * word + 4) with
          | some d => t.yokeFault sw idx m .bound d.1
          | none =>
            match t.yokeRead r src now word m with
            | (t, _, true, _) => t.yokeFault sw idx m .poison src
            | (t, rows, false, origin) =>
              ((passed t).updCnt r.part fun c => { c with yokeWords := c.yokeWords + 1 }).yokeWrite r m word rows origin

/-! ### Weft -/

/-- The cells a layout spans: 512 for S and TS, 4 096 for P and TP (R75). Layout codes are those of Table 7.6. -/
def layoutCells (layout : Nat) : Nat := if layout % 2 = 0 then 512 else 4096

/-- Containers of one limb in a cell: M of R75. -/
def layoutM (layout logn : Nat) (m18 : Bool) : Nat := 2 ^ logn / (layoutCells layout * if m18 then 2 else 1)

/-- The container index that a cell holds at a position (Table 3.5): S and P interleave, TS and TP take runs. -/
def layoutIndex (layout m cell pos : Nat) : Nat :=
  if layout < 2 then pos * layoutCells layout + cell else cell * m + pos

/-- The value of 16 bytes under R197: c0 mod q below T, else c1 mod q. -/
def candidate (q : Nat) (bs : List Byte) : Nat :=
  let c0 := leNat (bs.take 8)
  let c1 := leNat (bs.drop 8)
  if c0 < 2 ^ 64 / q * q then c0 % q else c1 % q

/-- Word i of the limb at chain position p, digit d, of a seeded stream (R197). -/
def expandWord (seed : BitVec 256) (d p q logn i : Nat) : Nat :=
  let input := [0x4B, 0x57, 0x58, 0x31] ++ natLE 32 seed.toNat ++ natLE 1 d ++ natLE 1 p ++ natLE 8 q ++ natLE 1 logn
    ++ natLE 4 (i / 8)
  let out := shake256 input 128
  candidate q ((out.drop (16 * (i % 8))).take 16)

/-- A signed value modulo q. -/
def signedMod (neg : Bool) (a q : Nat) : Nat := if neg then (q - a % q) % q else a % q

/-- The integer e of R198 from 8 bytes, modulo q: ternary floor(3v / 2^64) − 1, or the Gaussian magnitude with its sign. -/
def sampleSmall (ternary : Bool) (q v : Nat) : Nat :=
  if ternary then (3 * v / 2 ^ 64 + q - 1) % q
  else signedMod (v % 2 == 1) (gaussMagnitude (v / 2)) q

/-- n DRBG bytes of an instruction from byte b (R198). -/
def WeftOp.drbgBytes (o : WeftOp) (b n : Nat) : List Byte := (List.range n).map fun x => o.drbg.byte o.fresh (b + x)

/-- Coefficients of one limb in a panel. -/
def WeftOp.perLimb (o : WeftOp) : Nat :=
  64 * 8 * o.rowsPerLimb * if ((o.mods[0]?).map (·.m18)).getD false then 2 else 1

/-- One coefficient of output row k in local cell c of the panel, container x, half h. -/
def WeftOp.coeff (o : WeftOp) (cellIndex c k x h : Nat) : Nat :=
  let l := k / o.rowsPerLimb
  let r := k % o.rowsPerLimb
  let m := (o.mods[l]?).getD {}
  let per := if m.m18 then 2 else 1
  let pos := 8 * r + x
  let cont := layoutIndex o.layout (layoutM o.layout m.logn m.m18) cellIndex pos
  -- the order in which a panel's coefficients draw DRBG bytes: row, then cell, then container, then half
  let draw := ((r * 64 + c) * 8 + x) * per + h
  match o.kind with
  | .expand seed d => expandWord seed d (o.p0 + l) m.q m.logn (cont * per + h)
  | .uniform => candidate m.q (o.drbgBytes (16 * (l * o.perLimb + draw)) 16)
  | .ternary => sampleSmall true m.q (leNat (o.drbgBytes (8 * draw) 8))
  | .gaussian => sampleSmall false m.q (leNat (o.drbgBytes (8 * draw) 8))

/-- Output row k of local cell c. -/
def WeftOp.row (o : WeftOp) (cellIndex c k : Nat) : Row :=
  let m18 := ((o.mods[k / o.rowsPerLimb]?).map (·.m18)).getD false
  rowOf ((List.range 8).map fun x =>
    if m18 then BitVec.ofNat 36 (o.coeff cellIndex c k x 0 + o.coeff cellIndex c k x 1 * 2 ^ 18)
    else BitVec.ofNat 36 (o.coeff cellIndex c k x 0))

/-- What a Weft slot asks for: a seed slot, or a distribution. -/
inductive WeftForm where
  | expand (slot : BitVec 5)
  | sample (dist : BitVec 2)
deriving DecidableEq, Repr

/-- A Weft slot free of reserved encodings. -/
def WeftForm.ok : WeftForm → Bool
  | .expand _ => true
  | .sample d => sampleOk d

/-- What one panel's Weft instruction works on at issue. -/
structure WeftPlan where
  count : Nat
  p0 : Nat
  layout : Nat
  gd : Nat
  chain : Option Chain
  mods : List (Option Modulus)
  rowsPerLimb : Nat

/-- Decode the parameter register of a panel (Table 7.6) against the swatch's table. -/
def weftPlan (t : Chip) (k : Slot) (p : Nat) (gd gp : BitVec 4) : WeftPlan :=
  let v := k.g t (p * 64) gp.toNat
  let tb := k.table t
  let id := bits v 0 4
  let chain := if tb.chainOk.contains id then mfind id tb.chains else none
  let count := bits v 15 7
  let p0 := bits v 4 6
  let layout := bits v 13 2
  let total := match chain with | some c => c.qcount + c.pcount | none => 0
  let mods := (List.range (min count (total - p0))).map fun l =>
    match chain with
    | some c => tb.useAny ((c.index[p0 + l]?).getD 0) false
    | none => none
  let m : Modulus := ((mods[0]?).getD none).getD {}
  { count := count, p0 := p0, layout := layout, gd := k.g t (p * 64) gd.toNat, chain := chain, mods := mods
    rowsPerLimb := layoutM layout m.logn m.m18 / 8 }

/-- The chain and entry checks (R201). -/
def WeftPlan.chainOk (w : WeftPlan) : Bool := w.chain.isSome && w.mods.all Option.isSome

/-- The shape checks that need the chain (R208). -/
def WeftPlan.shapeOk (w : WeftPlan) : Bool :=
  match w.chain with
  | some c =>
    decide (w.p0 + w.count ≤ c.qcount + c.pcount)
      && w.mods.all fun m => decide (8 ≤ layoutM w.layout (m.getD ({} : Modulus)).logn (m.getD ({} : Modulus)).m18)
  | none => false

/-- The rows a Weft instruction writes in a cell. -/
def WeftOp.total (o : WeftOp) : Nat := o.count * o.rowsPerLimb

/-- A Weft instruction has left the unit at plan cycle `now`. -/
def WeftOp.left (now : Nat) (o : WeftOp) : Bool := decide (o.total ≤ o.done) && decide (o.start + max 1 (2 * o.total) ≤ now)

/-- Issue of EXPAND and SAMPLE in the eight panels of a swatch (R183, R200, R201, R208, R623). -/
def weftIssue (form : WeftForm) (i : Issuer) (gd gp : BitVec 4) (s : Chip) : Chip :=
  s.issue i fun k t =>
    let sw := i.sw.toNat
    let panels := (List.range 8).map fun p => sw * 8 + p
    let plan := fun p => weftPlan t k p gd gp
    let digit := fun p => bits (k.g t (p * 64) gp.toNat) 10 3
    let busy := panels.filter fun p => (plan p).count != 0
    let rows := fun p => (plan p).count * (plan p).rowsPerLimb
    let seed := fun p => match form with
      | .expand slot => mfind slot.toNat (t.panel p).active.seeds
      | .sample _ => none
    if k.isLoose || !form.ok then k.reserved t
    else
      let tagged := panels.find? fun p =>
        let c := t.cell (p * 64)
        (c.global k.now gd.toNat).poison || (c.global k.now gp.toNat).poison
      let badRow := (busy.flatMap fun p => panelCells p).find? fun cn =>
        ((t.cell cn).scr.task.row (plan (panelOf cn)).gd (rows (panelOf cn))).isNone
      match tagged, panels.find? (fun p => 64 < (plan p).count), busy.find? (fun p => !(plan p).chainOk),
          busy.find? (fun p => !(plan p).shapeOk), badRow with
      | some p, _, _, _, _ => k.fault .poison (p * 64) t
      | none, some p, _, _, _ => k.fault .badShape (p * 64) t
      | none, none, some p, _, _ => k.fault .badModulus (p * 64) t
      | none, none, none, some p, _ => k.fault .badShape (p * 64) t
      | none, none, none, none, some cn => k.fault .bound cn t
      | none, none, none, none, none =>
        let unseeded := match form with | .expand _ => busy.find? fun p => (seed p).isNone | .sample _ => none
        let bytes := fun p =>
          let w := plan p
          let per := 64 * 8 * w.rowsPerLimb * if ((w.mods[0]?.getD none).map (·.m18)).getD false then 2 else 1
          match form with
          | .expand _ => 0
          | .sample d => if d == 0 then 16 * per * w.count else 8 * per
        let undrawn := match form with
          | .sample _ => busy.find? fun p => let d := (t.panel p).drbg
              !d.ready || (t.trust.trng == 0 && d.spent (bytes p))
          | .expand _ => none
        match unseeded, undrawn with
        | some p, _ => k.fault .notResident (p * 64) t
        | none, some p => k.fault .timeout (p * 64) t
        | none, none =>
          let t := panels.foldl (fun u p => u.updPanel p fun pn => { pn with weft := pn.weft.filter fun o => !o.left k.now }) t
          let t := k.queueBound 2 (panels.map fun p =>
            let pn := t.panel p
            (pn.weft.map (·.start)) ++ [max k.now pn.weftFree]) t
          let most := (panels.map rows).foldl max 0
          let first := panels.find? fun p => rows p == most
          panels.foldl (fun u p =>
            let w := plan p
            let pn := u.panel p
            let start := max k.now pn.weftFree
            let fresh := DrbgKey.instantiate u.seeds
            let n := if w.count = 0 then 0 else bytes p
            let op : WeftOp :=
              { run := k.r.id, seq := 0, bundle := k.bundle, start := start
                kind := match form with
                  | .expand _ => .expand ((seed p).getD 0) (digit p)
                  | .sample d => if d == 0 then .uniform else if d == 1 then .ternary else .gaussian
                p0 := w.p0, layout := w.layout, count := w.count, rowsPerLimb := w.rowsPerLimb
                mods := w.mods.map fun m => m.getD {}
                dst := (panelCells p).map fun cn => (u.cell cn).scr.task.padBase + w.gd
                drbg := pn.drbg, fresh := fresh, counts := first == some p }
            let u := if n != 0 && pn.drbg.spent n then { u with seeds := u.seeds + 1 } else u
            u.updPanel p fun pn => { pn with
              drbg := pn.drbg.draw n fresh
              weft := pn.weft ++ [op]
              weftFree := start + max 1 (2 * w.count * w.rowsPerLimb) }) t

/-- The next row of a Weft operation is on its way to every cell of the panel that is not halted. -/
def Chip.weftLand (s : Chip) (p : Nat) (r : Run) (o : WeftOp) : Chip :=
  (List.range 64).foldl (fun u c =>
    let cn := p * 64 + c
    if (u.cell cn).scr.halted then u
    else
      u.writePad r cn ((o.dst[c]?.getD 0) + o.done) (o.start + 2 * o.done + 43) 4 (BitVec.allOnes 8)
        (o.row (cn % layoutCells o.layout) c o.done) false o.bundle) s

/-- The next output row of the Weft instruction at the head of a panel's queue: row k lands at the end of start + 2k + 43 in
every cell of the panel (R200). -/
def weftRowEvent (i : Issuer) (panel : BitVec 3) (s : Chip) : Chip :=
  let p := i.sw.toNat * 8 + panel.toNat
  match (s.panel p).weft.dropWhile fun o => decide (o.total ≤ o.done) with
  | [] => s
  | o :: rest =>
    if o.run != i.run then s
    else
      s.atCycle i.run (o.start + 2 * o.done) fun t =>
        match t.run? i.run with
        | none => t
        | some r =>
          let t := t.updPanel p fun pn => { pn with weft := { o with done := o.done + 1 } :: rest }
          let t := if o.counts then t.updCnt r.part fun c => { c with weftRows := c.weftRows + 1 } else t
          t.weftLand p r o

/-! ### ENGINE_START -/

/-- The start cycles of what an engine of an issuer has queued. -/
def Chip.starts (s : Chip) (i : Issuer) (panel : BitVec 3) : EngineName → List Nat
  | .press => i.cells.flatMap fun cn => (s.cell cn).press.queue.map (·.start)
  | .stipple => i.cells.flatMap fun cn => (s.cell cn).stip.queue.map (·.start)
  | .burin => i.cells.flatMap fun cn => (s.cell cn).burin.queue.map (·.start)
  | .hatch => (s.panel (i.sw.toNat * 8 + panel.toNat)).hatch.map (·.start)
  | .weft => (s.panel (i.sw.toNat * 8 + panel.toNat)).weft.map (·.start)

/-- A queued instruction starts when the previous one ends its occupancy (R161, R182): the clock runs on to the first start
after the plan's present cycle. A Press instruction that finds the tap lock held stops the plan there (R166). -/
def engineStart (i : Issuer) (panel : BitVec 3) (e : EngineName) (s : Chip) : Chip :=
  match s.run? i.run with
  | none => s
  | some r =>
    let ahead := (s.starts i panel e).filter fun x => decide (r.cycle ≤ x)
    match ahead with
    | [] => s
    | x :: rest =>
      let x := rest.foldl min x
      s.atCycle i.run x fun t =>
        match e with
        | .press =>
          let t := t.pressQuick i.cells x
          match t.pressLocked i x with
          | some (cn, b) => t.pressFault i cn b .engineBusy
          | none => t
        | _ => t

end Sys2Proof.Machine
end

