-- ==== Sys2Proof/Machine/Spool.lean ====
section
/-! DEFINITION. Spool threads: descriptors, the ring, the Spool slot, Deadline order (R246 to R265). -/

namespace Sys2Proof.Machine

/-! ### Descriptors -/

/-- The kind of a descriptor's KIND byte (Table 9.2). -/
def threadKind : Nat → Option ThreadKind
  | 1 => some .hbmRead
  | 2 => some .hbmWrite
  | 3 => some .hbmAdd
  | 4 => some .liningRead
  | 5 => some .liningWrite
  | 6 => some .keyRead
  | 7 => some .tackRead
  | _ => none

/-- The KIND code of a kind. -/
def ThreadKind.code : ThreadKind → Nat
  | .hbmRead => 1
  | .hbmWrite => 2
  | .hbmAdd => 3
  | .liningRead => 4
  | .liningWrite => 5
  | .keyRead => 6
  | .tackRead => 7

/-- The kinds whose memory is an HBM stack or control memory. -/
def ThreadKind.bound : ThreadKind → Bool
  | .hbmRead | .hbmWrite | .hbmAdd | .tackRead => true
  | _ => false

/-- The shape conditions of Table 9.6. -/
def ThreadDesc.shapeOk (d : ThreadDesc) (k : ThreadKind) : Bool :=
  d.segRows != 0 && d.segRows % k.rows == 0 && (d.nseg == 2 || d.nseg == 3)

/-- The memory unit with the stride term replaced by an index (R247). -/
def tackNo (d : ThreadDesc) (off cn idx : Nat) : Nat :=
  let c := if d.plateCell then cn % 4096 else cn % 512
  (d.base + off + c * d.cstride + idx) % 2 ^ 32

/-! ### The ring (R248, R249) -/

/-- Credits of a read thread: ring units neither landed and unreleased nor in flight (R249). -/
def Thread.credits (t : Thread) : Nat := t.ringUnits - (t.presented - t.marked)

/-- Full units of a write thread that have not been read. -/
def Thread.fullUnits (t : Thread) : Nat := t.marked - t.presented

/-- Eligibility in plan cycle `now` (R252): credits and units left, or a full unit; no new unit of a read thread after TSTOP;
no presentation before issue + 4. -/
def Thread.eligible (now : Nat) (t : Thread) : Bool :=
  let t := t.settle now
  decide (t.startAt ≤ now) && !t.idle now
    && (if t.kind.isRead then !t.stopping && decide (0 < t.credits) && decide (t.presented < t.d.count)
        else decide (0 < t.fullUnits) && decide (t.presented < t.d.count))

/-- The deadline of a thread (R252). `reading` counts the units of a write thread whose rows are still being read. -/
def Thread.deadline (reading : Nat) (t : Thread) : Nat :=
  let h := if t.kind.isRead then t.presented - t.marked else t.ringUnits - (t.marked - (t.presented - reading))
  t.lastAdv + h * t.d.interval / max 1 t.segUnits

/-- The key under which a cell keeps when a resource is free. -/
def Resource.key : Resource → Nat
  | .portRead => 0
  | .portWrite => 1
  | .fabric => 2
  | .boltRead h => 8 + h.toNat
  | .boltWrite h => 16 + h.toNat
  | .adder h => 24 + h.toNat
  | .tack h => 32 + h.toNat

/-- The resource is a direction of the Lining port. -/
def Resource.isPort : Resource → Bool
  | .portRead | .portWrite => true
  | _ => false

/-! ### Bindings -/

/-- The resource of a thread of a run in a cell. -/
def Chip.resourceOf (s : Chip) (r : Run) (t : Thread) : Resource :=
  let stack := fun (b : Nat) => BitVec.ofNat 3 (match r.ioEntry b with
    | some (_, h) => ((s.bufOf h).map fun x => stackOf x.addr).getD 0
    | none => 0)
  let fab := fun (b : Nat) => match r.ioEntry b with | some (e, _) => e.dir == 3 | none => false
  match t.kind with
  | .liningRead | .keyRead => .portRead
  | .liningWrite => .portWrite
  | .hbmRead => .boltRead (stack t.d.binding)
  | .hbmWrite => if fab t.d.binding then .fabric else .boltWrite (stack t.d.binding)
  | .hbmAdd => if fab t.d.binding then .fabric else .adder (stack t.d.binding)
  | .tackRead => .tack (stack t.d.binding)

/-! ### The Spool slot (R250) -/

/-- TSTART: the checks of Table 9.6 in their order in every issuing cell, then the context is loaded. -/
def spoolTstart (i : Issuer) (thread : BitVec 4) (desc : BitVec 8) (gr : BitVec 4) (s : Chip) : Chip :=
  s.issue i fun k t =>
    let th := thread.toNat
    match k.r.plan.threads[desc.toNat]? with
    | none => k.reserved t
    | some d =>
      match threadKind d.kind with
      | none => k.reserved t
      | some kind =>
        let ringBad := fun (c : Cell) =>
          (c.scr.task.row d.ringBase d.ring).isNone
            || (kind == .tackRead && d.count != 0 && (c.scr.task.row d.idxRow (cdiv d.count 8)).isNone)
        let off := fun cn => if gr == 0 then 0 else k.g t cn gr.toNat
        let control := match k.r.ioEntry d.binding with
          | some (e, h) => kind.bound && e.dir != 3 && kind != .tackRead && ((t.bufOf h).any fun b => isControl b.kind)
          | none => false
        let first := fun cn => if kind == .tackRead || d.count = 0 then none else
          match t.unitCheck k.r cn kind d (t.cell cn).scr.atask (unitNo d (off cn) cn 0) with
          | .error st => some st
          | .ok _ => none
        let absent := kind.bound && (k.r.ioEntry d.binding).isNone
        let busy := fun (c : Cell) => (mfind th c.threads).any fun x => !x.idle k.now
        match d.shapeOk kind, k.failing t (fun _ c => ringBad c), k.failing t (fun cn _ => (first cn).isSome) with
        | false, _, _ => k.fault .badShape k.lead t
        | true, some cn, _ => k.fault .bound cn t
        | true, none, some cn => k.fault ((first cn).getD .bound) cn t
        | true, none, none =>
          if absent || control then k.fault .bound k.lead t
          else
            k.check .engineBusy (fun _ c => busy c) (fun t =>
              k.untagged (if gr == 0 then [] else [gr.toNat]) (fun t =>
                let t := t.updCells k.cells fun cn c =>
                  let th' : Thread := {
                    run := k.r.id, desc := desc.toNat, bundle := k.bundle, kind := kind, d := d, off := off cn,
                    task := c.scr.atask, ringRow := c.scr.task.padBase + d.ringBase,
                    idxRow := c.scr.task.padBase + d.idxRow, startAt := k.now + 4, lastAdv := k.now + 4,
                    endAt := if d.count = 0 then some (k.now + 4) else none }
                  { c with threads := mput th th' c.threads }
                if d.count = 0 then t.updCnt k.r.part fun c => { c with spoolDone := c.spoolDone + 1 } else t) t) t

/-- The marks that ADVANCE k adds, and the surplus beyond what the ring can account for (R249). A read thread has its landed units to release; a
write thread has the ring units that are not marked full and whose rows, where a unit took them, have all been read: `reading` counts the others.
A write thread that TSTOP has stopped takes no mark (R250). -/
def Thread.advance (now k reading : Nat) (t : Thread) : Thread × Bool :=
  let want := if t.stopping && !t.kind.isRead then 0 else k * t.segUnits
  let soon := t.marked + (t.pendAdv.map (·.2)).sum
  let room := if t.kind.isRead then t.moved - soon else t.ringUnits - (soon - (t.presented - reading))
  let n := min want room
  ({ t with pendAdv := t.pendAdv ++ (if want = 0 then [] else [(now + 2, n)]) }, decide (n < want))

/-- The units of a write thread whose rows are still to be read in plan cycle `now`. -/
def Cell.reading (c : Cell) (th now : Nat) : Nat :=
  (c.units.filter fun u => u.thread == th && ((u.kind == .liningWrite && u.stage == .going)
    || (!u.kind.isRead && u.kind != .liningWrite && now < u.presentedAt))).length

/-- ADVANCE: releases or marks full K segments, visible at issue + 2; no effect on an idle thread (R250, R258). -/
def spoolAdvance (i : Issuer) (thread : BitVec 4) (segs : BitVec 2) (s : Chip) : Chip :=
  s.issue i fun k t =>
    let th := thread.toNat
    let moved := fun (c : Cell) => match mfind th c.threads with
      | some x => if x.idle k.now then none else some ((x.settle k.now).advance k.now segs.toNat (c.reading th k.now))
      | none => none
    let surplus := k.cells.any fun cn => (moved (t.cell cn)).any (·.2)
    let t := t.updCells k.cells fun _ c =>
      match moved c with
      | some x => { c with threads := mput th x.1 c.threads }
      | none => c
    if surplus then t.updCnt k.r.part fun c => { c with spoolClamp := c.spoolClamp + 1 } else t

/-- TSTOP: no new unit from issue + 1; what is in flight lands, what is marked full drains (R250). -/
def spoolTstop (i : Issuer) (thread : BitVec 4) (s : Chip) : Chip :=
  s.issue i fun k t =>
    let th := thread.toNat
    let ends := fun (x : Thread) => x.endAt.isNone && (({ x with stopping := true }).stopNow k.now).endAt.isSome
    let any := k.cells.any fun cn => (mfind th (t.cell cn).threads).any ends
    let t := t.updCells k.cells fun _ c =>
      match mfind th c.threads with
      | some x => if x.idle k.now then c else { c with threads := mput th (({ x with stopping := true }).stopNow k.now) c.threads }
      | none => c
    if any then t.updCnt k.r.part fun c => { c with spoolDone := c.spoolDone + 1 } else t

/-! ### Deadline order (R252) -/

/-- The threads of a run eligible on a resource of a cell in plan cycle `now`, with their numbers. -/
def Chip.eligible (s : Chip) (r : Run) (cn now : Nat) (x : Resource) : List (Nat × Thread) :=
  (s.cell cn).threads.filter fun t => t.2.run == r.id && t.2.eligible now && s.resourceOf r t.2 == x

/-- Rows that a write unit reads, row j in plan cycle at + j (R251). An error in a row is recorded as a read records it. -/
def Chip.peekRows (s : Chip) (r : Run) (cn at_ bundle : Nat) (rows : List Nat) : Chip × List Row × List Bool :=
  rows.zipIdx.foldl (fun acc rj =>
    let (s, vs, ps) := acc
    let s := s.checkRead r cn rj.1 (at_ + rj.2) bundle (BitVec.allOnes 8)
    let c := s.cell cn
    let (v, p) := c.pad.peek (at_ + rj.2) rj.1
    let (pad, e) := c.pad.sense rj.1 [0, 1, 2, 3]
    let s := s.setCell cn { c with pad := pad }
    let s := s.notePad r.id r.part cn (at_ + rj.2) e
    (s.noteBank r.id cn rj.1 (at_ + rj.2) at_, vs ++ [v], ps ++ [p])) (s, [], [])

/-- The eligible thread with the least deadline, ties to the lower number. -/
def Chip.choose (s : Chip) (r : Run) (cn now : Nat) (x : Resource) : Option (Nat × Thread) :=
  (s.eligible r cn now x).foldl (fun best t =>
    let t' : Nat × Thread := (t.1, t.2.settle now)
    let d := t'.2.deadline ((s.cell cn).reading t.1 now)
    match best with
    | none => some t'
    | some b => if d < b.2.deadline ((s.cell cn).reading b.1 now) then some t' else best) none

/-- The first plan cycle at or after `from_` in which a resource takes a unit: any cycle, or for a port the octet's beat (loose) or a multiple of 8
(ganged), by the plan cycles of the run itself (R251). -/
def takeCycle (x : Resource) (r : Run) (i : Issuer) (from_ : Nat) : Nat :=
  if x.isPort then
    let o := match i.cell with | some c => c.toNat % 64 / 8 | none => 0
    from_ + (o + 8 - (from_ - r.base) % 8) % 8
  else from_

/-- The plan cycles at which something may become eligible in a cell: now, starts, and marks that become visible. -/
def Cell.moments (c : Cell) (now : Nat) : List Nat :=
  ((now :: c.threads.flatMap fun t => t.2.startAt :: t.2.pendAdv.map (·.1)).filter fun m => now ≤ m).mergeSort
    fun a b => decide (a ≤ b)

/-- The plan cycle in which a cell next presents a unit on a resource, when nothing more is commanded. -/
def Chip.presentAt (s : Chip) (r : Run) (i : Issuer) (cn : Nat) (x : Resource) : Option Nat :=
  let c := s.cell cn
  let free := mget 0 x.key c.taken
  (((c.moments r.cycle).map fun m => takeCycle x r i (max m free)).find? fun m => (s.choose r cn m x).isSome)

/-- The plan cycle in which the first of an issuer's cells next presents a unit: a halted cell takes no part (R136). -/
def Chip.presentNext (s : Chip) (r : Run) (i : Issuer) (x : Resource) : Option Nat :=
  ((i.cells.filter fun cn => !(s.cell cn).scr.halted).filterMap fun cn => s.presentAt r i cn x).min?

/-- The data and poison of a tack record as it lands: bits [255:0] of its row (R248). -/
def tackRow (bs : List Byte) : Row := BitVec.ofNat 288 (leNat (bs.take 32))

/-- The ring rows a unit fills. -/
def Thread.rowsOf (t : Thread) (k : Nat) : List Nat := (List.range t.kind.rows).map (t.unitRow k + ·)

/-- The hop cost of a route between two plates: 26 plan cycles for each hop at full width, 34 in Fray (R272). -/
def Chip.hopCost (s : Chip) (a b : Nat) : Nat :=
  let path := ringPath a b
  ((path.zip (path.drop 1)).map fun h => if (s.seam (portKey h.1 (portTo h.1 h.2))).mode == 1 then 34 else 26).sum

/-- The index list of a TACK_READ: for k a multiple of 8 its row is read in P − 1, and its eight indices serve the units up to the next one
(R247, R251). The poison of the row is moved, not checked. -/
def Chip.tackIndex (s : Chip) (r : Run) (cn now : Nat) (t : Thread) : Chip × Thread × Nat :=
  let k := t.presented
  let (s, row) := if k % 8 = 0 then
      let (s, row, _) := s.readPad r cn (t.idxRow + k / 8) (now - 1) t.bundle
      (s, row)
    else (s, t.index)
  (s, { t with index := row }, (container row (k % 8)).toNat % 2 ^ 32)

/-- The byte address of a write unit, whatever its check will say when it is presented; the unit number for a fabric binding. -/
def Chip.writeAddr (s : Chip) (r : Run) (b u : Nat) : Nat :=
  match r.ioEntry b with
  | some (e, h) => if e.dir == 3 then u else ((s.bufOf h).map fun x => x.addr + 576 * u).getD 0
  | none => 0

/-- Where a unit goes from here and when it gets there (Table 4.7, Table 9.4, R272, R276). -/
def Chip.unitPath (s : Chip) (r : Run) (i : Issuer) (cn now a : Nat) (x : Resource) (t : Thread) : SpoolUnit :=
  let plate := plateOf (swatchOf cn)
  let fab := x == .fabric
  let ctl := match r.ioEntry t.d.binding with
    | some (_, h) => t.kind.bound && ((s.bufOf h).any fun b => isControl b.kind)
    | none => false
  let remote := t.kind.bound && !fab && !ctl && stackOf a != plate
  let hop := if remote then s.hopCost plate (stackOf a) else 0
  let octet := match i.cell with | some _ => 0 | none => cn % 64 / 8
  let frayC := (s.seam (portKey plate 0)).mode == 1
  let shown := if t.kind.isRead || x.isPort then now else now + 16
  let (stage, due) : UnitStage × Nat :=
    if x.isPort then (.going, now + octet)
    else if t.kind.isRead then (if ctl then (.returning, now + 448) else (.going, now + 8 + hop))
    else (.going, shown + if fab then (if frayC then 38 else 30) else 8 + hop)
  { thread := 0, k := t.presented, run := r.id, kind := t.kind, addr := a, presentedAt := shown, due := due, stage := stage
    data := if ctl && t.kind.isRead then [tackRow (memReadN s.mem a 32)] else []
    remote := remote, fabric := fab, hop := hop, row := t.unitRow t.presented, readAt := now }

/-- A unit joins those of its cell, and its resource is taken. -/
def Chip.addUnit (s : Chip) (cn now : Nat) (x : Resource) (th : Nat) (t : Thread) (u : SpoolUnit) : Chip :=
  let busy := if x.isPort then now + 8 else if t.kind.isRead then now + 1 else now + 16
  s.updCell cn fun c =>
    { c with
      threads := mput th { t with presented := t.presented + 1 } c.threads
      units := c.units ++ [{ u with thread := th }]
      taken := mput x.key busy c.taken }

/-- Take one unit of a chosen thread of a cell in plan cycle `now` (R247, R251). The address of a read unit and of a Lining unit is checked now,
when it is presented; that of an HBM write or add, and the entry of an add, when it is presented 16 plan cycles on (R264). Answers the status of a
fault. -/
def Chip.present (s : Chip) (r : Run) (i : Issuer) (cn now : Nat) (x : Resource) (th : Nat) (t : Thread) : Chip × Option Status :=
  let k := t.presented
  if t.kind == .hbmWrite || t.kind == .hbmAdd then
    let a := s.writeAddr r t.d.binding (unitNo t.d t.off cn k)
    let u := s.unitPath r i cn now a x t
    let (s, data, poison) := s.peekRows r cn now t.bundle (t.rowsOf k)
    let s := s.updRun r.id fun y => { y with checks := y.checks ++ [(now + 16, cn, th, k)] }
    (s.addUnit cn now x th t { u with data := data, poison := poison }, none)
  else
    let (s, t, no) := if t.kind == .tackRead then
        let (s, t, idx) := s.tackIndex r cn now t
        (s, t, tackNo t.d t.off cn idx)
      else (s, t, unitNo t.d t.off cn k)
    match s.unitCheck r cn t.kind t.d t.task no with
    | .error st => (s, some st)
    | .ok a => (s.addUnit cn now x th t (s.unitPath r i cn now a x t), none)

/-- Every cell that issues and is not halted presents the thread it chooses; with the first unit that fails its check. -/
def Chip.presentAll (s : Chip) (r : Run) (i : Issuer) (m : Nat) (x : Resource) : Chip × Option (Status × Nat × Nat) :=
  i.cells.foldl (fun acc cn =>
    let (t, bad) := acc
    if (t.cell cn).scr.halted || bad.isSome then (t, bad)
    else
      match t.choose r cn m x with
      | none => (t, bad)
      | some (th, th') =>
        let (t, st) := t.present r i cn m x th th'
        (t, st.map fun st => (st, cn, th'.bundle))) (s, none)

/-- The bundle that named the thread of a unit. -/
def Chip.unitBundle (s : Chip) (cn : Nat) (u : SpoolUnit) : Nat := ((mfind u.thread (s.cell cn).threads).map (·.bundle)).getD 0

/-- SPOOL_PRESENT: in the next plan cycle in which the resource can take a unit and a thread is eligible, every cell of the issuer
presents the eligible thread with the least deadline (R252). Rows beyond the 32 a cell may have in flight hold the plan
(R115, R257). -/
def spoolPresent (i : Issuer) (x : Resource) (s : Chip) : Chip :=
  match s.run? i.run with
  | none => s
  | some r =>
    match s.presentNext r i x with
    | none => s
    | some m =>
      s.atCycle i.run m fun t =>
        match t.run? i.run with
        | none => t
        | some r =>
          match t.presentAll r i m x with
          | (t, some (st, cn, b)) => t.faultPlan i.run st cn b
          | (t, none) => i.cells.foldl (fun t cn => if 32 < (t.cell cn).outstanding then t.watch r.id (.rows cn) cn (((t.cell cn).units.getLast?.map (t.unitBundle cn)).getD 0) else t) t

/-- Replace a unit of a cell. -/
def Chip.setUnit (s : Chip) (cn : Nat) (u : SpoolUnit) : Chip :=
  s.updCell cn fun c => { c with units := c.units.map fun v => if v.thread == u.thread && v.k == u.k && v.run == u.run then u else v }

/-- The next unit of a thread on its way back to a cell from a memory. -/
def Chip.nextBack (s : Chip) (i : Issuer) (thread cn : Nat) : Option SpoolUnit :=
  (s.cell cn).units.find? fun u => u.run == i.run && u.thread == thread && u.stage == .returning && u.kind.rows != 4

/-- A unit's rows are on their way to the Pad, or its line to the Lining: the unit has moved from a cycle on (R249). -/
def Chip.settleUnit (s : Chip) (r : Run) (cn : Nat) (u : SpoolUnit) (end_ : Nat) : Chip :=
  (s.setUnit cn { u with stage := .landing, due := end_ }).updRun r.id fun x => { x with unitEnds := x.unitEnds ++ [(end_, cn, u.thread)] }

/-- The returned unit of a thread of one cell lands in its rows. -/
def Chip.landUnit (s : Chip) (i : Issuer) (thread cn : Nat) : Chip :=
  match s.nextBack i thread cn with
  | none => s
  | some u =>
    s.atCycle i.run u.due fun t =>
      match t.run? i.run, mfind u.thread (t.cell cn).threads with
      | some r, some th =>
        let t := (th.rowsOf u.k).zipIdx.foldl (fun t rj =>
          t.writePad r cn rj.1 (u.due + 1 + rj.2) 8 (BitVec.allOnes 8) ((u.data[rj.2]?).getD 0) ((u.poison[rj.2]?).getD false) th.bundle) t
        t.settleUnit r cn u (u.due + 1 + u.kind.rows)
      | _, _ => t

/-- UNIT_LAND: the unit of a thread that comes back first lands, in each cell of the issuer that it reaches in that plan cycle:
row j of a bolt at the end of A + 1 + j, a record at the end of A + 1 (R251, R273). -/
def unitLand (i : Issuer) (thread : BitVec 4) (s : Chip) : Chip :=
  let due := fun cn => (s.nextBack i thread.toNat cn).map (·.due)
  match (i.cells.filterMap due).min? with
  | none => s
  | some d => (i.cells.filter fun cn => due cn == some d).foldl (fun (t : Chip) cn => t.landUnit i thread.toNat cn) s

end Sys2Proof.Machine
end

