-- ==== Sys2Proof/Machine/LiningPort.lean ====
section
/-! DEFINITION. The Lining port and the Lining's errors (R225 to R241). -/

namespace Sys2Proof.Machine

/-- The four rows of a line (R225, R71). -/
def Chip.lineRows (s : Chip) (plate line : Nat) : List Row :=
  (List.range 4).map fun r => rowOfBytes (memReadN s.mem (liningBase plate + 144 * line + 36 * r) 36)

/-- The pairs of a line in a list of pairs: pair m of line w has number 16w + m (R232). -/
def linePairs (line : Nat) (l : List Nat) : List Nat := l.filter fun k => k / 16 == line

/-- Write a line: its bytes; the poison bit follows the data, and an error that waited there is gone (R232). -/
def Chip.writeLine (s : Chip) (plate line : Nat) (rows : List Row) (poison : Bool) (origin : Option AutoTag := none) : Chip :=
  let s := { s with mem := memWriteN s.mem (liningBase plate + 144 * line) (rows.flatMap rowBytes) }
  s.updLining plate fun l =>
    { l with
      poison := if poison then sinsert line l.poison else sremove line l.poison
      ce := l.ce.filter fun k => k / 16 != line
      ue := l.ue.filter fun k => k / 16 != line
      origin := match origin with
        | some a => mput line a l.origin
        | none => mdel line l.origin }

/-- The moment from which a written line is visible: none while its run has still to reach the cycle; a run that is gone leaves its lines visible
(R229, R262). -/
def Chip.lngAt (s : Chip) (x : LngLand) : Option Nat :=
  match x.at_, s.run? x.run with
  | some m, _ => some m
  | none, none => some s.time
  | none, some _ => none

/-- Write beats of a plate that have become visible are applied: by F-cycle, then by panel number, whatever run they belong to (R237). -/
def Chip.settleLining (s : Chip) (plate : Nat) : Chip :=
  let (ready, rest) := (s.lining plate).lands.partition fun x => (s.lngAt x).isSome
  let at_ := fun (x : LngLand) => ((s.lngAt x).getD 0) / s.fUnit
  let order := ready.mergeSort fun a b => decide (at_ a < at_ b) || (at_ a == at_ b && decide (panelOf a.cell ≤ panelOf b.cell))
  let s := s.updLining plate fun l => { l with lands := rest }
  order.foldl (fun t x => t.writeLine plate x.line x.rows x.poison x.origin) s

/-- The partition in whose allocation a line of a plate lies: its key window, or a task region of a plan it holds (R232). -/
def Chip.lineOwner (s : Chip) (plate line : Nat) : Option Nat :=
  (s.parts.find? fun e =>
    let w := mget {} plate e.2.keyWin
    (decide (w.base ≤ line) && decide (line < w.bound))
      || e.2.plans.any fun p => p.2.swatches.any fun sw =>
          plateOf sw == plate && (mget [] sw p.2.lining).any fun x => decide (x.1 ≤ line) && decide (line < x.1 + 512 * x.2)).map (·.1)

/-- Record an uncorrectable Lining error: the poison bit, LNG_UE_ADDR, the counters, EV_LNG_UE, also for the partition in whose allocation the
line lies (R232). -/
def Chip.lngUe (s : Chip) (plate line : Nat) : Chip :=
  let s := s.updLining plate fun l =>
    { l with
      poison := sinsert line l.poison
      ue := l.ue.filter fun k => k / 16 != line
      ueCount := l.ueCount + 1
      ueAddr := if l.ueAddr.valid then l.ueAddr else { valid := true, a := line } }
  match s.lineOwner plate line with
  | some p => (s.updCnt p fun c => { c with lngUe := c.lngUe + 1 }).raiseBoth p 6 3 (some plate) none line
  | none => s.raiseDev 3 none (some plate) none line

/-- Record the corrected errors of a line, one for each pair (R232). -/
def Chip.lngCe (s : Chip) (plate line : Nat) : Chip :=
  let n := BitVec.ofNat 16 (linePairs line (s.lining plate).ce).length
  let s := s.updLining plate fun l => { l with ce := l.ce.filter fun k => k / 16 != line, ceCount := l.ceCount + n }
  match s.lineOwner plate line with
  | some p => s.updCnt p fun c => { c with lngCe := c.lngCe + n }
  | none => s

/-- A line is read: its pairs with correctable errors are corrected, and the first read of an uncorrectable one poisons it (R232). Answers
whether something was corrected. -/
def Chip.senseLine (s : Chip) (plate line : Nat) : Chip × Bool :=
  let fixed := !(linePairs line (s.lining plate).ce).isEmpty
  let s := if fixed then s.lngCe plate line else s
  let l := s.lining plate
  (if !l.poison.contains line && !(linePairs line l.ue).isEmpty then s.lngUe plate line else s, fixed)

/-- Read a line for a beat: rows, poison, and whether a correctable error was found. -/
def Chip.readLine (s : Chip) (plate line : Nat) : Chip × List Row × Bool × Bool :=
  let (s, fixed) := (s.settleLining plate).senseLine plate line
  (s, s.lineRows plate line, (s.lining plate).poison.contains line, fixed)

/-- The plan cycles from `now` on in which a port holds more than 64 beats, and by how many (R230). -/
def beatDemand (now : Nat) (beats : List (Nat × Nat)) : List (Nat × Nat) :=
  let till := beats.foldl (fun m b => max m b.2) now
  ((List.range (till - now)).map fun k => (now + k, (beats.filter fun b => decide (now + k < b.2)).length - 64)).filter fun d => d.2 != 0

/-- A beat of a panel's port in plan cycle `now`, outstanding until a plan cycle: the cells of an octet share the beat of their direction. Beats beyond
64 are items beyond the bound (R230, R115). A beat is known by 2 × its cycle + its direction. -/
def Chip.noteBeat (s : Chip) (r : Run) (p now until_ : Nat) (write : Bool) (bundle : Nat) : Chip :=
  let key := 2 * now + if write then 1 else 0
  let live := (s.panel p).beats.filter fun b => decide (now < b.2)
  let beats := if live.any fun b => b.1 == key then live else live ++ [(key, until_)]
  (s.updPanel p fun pn => { pn with beats := beats }).overflow r.id (beatDemand now beats) (64 * p) bundle

/-- The cells whose next beat comes first among an issuer's cells of one panel, with their units: ganged, the cells of one
octet; loose, the one cell. -/
def Chip.beatUnits (s : Chip) (i : Issuer) (panel : BitVec 3) (want : SpoolUnit → Bool) : List (Nat × SpoolUnit) :=
  let cells := match i.cell with
    | some c => [cellNo i.sw.toNat c.toNat]
    | none => panelCells (i.sw.toNat * 8 + panel.toNat)
  let us := cells.filterMap fun cn =>
    ((s.cell cn).units.find? fun u => u.run == i.run && u.kind.rows == 4 && want u).map fun u => (cn, u)
  match us with
  | [] => []
  | x :: rest =>
    let first := rest.foldl (fun d y => min d y.2.due) x.2.due
    us.filter fun y => y.2.due == first

/-- The units of a read beat take their lines; with whether a correction holds the port. -/
def Chip.readBeats (s : Chip) (plate due : Nat) (us : List (Nat × SpoolUnit)) : Chip × Bool :=
  us.foldl (fun acc cu =>
    let (t, held) := acc
    let (t, rows, poison, ce) := t.readLine plate (lineOf cu.2.addr)
    let u := { cu.2 with
      data := rows, poison := List.replicate 4 poison, stage := .returning, due := due + 22
      origin := mfind (lineOf cu.2.addr) (t.lining plate).origin }
    (t.setUnit cu.1 u, held || ce)) (s, false)

/-- LINING_READ_BEAT: one beat of the port's read direction takes a line for each cell of an octet; the lines land 22
F-cycles later (R229). A correctable error holds every plan that uses the port for 6 F-cycles (R232). -/
def liningReadBeat (i : Issuer) (panel : BitVec 3) (s : Chip) : Chip :=
  match s.beatUnits i panel fun u => u.kind.isRead && u.stage == .going with
  | [] => s
  | (cn0, u0) :: rest =>
    s.atCycle i.run u0.due fun t =>
      match t.run? i.run with
      | none => t
      | some r =>
        let (t, held) := t.readBeats (plateOf i.sw.toNat) u0.due ((cn0, u0) :: rest)
        let t := t.noteBeat r (panelOf cn0) u0.due (u0.due + 22) false (t.unitBundle cn0 u0)
        if held then t.stall r.id 6 cn0 (t.unitBundle cn0 u0) else t

/-- The lines that units have read land in their rows. -/
def Chip.landLines (s : Chip) (r : Run) (us : List (Nat × SpoolUnit)) : Chip :=
  us.foldl (fun t cu =>
    match mfind cu.2.thread (t.cell cu.1).threads with
    | none => t
    | some th =>
      let t := (th.rowsOf cu.2.k).zipIdx.foldl (fun t rj =>
        t.writePad r cu.1 rj.1 cu.2.due 1 (BitVec.allOnes 8) ((cu.2.data[rj.2]?).getD 0) ((cu.2.poison[rj.2]?).getD false) th.bundle
          cu.2.origin) t
      t.settleUnit r cu.1 cu.2 (cu.2.due + 1)) s

/-- LINING_LINE_LAND: the lines of a read beat land in the rows of their cells' rings at the end of the beat plus 22, one wide
access each (R229, R251). -/
def liningLineLand (i : Issuer) (panel : BitVec 3) (s : Chip) : Chip :=
  match s.beatUnits i panel fun u => u.kind.isRead && u.stage == .returning with
  | [] => s
  | (cn0, u0) :: rest =>
    s.atCycle i.run u0.due fun t =>
      match t.run? i.run with
      | none => t
      | some r =>
        t.landLines r ((cn0, u0) :: rest)

/-- The units of a write beat read their rows, which are on their way to their lines. -/
def Chip.writeBeats (s : Chip) (plate : Nat) (r : Run) (due : Nat) (us : List (Nat × SpoolUnit)) : Chip :=
  us.foldl (fun t cu =>
    match mfind cu.2.thread (t.cell cu.1).threads with
    | none => t
    | some th =>
      let (t, rows, ps) := t.readRows r cu.1 due th.bundle (th.rowsOf cu.2.k)
      let x : LngLand := {
        run := r.id, due := due + 16, cell := cu.1, thread := cu.2.thread, line := lineOf cu.2.addr, rows := rows, poison := ps.any id
        origin := ((t.cell cu.1).pad.settle due).originOf (th.rowsOf cu.2.k) }
      (t.updLining plate fun l => { l with lands := l.lands ++ [x] }).settleUnit r cu.1 cu.2 (due + 16)) s

/-- LINING_WRITE_BEAT: one beat of the port's write direction reads four rows of each cell of an octet; the lines are visible to
read beats 16 F-cycles later (R229, R237). -/
def liningWriteBeat (i : Issuer) (panel : BitVec 3) (s : Chip) : Chip :=
  match s.beatUnits i panel fun u => !u.kind.isRead && u.stage == .going with
  | [] => s
  | (cn0, u0) :: rest =>
    s.atCycle i.run u0.due fun t =>
      match t.run? i.run with
      | none => t
      | some r =>
        let t := (t.settleLining (plateOf i.sw.toNat)).writeBeats (plateOf i.sw.toNat) r u0.due ((cn0, u0) :: rest)
        t.noteBeat r (panelOf cn0) u0.due (u0.due + 16) true (t.unitBundle cn0 u0)

/-- LINING_PATROL_SCRUB: every line of the plate is visited once in 2^26 A-ticks; correctable errors are corrected without a hold,
an uncorrectable one poisons its line (R232). -/
def liningPatrolScrub (plate : BitVec 3) (s : Chip) : Chip :=
  let p := plate.toNat
  let s := s.settleLining p
  let lines := (((s.lining p).ce ++ (s.lining p).ue).map (· / 16)).eraseDups
  let s := lines.foldl (fun (t : Chip) line => (t.senseLine p line).1) s
  s.updLining p fun l => { l with scrubbedAt := s.aTick }

end Sys2Proof.Machine
end

