-- ==== Sys2Proof/Machine/Hbm.lean ====
section
/-! DEFINITION. The HBM stacks: slots, service, adders, errors, poison, retirement (R269 to R293). -/

namespace Sys2Proof.Machine

/-! ### Atoms, errors and poison (R270, R281, R282) -/

/-- The atoms of a stack that n bytes from a stack offset overlap (R270). -/
def atomsOf (off n : Nat) : List Nat :=
  if n = 0 then []
  else
    let atom := fun (x : Nat) => 9 * (x / 576) + x % 576 / 64
    let first := atom off
    (List.range (atom (off + n - 1) - first + 1)).map (first + ·)

/-- Count a correctable error of a page; the event at the threshold (R283). -/
def Chip.pageCe (s : Chip) (h page : Nat) : Chip :=
  let st := s.stack h
  let now := s.aTick
  let old := (st.cePages.find? fun e => e.1 == page).getD (page, 0, now)
  let old := if 2 ^ st.threshWindow < now - old.2.2 then (page, 0, now) else old
  let n := old.2.1 + 1
  let rest := st.cePages.filter fun e => e.1 != page
  if st.threshCount != 0 && decide (st.threshCount ≤ n) then
    let s := s.updStack h fun x =>
      { x with
        cePages := rest
        cePage := if x.cePage.valid then x.cePage else { valid := true, a := page } }
    s.raiseDev 10 none (some h) none page
  else s.updStack h fun x => { x with cePages := ((page, n, old.2.2) :: rest).take 1024 }

/-- The partition whose buffer holds a device physical address. -/
def Chip.ownerOf (s : Chip) (addr : Nat) : Option Nat :=
  (s.bufs.find? fun e => e.2.live && e.2.view.isNone && decide (e.2.addr ≤ addr) && decide (addr < e.2.addr + 576 * e.2.bolts)).map
    fun e => e.2.part

/-- A controller read of an atom meets a corrected error (R281). -/
def Chip.atomCe (s : Chip) (h atom : Nat) : Chip :=
  let off := atom / 9 * 576 + atom % 9 * 64
  let s := s.updStack h fun x => { x with ce := x.ce + 1, ceAtoms := sremove atom x.ceAtoms }
  let s := match s.ownerOf (h * 0x1000000000 + off) with
    | some p => s.updCnt p fun c => { c with hbmCe := c.hbmCe + 1 }
    | none => s
  s.pageCe h (off / 65536)

/-- A controller read of an atom meets an uncorrectable error: the atom is poisoned and EV_UE raised (R281). -/
def Chip.atomUe (s : Chip) (h atom : Nat) : Chip :=
  let off := atom / 9 * 576 + atom % 9 * 64
  let s := s.updStack h fun x =>
    { x with
      ue := x.ue + 1
      ueAtoms := sremove atom x.ueAtoms
      poison := sinsert atom x.poison
      ueAddr := if x.ueAddr.valid then x.ueAddr else { valid := true, a := off } }
  match s.ownerOf (h * 0x1000000000 + off) with
  | some p => (s.updCnt p fun c => { c with hbmUe := c.hbmUe + 1 }).raiseBoth p 7 4 (some h) none off
  | none => s.raiseDev 4 none (some h) none off

/-- A controller read of bytes of a stack: injected and waiting errors take effect (R281, R296). -/
def Chip.touchAtoms (s : Chip) (h off n : Nat) : Chip :=
  (atomsOf off n).foldl (fun t atom =>
    let st := t.stack h
    let hit := st.injArmed && st.injAtom == atom
    let t := if hit then t.updStack h fun x => { x with injArmed := false } else t
    let ue := st.ueAtoms.contains atom || (hit && st.injKind == 2)
    let ce := st.ceAtoms.contains atom || (hit && st.injKind == 1)
    if st.poison.contains atom then t
    else if ue then t.atomUe h atom
    else if ce then t.atomCe h atom
    else t) s

/-- Bytes of a stack overlap a poisoned atom. -/
def Chip.poisoned (s : Chip) (h off n : Nat) : Bool := (atomsOf off n).any fun x => (s.stack h).poison.contains x

/-- The poison of the atoms of a range is set by rows that overlap them, and cleared in the atoms written wholly (R281, R282). -/
def Chip.markAtoms (s : Chip) (h off n : Nat) (bad : List Nat) : Chip :=
  let whole := (atomsOf off n).filter fun a =>
    let b := a / 9 * 576 + a % 9 * 64
    decide (off ≤ b) && decide (b + 64 ≤ off + n)
  s.updStack h fun x =>
    { x with
      poison := bad.foldl (fun l a => sinsert a l) (x.poison.filter fun a => !whole.contains a)
      ceAtoms := x.ceAtoms.filter fun a => !whole.contains a
      ueAtoms := x.ueAtoms.filter fun a => !whole.contains a }

/-- The Collar reads bytes of control memory: errors of the backing atoms take effect, and an uncorrectable one poisons the cache
line (R564). Lines are numbered as the atoms of a stack of their own. -/
def Chip.touchControl (s : Chip) (a n : Nat) : Chip :=
  (atomsOf (a - controlBase) n).foldl (fun (t : Chip) line =>
    let y := 64 * line
    let h := y / 4096 % 8
    let off := (t.stack h).backing y
    let t := t.touchAtoms h off 1
    if t.poisoned h off 1 then t.updStack 10 fun x => { x with poison := sinsert line x.poison } else t) s

/-- Bytes of control memory are written: lines written wholly lose their poison. -/
def Chip.markControl (s : Chip) (a n : Nat) : Chip :=
  let off := a - controlBase
  let s := s.markAtoms 10 off n []
  s.clearBacking fun k => decide (off ≤ 64 * k) && decide (64 * k + 64 ≤ off + n)

/-- Where an atom of a stack lies in the DRAM (Table 10.1). -/
structure AtomPlace where
  channel : Nat
  pseudo : Nat
  column : Nat
  bankGroup : Nat
  bank : Nat
  stackId : Nat
  row : Nat
deriving DecidableEq, Repr

/-- The placement of atom n (Table 10.1). The two bursts of an atom lie on its one pseudo-channel; no timing depends on it (R273). -/
def atomPlace (n : Nat) : AtomPlace :=
  let m := n / 64
  { channel := n % 64 / 2, pseudo := n % 2, column := m % 16, bankGroup := m / 16 % 4, bank := m / 64 % 4
    stackId := m / 256 % 3, row := m / 256 / 3 }

/-! ### Bolts -/

/-- The sixteen rows of a bolt (R71). -/
def Chip.boltRows (s : Chip) (addr : Nat) : List Row :=
  (List.range 16).map fun r => rowOfBytes (memReadN s.mem (addr + 36 * r) 36)

/-- Write a bolt's rows. -/
def Chip.writeBolt (s : Chip) (addr : Nat) (rows : List Row) (poison : List Bool) : Chip :=
  let s := { s with mem := memWriteN s.mem addr (rows.flatMap rowBytes) }
  let h := stackOf addr
  let off := addr % 0x1000000000
  let bad := poison.zipIdx.flatMap fun p => if p.1 then atomsOf (off + 36 * p.2) 36 else []
  s.markAtoms h off 576 bad

/-- One container added: M36 whole, M18 by halves (R277). -/
def addContainer (m : Modulus) (a b : W36) : W36 :=
  if m.m18 then
    BitVec.ofNat 36 (m.add (a.toNat % 2 ^ 18) (b.toNat % 2 ^ 18) + m.add (a.toNat / 2 ^ 18) (b.toNat / 2 ^ 18) * 2 ^ 18)
  else BitVec.ofNat 36 (m.add a.toNat b.toNat)

/-- A bolt of rows added to a bolt of memory: modular, or 72 little-endian 64-bit words (R277). -/
def addRows (integer : Bool) (m : Modulus) (old new : List Row) : List Row :=
  if integer then
    let w := fun (rows : List Row) => leNat (rows.flatMap rowBytes)
    let a := w old
    let b := w new
    let bytes := (List.range 72).flatMap fun i => natLE 8 (bits a (64 * i) 64 + bits b (64 * i) 64)
    (List.range 16).map fun r => rowOfBytes ((bytes.drop (36 * r)).take 36)
  else (old.zip new).map fun x => rowOf ((containers x.1).zip (containers x.2) |>.map fun y => addContainer m y.1 y.2)

/-- The accumulate-write of one bolt; poison of the data rows and of the target atoms stays with the rows they overlap (R277, R282). -/
def Chip.addBolt (s : Chip) (addr : Nat) (integer : Bool) (m : Modulus) (rows : List Row) (poison : List Bool) : Chip :=
  let h := stackOf addr
  let off := addr % 0x1000000000
  let s := s.touchAtoms h off 576
  let old := s.boltRows addr
  let pois := (List.range 16).map fun r => (poison[r]?).getD false || s.poisoned h (off + 36 * r) 36
  s.writeBolt addr (addRows integer m old rows) pois

/-! ### Slots (R271, R273) -/

/-- Slots of a frame of f F-cycles with n slots at a frame position. -/
def slotsAt (n f pos : Nat) : Nat := ((List.range n).filter fun j => f * j / n == pos).length

/-- The next slot at or after plan cycle x, when `last` is the plan cycle of the last slot taken and `used` the slots taken in it. -/
def nextSlot (n f last used x : Nat) : Option Nat :=
  if n = 0 then none
  else if x ≤ last && used < slotsAt n f (last % f) then some last
  else
    let from_ := if used = 0 then x else max x (last + 1)
    ((List.range (f + 1)).map (from_ + ·)).find? fun c => slotsAt n f (c % f) != 0

/-- Take the next slot of a class of a run at or after x: the run with the slot noted, and the cycle. The frames are counted in the plan's own
plan cycles (R271, R300). -/
def Run.takeSlot (r : Run) (key n f x : Nat) : Option (Run × Nat) :=
  let (last, used) := mget (0, 0) key r.slots
  match nextSlot n f last used (x - r.base) with
  | none => none
  | some c => some ({ r with slots := mput key (c, if c = last then used + 1 else 1) r.slots }, r.at c)

/-! ### Arrival (R272, R286) -/

/-- The class of a unit's request (R272). -/
def SpoolUnit.cls (u : SpoolUnit) : SlotClass := if u.remote then .remote else if u.kind.isRead then .read else .write

/-- The operation of a unit's request. -/
def SpoolUnit.op (u : SpoolUnit) : HbmOp :=
  match u.kind with
  | .hbmWrite => .write
  | .hbmAdd => .add
  | .tackRead => .tack
  | _ => .read

/-- The requests on their way to a stack: cell and unit, the first by arrival and then by cell number (R272). -/
def Chip.arrivals (s : Chip) (run h : Nat) : List (Nat × SpoolUnit) :=
  s.cells.flatMap fun e => (e.2.units.filter fun u =>
    u.run == run && u.stage == .going && !u.fabric && u.kind.rows != 4 && stackOf u.addr == h).map fun u => (e.1, u)

/-- The earliest of a list of requests; ties to the first listed. -/
def earliest : List (Nat × SpoolUnit) → Option (Nat × SpoolUnit)
  | [] => none
  | x :: rest => match earliest rest with
    | none => some x
    | some y => if y.2.due < x.2.due then some y else some x

/-- The request of a unit as it stands in the stack's queue. -/
def Chip.requestOf (s : Chip) (r : Run) (cn : Nat) (u : SpoolUnit) : HbmReq :=
  let entry := (((mfind u.thread (s.cell cn).threads).map fun t => t.d.entry).getD 0)
  { part := r.part, run := some r.id, cell := cn, thread := u.thread, k := u.k, op := u.op, cls := u.cls, addr := u.addr
    arrived := u.due, hop := u.hop, data := u.data, poison := u.poison
    modulus := Modulus.ofEntry (mget 0 (entry % 1024) (s.swatch (swatchOf cn)).table.entries), integer := bit entry 15 }

/-- HBM_REQUEST_ARRIVE: the next request of a run on its way to a stack reaches the controller and joins its class queue (R272). Requests
beyond the partition's share of the queue, or beyond the bound of the stack, hold the plan as long as they lie beyond it; a plan that has no slot of the
class is held without end once its share is full (R114, R115, R286, R293). The package totals of R114 are those of eight stacks and 32 768 cells. -/
def hbmRequestArrive (run : Nat) (stack : BitVec 3) (s : Chip) : Chip :=
  let h := stack.toNat
  match earliest (s.arrivals run h) with
  | none => s
  | some (cn, u) =>
    s.atCycle run u.due fun t =>
      match t.run? run with
      | none => t
      | some r =>
        let q := t.requestOf r cn u
        let t := (t.setUnit cn { u with stage := .queued }).updStack h fun x => { x with queue := x.queue ++ [q] }
        let w : Watch := .queue h q.cls.code q.op.code
        if r.plan.stackUnits q.cls.code h = 0 then
          let full := ((t.stack h).queue.filter fun x => x.part == r.part && x.cls == q.cls && x.op == q.op).length
          if full < t.queueShare r.part h q.cls.code q.op.code then t
          else t.updRun run fun r => { r with wall := some (min r.cycle (r.wall.getD r.cycle)) }
        else t.watch run w cn (t.unitBundle cn u)

/-! ### Service (R272 to R277) -/

/-- The data of a read of n bytes for rows of 36 or a record of 32: rows with their poison (R281). -/
def Chip.serveRead (s : Chip) (q : HbmReq) : Chip × List Row × List Bool :=
  let h := stackOf q.addr
  let off := q.addr % 0x1000000000
  match q.op with
  | .tack =>
    let s := s.touchAtoms h off 32
    (s, [tackRow (memReadN s.mem q.addr 32)], [s.poisoned h off 32])
  | _ =>
    let s := s.touchAtoms h off 576
    (s, s.boltRows q.addr, (List.range 16).map fun r => s.poisoned h (off + 36 * r) 36)

/-- The unit of a request. -/
def Chip.unitOfReq (s : Chip) (q : HbmReq) : Option SpoolUnit :=
  (s.cell q.cell).units.find? fun u => some u.run == q.run && u.thread == q.thread && u.k == q.k

/-- A read request is served in plan cycle c: its data is on the way back (Table 10.3). -/
def Chip.finishRead (s : Chip) (q : HbmReq) (c : Nat) : Chip :=
  let (s, rows, ps) := s.serveRead q
  match s.unitOfReq q with
  | none => s
  | some u =>
    let a := c + (if q.op == .tack then 264 else 256) + q.hop
    s.setUnit q.cell { u with stage := .returning, due := a, data := rows, poison := ps }

/-- A write or add is accepted in plan cycle c: the memory takes it and the unit ends (R249, R274). -/
def Chip.finishWrite (s : Chip) (q : HbmReq) (c : Nat) : Chip :=
  let s := match q.op with
    | .add => s.addBolt q.addr q.integer q.modulus q.data q.poison
    | _ => s.writeBolt q.addr q.data q.poison
  match q.run with
  | none => s
  | some id =>
    match s.run? id, s.unitOfReq q with
    | some r, some u => (s.dropUnit q.cell u).unitMoved r q.cell q.thread c (r.countsCell q.cell)
    | _, _ => s

/-- Remove the request at a place of a stack's queue. -/
def Chip.unqueue (s : Chip) (h idx : Nat) : Chip := s.updStack h fun x => { x with queue := x.queue.eraseIdx idx }

/-- Serve the request at a place of the queue in plan cycle c. An add takes two slots of its class and is accepted in the second. -/
def Chip.serveAt (s : Chip) (h idx c : Nat) : Chip :=
  match (s.stack h).queue[idx]? with
  | none => s
  | some q =>
    match q.op with
    | .add =>
      if q.first.isNone then s.updStack h fun x => { x with queue := lset x.queue idx { q with first := some c } }
      else (s.unqueue h idx).finishWrite q c
    | .write => (s.unqueue h idx).finishWrite q c
    | _ => (s.unqueue h idx).finishRead q c

/-- A slot that serves a tack record serves up to four more of the plan that follow it directly in its order within the class
and have arrived (R275). -/
def Chip.serveTacks (s : Chip) (h c : Nat) (mine : HbmReq → Bool) : Nat → Chip
  | 0 => s
  | n + 1 =>
    match (s.stack h).queue.findIdx? mine with
    | none => s
    | some idx =>
      match (s.stack h).queue[idx]? with
      | some q => if q.op == .tack && decide (q.arrived ≤ c) then (s.serveAt h idx c).serveTacks h c mine n else s
      | none => s

/-- A request from another package whose turn it is: no earlier posted packet of its source on its link waits for its stack (R333). -/
def Chip.inTurn (s : Chip) (q : HbmReq) : Bool :=
  match q.origin with
  | none => false
  | some o =>
    match ((s.link o.link).arrivals.filter fun a => a.id.srcPkg == o.srcPkg && a.id.srcPart == o.srcPart).head? with
    | some a => a.id == o
    | none => true

/-- An arrival slot of a partition on a stack serves its oldest request from another package whose turn it is. The slots are counted in F-cycles of
the stack's plate (R332, R364). -/
def Chip.serveArrival (s : Chip) (h p : Nat) : Chip :=
  let f := mget {} h (s.part p).arrivals
  let mine := fun (q : HbmReq) => q.run.isNone && q.part == p && s.inTurn q
  match (s.stack h).queue.findIdx? mine with
  | none => s
  | some idx =>
    match (s.stack h).queue[idx]? with
    | none => s
    | some q =>
      match nextSlot (11 * (f.grant - f.use)) 512 f.last f.used (cdiv (max q.arrived (q.first.getD 0) - f.since) s.fUnit) with
      | none => s
      | some c =>
        let at_ := f.since + c * s.fUnit
        let t := if s.time < at_ then s.advance (at_ - s.time) else s
        (t.updPart p fun y => { y with arrivals := mput h { f with last := c, used := if c = f.last then f.used + 1 else 1 } y.arrivals }).serveAt h idx at_

/-- HBM_SLOT_SERVE: a slot serves the oldest request of its plan and class at or after the request's arrival (R272). Arrival slots
serve the partition's requests from other packages in its remote class (R364), and slots that no partition holds the requests
that a stopped plan left (R262, R280). -/
def hbmSlotServe (stack : BitVec 3) (owner : SlotOwner) (cls : SlotClass) (s : Chip) : Chip :=
  let h := stack.toNat
  match owner with
  | .run id =>
    let mine := fun (q : HbmReq) => q.run == some id && q.cls == cls
    match s.run? id, (s.stack h).queue.findIdx? mine with
    | some r, some idx =>
      match (s.stack h).queue[idx]? with
      | none => s
      | some q =>
        match r.takeSlot (resKey cls.code h) (11 * r.plan.stackUnits cls.code h) 512 (max q.arrived (q.first.getD 0)) with
        | none => s
        | some (r', c) =>
          s.atCycle id c fun t =>
            let t := t.updRun id fun r => { r with slots := r'.slots }
            if q.op == .tack then t.serveTacks h c mine 5
            else
              match (t.stack h).queue.findIdx? mine with
              | some idx => t.serveAt h idx c
              | none => t
    | _, _ => s
  | .arrival p => s.serveArrival h p
  | .unreserved =>
    match (s.stack h).queue.findIdx? fun q => q.run.isNone && q.origin.isNone with
    | some idx =>
      s.serveAt h idx 0
    | none => s

/-- The next record of a thread on its way back to a cell from control memory. -/
def Chip.nextTack (s : Chip) (i : Issuer) (thread cn : Nat) : Option SpoolUnit :=
  (s.nextBack i thread cn).filter fun u => u.kind == .tackRead && decide (controlBase ≤ u.addr)

/-- A record of control memory reaches a cell: its words are read, and their poison comes with them. -/
def Chip.backTack (s : Chip) (cn : Nat) (u : SpoolUnit) : Chip :=
  let t := s.touchControl u.addr 32
  if t.poisoned 10 (u.addr - controlBase) 32 then t.setUnit cn { u with poison := [true] } else t

/-- CONTROL_TACK_RETURN: the record of control memory that comes back first reaches the cells of the issuer that it is for. It
lands as UNIT_LAND lands it; a record that comes `late` F-cycles after A holds the plan that long (R276). -/
def controlTackReturn (i : Issuer) (thread : BitVec 4) (late : Nat) (s : Chip) : Chip :=
  let back := fun cn => s.nextTack i thread.toNat cn
  match (i.cells.filterMap fun cn => (back cn).map (·.due)).min? with
  | none => s
  | some d =>
    unitLand i thread (s.atCycle i.run d fun t =>
      let t := i.cells.foldl (fun (t : Chip) cn =>
        match back cn with
        | some u => if u.due = d then t.backTack cn u else t
        | none => t) t
      match i.cells.findSome? fun cn => (back cn).bind fun u => if u.due = d then some (cn, u) else none with
      | some (cn, u) => t.stall i.run late cn (t.unitBundle cn u)
      | none => t)

end Sys2Proof.Machine
end

