-- ==== Sys2Proof/Machine/Weave.lean ====
section
/-! DEFINITION. Weave transfers and their flits on the Seam (R99, R101, R102, R105, R298 to R303, R307). -/

namespace Sys2Proof.Machine

/-- The gateway's slots of a plan on a virtual link: slots of a frame and its length in the port's present mode. Units are full-width units, and
those of a Fray port count twice (R300, R361). -/
def Chip.linkFrame (s : Chip) (r : Run) (v : Nat) : Nat × Nat :=
  match r.plan.seam[v]? with
  | some l =>
    let pa := r.plan.plate l.a
    let port := if l.kind = 1 then 0 else portTo pa (r.plan.plate l.b)
    let fray := (s.seam (portKey pa port)).mode == 1
    if fray then (18 * r.plan.units 4 v, 1024) else (9 * r.plan.units 4 v, 512)
  | none => (0, 512)

/-- The rows of a transfer in a cell as they stand under its ATASK: the first physical row and the rows from there to the bound of the task, none for
a row that is no multiple of 4 (R101, R137). -/
def Chip.weaveRows (s : Chip) (cn row : Nat) : Nat × Nat :=
  let t := (s.cell cn).scr.task
  (t.padBase + row, if row % 4 = 0 then t.padBound - t.padBase - row else 0)

/-- A transfer that a run keeps: words of it are still to land, or it may still hold a link that another meets (R102). -/
def Run.keepsMove (r : Run) (now : Nat) (m : WeaveMove) : Bool :=
  decide (m.landed < r.words m) || decide (now ≤ m.issued + r.words m + 32)

/-- Sync WEAVE: the entry starts when the swatch that holds its source issues it, in loose execution when the source cell does, and takes its rows
under ATASK as it stands (R101, R137). A link on which the plan holds no slot holds the plan once its 256 credits are gone (R115, R321). -/
def syncWeave (i : Issuer) (entry : BitVec 12) (s : Chip) : Chip :=
  s.issue i fun k t =>
    match k.r.weaveEntry entry.toNat with
    | none => t
    | some e =>
      let src := k.r.plan.cellOf e.src
      let mine := swatchOf src == i.sw.toNat && (i.cell.map (·.toNat)).all fun c => c == src % 512
      if !mine || e.words = 0 then t
      else
        let from_ := t.weaveRows src e.srow
        let to_ := t.weaveRows (k.r.plan.cellOf e.dst) e.drow
        let m : WeaveMove := {
          entry := entry.toNat, bundle := k.bundle, issued := k.now
          src := from_.1, srcRoom := from_.2, dst := to_.1, dstRoom := to_.2 }
        let wall := if e.route = 2 && (t.linkFrame k.r e.vlink).1 = 0 && 256 < k.r.waitingFlits e.vlink k.now + e.words then
            some (k.now + 9 + 256 - k.r.waitingFlits e.vlink k.now) else none
        t.updRun k.r.id fun r =>
          { r with
            weaves := r.weaves.filter (r.keepsMove k.now) ++ [m]
            wall := match r.wall, wall with
              | none, w => w
              | w, none => w
              | some a, some b => some (min a b) }

/-- Write word w of a transfer into its destination rows at the end of a plan cycle. Table 8.2 does not list the Weave: it takes the Yoke's
order. -/
def Chip.weaveWrite (s : Chip) (r : Run) (e : WeaveEntry) (m : WeaveMove) (w due : Nat) (rows : List Row) (ps : List Bool) : Chip :=
  s.writeRows r (r.plan.cellOf e.dst) (m.dst + 4 * w) due 2 (rows.zip ps) m.bundle

/-! ### Flits that meet at a gateway's link down to a panel (R102) -/

/-- The port at the sending plate of a Seam transfer: the sender is the plate of the source (R101). -/
def Chip.flitPort (r : Run) (e : WeaveEntry) : Nat :=
  let a := plateOf (swatchOf (r.plan.cellOf e.src))
  let b := plateOf (swatchOf (r.plan.cellOf e.dst))
  portKey a (portTo a b)

/-- The port at the other end of a ring port, which receives what that port sends. -/
def receiverOf (key : Nat) : Nat :=
  match seamPeer (key / 4) (key % 4) with
  | some y => portKey y.1 y.2
  | none => key

/-- The latency λ of the port that a Seam transfer departs from, in its present mode (Table 11.1). -/
def Chip.lambda (s : Chip) (r : Run) (e : WeaveEntry) : Nat := if (s.seam (Chip.flitPort r e)).mode == 1 then 26 else 18

/-- The express link down to the panel of a cell. -/
def downLink (cn : Nat) : Nat :=
  let (pl, w, p) := meshAt cn
  linkId pl w p 5

/-- The place of a transfer in the order in which the transfers of a partition start, on the cycle scale of run r (R102; log entry 72). -/
def Chip.startKey (s : Chip) (r x : Run) (entry issued : Nat) : Nat × Nat × Nat :=
  (issued + r.cycle - x.cycle, (s.runs.findIdx? fun y => y.id == x.id).getD 0,
    (x.weaves.findIdx? fun m => m.entry == entry && m.issued == issued).getD 0)

/-- One place comes before another. -/
def startsBefore (a b : Nat × Nat × Nat) : Bool :=
  decide (a.1 < b.1) || (a.1 == b.1 && (decide (a.2.1 < b.2.1) || (a.2.1 == b.2.1 && decide (a.2.2 < b.2.2))))

/-- A Seam flit of a transfer that started before a place comes to the express link down to a cell's panel in a cycle of run r. -/
def Chip.seamMeets (s : Chip) (r : Run) (cn c : Nat) (key : Nat × Nat × Nat) : Bool :=
  s.runs.any fun x => x.part == r.part && x.flits.any fun f =>
    match x.weaveEntry f.entry, f.departed with
    | some e, some d =>
      downLink (x.plan.cellOf e.dst) == downLink cn && d + s.lambda x e + r.cycle - x.cycle == c
        && startsBefore (s.startKey r x f.entry f.issued) key
    | _, _ => false

/-- A word of an express transfer that started before a place comes to the express link down to a cell's panel in a cycle of run r, ten F-cycles
after its read. -/
def Chip.expressMeets (s : Chip) (r : Run) (cn c : Nat) (key : Nat × Nat × Nat) : Bool :=
  s.runs.any fun x => x.part == r.part && x.weaves.zipIdx.any fun m =>
    match x.weaveEntry m.1.entry with
    | some e =>
      let at_ := c + x.cycle - r.cycle
      let w := at_ - (m.1.issued + 11)
      e.route == 1 && downLink (x.plan.cellOf e.dst) == downLink cn && decide (m.1.issued + 11 ≤ at_) && decide (w < e.words)
        && startsBefore (s.startKey r x m.1.entry m.1.issued) key && s.weaveWins x m.2 w
    | none => false

/-! ### Mesh and express flits, and flits that land (R101) -/

/-- The next word of a mesh or express transfer at a place of a run's list: it is read in I + 1 + w and lands at the end of I + 1 + w + L, or is
dropped where an earlier transfer takes a link (R101, R102). -/
def Chip.landWord (s : Chip) (r : Run) (idx : Nat) (e : WeaveEntry) (m : WeaveMove) : Chip :=
  let w := m.landed
  let src := r.plan.cellOf e.src
  let dst := r.plan.cellOf e.dst
  let passed := s.updMove r.id idx fun m => { m with landed := w + 1, sent := w + 1, read := w + 1 }
  match m.outside src dst w with
  | some cn => s.faultAt r.id (m.issued + 1 + w) .bound cn m.bundle
  | none =>
    let lost := e.route == 1 && s.seamMeets r dst (m.issued + 11 + w) (s.startKey r r m.entry m.issued)
    if lost || !s.weaveWins r idx w then passed.weaveDrop r src m.bundle
    else
      let (t, rows, ps) := passed.weaveRead r e m w
      t.weaveWrite r e m w (m.issued + 1 + w + if e.route = 0 then meshLatency src dst else 18) rows ps

/-- The delivered flit of a Seam transfer's next word lands. -/
def Chip.landFlit (s : Chip) (r : Run) (e : WeaveEntry) (f : WeaveFlit) : Chip :=
  let due := f.due.getD 0
  let s := s.updRun r.id fun r => { r with flits := r.flits.filter fun x => x != f }
  match r.weaves.findIdx? fun m => m.entry == f.entry && m.issued == f.issued with
  | none => s
  | some idx =>
    match r.weaves[idx]? with
    | none => s
    | some m => (s.updMove r.id idx fun m => { m with landed := m.landed + 1 }).weaveWrite r e m f.word due f.rows f.poison

/-- WEAVE_FLIT_LAND: the next word of an entry's transfer lands. On a mesh or express route it is read in I + 1 + w and lands at the end
of I + 1 + w + L, or is dropped where an earlier transfer takes a link; on a Seam route the first delivered flit lands (R101, R102). -/
def weaveFlitLand (run : Nat) (entry : BitVec 12) (s : Chip) : Chip :=
  match s.run? run with
  | none => s
  | some r0 =>
    match r0.weaveEntry entry.toNat with
    | none => s
    | some e =>
      if e.route = 2 then
        match r0.flits.find? fun f => f.entry == entry.toNat && f.due.isSome with
        | none => s
        | some f =>
          s.atCycle run (f.due.getD 0) fun t =>
            match t.run? run with
            | some r => t.landFlit r e f
            | none => t
      else
        match r0.weaves.findIdx? fun m => m.entry == entry.toNat && m.landed < r0.words m with
        | none => s
        | some idx =>
          match r0.weaves[idx]? with
          | none => s
          | some m =>
            s.atCycle run (m.issued + 1 + m.landed) fun t =>
              match t.run? run with
              | some r => t.landWord r idx e m
              | none => t

/-! ### Seam flits (R300, R301, R303, R307) -/

/-- The flit of a run that has waited longest for a virtual link, among those that have been read. -/
def Run.departing (r : Run) (v : Nat) : Option WeaveFlit :=
  (r.flits.filter fun f => f.vlink == v && f.departed.isNone).foldl (fun (best : Option WeaveFlit) f =>
    match best with
    | none => some f
    | some b => if f.issued + f.word < b.issued + b.word then some f else best) none

/-- The cycle in which the first word of a run that is still to be read for a virtual link is read. -/
def Run.nextWord (r : Run) (v : Nat) : Option Nat :=
  (r.weaves.filterMap fun m => match r.weaveEntry m.entry with
    | some e => if e.route == 2 && e.vlink == v && m.read < e.words then some (m.issued + 1 + m.read) else none
    | none => none).min?

/-- The flit at the gateway that has waited longest departs in the plan's next data slot on its link. -/
def Chip.departFlit (s : Chip) (run v : Nat) : Chip :=
  match s.run? run with
  | none => s
  | some r =>
    match r.departing v with
    | none => s
    | some f =>
      let (n, len) := s.linkFrame r v
      match r.takeSlot (resKey 4 v) n len (f.issued + 9 + f.word) with
      | none => s
      | some (_, c) =>
        s.atCycle run c fun t =>
          match t.run? run with
          | none => t
          | some r =>
            match r.takeSlot (resKey 4 v) n len (f.issued + 9 + f.word) with
            | none => t
            | some (r', _) => t.updRun run fun r =>
                { r with slots := r'.slots, flits := r.flits.map fun x => if x == f then { x with departed := some c } else x }

/-- SEAM_FLIT_DEPART: the oldest flit that waits for a virtual link departs the gateway in the plan's next data slot (R101, R300). A word that is
still to be read is read first, in its own plan cycle; where it is dropped on its express link nothing departs. Flits beyond the 256
credits hold the plan in every plan cycle in which they wait (R301, R115). -/
def seamFlitDepart (run : Nat) (vlink : BitVec 5) (s : Chip) : Chip :=
  match s.run? run with
  | none => s
  | some r0 =>
    let s := if (r0.departing vlink.toNat).isSome then s else
      match r0.nextWord vlink.toNat with
      | some c => (s.atCycle run c fun t => t.ripeWords run 1)
      | none => s
    (s.departFlit run vlink.toNat).watch run (.credits vlink.toNat) r0.markAt.1 r0.markAt.2

/-- A flit is gone from a run: the word counts as landed. -/
def Chip.flitGone (s : Chip) (r : Run) (f : WeaveFlit) : Chip :=
  let s := s.updRun r.id fun r => { r with flits := r.flits.filter fun x => x != f }
  match r.weaves.findIdx? fun m => m.entry == f.entry && m.issued == f.issued with
  | some idx => s.updMove r.id idx fun m => { m with landed := m.landed + 1 }
  | none => s

/-- SEAM_FLIT_DELIVER: the oldest flit on its way over a virtual link is delivered to the destination gateway λ plan cycles after
its departure, and is to land 8 later (R303, R101). An uncorrectable flit is delivered with its rows poisoned (R299). A flit of
a plan that assumed Full on a port in Fray, or on a port that is down, is discarded (R307); one that meets a flit of an earlier transfer on
the express link down to its panel is dropped (R102). -/
def seamFlitDeliver (run : Nat) (vlink : BitVec 5) (uncorrectable : Bool) (s : Chip) : Chip :=
  match s.run? run with
  | none => s
  | some r0 =>
    match r0.flits.find? fun f => f.vlink == vlink.toNat && f.departed.isSome && f.due.isNone with
    | none => s
    | some f =>
      match r0.weaveEntry f.entry with
      | none => s
      | some e =>
        let key := Chip.flitPort r0 e
        let lam := s.lambda r0 e
        let assumed := ((r0.plan.seam[vlink.toNat]?).map (·.assumed)).getD 0
        let at_ := f.departed.getD 0 + lam
        s.atCycle run at_ fun t =>
          match t.run? run with
          | none => t
          | some r =>
            let mode := (t.seam key).mode
            let dst := r.plan.cellOf e.dst
            if mode == 2 || (mode == 1 && assumed == 0) then
              (t.updSeam key fun p => { p with drop := p.drop + 1 }).flitGone r f
            else
              let t := if uncorrectable then
                  (t.updSeam (receiverOf key) fun p => { p with uncorr := (p.uncorr + 1) % 2 ^ 24 }).raiseDev 15 (some r.part)
                    (some (receiverOf key / 4)) none 0
                else t
              let mine := t.startKey r r f.entry f.issued
              if t.seamMeets r dst at_ mine || t.expressMeets r dst at_ mine then (t.flitGone r f).weaveDrop r dst 0
              else
                t.updRun run fun r =>
                  { r with
                    flits := r.flits.map fun x => if x == f then
                      { x with due := some (at_ + 8), poison := if uncorrectable then x.rows.map fun _ => true else x.poison } else x }

/-! ### The control VC (R105) -/

/-- A control flit of an access to a panel goes into the network of its plate: 16 of a panel are in flight in each direction, and
the others wait at the sender (R105). Direction 0 is toward the panel. -/
def Chip.sendControl (s : Chip) (panel dir : Nat) : Chip :=
  s.updPanel panel fun p => { p with control := mupd 0 dir (· + 1) p.control }

/-- The control flits in flight of a panel in a direction: at most 16 (R105). -/
def Panel.flying (p : Panel) (dir : Nat) : Nat := min 16 (mget 0 dir p.control)

/-- CONTROL_FLIT_DELIVER: a control flit of a panel takes a link cycle without data and reaches its destination; no data flit and no plan's
timing is touched (R105). The effect of the access it carries is that of the command that made the access; a flit that reaches the panel is answered
by one that leaves it. -/
def controlFlitDeliver (panel : BitVec 9) (s : Chip) : Chip :=
  let p := s.panel panel.toNat
  if p.flying 0 != 0 then (s.updPanel panel.toNat fun p => { p with control := mupd 0 0 (· - 1) p.control }).sendControl panel.toNat 1
  else s.updPanel panel.toNat fun p => { p with control := mupd 0 1 (· - 1) p.control }

end Sys2Proof.Machine
end

