-- ==== Sys2Proof/Machine/Tailor.lean ====
section
/-! DEFINITION. The frame of every Tailor call: the common checks of Table 16.3, handles, responses (R442 to R448, R621). -/

namespace Sys2Proof.Machine

/-! ### Common checks -/

/-- What the common checks need to know of a call: the Expert bit, PF0 only, the partition it names, and that the call creates
the partition. -/
structure CallShape where
  expert : Bool := false
  pf0Only : Bool := false
  part : Option Nat := none
  creates : Bool := false

/-- Expert control is available (R13): the lifecycle state and the enable in LDG_POLICY. -/
def Chip.expertOn (s : Chip) : Bool := (s.life == .provisioned || s.life == .deployed) && s.expert

/-- The first of a list of checks that fails, with its number. -/
def firstBad : List (Bool × Status × Nat) → Option (Status × Nat)
  | [] => none
  | (bad, st, n) :: rest => if bad then some (st, n) else firstBad rest

/-- The common checks of Table 16.3, in order, then the range checks of the call (R446, R621). -/
def Chip.common (s : Chip) (c : Call) (k : CallShape) (ranges : List (Bool × Status)) : Option (Status × Nat) :=
  let vf := match c.fn with | .vf n => some n | .pf0 => none
  let named := fun (f : Nat → Bool) => match k.part with | some p => f p | none => false
  firstBad ([
    (decide (112 < c.argLen) || !c.reservedZero, .notSupported, 1),
    (k.expert && vf.isSome, .notOwner, 2),
    (k.expert && !s.expertOn, .lifecycle, 2),
    (vf.isSome && k.pf0Only, .notOwner, 3),
    (named fun p => match vf with | some n => p != n | none => false, .notOwner, 3),
    (named fun p => decide (64 ≤ p), .bound, 4),
    (named fun p => !k.creates && !(s.part p).present, .notOwner, 5),
    (named fun p => (s.part p).resetting, .resetInProgress, 6)] ++ ranges.map fun r => (r.1, r.2, 7))

/-- Serve a call: the common checks, then its own effect. A refused Expert call leaves an error log record (R589). -/
def Chip.call (s : Chip) (c : Call) (code : Nat) (k : CallShape) (ranges : List (Bool × Status))
    (effect : Chip → Chip × Status × Nat × List Nat) : Chip :=
  match s.common c k ranges with
  | some (st, n) =>
    let s := if k.expert && n = 2 then s.logRec st.code 2 k.part none none 0 else s
    s.respond c code st n []
  | none =>
    let (s, st, detail, result) := effect s
    s.respond c code st detail result

/-- A call's effect that only fails with a status. -/
def fails (s : Chip) (st : Status) (detail : Nat := 8) : Chip × Status × Nat × List Nat := (s, st, detail, [])

/-- A call's effect that succeeds. -/
def succeeds (s : Chip) (result : List Nat := []) : Chip × Status × Nat × List Nat := (s, .ok, 0, result)

/-- The partition a function acts for: its own for a VF, any for PF0. -/
def Fn.owns (f : Fn) (p : Nat) : Bool :=
  match f with
  | .pf0 => true
  | .vf n => n == p

/-! ### Handles (R447, R448) -/

/-- The two checks that every call with a handle makes, with their traces: a handle that is not current is counted in
PTN_BUF_STALE, one of another owner leaves a TLR_BUF_LOG record (R448). Handles of PF0 name any owner's buffer. -/
def Chip.checkHandle (s : Chip) (c : Call) (caller code handle : Nat) : Chip × Except Status Buf :=
  match s.bufOf handle with
  | none => (s.updCnt caller fun x => { x with bufStale := x.bufStale + 1 }, .error .staleHandle)
  | some b =>
    if c.fn == .pf0 || b.part == caller then (s, .ok b)
    else
      ({ s with tlr := { s.tlr with
          bufLog := (⟨handle, caller, c.fn == .pf0, code⟩ :: s.tlr.bufLog).take 16
          bufLogHead := s.tlr.bufLogHead + 1 } }, .error .notOwner)

/-- The partition a call speaks for when it names none: its own for a VF, partition 0 for PF0's traces. -/
def Fn.part : Fn → Nat
  | .pf0 => 0
  | .vf n => n

end Sys2Proof.Machine
end

