-- ==== Sys2Proof/Machine/Moduli.lean ====
section
/-! DEFINITION. The Modulus Table's calls and its Expert command path (R43 to R61). -/

namespace Sys2Proof.Machine

/-- Swatches of a partition that run no plan. -/
def Chip.idleSwatches (s : Chip) (p : Nat) : List Nat := (s.swatchesOf p).filter fun sw => (s.runOn sw).isNone

/-- Twiddle sets that no valid entry names any more are unbound, of those whose entry was cleared (Table 2.5). -/
def Chip.sweepTwiddles (s : Chip) (p : Nat) : Chip :=
  let q := s.part p
  let named := fun (t : ModTable) (id : Nat) => t.entries.any fun e => entryValid e.2 && entryBits e.2 228 8 == id
  let kept := fun id => named q.shadow id || named q.master id || (s.swatchesOf p).any fun sw => named (s.swatch sw).table id
  let gone := q.twDrop.filter fun id => !kept id
  let s := s.updPart p fun q =>
    { q with twsets := q.twsets.filter fun t => !gone.contains t.1, twDrop := q.twDrop.filter fun id => !gone.contains id }
  let sets := (s.part p).twsets
  let idle := s.idleSwatches p
  (s.swatchesOf p).foldl (fun t sw => t.updSwatch sw fun w =>
    { w with twShadow := sets, twiddle := if idle.contains sw then sets else w.twiddle }) s

/-- An accepted write of the shadow table: it takes effect at once in the swatches that run no plan (R47, R48). -/
def Chip.writeShadow (s : Chip) (p : Nat) (f : ModTable → ModTable) : Chip :=
  ((((s.keepShadow p).updPart p fun q => { q with shadow := f q.shadow }).takeEffect p).sweepTwiddles p)

/-- The lowest number of a store that is free, below a bound. -/
def lowestFree {α : Type} (m : SMap α) (bound : Nat) : Option Nat := (List.range bound).find? fun i => (mfind i m).isNone

/-- Clear an entry of the shadow table: VALID is cleared and its twiddle set is freed once no valid entry names it (R60). -/
def Chip.clearEntry (s : Chip) (part index : Nat) : Chip :=
  let e := mget 0 index (s.part part).shadow.entries
  if !entryValid e then s
  else
    let id := entryBits e 228 8
    let s := s.updPart part fun p => { p with twDrop := if id = 255 then p.twDrop else sinsert id p.twDrop }
    s.writeShadow part fun t => { t with entries := mput index (clearValid e) t.entries }

/-- The command of TLR_MT_CMD in progress makes its partition checks, then the checks of Table 2.2 from the FMT check on or of R46, then its
write; its status waits for its completion (R61). A reserved OP is found before the partition checks: the spec names no order of the two
(DESIGN CHOICE, log entry 71). -/
def Chip.mtApply (s : Chip) : Chip :=
  let m := s.tlr.mt
  match m.running, m.applied with
  | some op, none =>
    let p := s.part m.runPart
    let (s, st) : Chip × Status :=
      if 5 ≤ op then (s, .notSupported)
      else if !p.present then (s, .notOwner)
      else if p.resetting then (s, .resetInProgress)
      else
        match op with
        | 1 =>
          match checkEntry p.twsets m.runEntry with
          | .ok => (s.writeShadow m.runPart fun t => { t with entries := mput m.runIndex (validEntry m.runEntry) t.entries }, .ok)
          | st => (s, st)
        | 2 => (s.clearEntry m.runPart m.runIndex, .ok)
        | 3 =>
          match p.shadow.checkChain m.runDesc with
          | .ok => (s.writeShadow m.runPart fun t => { t with chains := mput m.runChain m.runDesc t.chains }, .ok)
          | st => (s, st)
        | _ =>
          (if (mfind m.runChain p.shadow.chains).isNone then s
            else s.writeShadow m.runPart fun t => { t with chains := mdel m.runChain t.chains }, .ok)
    { s with tlr := { s.tlr with mt := { s.tlr.mt with applied := some st } } }
  | _, _ => s

/-- A write of a partition's table that arrived earlier through TLR_MT_CMD is accepted first (R50, R443). -/
def Chip.mtEarlier (s : Chip) (part : Nat) : Chip := if s.tlr.mt.runPart = part then s.mtApply else s

/-- A reset of a partition begins while a write through TLR_MT_CMD is in progress: the write returns ST_RESET_IN_PROGRESS and leaves no trace
(R54). -/
def Chip.mtReset (s : Chip) (part : Nat) : Chip :=
  let m := s.tlr.mt
  if m.running.isSome && m.applied.isNone && m.runPart = part && (s.part part).present then
    { s with tlr := { s.tlr with mt := { m with applied := some .resetInProgress } } }
  else s

/-- TC_MODULUS_SET: MU and NINV are computed, ψ = 0 takes the canonical root, a wanted twiddle set is found or generated, and the
entry is written to the shadow table once every check of Table 2.2 has passed (R43, R44). -/
def tcModulusSet (c : Call) (part index q logn fmt psi tw : Nat) (s : Chip) : Chip :=
  (s.mtEarlier part).call c 0x0101 { part := some part } [(decide (1024 ≤ index), .bound)] fun s =>
    let ranged := if q < 2 ^ 36 && psi < 2 ^ 36 then true else false
    if 2 ≤ fmt || 2 ≤ tw then fails s .notSupported
    else if logn < 12 || 17 < logn then fails s .badShape
    else if !ranged || !qInRange q logn (fmt == 1) || !isPrimeMR q then fails s .badModulus
    else
      let mu := 2 ^ (2 * redWidth (fmt == 1)) / q
      let ninv := powMod q (2 ^ logn % q) 40 (q - 2)
      let psi := if psi = 0 then canonicalPsi q logn else psi
      match checkEntryFields fmt logn q mu ninv psi tw with
      | .ok =>
        let sets := (s.part part).twsets
        let found := (sets.find? fun t => t.2 == ⟨q, psi, logn⟩).map (·.1)
        match tw, found, lowestFree sets 255 with
        | 0, _, _ =>
          succeeds (s.writeShadow part fun t => { t with entries := mput index (entryWord q mu ninv psi 255 logn fmt true) t.entries }) [255]
        | _, some id, _ =>
          succeeds (s.writeShadow part fun t => { t with entries := mput index (entryWord q mu ninv psi id logn fmt true) t.entries }) [id]
        | _, none, some id =>
          if 128 ≤ sets.length then fails s .overcommit
          else
            let s := s.updPart part fun p => { p with twsets := mput id ⟨q, psi, logn⟩ p.twsets }
            succeeds (s.writeShadow part fun t => { t with entries := mput index (entryWord q mu ninv psi id logn fmt true) t.entries }) [id]
        | _, none, none => fails s .overcommit
      | st => fails s st

/-- TC_MODULUS_CLEAR. -/
def tcModulusClear (c : Call) (part index : Nat) (s : Chip) : Chip :=
  (s.mtEarlier part).call c 0x0102 { part := some part } [(decide (1024 ≤ index), .bound)] fun s => succeeds (s.clearEntry part index)

/-- A chain as written: its positions' indices, each of 10 bits. -/
def chainOf (qcount pcount : Nat) (index : List Nat) : Chain :=
  ⟨qcount, pcount, index.take (qcount + pcount)⟩

/-- TC_CHAIN_SET: the two stages of R46, against the shadow table as it stands. -/
def tcChainSet (c : Call) (part chain qcount pcount : Nat) (index : List Nat) (s : Chip) : Chip :=
  (s.mtEarlier part).call c 0x0103 { part := some part }
      [(decide (16 ≤ chain), .bound), (index.any fun i => decide (1024 ≤ i), .bound)] fun s =>
    let ch := chainOf qcount pcount index
    match (s.part part).shadow.checkChain ch with
    | .ok => succeeds (s.writeShadow part fun t => { t with chains := mput chain ch t.chains })
    | st => fails s st

/-- TC_CHAIN_CLEAR. -/
def tcChainClear (c : Call) (part chain : Nat) (s : Chip) : Chip :=
  (s.mtEarlier part).call c 0x0104 { part := some part } [(decide (16 ≤ chain), .bound)] fun s =>
    succeeds (if (mfind chain (s.part part).shadow.chains).isNone then s
      else s.writeShadow part fun t => { t with chains := mdel chain t.chains })

/-- A chain descriptor as numbers: QCOUNT, PCOUNT, then the indices. -/
def Chain.words (c : Chain) : List Nat := [c.qcount, c.pcount] ++ c.index

/-- TC_MODULUS_GET: the active value of the master copy, then the shadow value (R48). -/
def tcModulusGet (c : Call) (part index : Nat) (isChain : Bool) (s : Chip) : Chip :=
  s.call c 0x0105 { part := some part } [(decide ((if isChain then 16 else 1024) ≤ index), .bound)] fun s =>
    let p := s.part part
    succeeds s (if isChain then
        (mget {} index p.master.chains).words ++ [b2n (p.master.chainOk.contains index)] ++ (mget {} index p.shadow.chains).words
      else [(mget 0 index p.master.entries).toNat, (mget 0 index p.shadow.entries).toNat])

/-! ### The Expert path (R61) -/

/-- Start a command of TLR_MT_CMD with a nonzero OP: refused while one runs or while Expert control is off (R15, R61). -/
def mtCommand (op : Nat) (s : Chip) : Chip :=
  let m := s.tlr.mt
  if !s.expertOn then { s with tlr := { s.tlr with lockedWrites := s.tlr.lockedWrites + 1 } }
  else if !m.done then { s with tlr := { s.tlr with mt := { m with busySeen := true } } }
  else
    let d := m.chainStage
    let n := d.qcount + d.pcount
    { s with tlr := { s.tlr with mt := { m with
        done := false, running := some op, applied := none, runIndex := m.index, runPart := m.part, runChain := m.chain
        runEntry := m.stage, runDesc := { d with index := (d.index ++ List.replicate (n - d.index.length) 0).take n } } } }

/-- MT_CMD_DONE: the command in progress completes with its status (R61): a reserved OP with ST_NOT_SUPPORTED before its partition is
looked at (`mtApply`; DESIGN CHOICE, log entry 71). -/
def mtDone (s : Chip) : Chip :=
  let s := s.mtApply
  let m := s.tlr.mt
  match m.running with
  | none => s
  | some _ =>
    { s with tlr := { s.tlr with mt := { m with
        done := true, status := m.applied.getD .ok, running := none, applied := none } } }

end Sys2Proof.Machine
end

