-- ==== Sys2Proof/Machine/Container.lean ====
section
/-! DEFINITION. KCT containers: the header, its checks in the order of Table 3.8, sizes, and completion (R62 to R86). -/

namespace Sys2Proof.Machine

/-- A region of device memory touches a retired page or block (R233, R284). -/
def Chip.regionRetired (s : Chip) (a n : Nat) : Bool :=
  if a < 0x8000000000 then
    (s.stack (stackOf a)).retired.any fun e =>
      decide (a % 0x1000000000 / 65536 < e.1 + e.2) && decide (e.1 ≤ (a % 0x1000000000 + n - 1) / 65536)
  else if 0xA000000000 ≤ a then s.controlStuck a || s.controlStuck (a + n - 1)
  else
    let plate := (a - 0x8000000000) / 0x40000000
    (s.lining plate).retired.any fun b =>
      decide ((lineOf a) / 4 / 1024 ≤ b) && decide (b ≤ (lineOf (a + n - 1)) / 4 / 1024)

/-- A region of device memory holds poison. -/
def Chip.regionPoisoned (s : Chip) (a n : Nat) : Bool :=
  if a < 0x8000000000 then s.poisoned (stackOf a) (a % 0x1000000000) n
  else if 0xA000000000 ≤ a then s.poisoned 10 (a - 0xA000000000) n
  else
    let plate := (a - 0x8000000000) / 0x40000000
    (s.lining plate).poison.any fun l => decide (lineOf a ≤ l) && decide (l ≤ lineOf (a + n - 1))

/-- The header of the container at an offset of a buffer. -/
def Chip.headerAt (s : Chip) (b : Buf) (offset : Nat) : Header := Header.ofBytes (memReadN s.mem (b.addr + offset) 128)

/-- Steps 3 to 12 of Table 3.8 on a buffer from an offset. -/
def Chip.headerFail (s : Chip) (b : Buf) (offset : Nat) (t : ModTable) (owner : Option Nat) : Option (Status × Nat × Nat) :=
  let room := 576 * b.bolts - offset
  let h := s.headerAt b offset
  let first : List (Bool × Status × Nat × Nat) := [
    (room < 576, .bound, 3, 0),
    (s.regionRetired (b.addr + offset) 576, .retiredPage, 4, 0),
    (s.regionPoisoned (b.addr + offset) 576, .poison, 4, 0),
    (b.incomplete || h.magic != kctMagic, .badShape, 5, 0),
    (h.hcrc != headerCrc h.raw, .badShape, 5, 60)]
  firstFail (first ++ h.checks67 ++ h.checks89 t ++ h.checks1012 t room owner)

/-- Count a container check, and record its failure (Table 3.12). -/
def Chip.noteCheck (s : Chip) (part : Nat) (fail : Option (Status × Nat × Nat)) : Chip :=
  s.updCnt part fun c =>
    match fail with
    | none => { c with kctChecks := c.kctChecks + 1 }
    | some (st, step, byte) =>
      { c with
        kctChecks := c.kctChecks + 1
        kctFails := c.kctFails + 1
        kctLastStatus := st.code
        kctLastStep := step
        kctLastByte := byte }

/-- The checks of Table 3.8 on a handle: step 1 the handle is current, step 2 it is owned by the partition. -/
def Chip.checkContainer (s : Chip) (part handle offset : Nat) (owner : Option Nat) : Chip × Option (Status × Nat × Nat) :=
  match s.bufOf handle with
  | none => (s.noteCheck part (some (.staleHandle, 1, 0)), some (.staleHandle, 1, 0))
  | some b =>
    let fail := if b.part != part then some (.notOwner, 2, 0) else s.headerFail b offset (s.part part).master owner
    (s.noteCheck part fail, fail)

/-- TC_CONTAINER_CHECK: steps 1 to 11 (R83). The offset counts bytes, and one that is no multiple of a bolt is accepted (DESIGN CHOICE, log
entry 82). -/
def tcContainerCheck (c : Call) (part handle offset : Nat) (s : Chip) : Chip :=
  s.call c 0x0201 { part := some part } [(decide (2 ^ 32 ≤ handle), .bound)] fun s =>
    let (s, b) := s.checkHandle c part 0x0201 handle
    match b with
    | .error st => let s := s.noteCheck part (some (st, if st = .staleHandle then 1 else 2, 0))
                   (s, st, if st = .staleHandle then 1 else 2, [if st = .staleHandle then 1 else 2])
    | .ok _ =>
    match s.checkContainer part handle offset none with
    | (s, none) => succeeds s
    | (s, some (st, step, _)) => (s, st, step, [step])

/-- TC_CONTAINER_SIZE: the size under R72 or R74, or the status of steps 6 to 9. The chain is looked up in the caller's
partition, for PF0 in partition 0 (DESIGN CHOICE, log entry 81). -/
def tcContainerSize (c : Call) (header : List Byte) (s : Chip) : Chip :=
  s.call c 0x0202 {} [] fun s =>
    let h := Header.ofBytes (header ++ List.replicate (128 - header.length) 0)
    let t := (s.part c.fn.part).master
    match firstFail (h.checks67 ++ h.checks89 t) with
    | some (st, step, _) => (s, st, step, [])
    | none => succeeds s [h.size (h.m18 t)]

/-- Complete a produced container: header, extension and padding, MAGIC last (R62, R66, R78). -/
def Chip.completeOutput (s : Chip) (handle : Nat) (template : List Byte) : Chip :=
  match s.bufOf handle with
  | none => s
  | some b =>
    let bytes := outputHeader template ++ List.replicate 448 0
    let s := { s with mem := memWriteN s.mem b.addr bytes }
    let s := if b.addr < 0x8000000000 then s.markAtoms (stackOf b.addr) (b.addr % 0x1000000000) 576 [] else s
    { s with bufs := mput (handle % 2 ^ 24) { b with incomplete := false } s.bufs }

/-- While a plan that produces a container runs, the buffer's first four bytes read zero (R78). -/
def Chip.openOutput (s : Chip) (handle : Nat) : Chip :=
  match s.bufOf handle with
  | none => s
  | some b =>
    { s with
      mem := memWriteN s.mem b.addr [0, 0, 0, 0]
      bufs := mput (handle % 2 ^ 24) { b with incomplete := true } s.bufs }

end Sys2Proof.Machine
end

