-- ==== Sys2Proof/Machine/Split.lean ====
section
/-! DEFINITION. Partitions, grants, admission, rebalance and pacing (R356 to R383). -/

namespace Sys2Proof.Machine

/-! ### Resources (Tables 13.1 and 13.2) -/

/-- The Seam port at the lower end of a Seam resource: ids 8 to 15 the ports C, 16 to 23 the ring links. -/
def seamOfRes (r : Nat) : Nat :=
  if r < 16 then portKey (r - 8) 0
  else (([(0, 2), (1, 2), (2, 2), (3, 3), (4, 2), (5, 2), (6, 2), (0, 3)][r - 16]?).map fun x => portKey x.1 x.2).getD 0

/-- The resource of the Seam link at a port. -/
def resOfSeam (plate port : Nat) : Nat :=
  match port with
  | 0 => 8 + plate
  | 1 => 15 + plate
  | 2 => 16 + plate
  | _ => if plate % 4 = 0 then 23 else 19

/-- The classes of a resource: three on a stack, one on a link. -/
def resClasses (r : Nat) : Nat := if r < 8 then 3 else 1

/-- A link's mode offers capacity: Full or Fray, and not under test. -/
def linkOpen (state mode : Nat) : Bool := decide (mode < 2) && state != 12

/-- The units of a stack for partitions: 62, 58 when it is Degraded, fewer under a thermal throttle (Table 13.2). -/
def Stack.units (x : Stack) : Nat := min (if x.degraded then 58 else 62) x.thermCap

/-- The capacity C_r of a resource, none while it is not evaluated (Table 13.2, R371, R383). -/
def Chip.capacity (s : Chip) (r : Nat) : Option Nat :=
  let base : Option Nat :=
    if r < 8 then
      let h := s.stack r
      if h.ready then some h.units else none
    else if r < 24 then
      let p := s.seam (seamOfRes r)
      if linkOpen p.state p.mode then some 62 else none
    else
      let l := s.link (r - 24)
      if linkOpen l.state l.mode then some 62 else none
  base.map fun c => if s.dbg.capEnable && s.dbg.capRes == r then min s.dbg.capCap c else c

/-- The resource is a link in Fray. -/
def Chip.inFray (s : Chip) (r : Nat) : Bool :=
  if r < 8 then false else if r < 24 then (s.seam (seamOfRes r)).mode == 1 else (s.link (r - 24)).mode == 1

/-- The charge of units of a partition on a resource (R361). -/
def Chip.charge (s : Chip) (p r units : Nat) : Nat :=
  units * (if s.inFray r then 2 else 1) * (if 8 ≤ r && r < 24 && (s.part p).debug then 2 else 1)

/-- The strict or the scalable units of a partition on a resource: S(p, r) and V(p, r) (R362). -/
def Partition.sum (p : Partition) (r : Nat) (strict : Bool) : Nat :=
  (((List.range 3).map fun c => mget {} (grantKey r c) p.grants).filter fun g => g.strict == strict).map (·.units) |>.sum

/-- The partitions that exist, rising. -/
def Chip.existing (s : Chip) : List Nat := (List.range 64).filter fun p => (s.part p).present

/-- Admission on a resource (R366). One that is not evaluated counts against its last evaluated capacity (R371). -/
def Chip.admits (s : Chip) (r : Nat) : Bool :=
  ((s.existing.map fun p => s.charge p r ((s.part p).sum r true + (s.part p).sum r false)).sum)
    ≤ (s.capacity r).getD (if r < 8 then (s.stack r).units else 62)

/-! ### Rebalance (R368 to R372) -/

/-- The partitions A of R368. -/
def Chip.active (s : Chip) : List Nat := s.existing.filter fun p => !(s.part p).suspended

/-- Suspend a partition: EV_QOS_SHORT; its plans stop at their next stitch points with ST_OVERCOMMIT (R368). -/
def Chip.suspend (s : Chip) (p r : Nat) : Chip :=
  let s := s.updPart p fun x =>
    { x with suspended := true, qosRes := r, qosShorts := (x.qosShorts + 1) % 256, qosValid := true }
  let s := { s with runs := s.runs.map fun (x : Run) => if x.part == p then x.stopDue .overcommit else x }
  s.raiseBoth p 8 5 none none r

/-- Suspend strict partitions, the highest numbered first, until the strict charges fit. -/
def Chip.fitStrict (s : Chip) (r : Nat) : Nat → Chip
  | 0 => s
  | n + 1 =>
    match s.capacity r with
    | none => s
    | some c =>
      let strict := fun p => (s.part p).sum r true
      if (s.active.map fun p => s.charge p r (strict p)).sum ≤ c then s
      else
        match (s.active.filter fun p => 0 < strict p).getLast? with
        | some v => (s.suspend v r).fitStrict r n
        | none => s

/-- The scalable charges after rebalance: eff(p, r) of R368 for the partitions of A. -/
def Chip.shares (s : Chip) (r : Nat) : List (Nat × Nat) :=
  let a := s.active
  let v := fun p => s.charge p r ((s.part p).sum r false)
  match s.capacity r with
  | none => a.map fun p => (p, v p)
  | some c =>
    let avail := c - (a.map fun p => s.charge p r ((s.part p).sum r true)).sum
    let t := (a.map v).sum
    if t ≤ avail then a.map fun p => (p, v p)
    else
      let eff := fun p => v p * avail / t
      let rest := avail - (a.map eff).sum
      let holders := a.filter fun p => 0 < (s.part p).sum r false
      a.map fun p => (p, eff p + if holders.idxOf p < rest && holders.contains p then 1 else 0)

/-- A partition holds a strict grant. -/
def Partition.strict (p : Partition) : Bool := p.grants.any fun g => g.2.strict

/-- A partition has a swatch on a plate. -/
def Chip.onPlate (s : Chip) (p plate : Nat) : Bool := (s.swatchesOf p).any fun sw => plateOf sw == plate

/-- The pacing figure that capacity sets, and the resource that sets it (R372). -/
def Chip.capFigure (s : Chip) (p : Nat) : Nat × Nat :=
  (List.range 40).foldl (fun (best : Nat × Nat) r =>
    let v := s.charge p r ((s.part p).sum r false)
    let e := mget v r (s.part p).eff
    if v = 0 || v ≤ e then best
    else
      let f := 64 * e / v
      if f < best.1 then (f, r) else best) (64, 0)

/-- The pacing figure of a partition and what sets it: a resource, or 48 + p for the heat of plate p, which paces partitions without a
strict grant (R372, R422, R433). -/
def Chip.figure (s : Chip) (p : Nat) : Nat × Nat :=
  let cap := s.capFigure p
  if (s.part p).strict then cap
  else (List.range 8).foldl (fun (best : Nat × Nat) plate =>
    let th := (mget {} plate s.plates).theta
    if th < best.1 && s.onPlate p plate then (th, 48 + plate) else best) cap

/-- Take a new pacing figure: EV_QOS_PACED when it changes; at once on a partition with no running plan (R369, R372). -/
def Chip.repace (s : Chip) (p : Nat) : Chip :=
  let (f, r) := s.figure p
  if f = (s.part p).pace then s
  else
    let s := s.updPart p fun x => { x with pace := f, paceLimit := r }
    s.raiseBoth p 10 7 none none r

/-- Share out every resource again and set the pacing figures. -/
def Chip.reshare (s : Chip) : Chip :=
  let s := (List.range 40).foldl (fun t r =>
    if (t.capacity r).isNone then t
    else (t.shares r).foldl (fun t pe => t.updPart pe.1 fun x => { x with eff := mput r pe.2 x.eff }) t) s
  s.existing.foldl (fun t p => t.repace p) s

/-- Rebalance a resource (R368). -/
def Chip.rebalance (s : Chip) (r : Nat) : Chip := (s.fitStrict r 64).reshare

/-- The strict charges of a partition fit on every evaluated resource beside those of A. -/
def Chip.fits (s : Chip) (p : Nat) : Bool :=
  (List.range 40).all fun r =>
    match s.capacity r with
    | none => true
    | some c => ((s.active ++ [p]).map fun q => s.charge q r ((s.part q).sum r true)).sum ≤ c

/-- Try the suspended partitions in increasing number (R370); one that heat also suspends stays so until the heat clears (R433). -/
def Chip.restore (s : Chip) : Chip :=
  let s := (s.existing.filter fun p => (s.part p).suspended && (s.part p).heatBy.isEmpty).foldl (fun t p =>
    if t.fits p then
      let t := t.updPart p fun x => { x with suspended := false }
      t.raiseBoth p 9 6 none none 0
    else t) s
  s.reshare

/-- Heat of a plate with Θ 0 suspends the highest-numbered active partition that holds a strict grant and has a swatch there
(R421, R423). -/
def Chip.heatSuspend (s : Chip) (plate : Nat) : Chip :=
  match (s.active.filter fun p => (s.part p).strict && s.onPlate p plate).getLast? with
  | some p => ((s.updPart p fun x => { x with heatBy := sinsert plate x.heatBy }).suspend p (48 + plate)).reshare
  | none => s

/-- The lowest-numbered partition that a plate's heat suspended is restored, provided its strict charges fit (R421, R423). -/
def Chip.heatRestore (s : Chip) (plate : Nat) : Chip :=
  match s.existing.find? fun p => (s.part p).heatBy.contains plate with
  | some p =>
    if s.fits p then
      let s := s.updPart p fun x => { x with heatBy := sremove plate x.heatBy }
      if (s.part p).heatBy.isEmpty then
        ((s.updPart p fun x => { x with suspended := false }).raiseBoth p 9 6 none none (48 + plate)).reshare
      else s
    else s
  | none => s

/-- Capacity changes on resources, in increasing id (R368, R375); a rise tries the suspended partitions (R370). -/
def Chip.capacityChange (s : Chip) (rs : List Nat) (rise : Bool) : Chip :=
  let s := rs.foldl (fun t r => t.rebalance r) s
  if rise then s.restore else s

/-! ### Membership -/

/-- A fresh DRBG for a panel: instantiated with 384 bits from the Collar TRNG, named by the number of the seeding (R198, R509). -/
def Chip.seedPanel (s : Chip) (p : Nat) : Chip :=
  let n := s.seeds
  { s.updPanel p fun pn => { pn with drbg := { ready := true, cur := DrbgKey.instantiate n } } with seeds := n + 1 }

/-- Instantiate the DRBGs of a swatch. -/
def Chip.seedSwatch (s : Chip) (sw : Nat) : Chip := (List.range 8).foldl (fun t q => t.seedPanel (sw * 8 + q)) s

/-- A swatch joins a partition: replicas loaded, twiddle sets and engine stores, DRBGs instantiated, Pads scrubbed
(R59, R210, R358). -/
def Chip.join (s : Chip) (p sw : Nat) : Chip :=
  let q := s.part p
  let s := s.updSwatch sw fun w =>
    { w with
      owner := some p
      former := none
      lost := false
      table := q.master
      twiddle := q.twsets
      twShadow := q.twsets }
  (s.seedSwatch sw).scrubSwatch sw

/-- A swatch leaves its partition: its Pads are scrubbed and it is idle (R358). -/
def Chip.leave (s : Chip) (sw : Nat) : Chip :=
  let s := s.updSwatch sw fun w =>
    { w with
      owner := none, table := {}, twiddle := [], twShadow := [], bundles := [], yoke := [], moves := [], pinTables := [], pinSeeds := [] }
  let s := (List.range 8).foldl (fun t q => t.updPanel (sw * 8 + q) fun _ => {}) s
  { s.scrubSwatch sw with cells := s.cells.filter fun e => swatchOf e.1 != sw }

/-- The swatches of a 64-bit mask. -/
def maskSwatches (m : Nat) : List Nat := (List.range 64).filter fun i => bit m i

/-- A swatch is in service and not in reset. -/
def Chip.usable (s : Chip) (sw : Nat) : Bool := (s.swatch sw).inService && !(s.swatch sw).resetting

/-- The lifecycle check of Table 13.4. -/
def Chip.alive (s : Chip) : Bool := s.life != .returned

/-- The first failing check of a call's own list, else its effect. -/
def checked (s : Chip) (checks : List (Bool × Status)) (f : Chip → Chip × Status × Nat × List Nat) : Chip × Status × Nat × List Nat :=
  match (checks.zipIdx).find? fun c => c.1.1 with
  | some ((_, st), i) => fails s st (8 + i)
  | none => f s

/-- TC_PARTITION_CREATE (Table 13.4, Table 13.6). -/
def tcPartitionCreate (c : Call) (part mask : Nat) (grow : Bool) (s : Chip) : Chip :=
  s.call c 0x0801 { pf0Only := true, part := some part, creates := true } [] fun s =>
    let sws := maskSwatches mask
    checked s [
      (!s.alive, .lifecycle),
      ((s.part part).present, .busy),
      (sws.isEmpty, .badShape),
      (sws.any fun sw => (s.swatch sw).owner.isSome, .notOwner),
      (sws.any fun sw => !s.usable sw, .configMismatch)] fun s =>
      let old := s.part part
      let s := s.updPart part fun _ =>
        {
          present := true, growOnInstall := grow, vfEnabled := old.vfEnabled, busMaster := old.busMaster, msix := old.msix
          mbx := old.mbx, lockedWrites := old.lockedWrites, winErr := old.winErr }
      succeeds ((sws.foldl (fun t sw => t.join part sw) s).noteArrivals part)

/-- TC_PARTITION_GROW. -/
def tcPartitionGrow (c : Call) (part mask : Nat) (s : Chip) : Chip :=
  s.call c 0x0802 { pf0Only := true, part := some part } [] fun s =>
    let sws := maskSwatches mask
    checked s [
      (!s.alive, .lifecycle),
      (sws.any fun sw => (s.swatch sw).owner.isSome, .notOwner),
      (sws.any fun sw => !s.usable sw, .configMismatch)] fun s => succeeds ((sws.foldl (fun t sw => t.join part sw) s).noteArrivals part)

/-- A swatch is used by an installed plan. -/
def Partition.uses (p : Partition) (sw : Nat) : Bool := p.plans.any fun x => x.2.swatches.contains sw

/-- TC_PARTITION_SHRINK (R378). -/
def tcPartitionShrink (c : Call) (part mask : Nat) (s : Chip) : Chip :=
  s.call c 0x0803 { pf0Only := true, part := some part } [] fun s =>
    let sws := maskSwatches mask
    checked s [
      (!s.alive, .lifecycle),
      (sws.any fun sw => (s.swatch sw).owner != some part, .notOwner),
      (sws.any fun sw => !s.usable sw, .configMismatch),
      (sws.any fun sw => (s.part part).uses sw, .busy)] fun s => succeeds ((sws.foldl (fun t sw => t.leave sw) s).noteArrivals part)

/-! ### Grants -/

/-- The units of a plan in a class of a resource (R362): stacks by plate map, Seam links by the virtual links mapped to them,
Selvage links by number. -/
def Plan.resUnits (p : Plan) (r cls : Nat) : Nat :=
  if r < 8 then p.stackUnits (cls + 1) r
  else if r < 24 then
    let of := fun (l : VLink) =>
      let a := p.plate l.a
      resOfSeam a (if l.kind = 1 then 0 else portTo a (p.plate l.b))
    ((p.seam.zipIdx.filter fun l => of l.1 == r).map fun l => p.units 4 l.2).sum
  else p.units 5 (r - 24)

/-- D(r, c) of a partition's installed plans. -/
def Chip.demandOf (s : Chip) (p r cls : Nat) : Nat :=
  demand (s.swatchesOf p) ((s.part p).plans.map (·.2)) fun x => x.resUnits r cls

/-- Set a grant; 0 units remove it. -/
def Partition.setGrant (r cls units : Nat) (strict : Bool) (p : Partition) : Partition :=
  { p with grants := if units = 0 then mdel (grantKey r cls) p.grants else mput (grantKey r cls) ⟨units, strict⟩ p.grants }

/-- TC_SPLIT_SET (R366, R367). -/
def tcSplitSet (c : Call) (part r cls units : Nat) (strict : Bool) (s : Chip) : Chip :=
  s.call c 0x0806 { pf0Only := true, part := some part } [] fun s =>
    let old := mget {} (grantKey r cls) (s.part part).grants
    let t := s.updPart part (Partition.setGrant r cls units strict)
    checked s [
      (!s.alive, .lifecycle),
      (40 ≤ r || resClasses r ≤ cls, .bound),
      (62 < units, .badShape),
      (units < old.units && units < s.demandOf part r cls, .busy),
      ((old.units < units) && !t.admits r, .overcommit)] fun _ => succeeds ((t.noteArrivals part).capacityChange [r] (units < old.units))

/-- TC_SPLIT_QUERY: C_r, mode, sum of charges, runtime strict sum, avail, then for each partition its grant, charge, eff and
suspension. -/
def tcSplitQuery (c : Call) (r : Nat) (s : Chip) : Chip :=
  s.call c 0x0807 {} [(decide (40 ≤ r), .bound)] fun s =>
    let shown := match c.fn with | .pf0 => s.existing | .vf n => s.existing.filter (· == n)
    let strict := (s.active.map fun p => s.charge p r ((s.part p).sum r true)).sum
    let cap := (s.capacity r).getD 0
    succeeds s ([cap, b2n (s.inFray r),
        (s.existing.map fun p => s.charge p r ((s.part p).sum r true + (s.part p).sum r false)).sum, strict, cap - strict]
      ++ shown.flatMap fun p =>
        let x := s.part p
        [p, x.sum r true + x.sum r false, s.charge p r (x.sum r true + x.sum r false), mget 0 r x.eff, b2n x.suspended])

/-- A swatch mask of a list. -/
def swatchMask (l : List Nat) : Nat := (l.map fun i => 2 ^ i).sum

/-- TC_PARTITION_QUERY: swatches, state, pacing figure, grants, charges, suspension cause. -/
def tcPartitionQuery (c : Call) (part : Nat) (s : Chip) : Chip :=
  s.call c 0x0805 { part := some part } [] fun s =>
    let p := s.part part
    succeeds s ([swatchMask (s.swatchesOf part), b2n p.suspended, b2n p.resetting, p.pace, p.paceLimit, p.qosRes]
      ++ p.grants.flatMap fun g => [g.1, g.2.units, b2n g.2.strict, s.charge part (g.1 / 4) g.2.units])

/-- DBG_CAP_OVERRIDE is written: the capacity of one resource is lowered while ENABLE is set; rebalance runs as for a real change
(R383, R15). -/
def capOverrideWrite (res cap : Nat) (enable : Bool) (s : Chip) : Chip :=
  if !s.expertOn then { s with tlr := { s.tlr with lockedWrites := s.tlr.lockedWrites + 1 } }
  else
    let old := s.dbg
    let t := { s with dbg := { s.dbg with capRes := res % 64, capCap := cap % 64, capEnable := enable } }
    let was := if old.capEnable && old.capRes < 40 then [old.capRes] else []
    let now := if enable && res % 64 < 40 then [res % 64] else []
    t.capacityChange ((was ++ now.filter fun r => !was.contains r).mergeSort fun a b => decide (a ≤ b)) true

end Sys2Proof.Machine
end

