-- ==== Sys2Proof/Machine/Buffers.lean ====
section
/-! DEFINITION. Buffers, handles, quotas and shares of the service plane (R447 to R451). -/

namespace Sys2Proof.Machine

/-! ### Regions and placement -/

/-- The lowest place at or after `pos` where `size` fits below `limit` beside busy ranges in rising order. -/
def lowestFit (size limit : Nat) : List (Nat × Nat) → Nat → Option Nat
  | [], pos => if pos + size ≤ limit then some pos else none
  | (a, b) :: rest, pos =>
    if b ≤ pos then lowestFit size limit rest pos
    else if pos + size ≤ a then (if pos + size ≤ limit then some pos else none)
    else lowestFit size limit rest (max pos b)

/-- The lowest multiple of `unit` where `size` fits: every busy range is widened to whole units. -/
def placeIn (unit size limit : Nat) (busy : List (Nat × Nat)) : Option Nat :=
  let ranges := (busy.filter fun r => r.1 < r.2).map fun r => (r.1 / unit * unit, cdiv r.2 unit * unit)
  lowestFit size limit (ranges.mergeSort fun x y => decide (x.1 ≤ y.1)) 0

/-- Allocated buffers that occupy memory: those that are no grantee's view. -/
def Chip.owned (s : Chip) : List Buf := (s.bufs.map (·.2)).filter fun b => b.live && b.view.isNone

/-- Busy byte ranges of a stack: its buffers and its retired pages. -/
def Chip.busyStack (s : Chip) (h : Nat) : List (Nat × Nat) :=
  ((s.owned.filter fun b => b.kind == 0 && stackOf b.addr == h).map fun b =>
      (b.addr % 0x1000000000, b.addr % 0x1000000000 + 576 * b.bolts))
    ++ (s.stack h).retired.map fun e => (e.1 * 65536, (e.1 + e.2) * 65536)

/-- Busy line ranges of a plate's Lining: key windows, task regions, retired blocks. -/
def Chip.busyLines (s : Chip) (plate : Nat) : List (Nat × Nat) :=
  (s.parts.flatMap fun e =>
      let w := mget {} plate e.2.keyWin
      let v := mget {} plate e.2.keyWinShadow
      [(w.base, w.bound), (v.base, v.bound)]
        ++ e.2.plans.flatMap fun p =>
          (p.2.lining.filter fun l => plateOf l.1 == plate).flatMap fun l => l.2.map fun r => (r.1, r.1 + 512 * r.2))
    ++ (s.lining plate).retired.map fun b => (4096 * b, 4096 * (b + 1))

/-- The lines of a Lining (R225). -/
def liningLines : Nat := 7456540

/-- A granule of control memory lies on retired backing that no spare replaces (R564): byte y of control memory. -/
def granuleOf (y : Nat) : Nat × Nat := (y / 4096 % 8, y / 32768)

/-- Busy byte ranges of control memory. -/
def Chip.busyControl (s : Chip) : List (Nat × Nat) :=
  ((s.owned.filter fun b => b.kind == 2).map fun b => (b.addr - controlBase, b.addr - controlBase + 576 * b.bolts))
    ++ (List.range 8).flatMap fun h => (s.stack h).stuck.map fun g => (32768 * g + 4096 * h, 32768 * g + 4096 * h + 4096)

/-- The line ranges of a partition's KEY buffers inside its key window on a plate, from KEY_BASE. -/
def Chip.keyBufs (s : Chip) (part plate : Nat) : List (Nat × Nat) :=
  let w := mget {} plate (s.part part).keyWin
  (s.owned.filter fun b => b.kind == 1 && b.part == part && b.place == plate).map fun b =>
    let l := (b.addr - liningBase plate) / 144 - w.base
    (l, l + 4 * b.bolts)

/-- The line ranges inside a partition's key window on a plate where no KEY buffer is placed: those of its KEY buffers, and retired blocks (R233). -/
def Chip.busyKeys (s : Chip) (part plate : Nat) : List (Nat × Nat) :=
  let w := mget {} plate (s.part part).keyWin
  s.keyBufs part plate ++ (s.lining plate).retired.map fun b => (4096 * b - w.base, 4096 * (b + 1) - w.base)

/-! ### Quotas (R450) -/

/-- Bytes of HBM buffers of a partition on a stack. -/
def Chip.hbmUse (s : Chip) (part h : Nat) : Nat :=
  ((s.owned.filter fun b => b.part == part && b.kind == 0 && stackOf b.addr == h).map fun b => 576 * b.bolts).sum

/-- Bytes of control memory of a partition. -/
def Chip.controlUse (s : Chip) (part : Nat) : Nat :=
  ((s.owned.filter fun b => b.part == part && b.kind == 2).map fun b => 576 * b.bolts).sum

/-- Handles of a partition. -/
def Chip.handleUse (s : Chip) (part : Nat) : Nat := ((s.bufs.map (·.2)).filter fun b => b.live && b.part == part).length

/-- Task Lining lines of a partition on a plate. -/
def Chip.liningUse (s : Chip) (part plate : Nat) : Nat :=
  ((s.part part).plans.flatMap fun p => (p.2.lining.filter fun l => plateOf l.1 == plate).flatMap fun l =>
    l.2.map fun r => 512 * r.2).sum

/-- One more handle fits the partition's quota and the device. -/
def Chip.handleRoom (s : Chip) (part : Nat) : Bool :=
  decide (s.handleUse part < (s.part part).quotas.handles)
    && decide ((s.bufs.filter fun e => e.2.live).length < 1048576)

/-- Open requests of a partition. -/
def Chip.openOf (s : Chip) (part : Nat) : Nat := (s.requests.filter fun q => q.part == part).length

/-! ### Allocation -/

/-- The lowest handle index that names no live buffer. -/
def freeIndex : SMap Buf → Nat → Nat
  | [], k => k
  | (j, b) :: rest, k => if k < j then k else if b.live then freeIndex rest (k + 1) else j

/-- Issue a handle for a buffer: the index's current generation, 1 for a new index (R447). -/
def Chip.issueHandle (s : Chip) (b : Buf) : Nat × Chip :=
  let i := freeIndex s.bufs 0
  let g := match mfind i s.bufs with
    | some old => old.gen
    | none => 1
  (handleOf i g, { s with bufs := mput i { b with gen := g, live := true } s.bufs })

/-- The stack of PLACE 0xFF: that of the lowest-numbered plate that holds a swatch of the partition and has room, stacks that are
not in service passed by (R447, R585). -/
def Chip.anyStack (s : Chip) (part size : Nat) : Option Nat :=
  ((s.swatchesOf part).map plateOf).eraseDups.find? fun h =>
    (s.stack h).ready && !(s.stack h).zeroing
      && decide (s.hbmUse part h + size ≤ mget 0 h (s.part part).quotas.hbm)
      && (placeIn 576 size 0x8F8000000 (s.busyStack h)).isSome

/-- Allocate a buffer (R447): the handle, or the status that refuses it. -/
def Chip.allocBuf (s : Chip) (part kind place bolts : Nat) (priv : Bool) : Except Status (Nat × Chip) :=
  let size := 576 * bolts
  let q := (s.part part).quotas
  let issue := fun (place addr : Nat) =>
    let b : Buf := { gen := 1, live := true, part := part, kind := kind, place := place, addr := addr, bolts := bolts, priv := priv }
    Except.ok (s.issueHandle b)
  if !s.handleRoom part then .error .overcommit
  else
    match kind with
    | 0 =>
      match (if place = 255 then s.anyStack part size else some place) with
      | none => .error .overcommit
      | some h =>
        if !(s.stack h).ready || (s.stack h).zeroing || mget 0 h q.hbm < s.hbmUse part h + size then .error .overcommit
        else
          match placeIn 576 size 0x8F8000000 (s.busyStack h) with
          | some a => issue h (h * 0x1000000000 + a)
          | none => .error .overcommit
    | 1 =>
      let w := mget {} place (s.part part).keyWin
      match placeIn 4 (4 * bolts) (w.bound - w.base) (s.busyKeys part place) with
      | some l => issue place (liningBase place + 144 * (w.base + l))
      | none => .error .overcommit
    | _ =>
      if q.control < s.controlUse part + size then .error .overcommit
      else
        match placeIn 576 size 0x38000000 s.busyControl with
        | some a => issue 0 (controlBase + a)
        | none => .error .overcommit

/-- A queued or running request binds a handle. -/
def Chip.bound (s : Chip) (handle : Nat) : Bool :=
  (s.requests.any fun q => q.outcome.isNone && q.handles.contains handle) || s.runs.any fun r => r.handles.contains handle

/-- An installed plan names a registered key held in a buffer in its KEYS section (R449). -/
def Chip.keyInUse (s : Chip) (part handle : Nat) : Bool :=
  (s.part part).keys.any fun k => (k.2.handle == handle || k.2.copies.any fun c => c.2 == handle)
    && (s.part part).plans.any fun p => p.2.keys.any fun e => e.keyId == k.1

/-- An aperture of some function maps a handle (R570). -/
def Chip.mapped (s : Chip) (handle : Nat) : Bool := s.pci.windows.any fun w => w.2.handle == some handle

/-! ### Calls -/

/-- TC_BUF_ALLOC: the handle and the device physical address. -/
def tcBufAlloc (c : Call) (part kind place bolts : Nat) (priv : Bool) (s : Chip) : Chip :=
  s.call c 0x0B01 { part := some part }
      [(decide (2 < kind), .notSupported), (decide (kind < 2 && 7 < place && !(kind == 0 && place == 255)), .bound),
       (decide (kind = 2 ∧ place ≠ 0), .bound)] fun s =>
    match s.allocBuf part kind place bolts priv with
    | .error st => fails s st
    | .ok (h, t) => succeeds t [h, ((t.bufOf h).map (·.addr)).getD 0]

/-- A call with a handle: the checks of R448, then its effect on the buffer. -/
def Chip.withHandle (s : Chip) (c : Call) (code handle : Nat) (f : Chip → Buf → Chip × Status × Nat × List Nat) :
    Chip × Status × Nat × List Nat :=
  match s.checkHandle c c.fn.part code handle with
  | (s, .error st) => fails s st
  | (s, .ok b) => f s b

/-- TC_BUF_FREE (R448, R449, R466, R570). -/
def tcBufFree (c : Call) (handle : Nat) (s : Chip) : Chip :=
  s.call c 0x0B02 {} [] fun s =>
    s.withHandle c 0x0B02 handle fun s b =>
      if s.bound handle || s.keyInUse b.part handle || s.mapped handle then fails s .busy
      else succeeds (s.releaseBuf handle)

/-- TC_BUF_SHARE (R451, R343): a local partition receives READ or ADD, a remote one WRITE or ADD and a token index. -/
def tcBufShare (c : Call) (handle : Nat) (fabric : Bool) (package part first bolts : Nat) (read add write : Bool) (token : Nat)
    (s : Chip) : Chip :=
  s.call c 0x0B03 {}
      [(decide (4096 ≤ package), .bound), (decide (64 ≤ part), .bound), (decide (64 ≤ token), .bound),
       ((if fabric then read || !(write || add) else write || !(read || add)), .notSupported)] fun s =>
    s.withHandle c 0x0B03 handle fun s b =>
      let who := if fabric then b.part else part
      if b.view.isSome || (fabric && b.priv) then fails s .notOwner
      else if b.bolts < first + bolts then fails s .bound
      else if !fabric && !(s.part part).present then fails s .notOwner
      else if 64 ≤ b.grants.length || !s.handleRoom who then fails s .overcommit
      else
        let v : Buf := {
          gen := 1, live := true, part := who, kind := b.kind, place := b.place, addr := b.addr + 576 * first, bolts := bolts,
          view := some (handle % 2 ^ 24), canRead := read, canAdd := add, canWrite := write }
        let (h, s) := s.issueHandle v
        let g : BufGrant := {
          fabric := fabric, package := package, part := part, first := first, bolts := bolts, read := read, add := add,
          write := write, token := if fabric then some token else none, handle := h }
        let s := { s with bufs := mput (handle % 2 ^ 24) { b with grants := b.grants ++ [g] } s.bufs }
        let s := if fabric then { s with bufs := mupd v (h % 2 ^ 24) (fun x => { x with grants := [g] }) s.bufs } else s
        succeeds s [h]

/-- TC_BUF_REVOKE of a grant, by its handle: by the owner of the buffer or PF0 (R348, R451). -/
def tcBufRevoke (c : Call) (handle : Nat) (s : Chip) : Chip :=
  s.call c 0x0B04 {} [] fun s =>
    match s.bufOf handle with
    | none => fails (s.updCnt c.fn.part fun x => { x with bufStale := x.bufStale + 1 }) .staleHandle
    | some v =>
      match v.view with
      | none => fails s .staleHandle
      | some o =>
        if c.fn != .pf0 && (mfind o s.bufs).all fun ob => ob.part != c.fn.part then fails s .notOwner
        else
          let s := match mfind o s.bufs with
            | some ob => { s with bufs := mput o { ob with grants := ob.grants.filter fun g => g.handle != handle } s.bufs }
            | none => s
          succeeds (s.killHandle (handle % 2 ^ 24))

/-- TC_BUF_QUERY: owner, kind, place, address, bolts, private flag, grants. -/
def tcBufQuery (c : Call) (handle : Nat) (s : Chip) : Chip :=
  s.call c 0x0B05 {} [] fun s =>
    s.withHandle c 0x0B05 handle fun s b => succeeds s [b.part, b.kind, b.place, b.addr, b.bolts, b2n b.priv, b.grants.length]

/-- A key window of a plate with the size of its quota, outside every other use: at its present base where that has room, else at the lowest place.
A window that holds KEY buffers stays where they are, since every one of them lies inside it (R227, R450). -/
def Chip.keyWindow (s : Chip) (part plate lines : Nat) : Option KeyWin :=
  if lines = 0 then some {}
  else
    let t := s.updPart part fun p => { p with keyWin := mdel plate p.keyWin, keyWinShadow := mdel plate p.keyWinShadow }
    let busy := t.busyLines plate
    let old := mget {} plate (s.part part).keyWin
    let stays := old.base != old.bound && decide (old.base + lines ≤ liningLines)
      && busy.all fun r => decide (r.2 ≤ r.1) || decide (r.2 ≤ old.base) || decide (old.base + lines ≤ r.1)
    if stays then some ⟨old.base, old.base + lines⟩
    else if !(s.keyBufs part plate).isEmpty then none
    else (placeIn 4 lines liningLines busy).map fun b => ⟨b, b + lines⟩

/-- Bytes of a key go into the lines of a plate's Lining from a line on (R461). -/
def Chip.putKey (s : Chip) (plate line n : Nat) (bytes : List Byte) : Chip :=
  let inside := fun (l : Nat) => decide (line ≤ l) && decide (l < line + n)
  { s with mem := memWriteN s.mem (liningBase plate + 144 * line) bytes }.updLining plate fun x =>
    { x with
      poison := x.poison.filter fun l => !inside l
      ce := x.ce.filter fun k => !inside (k / 16)
      ue := x.ue.filter fun k => !inside (k / 16)
      origin := x.origin.filter fun e => !inside e.1 }

/-- The key windows of a partition commit: what stood in a window that moves goes with it, and the loads that have finished become reachable (R228,
R238). -/
def Chip.commitKeys (s : Chip) (part : Nat) (new : SMap KeyWin) : Chip :=
  let old := (s.part part).keyWin
  let moved := (s.part part).keyRanges.map fun (r : KeyRange) =>
    let a := mget {} r.plate old
    if r.loaded && r.staged.isNone && a.base != (mget {} r.plate new).base then
      { r with staged := some (memReadN s.mem (liningBase r.plate + 144 * (a.base + r.offset)) (144 * r.lines)) }
    else r
  let s := moved.foldl (fun (t : Chip) r =>
    match r.staged with
    | some bytes => t.putKey r.plate ((mget {} r.plate new).base + r.offset) r.lines bytes
    | none => t) s
  s.updPart part fun p => { p with keyWin := new, keyRanges := moved.map fun r => { r with staged := none } }

/-- The key windows of a partition, and the loads that have finished, take effect at once while none of its plans runs (R118, R228). -/
def Chip.settleKeyWin (s : Chip) (part : Nat) : Chip :=
  if (s.runsOf part).isEmpty then s.commitKeys part (s.part part).keyWinShadow else s

/-- TC_QUOTA_SET (R450): values of stacks 0 to 7 and plates 0 to 7. A quota below present use is refused; a key window changes at
a stitch point. -/
def tcQuotaSet (c : Call) (part : Nat) (hbm keyLines lining : List Nat) (control handles maxOpen : Nat) (s : Chip) : Chip :=
  s.call c 0x0B06 { pf0Only := true, part := some part } [(maxOpen = 0 || 16384 < maxOpen, .bound)] fun s =>
    let at_ := fun (l : List Nat) (i : Nat) => (l[i]?).getD 0
    let q := (s.part part).quotas
    let keyUse := fun i => ((s.keyBufs part i).map (·.2)).foldl max 0
    let below := (List.range 8).any fun i =>
      decide (at_ hbm i < s.hbmUse part i) || decide (at_ lining i < s.liningUse part i) || decide (at_ keyLines i < keyUse i)
        || ((s.part part).keyRanges.any fun r => r.plate == i && decide (at_ keyLines i < r.offset + r.lines))
    if below || control < s.controlUse part || handles < s.handleUse part || maxOpen < s.openOf part then fails s .busy
    else
      let wins := (List.range 8).map fun i =>
        if at_ keyLines i = mget 0 i q.keyLines then some (mget {} i (s.part part).keyWinShadow) else s.keyWindow part i (at_ keyLines i)
      if wins.any (·.isNone) then fails s .overcommit
      else
        let toMap := fun (l : List Nat) => (List.range 8).map fun i => (i, at_ l i)
        let s := (s.keepShadow part).updPart part fun p =>
          { p with
            quotas := ⟨toMap hbm, toMap keyLines, toMap lining, control, handles, maxOpen⟩
            keyWinShadow := (wins.zipIdx).map fun w => (w.2, w.1.getD {}) }
        succeeds (s.settleKeyWin part)

/-- TC_BUF_ALLOC_AT, Expert: a buffer at a given bolt-aligned address (R474); one in Lining is a KEY buffer and lies inside the partition's key
window (R227). -/
def tcBufAllocAt (c : Call) (part addr bolts : Nat) (s : Chip) : Chip :=
  s.call c 0x8B01 { expert := true, part := some part } [] fun s =>
    let size := 576 * bolts
    let region : Option (Nat × Nat × Nat × List (Nat × Nat)) :=
      if addr < 0x8000000000 then some (0, addr / 0x1000000000, addr % 0x1000000000, s.busyStack (stackOf addr))
      else if controlBase ≤ addr && addr + size ≤ controlBase + 0x38000000 then some (2, 0, addr - controlBase, s.busyControl)
      else if addr < 0x8200000000 then some (1, (addr - 0x8000000000) / 0x40000000, (addr - 0x8000000000) % 0x40000000, [])
      else none
    match region with
    | none => fails s .bound
    | some (kind, place, off, busy) =>
      let room := if kind = 0 then 0x8F8000000 else if kind = 1 then 1073741760 else 0x38000000
      let over_ := busy.any fun r => decide (off < r.2) && decide (r.1 < off + size) && decide (r.1 < r.2)
      let w := mget {} place (s.part part).keyWin
      let outside := kind = 1 && !(decide (144 * w.base ≤ off) && decide (off + size ≤ 144 * w.bound))
      let taken := s.owned.any fun b => decide (addr < b.addr + 576 * b.bolts) && decide (b.addr < addr + size)
      if off % 576 != 0 then fails s .badShape
      else if room < off + size || outside then fails s .bound
      else if size != 0 && s.regionRetired addr size then fails s .retiredPage
      else if taken || over_ then fails s .busy
      else if !s.handleRoom part then fails s .overcommit
      else
        let b : Buf := { gen := 1, live := true, part := part, kind := kind, place := place, addr := addr, bolts := bolts }
        let (h, t) := s.issueHandle b
        succeeds t [h, addr]

end Sys2Proof.Machine
end

