-- ==== Sys2Proof/Machine/Bundle.lean ====
section
/-! DEFINITION. Reserved encodings of the eight slots of a bundle (R6, R127, R146, R148, R165, R170, R183, R186, R191, R199, R250): what
step 9 of Table 4.8 looks for. -/

namespace Sys2Proof.Machine

/-- A slot holds nothing outside the fields listed, each given as its lowest bit and its width. -/
def fieldsOnly (w : Nat) (fields : List (Nat × Nat)) : Bool :=
  fields.foldl (fun v f => setBits v f.1 f.2 0) w == 0

/-- The fields that a Scriber opcode reads besides OP (Tables 5.3 and 5.4); none for an unlisted opcode. -/
def scriberFields (op : Nat) : Option (List (Nat × Nat)) :=
  let rd := (51, 5)
  let ra := (46, 5)
  let rb := (41, 5)
  let x := (25, 16)
  match op with
  | 0x00 | 0x36 => some []
  | 0x01 | 0x02 | 0x03 | 0x04 | 0x05 | 0x06 | 0x07 | 0x08 | 0x09 | 0x0A | 0x0B | 0x0C | 0x0D => some [rd, ra, rb]
  | 0x10 | 0x11 | 0x12 | 0x13 => some [rd, ra, (10, 36)]
  | 0x14 | 0x15 => some [rd, ra, (10, 6)]
  | 0x16 => some [rd, (10, 36)]
  | 0x18 | 0x19 => some [rd, ra, rb, (31, 10)]
  | 0x20 => some [rd, ra, x]
  | 0x21 => some [ra, rb, x]
  | 0x28 => some [rd, (33, 8)]
  | 0x29 => some [ra, (33, 8)]
  | 0x2C => some [(39, 2)]
  | 0x30 | 0x35 | 0x38 | 0x3A => some [x]
  | 0x31 | 0x32 | 0x33 | 0x34 => some [ra, rb, x]
  | 0x37 => some [ra, x]
  | _ => none

/-- The Scriber slot is free of reserved encodings; LOOSE is one in a loose store (R143). -/
def scriberOk (w : Nat) (loose : Bool) : Bool :=
  let op := bits w 56 8
  match scriberFields op with
  | none => false
  | some fs =>
    fieldsOnly (w % 2 ^ 56) fs && !(loose && op == 0x3A)
      && (op != 0x28 || srReadable (bits w 33 8)) && (op != 0x29 || srWritable (bits w 33 8))

/-- The Spool slot (Table 9.3). -/
def spoolSlotOk (w : Nat) : Bool :=
  match bits w 28 4 with
  | 0 => w == 0
  | 1 => fieldsOnly (w % 2 ^ 28) [(24, 4), (16, 8), (12, 4)]
  | 2 => fieldsOnly (w % 2 ^ 28) [(24, 4), (22, 2)]
  | 3 => fieldsOnly (w % 2 ^ 28) [(24, 4)]
  | _ => false

/-- The Press slot (Table 6.1, R165). -/
def pressSlotOk (w : Nat) : Bool :=
  match bits w 28 4 with
  | 0 | 3 | 4 => w % 2 ^ 28 == 0
  | 1 => fieldsOnly (w % 2 ^ 28) [(27, 1), (23, 4), (19, 4), (10, 9)] && mmaOk (BitVec.ofNat 9 (bits w 10 9))
  | 2 =>
    fieldsOnly (w % 2 ^ 28) [(27, 1), (26, 1), (25, 1), (21, 4), (11, 10)]
      && drainOk (bit w 26) (BitVec.ofNat 4 (bits w 21 4))
  | _ => false

/-- The Stipple operation of an opcode (Table 6.3). -/
def stipKindOf : Nat → Option StipKind
  | 1 => some .madd
  | 2 => some .msub
  | 3 => some .mneg
  | 4 => some .mmul
  | 5 => some .mmad
  | 6 => some .mmsb
  | 7 => some .resc
  | 8 => some .red
  | 9 => some .move
  | 10 => some .digit
  | _ => none

/-- The fields of a Stipple slot (Table 6.2). -/
def stipFieldsOf (w : Nat) : StipFields :=
  { m18 := bit w 41
    gd := BitVec.ofNat 4 (bits w 37 4)
    ga := BitVec.ofNat 4 (bits w 33 4)
    gb := BitVec.ofNat 4 (bits w 29 4)
    gc := BitVec.ofNat 4 (bits w 25 4)
    entry := BitVec.ofNat 10 (bits w 15 10)
    gm := BitVec.ofNat 4 (bits w 11 4)
    count := BitVec.ofNat 8 (bits w 3 8)
    tap := bit w 2
    bcast := bit w 1 }

/-- The Stipple slot (R170). -/
def stipSlotOk (w : Nat) : Bool :=
  if bits w 42 6 = 0 then w == 0
  else
    match stipKindOf (bits w 42 6) with
    | none => false
    | some k => !bit w 0 && stipOk k (stipFieldsOf w)

/-- The Burin slot (R186). -/
def burinSlotOk (w : Nat) : Bool :=
  match bits w 21 3 with
  | 0 => w == 0
  | 1 | 2 => burinOk (BitVec.ofNat 4 (bits w 5 4)) (BitVec.ofNat 5 (bits w 0 5))
  | _ => false

/-- The Hatch slot (R191). -/
def hatchSlotOk (w : Nat) : Bool :=
  match bits w 20 4 with
  | 0 => w == 0
  | 1 => bits w 3 2 == 0 && autoOk (BitVec.ofNat 3 (bits w 5 3))
  | 2 => transOk (BitVec.ofNat 3 (bits w 0 3)) (BitVec.ofNat 2 (bits w 6 2))
  | 3 => bits w 0 8 == 0
  | 4 => bits w 4 4 == 0
  | _ => false

/-- The Weft slot (R199). -/
def weftSlotOk (w : Nat) : Bool :=
  match bits w 13 3 with
  | 0 => w == 0
  | 1 => true
  | 2 => bits w 2 3 == 0 && sampleOk (BitVec.ofNat 2 (bits w 0 2))
  | _ => false

/-- The Sync slot (Table 5.2); END of a BARRIER has its meaning in a loose store only (R145). -/
def syncSlotOk (w : Nat) (loose : Bool) : Bool :=
  match bits w 12 4 with
  | 0 => w == 0
  | 1 | 3 | 4 => true
  | 2 => fieldsOnly (w % 2 ^ 12) [(10, 2), (9, 1)] && barrierOk (BitVec.ofNat 2 (bits w 10 2)) && (loose || !bit w 9)
  | 5 => fieldsOnly (w % 2 ^ 12) [(0, 3)]
  | _ => false

/-- A bundle is free of reserved encodings in every slot. A loose store holds no Hatch and no Weft instruction (R183). -/
def bundleOk (b : BitVec 256) (loose : Bool) : Bool :=
  let v := b.toNat
  scriberOk (bits v 192 64) loose && spoolSlotOk (bits v 160 32) && pressSlotOk (bits v 128 32) && stipSlotOk (bits v 80 48)
    && burinSlotOk (bits v 56 24) && hatchSlotOk (bits v 32 24) && weftSlotOk (bits v 16 16) && syncSlotOk (bits v 0 16) loose
    && (!loose || (bits v 32 24 == 0 && bits v 16 16 == 0))

end Sys2Proof.Machine
end

