-- ==== Sys2Proof/Machine/Image.lean ====
section
/-! DEFINITION. The Plan Image: its parts, its sections, and the checks of steps 3 to 9 of Table 4.8 that need the image alone
(R87 to R91, R101, R103, R109, R218, R246, R452, R460). -/

namespace Sys2Proof.Machine

/-- n bytes of a list from byte i. -/
def bytesAt (bs : List Byte) (i n : Nat) : List Byte := (bs.drop i).take n

/-- Every byte from i to i + n − 1 is zero. -/
def zeroAt (bs : List Byte) (i n : Nat) : Bool := (bytesAt bs i n).all fun b => b == 0

/-- Cut a list of bytes into records of n bytes. -/
def records (n : Nat) (bs : List Byte) : List (List Byte) :=
  if n = 0 then [] else (List.range (bs.length / n)).map fun i => bytesAt bs (n * i) n

/-- The Plan Image header (Table 4.1). -/
structure ImageHeader where
  magic : Nat
  format : Nat
  baseline : Nat
  binding : Nat
  flags : Nat
  swatches : Nat
  stitchCount : Nat
  configId : Nat
  totalCycles : Nat
  manOff : Nat
  manSize : Nat
  timOff : Nat
  timSize : Nat
  segOff : Nat
  segCount : Nat
  sigOff : Nat
  sigSize : Nat
  size : Nat
  hcrc : Nat
deriving DecidableEq, Repr

/-- The header in the first 128 bytes of an image. -/
def ImageHeader.ofBytes (bs : List Byte) : ImageHeader :=
  { magic := leAt bs 0 4, format := leAt bs 4 2, baseline := leAt bs 6 2, binding := leAt bs 8 1, flags := leAt bs 9 1
    swatches := leAt bs 10 1, stitchCount := leAt bs 12 4, configId := leAt bs 16 8, totalCycles := leAt bs 24 8
    manOff := leAt bs 32 4, manSize := leAt bs 36 4, timOff := leAt bs 40 4, timSize := leAt bs 44 4
    segOff := leAt bs 48 4, segCount := leAt bs 52 4, sigOff := leAt bs 56 4, sigSize := leAt bs 60 4
    size := leAt bs 64 8, hcrc := leAt bs 124 4 }

/-- The MAGIC of an image. -/
def planMagic : Nat := 0x314C504B

/-- The end of the hashed bytes: the signature slot, or the image's end (R88). -/
def ImageHeader.body (h : ImageHeader) : Nat := if h.sigSize = 0 then h.size else h.sigOff

/-- Step 3 fails: IMAGE_SIZE against the buffer and 256 MiB, MAGIC, HCRC, FORMAT. -/
def step3Bad (h : ImageHeader) (bs : List Byte) (room : Nat) : Bool :=
  room < 128 || room < h.size || 0x10000000 < h.size || h.magic != planMagic || h.hcrc != crc32c (bs.take 124) || h.format != 1

/-! ### Sections (R89) -/

/-- A section of the manifest: its type, its reserved bytes, its content. -/
structure Section where
  type : Nat
  reserved : Nat
  body : List Byte
deriving DecidableEq, Repr

/-- The sections of a manifest, as far as they can be read, and whether all of it was. -/
def sectionsOf : Nat → List Byte → List Section × Bool
  | 0, bs => ([], bs.isEmpty)
  | n + 1, bs =>
    if bs.isEmpty then ([], true)
    else
      let len := leAt bs 4 4
      if bs.length < 8 || len % 8 != 0 || bs.length < 8 + len then ([], false)
      else
        let r := sectionsOf n (bs.drop (8 + len))
        (⟨leAt bs 0 2, leAt bs 2 2, bytesAt bs 8 len⟩ :: r.1, r.2)

/-- Types in rising order, each once. -/
def risingTypes : List Section → Bool
  | a :: b :: rest => decide (a.type < b.type) && risingTypes (b :: rest)
  | _ => true

/-- An image with its sections. -/
structure Image where
  h : ImageHeader
  bytes : List Byte
  sections : List Section
  whole : Bool
deriving DecidableEq, Repr

/-- Read an image. -/
def Image.ofBytes (bs : List Byte) : Image :=
  let h := ImageHeader.ofBytes bs
  let m := bytesAt bs h.manOff h.manSize
  let r := sectionsOf (m.length / 8 + 1) m
  { h := h, bytes := bs.take h.size, sections := r.1, whole := r.2 }

/-- The content of a section; empty when it is absent. -/
def Image.sec (g : Image) (type : Nat) : List Byte :=
  ((g.sections.find? fun x => x.type == type).map (·.body)).getD []

/-- The segment descriptors, 32 bytes each (R91). -/
def Image.segs (g : Image) : List (List Byte) := records 32 (bytesAt g.bytes g.h.segOff (32 * g.h.segCount))

/-- A segment descriptor. -/
def segmentOf (d : List Byte) : Segment :=
  { target := leAt d 0 1, vswatch := leAt d 1 1, cell := leAt d 2 2, loadAddr := leAt d 4 4, bundles := leAt d 8 4
    offset := leAt d 16 8 }

/-- The bundles of a segment. -/
def Image.bundlesOf (g : Image) (x : Segment) : List (BitVec 256) :=
  (records 32 (bytesAt g.bytes x.offset (32 * x.bundles))).map fun w => BitVec.ofNat 256 (leNat w)

/-- The records of the ENGINE section: KIND, ID, ARG, payload, and whether all of the section was read (R203). -/
def engineRecs : Nat → List Byte → List (Nat × Nat × Nat × List Byte) × Bool
  | 0, bs => ([], bs.isEmpty)
  | n + 1, bs =>
    if bs.isEmpty then ([], true)
    else
      let len := leAt bs 4 4
      if bs.length < 8 || len % 8 != 0 || bs.length < 8 + len then ([], false)
      else
        let r := engineRecs n (bs.drop (8 + len))
        ((leAt bs 0 1, leAt bs 1 1, leAt bs 2 2, bytesAt bs 8 len) :: r.1, r.2)

/-- The ENGINE records of an image. -/
def Image.engineRecs (g : Image) : List (Nat × Nat × Nat × List Byte) × Bool :=
  Sys2Proof.Machine.engineRecs ((g.sec 4).length / 8 + 1) (g.sec 4)

/-- A Yoke lane (Table 7.5). -/
def yokeLaneOf (bs : List Byte) : YokeLane :=
  let v := leNat bs
  { enabled := bit v 0, dpanel := bits v 1 3, scell := bits v 4 6, dcell := bits v 10 6, srow := bits v 16 12
    drow := bits v 28 12, words := bits v 40 12, broadcast := bit v 52 }

/-- The Yoke entries of bytes: 64 bytes each, one lane for each panel. -/
def yokeEntries (bs : List Byte) : List (List YokeLane) := (records 64 bs).map fun e => (records 8 e).map yokeLaneOf

/-- The selector rows of a gather table: 512 selectors of 9 bits for each row of 576 bytes. -/
def gatherRows (bs : List Byte) : List (List Nat) :=
  (records 576 bs).map fun r => let v := leNat r; (List.range 512).map fun e => bits v (9 * e) 9

/-- An ENGINE record. -/
def engineRecOf (x : Nat × Nat × Nat × List Byte) : EngineRec :=
  let (kind, id, arg, p) := x
  match kind with
  | 1 => .gather id (gatherRows p)
  | 2 => .twiddle ((List.range arg).map fun i => leAt p (2 * i) 2)
  | 3 => .seed id (leAt p 0 4) (BitVec.ofNat 256 (leAt p 8 32))
  | _ => .yoke arg (yokeEntries p)

/-- A thread descriptor (Table 9.1). -/
def threadOf (d : List Byte) : ThreadDesc :=
  { kind := leAt d 0 1, nseg := leAt d 1 1, binding := leAt d 2 1, segRows := leAt d 4 2, ringBase := bits (leAt d 6 2) 0 12
    count := leAt d 8 4, base := leAt d 12 4, stride := leAt d 16 4, cstride := leAt d 20 4, interval := leAt d 24 4
    entry := leAt d 28 2, modular := !bit (leAt d 28 2) 15, idxRow := bits (leAt d 30 2) 0 12, plateCell := bit (leAt d 30 2) 15 }

/-- A thread descriptor free of reserved bytes and undefined codes (R246). -/
def threadDescOk (d : List Byte) : Bool :=
  let t := threadOf d
  match threadKind t.kind with
  | none => false
  | some k =>
    zeroAt d 3 1 && decide (t.binding < 64) && (k.bound || t.binding == 0) && bits (leAt d 6 2) 12 4 == 0
      && (if k == .hbmAdd then bits t.entry 10 5 == 0 else t.entry == 0)
      && bits (leAt d 30 2) 12 3 == 0 && (k == .tackRead || t.idxRow == 0)

/-- An IO entry (Table 16.4, R452). -/
def ioOf (d : List Byte) : IoEntry :=
  { dir := leAt d 0 1, type := leAt d 1 1, scheme := leAt d 2 1, log2n := leAt d 3 1, chain := leAt d 4 1, level := leAt d 5 1
    layout := leAt d 6 1, hashed := bit (leAt d 7 1) 0, bolts := leAt d 8 4, template := bytesAt d 32 128 }

/-- An IO entry free of reserved fields and codes; an output template that is seeded is refused (R66). -/
def ioEntryOk (d : List Byte) : Bool :=
  let e := ioOf d
  let ttype := leAt d (32 + 4) 1
  decide (e.dir < 4) && decide (leAt d 7 1 < 2) && zeroAt d 12 20 && (e.dir < 2 || e.type == 0)
    && (if e.dir = 1 then ttype != 2 && ttype != 5 else zeroAt d 32 128)

/-- A WEAVE entry (Table 4.18). -/
def weaveOf (d : List Byte) : WeaveEntry :=
  { src := leAt d 0 2, dst := leAt d 2 2, srow := leAt d 4 2, drow := leAt d 6 2, words := leAt d 8 2, route := leAt d 10 1
    vlink := leAt d 11 1 }

/-- A WEAVE entry free of reserved fields and codes; rows that are no multiple of 4 count among them (R101). -/
def weaveEntryOk (d : List Byte) : Bool :=
  let e := weaveOf d
  decide (e.src < 32768) && decide (e.dst < 32768) && decide (e.srow < 4096) && decide (e.drow < 4096) && decide (e.words < 4096)
    && e.srow % 4 == 0 && e.drow % 4 == 0 && decide (e.route < 3) && (e.route == 2 || e.vlink == 0) && decide (e.vlink < 32)
    && zeroAt d 12 4

/-- A virtual link (Table 4.19). -/
def vlinkOf (d : List Byte) : VLink := ⟨leAt d 0 1, leAt d 1 1, leAt d 2 1, leAt d 3 1⟩

/-- A virtual link free of reserved fields and codes. -/
def vlinkOk (d : List Byte) : Bool :=
  let e := vlinkOf d
  decide (e.kind < 2) && decide (e.a < 8) && decide (e.b < 8) && (e.kind == 0 || e.b == 0) && decide (e.assumed < 2) && zeroAt d 4 4

/-- A reservation entry (Table 4.4). -/
def resvOf (d : List Byte) : Resv := ⟨leAt d 0 1, leAt d 1 1, leAt d 2 1, bit (leAt d 3 1) 0⟩

/-- A reservation entry free of reserved fields and codes. -/
def resvOk (d : List Byte) : Bool :=
  let e := resvOf d
  decide (1 ≤ e.cls) && decide (e.cls ≤ 5)
    && decide (e.index < if e.cls = 4 then 32 else if e.cls = 5 then 16 else 8) && decide (leAt d 3 1 < 2) && zeroAt d 4 4

/-- A stitch record (Table 4.5), its plan cycle given. -/
def stitchOf (d : List Byte) (cycle : Nat) : StitchRec :=
  { kind := leAt d 0 1, spliceOut := bit (leAt d 1 1) 0, spliceIn := bit (leAt d 1 1) 1, outputDone := bit (leAt d 1 1) 2
    slotMask := leAt d 2 1, taskMask := leAt d 3 1, threadMask := leAt d 4 2, cycle := cycle }

/-- A stitch record free of reserved fields and codes. -/
def stitchRecOk (d : List Byte) : Bool := decide (leAt d 0 1 < 3) && decide (leAt d 1 1 < 8) && zeroAt d 6 10

/-- A KEYS entry (R460). -/
def keyEntryOf (d : List Byte) : KeyEntry := ⟨leAt d 0 4, bits (leAt d 4 1) 0 3, leAt d 8 4, leAt d 12 2, leAt d 14 2⟩

/-- A KEYS entry free of reserved fields. -/
def keyEntryOk (d : List Byte) : Bool := decide (leAt d 4 1 < 8) && zeroAt d 5 3

/-- Rising numbers from a first one. -/
def risingFrom (prev : Nat) : List Nat → Bool
  | [] => true
  | x :: rest => decide (prev < x) && risingFrom x rest

/-! ### The steps -/

/-- An ENGINE record free of reserved fields and codes (Table 7.7). -/
def engineRecOk (x : Nat × Nat × Nat × List Byte) : Bool :=
  let (kind, id, arg, p) := x
  match kind with
  | 1 => decide (id < 16)
  | 2 => id == 0
  | 3 => decide (id < 32) && arg == 0 && zeroAt p 4 4 && (leAt p 0 4 == 0 || zeroAt p 8 32)
  | 4 => id == 0 && (records 8 p).all fun l => bits (leNat l) 53 11 == 0
  | _ => false

/-- The length of an ENGINE record is that of its payload (Table 7.7). -/
def engineLenOk (x : Nat × Nat × Nat × List Byte) : Bool :=
  let (kind, _, arg, p) := x
  match kind with
  | 1 => p.length == 576 * arg
  | 2 => p.length == cdiv (2 * arg) 8 * 8
  | 3 => p.length == 40
  | 4 => p.length % 64 == 0
  | _ => true

/-- A segment descriptor free of reserved fields and codes; CELL counts only with TARGET 1 (R91). -/
def segmentOk (d : List Byte) : Bool :=
  decide (leAt d 0 1 < 3) && (leAt d 0 1 != 1 || decide (leAt d 2 2 < 512)) && zeroAt d 12 4 && zeroAt d 24 8

/-- Step 4 fails: a baseline above BB1, or a reserved field or code, the bundles and the THREADS section apart (step 9). -/
def Image.step4Bad (g : Image) : Bool :=
  let h := g.h
  let res := g.sec 1
  1 < h.baseline || 1 < h.binding || 1 < h.flags || !zeroAt g.bytes 11 1 || !zeroAt g.bytes 72 52 || (h.binding == 0 && h.configId != 0)
    || (g.sections.any fun x => x.type = 0 || 10 < x.type || x.reserved != 0)
    || (!res.isEmpty && ((bytesAt res 0 64).zipIdx.any fun b => if b.2 < h.swatches then decide (64 ≤ b.1.toNat) else b.1 != 0))
    || ((List.range 4).any fun t => bits (leAt res (136 + 4 * t) 4) 24 8 != 0)
    || ((records 16 (g.sec 2)).any fun d => !keyEntryOk d)
    || (g.engineRecs.1.any fun x => !engineRecOk x)
    || ((records 16 (g.sec 6)).any fun d => !weaveEntryOk d)
    || ((records 8 (g.sec 7)).any fun d => !vlinkOk d)
    || ((records 8 (g.sec 8)).any fun d => !resvOk d)
    || ((records 16 (g.sec 9)).any fun d => !stitchRecOk d)
    || ((records 160 (g.sec 10)).any fun d => !ioEntryOk d)
    || (g.segs.any fun d => !segmentOk d)

/-- A part lies inside the image at a multiple of 64. -/
def ImageHeader.partOk (h : ImageHeader) (off size : Nat) : Bool :=
  off % 64 == 0 && decide (128 ≤ off) && decide (off + size ≤ h.size)

/-- Two parts do not overlap. -/
def apart (a b : Nat × Nat) : Bool := a.2 = 0 || b.2 = 0 || a.1 + a.2 ≤ b.1 || b.1 + b.2 ≤ a.1

/-- The bundles of the image with whether they go to a loose store. -/
def Image.allBundles (g : Image) : List (BitVec 256 × Bool) :=
  g.segs.flatMap fun d =>
    let x := segmentOf d
    (g.bundlesOf x).map fun b => (b, x.target != 0)

/-- A bundle's TSTART names a descriptor beyond the THREADS section (R257). -/
def descBeyond (n : Nat) (b : BitVec 256) : Bool :=
  let w := bits b.toNat 160 32
  bits w 28 4 == 1 && decide (n ≤ bits w 16 8)

/-- Step 6 fails: parts, sections and their lengths, the required sections, the ranges of Table 4.10, stitch KINDs, DESC. -/
def Image.step6Bad (g : Image) : Bool :=
  let h := g.h
  let parts := [(h.manOff, h.manSize), (h.timOff, h.timSize), (h.segOff, 32 * h.segCount)]
  let last := g.sec 9 |> records 16
  let io := records 160 (g.sec 10)
  let hashed := fun dir => (io.filter fun d => (ioOf d).dir == dir && (ioOf d).hashed).length
  !(h.partOk h.manOff h.manSize && h.partOk h.timOff h.timSize)
    || (h.segCount != 0 && !h.partOk h.segOff (32 * h.segCount))
    || !(apart (h.manOff, h.manSize) (h.timOff, h.timSize) && apart (h.manOff, h.manSize) (h.segOff, 32 * h.segCount)
        && apart (h.timOff, h.timSize) (h.segOff, 32 * h.segCount))
    || (h.sigSize != 0 && (!h.partOk h.sigOff h.sigSize || h.sigOff + h.sigSize != h.size
        || parts.any fun p => p.2 != 0 && decide (h.sigOff < p.1 + p.2)))
    || !g.whole || !risingTypes g.sections
    || (g.sec 1).isEmpty || (g.sec 9).isEmpty
    || ((g.sec 1).length != 136 && (g.sec 1).length != 152)
    || h.swatches = 0 || 64 < h.swatches || h.stitchCount < 2 || 4096 < h.stitchCount
    || h.totalCycles = 0 || 2 ^ 48 ≤ h.totalCycles
    || (g.sec 9).length != 16 * h.stitchCount
    || (last.zipIdx.any fun d =>
        leAt d.1 0 1 != (if d.2 = 0 then 0 else if d.2 + 1 = h.stitchCount then 2 else 1))
    || (g.sec 2).length % 16 != 0
    || !g.engineRecs.2 || (g.engineRecs.1.any fun x => !engineLenOk x)
    || (g.sec 5).length % 32 != 0 || 8192 < (g.sec 5).length
    || (g.sec 6).length % 16 != 0 || 65536 < (g.sec 6).length
    || 256 < (g.sec 7).length
    || (g.sec 10).length % 160 != 0 || 64 < io.length || 16 < hashed 0 || 8 < hashed 1
    || (g.allBundles.any fun b => descBeyond ((g.sec 5).length / 32) b.1)

/-- The plan cycles of the timing manifest (R90). -/
def Image.cycles (g : Image) : List Nat :=
  (records 8 (bytesAt g.bytes (g.h.timOff + 8) (8 * g.h.stitchCount))).map leNat

/-- Step 7 fails: the timing manifest is not as R90 requires. -/
def Image.step7Bad (g : Image) : Bool :=
  let c := g.cycles
  g.h.timSize != 8 + 8 * g.h.stitchCount || leAt g.bytes g.h.timOff 8 != g.h.totalCycles || c.head? != some 0
    || !risingFrom 0 (c.drop 1) || c.getLast? != some g.h.totalCycles

/-- Step 8 fails: a segment outside the hashed image, beyond its store, or on no virtual swatch. A segment of no bundles loads nothing
(R123). -/
def Image.step8Bad (g : Image) : Bool :=
  g.segs.any fun d =>
    let x := segmentOf d
    x.bundles != 0 && (g.h.swatches ≤ x.vswatch || g.h.body < x.offset + 32 * x.bundles
      || (if x.target = 0 then 65536 else 8192) < x.loadAddr + x.bundles)

/-- Step 9 fails: a reserved encoding in a bundle or in a thread descriptor. -/
def Image.step9Bad (g : Image) : Bool :=
  (g.allBundles.any fun b => !bundleOk b.1 b.2) || (records 32 (g.sec 5)).any fun d => !threadDescOk d

/-- The plan hash (R88). -/
def Image.hash (g : Image) : BitVec 384 := sha384Num (g.bytes.take g.h.body)

/-! ### Signature blocks (Table 18.7) -/

/-- The entries of a signature block from byte 8 on: ALG, SLOT and signature; none where the block is not well formed. -/
def signatureEntries : Nat → List Byte → Option (List (Nat × Nat × List Byte))
  | 0, bs => if bs.all (· == 0) then some [] else none
  | n + 1, bs =>
    let len := leAt bs 2 2
    let room := cdiv len 8 * 8
    if bs.length < 8 + room || leAt bs 4 4 != 0 || !zeroAt bs (8 + len) (room - len) || leAt bs 0 1 = 0 || 7 < leAt bs 0 1 then none
    else (signatureEntries n (bs.drop (8 + room))).map fun rest => (leAt bs 0 1, leAt bs 1 1, bytesAt bs 8 len) :: rest

/-- The entries of a signature block. -/
def signatureBlock (bs : List Byte) : Option (List (Nat × Nat × List Byte)) :=
  let n := leAt bs 4 1
  if bs.length < 8 || leAt bs 0 4 != 0x3147534B || n = 0 || 4 < n || !zeroAt bs 5 3 then none
  else signatureEntries n (bs.drop 8)

/-- A signature over M under a signer: ML-DSA and Ed25519 sign M, ECDSA and RSA SHA-384 of M (R524). -/
def Signer.verifies (x : Signer) (m sig : List Byte) : Bool :=
  Config.sigVerify x.alg x.key (if x.alg = 3 || x.alg = 4 || 6 ≤ x.alg then sha384 m else m) sig

/-- Every entry of a block verifies over M under the enabled slot it names, whose ALG is the entry's and which serves a target. -/
def blockVerifies (slots : SMap Signer) (serves : Signer → Bool) (m : List Byte) (es : List (Nat × Nat × List Byte)) : Bool :=
  es.all fun e =>
    match mfind e.2.1 slots with
    | some x => x.enabled && x.alg == e.1 && serves x && x.verifies m e.2.2
    | none => false

/-- The C-cycles of the checks of a block (Table 18.2). -/
def blockCycles (es : List (Nat × Nat × List Byte)) : Nat := (es.map fun e => verifyCycles e.1 e.2.2.length).sum

/-- The signature block of an image; none where it has none or an ill-formed one. -/
def Image.block (g : Image) : Option (List (Nat × Nat × List Byte)) :=
  if g.h.sigSize = 0 then none else signatureBlock (bytesAt g.bytes g.h.sigOff g.h.sigSize)

/-- Step 5 under R525: the slots that accept an image for a partition, or none. -/
def Chip.acceptors (s : Chip) (g : Image) (part : Nat) : Option (List Nat) :=
  let m := "KPL1 sign".toList.map (fun c => BitVec.ofNat 8 c.toNat) ++ natLE 48 g.hash.toNat
  g.block.bind fun es =>
    let slots := (es.map fun e => e.2.1).eraseDups
    if !blockVerifies s.trust.signers (fun x => bit x.mask part) m es then none
    else if s.trust.dualSig && !(decide (2 ≤ slots.length) && es.any fun e => e.1 == 1 || e.1 == 2) then none
    else some slots

/-- Plan signing is enforced: Deployed lifecycle with the enable of LDG_POLICY (Table 4.8). -/
def Chip.signingOn (s : Chip) : Bool := s.life == .deployed && s.planSigning

end Sys2Proof.Machine
end

