-- ==== Sys2Proof/Machine/Install.lean ====
section
/-! DEFINITION. TC_PLAN_INSTALL, TC_PLAN_REMOVE and TC_PLAN_QUERY: the steps of Table 4.8 against the device, placement, and what an
install leaves (R92, R97, R102 to R104, R109, R111, R116, R120, R125, R203, R218, R363, R460, R467, R518, R585). -/

namespace Sys2Proof.Machine

/-! ### The plan of an image -/

/-- The IO, key, Weave and other parts of an image as a plan, placed by a plate map. -/
def Image.plan (g : Image) (plateMap : List Nat) : Plan :=
  let res := g.sec 1
  let vsw := (bytesAt res 0 g.h.swatches).map fun b => b.toNat % 64
  let phys := vsw.map fun v => 8 * ((plateMap[v / 8]?).getD 255) + v % 8
  let mods := if (g.sec 3).isEmpty then ([], []) else Config.moduliSection (g.sec 3)
  { hash := g.hash, exact := g.h.binding == 1, fray := bit g.h.flags 0, configId := g.h.configId, totalCycles := g.h.totalCycles
    vswatches := vsw, swatches := phys, plateMap := plateMap
    tasks := (List.range 4).map fun t =>
      let bias := leAt res (136 + 4 * t) 4
      { padRows := leAt res (64 + 4 * t) 4, spillRows := leAt res (80 + 4 * t) 4, lining := leAt res (96 + 8 * t) 8
        biasFirst := bits bias 0 12, biasCount := bits bias 12 12 }
    ganged := leAt res 128 4, looseUse := leAt res 132 4
    keys := (records 16 (g.sec 2)).map keyEntryOf
    moduli := mods.1.foldl (fun (m : SMap (BitVec 256)) e => mput (e.1 % 1024) (BitVec.ofNat 256 e.2) m) []
    chains := mods.2.foldl (fun (m : SMap Chain) e => mput (e.1 % 16) (chainOf e.2.1 e.2.2.1 e.2.2.2) m) []
    engine := g.engineRecs.1.map engineRecOf
    threads := (records 32 (g.sec 5)).map threadOf
    weave := (records 16 (g.sec 6)).map weaveOf
    seam := (records 8 (g.sec 7)).map vlinkOf
    resvs := (records 8 (g.sec 8)).map resvOf
    stitches := ((records 16 (g.sec 9)).zip g.cycles).map fun d => stitchOf d.1 d.2
    io := (records 160 (g.sec 10)).map ioOf
    segments := g.segs.map segmentOf
    bundles := ((g.segs.map segmentOf).map (·.bundles)).sum }

/-- The physical swatch of a virtual swatch index. -/
def Plan.swatchAt (p : Plan) (v : Nat) : Nat := (p.swatches[v]?).getD 0

/-- The virtual plates a plan uses: those of its virtual swatches, of its virtual links, of its keys and reservations. -/
def Plan.vplates (p : Plan) : List Nat :=
  let own : List Nat := p.vswatches.map fun v => v / 8
  let links : List Nat := p.seam.flatMap fun l => if l.kind = 0 then [l.a, l.b] else [l.a]
  let keyed : List Nat := p.keys.map fun k => k.vplate
  let held : List Nat := (p.resvs.filter fun r => decide (r.cls ≤ 3)).map fun r => r.index
  (own ++ links ++ keyed ++ held).eraseDups

/-! ### Step 10 -/

/-- The usable physical cells of a panel: the cells of 0 to 65 that neither Ledger retires, rising (CEL_GOOD). -/
def Chip.goodCells (s : Chip) (panel : Nat) : List Nat :=
  (List.range 66).filter fun c => !s.ledger.factoryCells.contains (66 * panel + c) && !s.ledger.userCells.contains (66 * panel + c)

/-- The panels of a plan's swatches. -/
def Plan.panels (p : Plan) : List Nat := p.swatches.flatMap fun sw => (List.range 8).map fun q => sw * 8 + q

/-- The binding that the device chooses: virtual cell c of a panel is the c-th usable physical cell (R104). -/
def Chip.ownBinding (s : Chip) (p : Plan) : SMap (List Nat) :=
  p.panels.foldl (fun (m : SMap (List Nat)) q => mput q ((s.goodCells q).take 64) m) []

/-- The records of a Grid binding table, or none where it is malformed (Table 4.20). -/
def bindingTable (bs : List Byte) : Option (List (Nat × List Nat)) :=
  let n := leAt bs 4 2
  if bs.length < 16 || leAt bs 0 4 != 0x3154424B || n = 0 || 512 < n || bs.length < 16 + 72 * n then none
  else
    let recs := records 72 (bytesAt bs 16 (72 * n))
    if recs.any fun r => !zeroAt r 2 6 then none
    else some (recs.map fun r => (leAt r 0 2, (bytesAt r 8 64).map (·.toNat)))

/-- A Grid binding table suits a plan (R104). -/
def Chip.bindingOk (s : Chip) (p : Plan) (recs : List (Nat × List Nat)) : Bool :=
  p.panels.all fun q =>
    match recs.filter fun r => r.1 == q with
    | [r] => r.2.eraseDups.length == 64 && r.2.all fun c => (s.goodCells q).contains c
    | _ => false

/-- The plate map suits a plan (R92, R104): every plate in use mapped to its own plate, no other mapped. -/
def plateMapOk (p : Plan) (m : List Nat) : Bool :=
  let used := p.vplates
  let phys := used.map fun v => (m[v]?).getD 255
  m.length == 8 && (m.all fun x => decide (x < 8) || x == 255) && phys.all (· < 8) && phys.eraseDups.length == used.length
    && (List.range 8).all fun v => used.contains v || (m[v]?).getD 255 == 255

/-- The port pair of a virtual link: the sending plate's port and the other end's, none where no port joins the plates (R92). -/
def Plan.linkPorts (p : Plan) (l : VLink) : Option (List Nat) :=
  let a := p.plate l.a
  if l.kind = 1 then some [portKey a 0]
  else
    let b := p.plate l.b
    (([1, 2, 3].find? fun x => seamPeer a x |>.any fun y => y.1 == b).bind fun x =>
      (seamPeer a x).map fun y => [portKey a x, portKey y.1 y.2])

/-- The Seam ports that the threads of a plan cross besides its virtual links: those on the way to the stack of another plate, and port C for
control memory and fabric tensors (R251, R263, R276, R309). -/
def Chip.threadPorts (s : Chip) (p : Plan) (handles : List Nat) : List Nat :=
  let plates := (p.swatches.map plateOf).eraseDups
  let collar := plates.map fun a => portKey a 0
  let of := fun (d : ThreadDesc) =>
    match threadKind d.kind, p.io[d.binding]? with
    | some k, some e =>
      if !k.bound then []
      else if e.dir == 3 then collar
      else
        match s.bufOf ((handles[d.binding]?).getD 0) with
        | none => []
        | some b =>
          if isControl b.kind then collar
          else if 8 ≤ stackOf b.addr then []
          else plates.flatMap fun a =>
            let path := ringPath a (stackOf b.addr)
            (path.zip (path.drop 1)).flatMap fun h => [portKey h.1 (portTo h.1 h.2), portKey h.2 (portTo h.2 h.1)]
    | _, _ => []
  (p.threads.flatMap of).eraseDups

/-- A port that the threads of a plan need is down (R309). -/
def Chip.threadsCut (s : Chip) (p : Plan) (handles : List Nat) : Bool := (s.threadPorts p handles).any fun k => (s.seam k).mode == 2

/-- The worse mode of the ends of a virtual link: 0 Full, 1 Fray, 2 or more down. -/
def Chip.linkMode (s : Chip) (ports : List Nat) : Nat := (ports.map fun k => (s.seam k).mode).foldl max 0

/-- A mesh route's swatch rows belong to the partition (R102). -/
def Chip.meshOwned (s : Chip) (part a b : Nat) : Bool :=
  let wa := swatchOf a % 8
  let wb := swatchOf b % 8
  (List.range 8).all fun w =>
    !(decide (min wa wb ≤ w) && decide (w ≤ max wa wb)) || (s.swatch (plateOf (swatchOf a) * 8 + w)).owner == some part

/-- The routes of a plan suit its placement (R102): checked at install, and at a start after a change of membership. -/
def Chip.routesOk (s : Chip) (part : Nat) (p : Plan) : Bool :=
  p.weave.all fun e =>
    let va := e.src / 4096 % 8
    let vb := e.dst / 4096 % 8
    let a := p.cellOf e.src
    let b := p.cellOf e.dst
    let owned := p.plate va < 8 && p.plate vb < 8 && (s.swatch (swatchOf a)).owner == some part
      && (s.swatch (swatchOf b)).owner == some part
    owned && match e.route with
      | 0 => va == vb && s.meshOwned part a b
      | 1 => va == vb
      | _ =>
        match p.seam[e.vlink]? with
        | some l => l.kind == 0 && ((l.a == va && l.b == vb) || (l.a == vb && l.b == va))
        | none => false

/-- The placement part of step 10: plates, swatches, stacks in service, links joined and not Full where Fray is assumed. -/
def Chip.placementOk (s : Chip) (part : Nat) (p : Plan) : Bool :=
  plateMapOk p p.plateMap
    && p.swatches.eraseDups.length == p.swatches.length
    && (p.swatches.all fun sw => (s.swatch sw).owner == some part)
    && (p.vplates.all fun v => (s.stack (p.plate v)).ready)
    && (p.seam.all fun l =>
      match p.linkPorts l with
      | some ks => !(l.assumed == 1 && s.linkMode ks == 0)
      | none => false)
    && s.routesOk part p

/-- Step 11: a mapped port is down or more degraded than assumed. -/
def Chip.linksFrayed (s : Chip) (p : Plan) : Bool :=
  p.seam.any fun l => (p.linkPorts l).any fun ks => decide (l.assumed < s.linkMode ks)

/-! ### Step 12 -/

/-- The first status of a list that is not ST_OK. -/
def firstStatus : List Status → Status
  | [] => .ok
  | st :: rest => if st = .ok then firstStatus rest else st

/-- The shadow table with a plan's entries and chains written over it: a passing image sets VALID, and its reserved bits read as zero
(R42, R43). -/
def Plan.overlay (p : Plan) (t : ModTable) : ModTable :=
  let es := p.moduli.foldl (fun (m : SMap (BitVec 256)) e => mput e.1 (validEntry e.2) m) t.entries
  let cs := p.chains.foldl (fun (m : SMap Chain) e => mput e.1 e.2 m) t.chains
  { t with entries := es, chains := cs }

/-- Step 12: every entry from its FMT check onward, every chain, every required twiddle set (R203). -/
def Chip.moduliStatus (s : Chip) (part : Nat) (p : Plan) : Status :=
  let q := s.part part
  let t := p.overlay q.shadow
  let tws := p.engine.flatMap fun e => match e with
    | .twiddle ids => ids
    | _ => []
  firstStatus ((p.moduli.map fun e => checkEntry q.twsets e.2) ++ (p.chains.map fun c => t.checkChain c.2)
    ++ tws.map fun id => if (mfind id q.twsets).isSome then Status.ok else Status.badModulus)

/-! ### Step 14: room in cells, stores and grants -/

/-- The other installed plans of a partition on a swatch. -/
def Partition.plansOn (q : Partition) (sw : Nat) : List Plan := (q.plans.map (·.2)).filter fun p => p.swatches.contains sw

/-- Place the Pad region of each task slot of a plan in one swatch: at multiples of 16 physical rows, outside the other plans' regions,
the spill rows at its top (R218). A count of 0 is no bias region, whatever its first row (R242). The four slots of Table 8.5 are those that RESOURCES
can name, which each plan takes for itself when it starts (R156; DEDUCED, log entry 73). -/
def placeTasks : List TaskRes → List (Nat × Nat) → Option (List TaskSlot)
  | [], _ => some []
  | t :: rest, busy =>
    let clear := decide (t.spillRows ≤ t.padRows) && (t.biasCount == 0
      || (t.biasFirst % 16 == 0 && t.biasCount % 16 == 0 && decide (t.biasFirst + t.biasCount ≤ t.padRows - t.spillRows)))
    if !clear then none
    else if t.padRows = 0 then (placeTasks rest busy).map fun l => {} :: l
    else
      match placeIn 16 t.padRows 4096 busy with
      | none => none
      | some b =>
        (placeTasks rest (busy ++ [(b, b + t.padRows)])).map fun l =>
          { padBase := b, padBound := b + t.padRows, spillBase := b + t.padRows - t.spillRows, spillBound := b + t.padRows
            biasFirst := t.biasFirst, biasCount := t.biasCount } :: l

/-- The Pad rows busy in a swatch. -/
def Chip.busyPad (s : Chip) (part sw : Nat) : List (Nat × Nat) :=
  ((s.part part).plansOn sw).flatMap fun p => (mget [] sw p.regions).map fun t => (t.padBase, t.padBound)

/-- Lines per cell of each task slot. -/
def Plan.cellLines (p : Plan) : List Nat := p.tasks.map fun t => cdiv t.lining 144

/-- Place the lines of each task slot in one swatch: 512 cells, each with its own lines. -/
def placeLines : List Nat → List (Nat × Nat) → Option (List (Nat × Nat))
  | [], _ => some []
  | n :: rest, busy =>
    if n = 0 then (placeLines rest busy).map fun l => (0, 0) :: l
    else
      match placeIn 1 (512 * n) liningLines busy with
      | none => none
      | some b => (placeLines rest (busy ++ [(b, b + 512 * n)])).map fun l => (b, n) :: l

/-- Place a plan's lines, swatch by swatch: each swatch's placement is busy for the next on the same plate. -/
def Chip.placeLining (s : Chip) (p : Plan) : List Nat → SMap (List (Nat × Nat)) → Option (SMap (List (Nat × Nat)))
  | [], m => some m
  | sw :: rest, m =>
    let mine := (m.filter fun e => plateOf e.1 == plateOf sw).flatMap fun e => e.2.map fun r => (r.1, r.1 + 512 * r.2)
    match placeLines p.cellLines (s.busyLines (plateOf sw) ++ mine) with
    | none => none
    | some l => s.placeLining p rest (mput sw l m)

/-- Task slots with their Lining region for local cell 0. -/
def withLining (ts : List TaskSlot) (ls : List (Nat × Nat)) : List TaskSlot :=
  (ts.zip ls).map fun x => { x.1 with lngBase := x.2.1, lngBound := x.2.1 + x.2.2 }

/-- A plan with its Pad and Lining regions, or none where they do not fit (step 14). -/
def Chip.placeRegions (s : Chip) (part : Nat) (p : Plan) : Option Plan :=
  match s.placeLining p p.swatches [] with
  | none => none
  | some lin =>
    let pads := p.swatches.map fun sw => (sw, placeTasks p.tasks (s.busyPad part sw))
    if pads.any fun x => x.2.isNone then none
    else
      let regs := pads.foldl (fun (m : SMap (List TaskSlot)) x => mput x.1 (withLining (x.2.getD []) (mget [] x.1 lin)) m) []
      some { p with regions := regs, lining := lin }

/-- The Lining quota of every plate holds with a plan added (R450). -/
def Chip.liningFits (s : Chip) (part : Nat) (p : Plan) : Bool :=
  (List.range 8).all fun plate =>
    let new := ((p.swatches.filter fun sw => plateOf sw == plate).map fun _ => 512 * p.cellLines.sum).sum
    new == 0 || decide (s.liningUse part plate + new ≤ mget 0 plate (s.part part).quotas.lining)

/-- The bundles of an image with the swatch, the cells and the store they go to: ganged (no cell) or loose. -/
def Image.loads (g : Image) (p : Plan) : List (Nat × Option (List Nat) × Nat × BitVec 256) :=
  p.segments.flatMap fun x =>
    let sw := p.swatchAt x.vswatch
    let cells := if x.target = 0 then none
      else if x.target = 1 then some [cellNo sw x.cell]
      else some (swatchCells sw)
    (g.bundlesOf x).zipIdx.map fun b => (sw, cells, x.loadAddr + b.2, b.1)

/-- A plan holds an entry of the swatch's bundle buffer, or of a cell's loose store. -/
def Plan.holdsEntry (p : Plan) (sw : Nat) (cell : Option Nat) (a : Nat) : Bool :=
  p.segments.any fun x =>
    p.swatchAt x.vswatch == sw && decide (x.loadAddr ≤ a) && decide (a < x.loadAddr + x.bundles)
      && match cell with
        | none => x.target == 0
        | some c => x.target == 2 || (x.target == 1 && cellNo sw x.cell == c)

/-- The stores of a swatch have room for a plan's bundles (R93, R94): the declared uses fit, and no entry that another plan holds
would change. -/
def Chip.storesFit (s : Chip) (part : Nat) (p : Plan) (g : Image) : Bool :=
  (p.swatches.all fun sw =>
      let others := (s.part part).plansOn sw
      decide (p.ganged + (others.map (·.ganged)).sum ≤ 65536) && decide (p.looseUse + (others.map (·.looseUse)).sum ≤ 8192))
    && (g.loads p).all fun l =>
      let (sw, cells, a, b) := l
      let others := (s.part part).plansOn sw
      match cells with
      | none => !(others.any fun o => o.holdsEntry sw none a) || mget 0 a (s.swatch sw).bundles == b
      | some cs => cs.all fun c => !(others.any fun o => o.holdsEntry sw (some c) a) || mget 0 a (s.cell c).looseStore == b

/-- Load the bundles (R91). -/
def Chip.loadBundles (s : Chip) (p : Plan) (g : Image) : Chip :=
  (g.loads p).foldl (fun t l =>
    let (sw, cells, a, b) := l
    match cells with
    | none => t.updSwatch sw fun w => { w with bundles := mset 0 a b w.bundles }
    | some cs => t.updCells cs fun _ c => { c with looseStore := mset 0 a b c.looseStore }) s

/-- Two ENGINE records claim one id or entry with different contents (R203). -/
def claimsClash : EngineRec → EngineRec → Bool
  | .gather i a, .gather j b => i == j && a != b
  | .seed i k a, .seed j l b => i == j && (k != l || a != b)
  | .yoke f a, .yoke h b => (a.zipIdx.any fun x => b.zipIdx.any fun y => f + x.2 == h + y.2 && x.1 != y.1)
  | _, _ => false

/-- Put a gather table into a store: in the lowest rows that hold it; none where the 256 rows are full. -/
def GatherStore.put (id : Nat) (rows : List (List Nat)) (g : GatherStore) : Option GatherStore :=
  let tables := mdel id g.tables
  let busy := tables.map fun t => (t.2.1, t.2.1 + t.2.2)
  (placeIn 1 rows.length 256 busy).map fun b =>
    { rows := rows.zipIdx.foldl (fun (m : SMap (List Nat)) r => mput (b + r.2) r.1 m) g.rows
      tables := mput id (b, rows.length) tables }

/-- The gather tables of a plan put into a store. -/
def GatherStore.putAll (g : GatherStore) : List EngineRec → Option GatherStore
  | [] => some g
  | .gather id rows :: rest => (g.put id rows).bind fun h => h.putAll rest
  | _ :: rest => g.putAll rest

/-- The engine stores hold a plan's claims (R203). -/
def Chip.enginesFit (s : Chip) (part : Nat) (p : Plan) : Bool :=
  (p.engine.all fun e => match e with | .yoke f es => decide (f + es.length ≤ 4096) | _ => true)
    && p.swatches.all fun sw =>
      let others := ((s.part part).plansOn sw).flatMap (·.engine)
      !(p.engine.any fun e => others.any fun o => claimsClash e o)
        && ((s.panel (sw * 8)).shadow.gather.putAll p.engine).isSome

/-- The SEED of the container in a buffer (R69). -/
def Chip.seedIn (s : Chip) (handle : Nat) : BitVec 256 :=
  match s.bufOf handle with
  | some b => BitVec.ofNat 256 (s.headerAt b 0).seed
  | none => 0

/-- The SEED of a registered key's container (R461). -/
def Chip.keySeed (s : Chip) (part keyId : Nat) : BitVec 256 :=
  match mfind keyId (s.part part).keys with
  | some k => s.seedIn k.handle
  | none => 0

/-- Put seeds into slots of the shadow bank of every panel of a swatch; they are no items of TC_ENGINE_STORE (R202, R203). -/
def Chip.putSeeds (s : Chip) (sw : Nat) (seeds : List (Nat × BitVec 256)) : Chip :=
  let s := (List.range 8).foldl (fun (t : Chip) q => t.updPanel (sw * 8 + q) fun pn =>
    { pn with shadow := { pn.shadow with seeds := seeds.foldl (fun (m : SMap (BitVec 256)) x => mput x.1 x.2 m) pn.shadow.seeds } }) s
  s.updSwatch sw fun w => { w with pinSeeds := w.pinSeeds.filter fun i => !(seeds.any fun x => x.1 == i) }

/-- A key is resident in a key window of the partition from a buffer. -/
def Chip.keyLoaded (s : Chip) (part keyId : Nat) : Option Nat :=
  ((s.part part).keyRanges.find? fun r => r.keyId == keyId && r.loaded).map (·.handle)

/-- Write the ENGINE records of a plan into the shadow banks of its swatches; a seed that a key gives is written once the key is
resident. A record takes the place of an item that TC_ENGINE_STORE wrote under its id (R202, R203, R461). -/
def Chip.loadEngines (s : Chip) (part : Nat) (p : Plan) : Chip :=
  p.swatches.foldl (fun t sw =>
    let t := (List.range 8).foldl (fun (t : Chip) q => t.updPanel (sw * 8 + q) fun pn =>
      { pn with shadow := { pn.shadow with gather := (pn.shadow.gather.putAll p.engine).getD pn.shadow.gather } }) t
    let seeds := p.engine.filterMap fun e => match e with
      | .seed slot key lit => if key = 0 then some (slot, lit) else (s.keyLoaded part key).map fun h => (slot, s.seedIn h)
      | _ => none
    let tables := p.engine.filterMap fun e => match e with | .gather i _ => some i | _ => none
    let t := (t.putSeeds sw seeds).updSwatch sw fun w => { w with pinTables := w.pinTables.filter fun i => !tables.contains i }
    let t := p.engine.foldl (fun t e =>
      match e with
      | .yoke f es => t.updSwatch sw fun w =>
          { w with yoke := es.zipIdx.foldl (fun (m : SMap (List YokeLane)) x => mput (f + x.2) x.1 m) w.yoke }
      | _ => t) t
    t.settleStores sw) s

/-! ### Keys (R227, R228, R460) -/

/-- The bytes of the key container in a registration. -/
def Chip.keyBytes (s : Chip) (part keyId : Nat) : Nat :=
  match (mfind keyId (s.part part).keys).bind fun k => s.bufOf k.handle with
  | some b => let h := s.headerAt b 0; h.size (h.m18 (s.part part).master)
  | none => 0

/-- Every KEYS entry lies within the key window of its plate (R228). -/
def Chip.keysFit (s : Chip) (part : Nat) (p : Plan) : Bool :=
  p.keys.all fun k =>
    let w := mget {} (p.plate k.vplate) (s.part part).keyWin
    decide (k.offset + cdiv (s.keyBytes part k.keyId) 144 ≤ w.bound - w.base)

/-- A key container lies on the stack of a plate already: the registered buffer, or a copy (R460). -/
def Chip.keyOn (s : Chip) (part keyId plate : Nat) : Option Nat :=
  match mfind keyId (s.part part).keys with
  | none => none
  | some k =>
    match s.bufOf k.handle with
    | some b => if b.kind = 0 && stackOf b.addr = plate then some k.handle else mfind plate k.copies
    | none => mfind plate k.copies

/-- Copy a key container to the stack of a plate, charged to the HBM quota (R460). None where no room is left. -/
def Chip.copyKey (s : Chip) (part keyId plate : Nat) : Option Chip :=
  if (s.keyOn part keyId plate).isSome then some s
  else
    let n := s.keyBytes part keyId
    match s.allocBuf part 0 plate (cdiv n 576) false with
    | .error _ => none
    | .ok (h, t) =>
      match (mfind keyId (t.part part).keys).bind fun k => t.bufOf k.handle, t.bufOf h with
      | some a, some b =>
        let bytes := memReadN t.mem a.addr n
        let t := { t with mem := memWriteN t.mem b.addr bytes }
        some (t.updPart part fun q =>
          { q with keys := mupd ⟨0, [], []⟩ keyId (fun k => { k with copies := mput plate h k.copies }) q.keys })
      | _, _ => none

/-- The copies a plan needs, in the order of its KEYS section. -/
def Chip.copyKeys (s : Chip) (part : Nat) (p : Plan) : List KeyEntry → Option Chip
  | [] => some s
  | k :: rest => (s.copyKey part k.keyId (p.plate k.vplate)).bind fun t => t.copyKeys part p rest

/-! ### Reservations (R363, R366) -/

/-- The entries of a plan in a class of a resource. -/
def Plan.resEntries (p : Plan) (r cls : Nat) : List Resv :=
  p.resvs.filter fun e =>
    if r < 8 then e.cls == cls + 1 && p.plate e.index == r
    else if r < 24 then
      e.cls == 4 && match p.seam[e.index]? with
        | some l => resOfSeam (p.plate l.a) (if l.kind = 1 then 0 else portTo (p.plate l.a) (p.plate l.b)) == r
        | none => false
    else e.cls == 5 && e.index == r - 24

/-- The conditions of R363 that fail: resource, class, the least grant that meets them, and whether it must be strict. -/
def Chip.shortGrants (s : Chip) (part : Nat) (p : Plan) : List (Nat × Nat × Nat × Bool) :=
  let plans := ((s.part part).plans.map (·.2)) ++ [p]
  (List.range 40).flatMap fun r => (List.range (resClasses r)).filterMap fun c =>
    let g := mget {} (grantKey r c) (s.part part).grants
    let d := demand (s.swatchesOf part) plans fun x => x.resUnits r c
    let strict := (p.resEntries r c).any fun e => e.strict && e.units != 0
    if g.units < d || (strict && !g.strict) then some (r, c, max d g.units, g.strict || strict) else none

/-- The debug selection of a first plan doubles the Seam charges (R111, R366). -/
def Chip.debugAdmits (s : Chip) : Bool := (List.range 16).all fun i => s.admits (8 + i)

/-- The package with the grants that a plan needs, or none (R363). -/
def Chip.grantFor (s : Chip) (part : Nat) (p : Plan) : Option Chip :=
  let short := s.shortGrants part p
  if p.resvs.any fun e => decide (62 < e.units) then none
  else if short.isEmpty then some s
  else if !(s.part part).growOnInstall || short.any fun x => decide (62 < x.2.2.1) then none
  else
    let t := short.foldl (fun t x => t.updPart part (Partition.setGrant x.1 x.2.1 x.2.2.1 x.2.2.2)) s
    if short.all fun x => t.admits x.1 then some (t.capacityChange ((short.map (·.1)).eraseDups) false) else none

/-! ### The plan log (R518) -/

/-- Add one event to the plan log: kind, partition, slot, the hash; the digest is extended and the last 1 024 records are kept. -/
def Chip.planEvent (s : Chip) (kind part slot : Nat) (digest : BitVec 384) : Chip :=
  let x := s.trust
  let rec_ := natLE 1 kind ++ natLE 1 part ++ natLE 1 slot ++ natLE 5 0 ++ natLE 8 x.planSeq ++ natLE 48 digest.toNat
  let d := sha384Num (natLE 48 x.planDigest.toNat ++ rec_)
  { s with trust := { x with
      planDigest := d
      planSeq := x.planSeq + 1
      planLog := (⟨kind, part, slot, x.planSeq, digest, d⟩ :: x.planLog).take 1024 } }

/-! ### Measurements (R517) -/

/-- LDG_POLICY (Table 18.13). -/
def Chip.policyValue (s : Chip) : Nat :=
  b2n s.expert + 2 * b2n s.planSigning + 4 * b2n s.trust.dualSig + 8 * b2n s.trust.keySigning + 16 * b2n s.trust.restricted
    + 2 ^ 31 * b2n s.trust.locked

/-- The code of a lifecycle state (R519). -/
def Lifecycle.code : Lifecycle → Nat
  | .manufacturing => 0
  | .provisioned => 1
  | .deployed => 2
  | .returned => 3

/-- A Ledger's items as numbers. -/
def itemNums (m : SMap Int) : List Nat := m.flatMap fun e => [e.1, b2n (decide (e.2 < 0)), e.2.natAbs]

/-- The signer lists and policy keys as numbers. -/
def Seal.lists (x : Seal) : List Nat :=
  (x.policyKeys.flatMap fun e => [e.1, e.2.hash.toNat, b2n e.2.revoked])
    ++ ((x.signers ++ x.keySigners).flatMap fun e => [e.1, e.2.alg, leNat e.2.key, e.2.mask, b2n e.2.enabled])

/-- What the measurements 6 to 10 cover (Table 18.4). -/
def Chip.measuredContent (s : Chip) : Nat → List Nat
  | 6 => itemNums s.ledger.factory ++ s.ledger.factoryCells
  | 7 => itemNums s.ledger.user ++ s.ledger.userCells ++ s.ledger.lanes
  | 8 => [s.life.code, s.policyValue] ++ s.trust.svn.flatMap fun e => [e.1, e.2]
  | 9 => s.trust.lists
  | _ => [s.configId, s.boot.fwBaseline]

/-- Take a measurement of index 6 to 10 at boot: zero for a rejected User Ledger image. -/
def Chip.measure (s : Chip) (i : Nat) : Chip :=
  let d := if i = 7 && !s.ledger.userApplied then 0 else Config.measure i (s.measuredContent i)
  { s with trust := { s.trust with meas := mput i d s.trust.meas } }

/-- The content of index 8, 9 or 10 has changed in service: the register is rewritten and the plan log records it, kind 4 for the
Configuration ID and kind 3 otherwise (R517, R518). -/
def Chip.remeasure (s : Chip) (i : Nat) : Chip :=
  let s := s.measure i
  s.planEvent (if i = 10 then 4 else 3) 0 0 (mget 0 i s.trust.meas)

/-! ### TC_PLAN_INSTALL -/

/-- The grade above Management-only. -/
def Chip.serving (s : Chip) : Bool := s.grade != .mgmt

/-- The installed plans of the package. -/
def Chip.installed (s : Chip) : Nat := (s.parts.map fun e => e.2.plans.length).sum

/-- Step 14: what fits, as the package with its grants, key copies and debug selection, and the placed plan. -/
def Chip.step14 (s : Chip) (part : Nat) (p : Plan) (g : Image) (debug : Bool) : Option (Chip × Plan) :=
  let q := s.part part
  let t := s.updPart part fun q => { q with debug := debug }
  if 64 ≤ q.plans.length || 1024 ≤ s.installed then none
  else if !s.liningFits part p || !s.storesFit part p g || !s.enginesFit part p || !s.keysFit part p then none
  else if q.plans.isEmpty && debug && !t.debugAdmits then none
  else
    match s.placeRegions part p, t.grantFor part p with
    | some placed, some t => (t.copyKeys part p p.keys).map fun t => (t, placed)
    | _, _ => none

/-- The MODULI section of a plan enters the shadow table, at once when the partition runs no plan, else when the plan starts (R52). -/
def Chip.loadModuli (s : Chip) (part : Nat) (p : Plan) : Chip :=
  if p.moduli.isEmpty && p.chains.isEmpty then s else s.writeShadow part p.overlay

/-- The task slots of local cell c of a swatch of a plan: Lining lines are the cell's own. -/
def Plan.cellTasks (p : Plan) (sw c : Nat) : List TaskSlot :=
  let ts := mget [{}, {}, {}, {}] sw p.regions
  let ls := mget [] sw p.lining
  ts.zipIdx.map fun x =>
    match ls[x.2]? with
    | some (b, n) => { x.1 with lngBase := b + c * n, lngBound := b + (c + 1) * n }
    | none => x.1

/-- The cells take the task-slot fields of an installed plan, where the slot is not another plan's and the swatch runs none (R138, R219). -/
def Chip.holdSlots (s : Chip) (part : Nat) (p : Plan) : Chip :=
  p.swatches.foldl (fun (t : Chip) sw =>
    let others := (((s.part part).plansOn sw).filter fun o => o.regions != p.regions || o.hash != p.hash)
    t.fieldSlots sw Plan.usesTask p others fun c k => ((p.cellTasks sw c)[k]?).getD {}) s

/-- Complete an install: the plan takes the lowest free slot, its bundles, stores and entries are loaded, the log is extended. -/
def Chip.commitInstall (s : Chip) (part : Nat) (p : Plan) (g : Image) : Chip × Nat :=
  let slot := (lowestFree (s.part part).plans 64).getD 0
  let due := !(s.runsOf part).isEmpty && !(p.moduli.isEmpty && p.chains.isEmpty)
  let s := if due then s else s.loadModuli part p
  let s := s.updPart part fun q => { q with plans := mput slot { p with moduliDue := due } q.plans }
  let s := (((s.keepShadow part).loadBundles p g).loadEngines part p).holdSlots part p
  let s := (if (s.part part).debug then s.reshare else s).planEvent 1 part slot p.hash
  (s, slot)

/-- What the Seal finds of an image's signatures for step 5: the hash that they are of and the slots that accept it. -/
abbrev Signed := BitVec 384 × Option (List Nat)

/-- Step 5 fails: the signatures that were checked do not accept this image, or, with plan signing enforced, there were none to check. -/
def Chip.step5Bad (s : Chip) (g : Image) : Option Signed → Bool
  | some x => x.1 != g.hash || x.2.isNone
  | none => s.signingOn

/-- An install: the steps of Table 4.8 in order; DETAIL is the failing step (R109). `signed` is what the Seal has found for step 5. A binding
table's handle that names no buffer, another partition's or a KEY buffer, and a record with nonzero reserved bytes, fail step 10; the
table's header bytes 6 and 7 are not checked (log 78, DESIGN CHOICE). -/
def Chip.installPlan (s : Chip) (c : Call) (part image : Nat) (plateMap : List Nat) (table : Nat) (debug : Bool) (signed : Option Signed) :
    Chip × Status × Nat × List Nat :=
    if !s.serving then fails s .resetInProgress 2 else
    match s.checkHandle c part 0x0301 image with
    | (s, .error st) => fails s st 0
    | (s, .ok b) =>
      let hd := ImageHeader.ofBytes (memReadN s.mem b.addr 128)
      let room := 576 * b.bolts
      let g := Image.ofBytes (memReadN s.mem b.addr (min hd.size room))
      let p := g.plan plateMap
      let recs : Option (List (Nat × List Nat)) :=
        match s.bufOf table with
        | some tb => if tb.part = part && tb.kind != 1 then bindingTable (memReadN s.mem tb.addr (576 * tb.bolts)) else none
        | none => none
      let bound := if p.exact then table == 0 && p.configId == s.configId else (recs.map fun r => s.bindingOk p r).getD false
      let debugOk := (s.part part).plans.isEmpty || (s.part part).debug == debug
      match firstBad [
        (!s.serving || (s.part part).resetting, .resetInProgress, 2),
        (step3Bad hd (memReadN s.mem b.addr 128) room, .badShape, 3),
        (g.step4Bad, .notSupported, 4),
        (s.step5Bad g signed, .signature, 5),
        (g.step6Bad, .badShape, 6),
        (g.step7Bad, .badShape, 7),
        (g.step8Bad, .badShape, 8),
        (g.step9Bad, .notSupported, 9),
        (!bound || !s.placementOk part p || !debugOk, .configMismatch, 10),
        (s.linksFrayed p, .routeFrayed, 11),
        (s.moduliStatus part p != .ok, s.moduliStatus part p, 12),
        (p.keys.any fun k => (mfind k.keyId (s.part part).keys).isNone, .notResident, 13)] with
      | some (st, n) => fails s st n
      | none =>
        match s.step14 part p g debug with
        | none => fails s .overcommit 14
        | some (t, p) =>
          let cells := if p.exact then s.ownBinding p
            else (recs.getD []).foldl (fun (m : SMap (List Nat)) r => mput r.1 r.2 m) []
          let signers := (signed.bind fun x => x.2).getD []
          let (t, slot) := t.commitInstall part { p with binding := cells, imageHandle := image, signers := signers } g
          succeeds (t.noteArrivals part) [slot]

/-- The well-formed signature block of an install that reaches step 5 with plan signing enforced, with its image. -/
def Chip.toVerify (s : Chip) (c : Call) (part image : Nat) : Option (Image × List (Nat × Nat × List Byte)) :=
  if !s.signingOn || !s.serving then none
  else
    match (s.checkHandle c part 0x0301 image).2 with
    | .error _ => none
    | .ok b =>
      let bs := memReadN s.mem b.addr 128
      let hd := ImageHeader.ofBytes bs
      let room := 576 * b.bolts
      let g := Image.ofBytes (memReadN s.mem b.addr (min hd.size room))
      if step3Bad hd bs room || g.step4Bad then none else g.block.map fun es => (g, es)

/-- Answer an install. A debug-mode install completes once the debug PLLs of its swatches' plates are locked; a PLL that no debug selection
needs has stopped (R413). -/
def Chip.finishInstall (s : Chip) (c : Call) (part image : Nat) (plateMap : List Nat) (table : Nat) (debug : Bool) (signed : Option Signed) :
    Chip :=
    let (s, st, n, out) := s.dropDebugLocks.installPlan c part image plateMap table debug signed
    let waits := s.debugPlates.filter fun p => !(mget {} p s.plates).dbgLock
    if st == .ok && debug && !waits.isEmpty then
      { s with
        plates := waits.foldl (fun (m : SMap Plate) p => mupd {} p (fun x => { x with dbgWait := true }) m) s.plates
        tlr := { s.tlr with dbgInstalls := s.tlr.dbgInstalls ++ [⟨c.fn, c.tag, out.headD 0, waits, false⟩] } }
    else s.respond c 0x0301 st n out

/-- TC_PLAN_INSTALL. With plan signing enforced, step 5 is a LOW job of the Seal, under the policy in force when the install is served, and
the install goes on when the job ends (R504, R530). -/
def tcPlanInstall (c : Call) (part image : Nat) (plateMap : List Nat) (table : Nat) (debug : Bool) (s : Chip) : Chip :=
  match s.common c { part := some part } [] with
  | some (st, n) => s.respond c 0x0301 st n []
  | none =>
    match s.toVerify c part image with
    | none => s.finishInstall c part image plateMap table debug none
    | some (g, es) =>
      if es.any fun e => !s.checkable e.1 e.2.2.length then s.respond c 0x0301 .notSupported 5 []
      else
        let (t, room) := s.sealSubmit (.install c part image plateMap table debug g.hash (s.acceptors g part)) false (blockCycles es)
        if room then t else s.respond c 0x0301 .busy 5 []

/-- TC_PLAN_REMOVE (R120, R125, R467): the queued requests of the slot complete with ST_STALE_HANDLE; a running plan leaves at its
FINAL stitch point. -/
def tcPlanRemove (c : Call) (part slot : Nat) (s : Chip) : Chip :=
  s.call c 0x0303 { part := some part } [(decide (64 ≤ slot), .bound)] fun s =>
    match mfind slot (s.part part).plans with
    | none => fails s .staleHandle
    | some p =>
      if p.removing then fails s .staleHandle
      else
        let queued := (s.requests.filter fun q => q.part == part && q.slot == slot && q.phase == .queued).map (·.id)
        let s := queued.foldl (fun t id => t.completeRequest id .staleHandle) s
        let s := s.planEvent 2 part slot p.hash
        let running := s.runs.any fun r => r.part == part && r.slot == slot
        let s :=
          if running then s.updPart part fun q => { q with plans := mput slot { p with removing := true } q.plans }
          else s.dropPlan part slot
        succeeds s

/-- TC_PLAN_QUERY: hash, binding, state (0 installed, 1 running, 2 awaiting removal), Configuration ID match, last status, signers. -/
def tcPlanQuery (c : Call) (part slot : Nat) (s : Chip) : Chip :=
  s.call c 0x0304 { part := some part } [(decide (64 ≤ slot), .bound)] fun s =>
    match mfind slot (s.part part).plans with
    | none => fails s .staleHandle
    | some p =>
      let running := s.runs.any fun r => r.part == part && r.slot == slot
      succeeds s ([p.hash.toNat, b2n p.exact, if p.removing then 2 else b2n running, b2n (!p.exact || p.configId == s.configId),
        p.lastStatus.code] ++ p.signers)

end Sys2Proof.Machine
end

