-- ==== Sys2Proof/Machine/Admit.lean ====
section
/-! DEFINITION. Services, keys, receipts, and the admission of requests (R78 to R81, R443, R444, R453 to R457, R459, R463, R464, R474,
R526). -/

namespace Sys2Proof.Machine

/-- Time runs on until A-tick t, when it lies ahead. -/
def Chip.waitTick (s : Chip) (t : Nat) : Chip := if s.aTick < t then s.advance (t * 10560 - s.time) else s

/-! ### Binding of containers (R453) -/

/-- The fields 1 to 6 of an IO entry match a header. -/
def IoEntry.suits (e : IoEntry) (h : Header) : Bool :=
  h.type == e.type && h.scheme == e.scheme && h.log2n == e.log2n && h.chain % 16 == e.chain && h.level == e.level
    && h.layout == e.layout

/-- The owner tag of a host submission: that of its first input (the spec names no other). -/
def Chip.hostOwner (s : Chip) (pl : Plan) (hs : List Nat) : Option Nat :=
  ((pl.io.zip hs).find? fun x => x.1.dir == 0).bind fun x => (s.bufOf x.2).map fun b => (s.headerAt b 0).owner

/-- A handle names an output that a plan has still to complete: a running one, or one whose request waits in the queue (R79). -/
def Chip.unfinished (s : Chip) (h : Nat) : Bool :=
  ((s.bufOf h).any fun b => b.incomplete) || s.requests.any fun q =>
    q.phase == .queued && (s.planOf q).any fun p => (p.io.zip q.handles).any fun x => x.1.dir == 1 && x.2 == h

/-- Bind one handle to its IO entry: Table 3.8 and the entry's fields for an input, the size, the owner. An input that a plan has still
to complete is checked when the plan starts (R79). Answers the status and the step that refuse it. -/
def Chip.bindOne (s : Chip) (part : Nat) (owner : Option Nat) (e : IoEntry) (h : Nat) : Chip × Option (Status × Nat) :=
  if e.dir = 3 then (s, none)
  else
    match s.bufOf h with
    | none => (s.updCnt part fun c => { c with bufStale := c.bufStale + 1 }, some (.staleHandle, 1))
    | some b =>
      if b.part != part then (s, some (.notOwner, 2))
      else if e.dir = 0 && !s.unfinished h then
        match s.checkContainer part h 0 owner with
        | (s, some (st, step, _)) => (s, some (st, step))
        | (s, none) =>
          if !e.suits (s.headerAt b 0) then (s, some (.badShape, 0))
          else if b.bolts < e.bolts then (s, some (.bound, 0))
          else (s, none)
      else if b.bolts < e.bolts then (s, some (.bound, 0))
      else (s, none)

/-- Bind the handles of a request in entry order. -/
def Chip.bindAll (s : Chip) (part : Nat) (owner : Option Nat) : List (IoEntry × Nat) → Chip × Option (Status × Nat)
  | [] => (s, none)
  | (e, h) :: rest =>
    match s.bindOne part owner e h with
    | (s, some x) => (s, some x)
    | (s, none) => s.bindAll part owner rest

/-- A read-kind thread of a plan names an IO entry that is bound to a fabric handle (R329). -/
def Plan.fabricRead (p : Plan) : Bool :=
  p.threads.any fun d =>
    (match threadKind d.kind with
      | some k => k.isRead && k.bound
      | none => false)
      && (p.io[d.binding]?).any fun e => e.dir == 3

/-- The binding of a host submission to a plan. -/
def Chip.bindHost (part : Nat) (hs : List Nat) (s : Chip) (pl : Plan) : Chip × Option (Status × Nat) :=
  if hs.length != pl.io.length then (s, some (.badShape, 0))
  else if pl.fabricRead then (s, some (.notSupported, 0))
  else s.bindAll part (s.hostOwner pl hs) (pl.io.zip hs)

/-! ### Admission (Table 16.5) -/

/-- Why a request is refused: the status, the step, and the retry-after value in µs. -/
structure Refused where
  st : Status
  step : Nat
  retry : Nat := 0

/-- The F-clock in MHz. -/
def Chip.mhz (s : Chip) : Nat := if s.fUnit = 132 then 2000 else if s.fUnit = 110 then 2400 else 2200

/-- The retry-after value of ST_BUSY (R457). -/
def Chip.retryAfter (s : Chip) (part : Nat) (first : Option Plan) : Nat :=
  let q := (s.requests.filter fun r => r.part == part && r.phase == .queued).length
  let t := (first.map (·.totalCycles)).getD 0
  min 1000000 (max 1 (cdiv (q * t) s.mhz))

/-- The candidates of a target, none when it is not defined. -/
def Chip.candidates (s : Chip) (part : Nat) : Target → Option (List Nat)
  | .service n => (mfind n (s.part part).services).map (·.slots)
  | .slot n => if (mfind n (s.part part).plans).isSome then some [n] else none

/-- Plan selection (R455): the first candidate that is installed, starts under R97 and whose inputs match; else the status of the first
candidate's failing check. -/
def Chip.select (s : Chip) (part : Nat) (bind_ : Chip → Plan → Chip × Option (Status × Nat)) (first : Option (Status × Nat)) :
    List Nat → Chip × Except (Status × Nat) Nat
  | [] => (s, .error (first.getD (.staleHandle, 5)))
  | c :: rest =>
    let (s, fail) := match mfind c (s.part part).plans with
      | none => (s, some (Status.staleHandle, 5))
      | some p =>
        if p.removing then (s, some (.staleHandle, 5))
        else if p.exact && p.configId != s.configId then (s, some (.configMismatch, 5))
        else bind_ s p
    match fail with
    | none => (s, .ok c)
    | some x => s.select part bind_ (some (first.getD x)) rest

/-- Bytes of the signatures of a receipt kind (Table 16.6). -/
def sigBytes : Nat → Nat
  | 1 => 4723
  | 2 => 4627
  | 3 => 96
  | _ => 0

/-- Bytes of the receipt of a plan. -/
def receiptSize (pl : Plan) (kind : Nat) : Nat :=
  96 + 48 * (pl.io.filter fun e => e.hashed && decide (e.dir < 2)).length + sigBytes kind

/-- Waking of a plan's swatches starts (R419). -/
def Chip.wake (s : Chip) (sws : List Nat) : Chip :=
  s.updSwatches sws fun w => if w.power = 0 then w else w.startWake s.aTick

/-- What admission needs to know of a request: the C-cycle of its arrival where that is not the present one; the checks of its inputs, and the buffers the device makes for it: the handles of the
request and those among them that the device owns, or none beyond the quota. -/
structure Admission where
  part : Nat
  target : Target
  source : Source
  owner : Nat
  inputsReady : Bool := true
  came : Option Nat := none
  bind_ : Chip → Plan → Chip × Option (Status × Nat)
  make : Chip → Plan → Option (Chip × List Nat × List Nat)

/-- Count a refused request. -/
def Chip.refuse (s : Chip) (part : Nat) (x : Refused) : Chip × Except Refused Nat :=
  (s.updCnt part fun c => { c with reqRefused := c.reqRefused + 1 }, .error x)

/-- The receipt kind of a target: a service's, else 0. -/
def Chip.receiptKindOf (s : Chip) (part : Nat) : Target → Nat
  | .service n => ((mfind n (s.part part).services).map (·.receiptKind)).getD 0
  | .slot _ => 0

/-- The service of a target. -/
def Target.service? : Target → Option Nat
  | .service n => some n
  | .slot _ => none

/-- Where an admitted request joins the order of admission: at its end; a host-ring submission before the queued KRP requests of its partition
that reached the Collar in the same C-cycle (R31). -/
def enqueue (q : Request) (qs : List Request) : List Request :=
  let after := fun (x : Request) => x.part == q.part && x.phase == .queued && x.came == q.came
    && match x.source with | .krp _ _ => true | _ => false
  match q.source with
  | .ring _ _ _ => qs.takeWhile (fun x => !after x) ++ q :: qs.dropWhile (fun x => !after x)
  | _ => qs ++ [q]

/-- Admission: the checks of Table 16.5 in order; the request joins its partition's queue (R456, R458). -/
def Chip.admitRequest (s : Chip) (a : Admission) : Chip × Except Refused Nat :=
  let p := s.part a.part
  let cands := s.candidates a.part a.target
  let firstPlan := (cands.bind fun l => l.head?).bind fun c => mfind c p.plans
  let service := match a.target with
    | .service n => mfind n p.services
    | .slot _ => none
  let full := 16384 ≤ s.requests.length || p.quotas.maxOpen ≤ s.openOf a.part
    || service.any fun sv => decide (sv.maxOpen
        ≤ (s.requests.filter fun q => q.part == a.part && q.service == a.target.service?).length)
  if !s.serving || p.resetting then s.refuse a.part ⟨.resetInProgress, 1, 0⟩
  else
    match cands with
    | none => s.refuse a.part ⟨.staleHandle, 2, 0⟩
    | some cs =>
      if p.suspended then s.refuse a.part ⟨.overcommit, 3, 0⟩
      else if full then s.refuse a.part ⟨.busy, 4, s.retryAfter a.part firstPlan⟩
      else
        match s.select a.part a.bind_ none cs with
        | (s, .error (st, n)) => s.refuse a.part ⟨st, if n = 0 then 5 else n, 0⟩
        | (s, .ok slot) =>
          match mfind slot (s.part a.part).plans with
          | none => s.refuse a.part ⟨.staleHandle, 5, 0⟩
          | some pl =>
            if pl.keys.any fun k => (mfind k.keyId (s.part a.part).keys).isNone then s.refuse a.part ⟨.notResident, 6, 0⟩
            else
              let kind := s.receiptKindOf a.part a.target
              let rec_ := if kind = 0 then Except.ok (0, s) else s.allocBuf a.part 2 0 (cdiv (receiptSize pl kind) 576) false
              match rec_ with
              | .error _ => s.refuse a.part ⟨.overcommit, 7, 0⟩
              | .ok (rb, t) =>
                match a.make t pl with
                | none => s.refuse a.part ⟨.overcommit, 7, 0⟩
                | some (t, hs, own) =>
                  let id := t.nextReq
                  let q : Request := {
                    id := id, part := a.part, service := a.target.service?, slot := slot, handles := hs, source := a.source
                    owner := a.owner, receiptKind := kind, admittedAt := t.aTick, came := a.came.getD (t.time / 165), inputsReady := a.inputsReady
                    own := own
                    receiptBuf := rb
                    late := ((pl.io.zip hs).filter fun x => x.1.dir == 0 && s.unfinished x.2).map (·.2) }
                  let t := { t with requests := enqueue q t.requests, nextReq := id + 1 }
                  let t := (t.updCnt a.part fun c => { c with reqAdmit := c.reqAdmit + 1 }).wake pl.swatches
                  (t, .ok id)

/-- The admission of a host submission: the handles are the caller's. -/
def hostAdmission (part : Nat) (target : Target) (source : Source) (owner : Nat) (hs : List Nat) : Admission :=
  { part := part, target := target, source := source, owner := owner, bind_ := Chip.bindHost part hs
    make := fun s _ => some (s, hs, []) }

/-- TC_PLAN_START: the request is admitted and queued; its response is written when the request completes (R453, R456). -/
def tcPlanStart (c : Call) (part : Nat) (target : Target) (hs : List Nat) (s : Chip) : Chip :=
  let range := match target with
    | .service n => decide (256 ≤ n)
    | .slot n => decide (64 ≤ n)
  match s.common c { part := some part } [(range, .bound), (decide (64 < hs.length), .badShape)] with
  | some (st, n) => s.respond c 0x0302 st n []
  | none =>
    let owner := match (s.candidates part target).bind fun l => l.head?.bind fun i => mfind i (s.part part).plans with
      | some pl => (s.hostOwner pl hs).getD 0
      | none => 0
    match s.admitRequest (hostAdmission part target (.call c.fn c.tag) owner hs) with
    | (s, .ok _) => s
    | (s, .error x) => s.respond c 0x0302 x.st x.step []

/-! ### Services -/

/-- The ranges of a Handoff policy: up to 7 rounds, a stage before, between and after them, 1 ms to 10 s, two destinations (R489). -/
def HandoffPolicy.ok (h : HandoffPolicy) : Bool :=
  !h.allowed || (decide (h.rounds ≤ 7) && h.stages.length == h.rounds + 1 && h.stages.all (fun x => decide (x.slot < 64))
    && decide (25000 ≤ h.timeout ∧ h.timeout ≤ 250000000) && decide (h.dest ≤ 1))

/-- TC_SERVICE_DEFINE (R454, R489, Table 16.9). -/
def tcServiceDefine (c : Call) (part service : Nat) (slots : List Nat) (maxOpen kind : Nat) (policy : HandoffPolicy) (s : Chip) : Chip :=
  s.call c 0x0B0A { part := some part }
      [(decide (256 ≤ service), .bound), (decide (8 < slots.length), .bound), (slots.any (64 ≤ ·), .bound),
       (decide (maxOpen = 0 ∨ 16384 < maxOpen), .badShape), (decide (3 < kind), .notSupported),
       (!policy.ok, .badShape)] fun s =>
    if slots.isEmpty then fails s .badShape
    else succeeds (s.updPart part fun p =>
      { p with services := mput service ⟨slots, maxOpen, kind, policy⟩ p.services })

/-- TC_SERVICE_REMOVE (R467): admission ends, open requests run on. -/
def tcServiceRemove (c : Call) (part service : Nat) (s : Chip) : Chip :=
  s.call c 0x0B0B { part := some part } [(decide (256 ≤ service), .bound)] fun s =>
    if (mfind service (s.part part).services).isNone then fails s .staleHandle
    else succeeds (s.updPart part fun p => { p with services := mdel service p.services })

/-- TC_SERVICE_QUERY. -/
def tcServiceQuery (c : Call) (part service : Nat) (s : Chip) : Chip :=
  s.call c 0x0B0C { part := some part } [(decide (256 ≤ service), .bound)] fun s =>
    match mfind service (s.part part).services with
    | none => fails s .staleHandle
    | some v => succeeds s ([v.maxOpen, v.receiptKind, b2n v.handoff.allowed, v.slots.length] ++ v.slots)

/-! ### Keys (R80, R459, R526) -/

/-- Register a key container: a second registration of its KEY_ID replaces the first, whose buffer stays in use until every plan that
references it has ended (R80, R459). Copies on other stacks are made anew; none where they find no room. -/
def Chip.registerKey (s : Chip) (part keyId handle : Nat) : Option Chip :=
  let old := mfind keyId (s.part part).keys
  let gone : List Nat := match old with
    | some k => (if k.handle = handle then [] else [k.handle]) ++ k.old ++ k.copies.map fun x => x.2
    | none => []
  let plates : List Nat := match old with
    | some k => k.copies.map fun x => x.1
    | none => []
  let t := s.updPart part fun p => { p with keys := mput keyId ⟨handle, gone, []⟩ p.keys }
  (plates.foldl (fun (t : Option Chip) pl => t.bind fun u => u.copyKey part keyId pl) (some t)).map fun (t : Chip) => t.dropOldKeys part

/-- The bytes of a key-bundle record: a handle names it in a CONTROL buffer of the partition (R526). -/
def Chip.bundleBytes (s : Chip) (part bundle : Nat) : List Byte :=
  match s.bufOf bundle with
  | some r => if r.part = part && r.kind = 2 then memReadN s.mem r.addr (576 * r.bolts) else []
  | none => []

/-- The signature block of a key-bundle record, whose reserved bytes 10 to 15 and of each key are zero. -/
def bundleBlock (bs : List Byte) : Option (List (Nat × Nat × List Byte)) :=
  let n := leAt bs 8 2
  if leAt bs 0 4 != 0x31424B4B || !zeroAt bs 10 6 || bs.length < 16 + 56 * n
      || (records 56 (bytesAt bs 16 (56 * n))).any fun e => leAt e 4 4 != 0 then none
  else signatureBlock (bs.drop (16 + 56 * n))

/-- A key-bundle record authorises the registration of a container (R526). -/
def Chip.bundleAuthorises (s : Chip) (bs : List Byte) (keyId owner : Nat) (container : List Byte) : Bool :=
  let n := leAt bs 8 2
  let list := records 56 (bytesAt bs 16 (56 * n))
  let m := "KKB1 sign".toList.map (fun c => BitVec.ofNat 8 c.toNat) ++ sha384 (bs.take (16 + 56 * n))
  leAt bs 4 4 == owner
    && (list.any fun e => leAt e 0 4 == keyId && bytesAt e 8 48 == sha384 container)
    && (bundleBlock bs).any fun es => blockVerifies s.trust.keySigners (fun x => x.mask == owner) m es

/-- The bytes of a key container in a buffer. -/
def Chip.keyContainer (s : Chip) (part : Nat) (b : Buf) : List Byte :=
  let h := s.headerAt b 0
  memReadN s.mem b.addr (h.size (h.m18 (s.part part).master))

/-- Register a checked key container; `signed` is what the Seal found of its key bundle: the container's digest and the verdict. -/
def Chip.keyRegister (s : Chip) (c : Call) (part handle : Nat) (signed : Option (BitVec 384 × Bool)) : Chip :=
  s.call c 0x0B07 { part := some part } [] fun s =>
    match s.checkHandle c part 0x0B07 handle with
    | (s, .error st) => fails s st
    | (s, .ok b) =>
      match s.checkContainer part handle 0 none with
      | (s, some (st, step, _)) => fails s st step
      | (s, none) =>
        let h := s.headerAt b 0
        let authorised := match signed with
          | none => !s.trust.keySigning
          | some x => x.2 && x.1 == sha384Num (s.keyContainer part b)
        if b.kind != 0 || !h.isKey then fails s .badShape
        else if !authorised then fails s .signature
        else if (mfind h.keyId (s.part part).keys).isNone && 4096 ≤ (s.part part).keys.length then fails s .overcommit
        else
          match s.registerKey part h.keyId handle with
          | some t => succeeds t [h.keyId]
          | none => fails s .overcommit

/-- TC_KEY_REGISTER: a key container in an HBM buffer; with KEY_SIGNING set, a key-bundle record of 1 to 256 keys must authorise it, which a
LOW job of the Seal checks under the signers in force when the call is served (R504, R526, R527, R530, R535). -/
def tcKeyRegister (c : Call) (part handle bundle : Nat) (s : Chip) : Chip :=
  let plain := s.keyRegister c part handle none
  if !s.trust.keySigning || (s.common c { part := some part } []).isSome then plain
  else
    match (s.checkHandle c part 0x0B07 handle).2, (s.checkContainer part handle 0 none).2 with
    | .ok b, none =>
      let bs := s.bundleBytes part bundle
      let h := s.headerAt b 0
      if b.kind != 0 || !h.isKey then plain
      else if leAt bs 0 4 == 0x31424B4B && (leAt bs 8 2 = 0 || 256 < leAt bs 8 2) then s.respond c 0x0B07 .badShape 8 []
      else
        match bundleBlock bs with
        | none => plain
        | some es =>
          if es.any fun e => !s.checkable e.1 e.2.2.length then s.respond c 0x0B07 .notSupported 8 []
          else
            let d := s.keyContainer part b
            let (t, room) := s.sealSubmit (.keyBundle c part handle (sha384Num d) (s.bundleAuthorises bs h.keyId h.owner d)) false
              (blockCycles es)
            if room then t else s.respond c 0x0B07 .busy 8 []
    | _, _ => plain

/-- An installed plan names a KEY_ID. -/
def Chip.keyNamed (s : Chip) (part keyId : Nat) : Bool := (s.part part).plans.any fun p => p.2.keys.any fun e => e.keyId == keyId

/-- TC_KEY_EVICT. -/
def tcKeyEvict (c : Call) (part keyId : Nat) (s : Chip) : Chip :=
  s.call c 0x0B08 { part := some part } [] fun s =>
    match mfind keyId (s.part part).keys with
    | none => fails s .notResident
    | some k =>
      if s.keyNamed part keyId then fails s .busy
      else
        let s := k.copies.foldl (fun t x => t.releaseBuf x.2) s
        succeeds (s.updPart part fun p =>
          { p with keys := mdel keyId p.keys, keyRanges := p.keyRanges.filter fun r => r.keyId != keyId })

/-- TC_KEY_QUERY: for each registration its KEY_ID and handle. -/
def tcKeyQuery (c : Call) (part : Nat) (s : Chip) : Chip :=
  s.call c 0x0B09 { part := some part } [] fun s => succeeds s ((s.part part).keys.flatMap fun k => [k.1, k.2.handle])

/-! ### Receipts, time, scheduler hold, mailbox -/

/-- TC_RECEIPT_GET (R464, Table 16.9): the newest held receipt of a request id or sequence number. -/
def tcReceiptGet (c : Call) (part request : Nat) (s : Chip) : Chip :=
  s.call c 0x0B0D { part := some part } [] fun s =>
    match (s.part part).receipts.reverse.find? fun e => e.2.request == request && e.2.sigKind != 0 with
    | none => fails s .staleHandle
    | some e => if e.2.ready then succeeds s ((e.2.body ++ e.2.signatures).map (·.toNat)) else fails s .busy

/-- Release a held request: its receipt's buffer and the outputs kept for it. -/
def Chip.dropReceipt (s : Chip) (part id : Nat) : Chip :=
  match mfind id (s.part part).receipts with
  | none => s
  | some r =>
    let s := r.own.foldl (fun (t : Chip) h => t.releaseBuf h) s
    let s := if r.sigKind = 0 then s else s.releaseBuf r.handle
    s.updPart part fun p => { p with receipts := mdel id p.receipts }

/-- RECEIPT_EXPIRY: 2^26 A-ticks after completion a held request, named by the device's own number, is released (R464). -/
def receiptExpiry (part : BitVec 6) (id : Nat) (s : Chip) : Chip :=
  match mfind id (s.part part.toNat).receipts with
  | none => s
  | some r => (s.waitTick (r.doneAt + 2 ^ 26)).dropReceipt part.toNat id

/-- TC_TIME_SET, PF0 only (R463). -/
def tcTimeSet (c : Call) (time : Nat) (s : Chip) : Chip :=
  s.call c 0x0B0E { pf0Only := true } [(decide (2 ^ 64 ≤ time), .bound)] fun s =>
    succeeds { s with tlr := { s.tlr with timeBase := time, timeSetAt := s.aTick, timeSet := true } }

/-- TC_SCHED_HOLD, Expert (R474). -/
def tcSchedHold (c : Call) (part : Nat) (hold : Bool) (s : Chip) : Chip :=
  s.call c 0x8B02 { expert := true, part := some part } [] fun s =>
    succeeds (s.updPart part fun p => { p with schedHold := hold })

/-- MAILBOX_TAIL_WRITE: the entries up to a new tail await service; more than 15 set OVERRUN, a base of zero ignores the write
(R444, R552). -/
def mailboxTailWrite (fn : Fn) (tail : BitVec 4) (s : Chip) : Chip :=
  let master := match fn with
    | .pf0 => s.pci.busMaster
    | .vf n => (s.part n).busMaster
  let m := s.mbx fn
  let new := (tail.toNat + 16 - m.tail % 16) % 16
  if m.base = 0 || !master then s
  else if 15 < m.pending + new then s.updMbx fn fun m => { m with overrun := true }
  else s.updMbx fn fun m => { m with tail := tail.toNat, pending := m.pending + new }

end Sys2Proof.Machine
end

