-- ==== Sys2Proof/Machine/Stitch.lean ====
section
/-! DEFINITION. Plan start, stitch points, splices and plan end; key residency (R106 to R108, R117, R129, R138, R143, R156, R228, R233,
R255, R256, R284, R330, R365, R458, R461, R468). -/

namespace Sys2Proof.Machine

/-! ### Task slots (R138, R219, R221) -/

/-- Lines from lo up to hi lie in ranges. -/
def covered (hi : Nat) (rs : List (Nat × Nat)) : Nat → Nat → Bool
  | 0, lo => decide (hi ≤ lo)
  | n + 1, lo =>
    if hi ≤ lo then true
    else match rs.find? fun r => decide (r.1 ≤ lo) && decide (lo < r.2) with
      | some r => covered hi rs n r.2
      | none => false

/-- The lines of a plate's Lining that a partition holds: the task regions of its plans. -/
def Chip.liningOf (s : Chip) (part plate : Nat) : List (Nat × Nat) :=
  (s.part part).plans.flatMap fun p =>
    (p.2.lining.filter fun l => plateOf l.1 == plate).flatMap fun l => l.2.map fun r => (r.1, r.1 + 512 * r.2)

/-- The commit check of a task slot (R221). -/
def TaskSlot.regionOk (t : TaskSlot) (rs : List (Nat × Nat)) : Bool :=
  decide (t.padBase ≤ t.spillBase) && decide (t.spillBase ≤ t.spillBound) && decide (t.spillBound ≤ t.padBound)
    && decide (t.padBound ≤ 4096) && decide (t.lngBase ≤ t.lngBound)
    && (t.lngBase == t.lngBound || covered t.lngBound rs (rs.length + 1) t.lngBase)

/-- The first cell of swatches whose shadow task slots fail the check. -/
def Chip.badTask (s : Chip) (part : Nat) (sws : List Nat) : Option Nat :=
  (s.cells.find? fun e =>
    sws.contains (swatchOf e.1) && e.2.scr.shadowTasks != e.2.scr.tasks
      && e.2.scr.shadowTasks.any fun t => !t.regionOk (s.liningOf part (plateOf (swatchOf e.1)))).map fun e => e.1

/-- The task slots of swatches take their shadow values. -/
def Chip.commitTasks (s : Chip) (sws : List Nat) : Chip :=
  (s.cells.filter fun e => sws.contains (swatchOf e.1) && e.2.scr.shadowTasks != e.2.scr.tasks).foldl
    (fun t e => t.setTasks e.1 e.2.scr.shadowTasks) s

/-! ### What commits at a stitch point (R47, R106, R118, R202, R228) -/

/-- The shadow copies of a partition's swatches become active: Modulus Table, twiddle sets, engine stores, key windows with the loads that have
finished. A stitch point takes the copies as they stood before the first write that was accepted in its own plan cycle (R118). -/
def Chip.commitShadow (s : Chip) (part : Nat) (sws : List Nat) (snap : Option Snapshot := none) : Chip :=
  let t := ((snap.map (·.table)).getD (s.part part).shadow).revalidate
  let s := s.updSwatches sws fun w => { w with table := t, twiddle := (snap.map (·.twiddle)).getD w.twShadow }
  let s := (s.commitKeys part ((snap.map (·.keyWin)).getD (s.part part).keyWinShadow)).updPart part (Partition.activate t)
  let s := match snap with
    | none => sws.foldl (fun (u : Chip) sw => u.commitStores sw) s
    | some x => x.stores.foldl (fun (u : Chip) (e : Nat × PanelStore) => u.updPanel e.1 fun pn => { pn with active := e.2 }) s
  s.sweepTwiddles part

/-- The entries of the retired lists that hold for a plan from now on (R233, R284). -/
def Chip.retiredNow (s : Chip) (r : Run) : Run :=
  { r with
    pages := (List.range 8).map fun h => (h, (s.stack h).retired.length)
    blocks := (List.range 8).map fun p => (p, (s.lining p).retired.length) }

/-! ### Selvage links of a plan (R330) -/

/-- The destinations of a plan's fabric handles: the package numbers above bit 32. -/
def Run.fabricDests (r : Run) : List Nat :=
  (((r.plan.io.zip r.handles).filter fun x => x.1.dir == 3).map fun x => x.2 / 2 ^ 32).eraseDups

/-- The link for a destination, or the status that refuses the start. -/
def Chip.linkFor (s : Chip) (p : Plan) (d : Nat) : Except Status Nat :=
  let mask := mget 0 d s.fabric.routes
  let ls := (List.range 16).filter fun l => bit mask l
  let up := ls.filter fun l => decide ((s.link l).mode < 2)
  if up.isEmpty then .error .routeFrayed
  else
    match up.find? fun l => p.units 5 l != 0 with
    | some l => .ok l
    | none => .error .overcommit

/-- Choose the links of a run again; answers the first status that refuses. -/
def Chip.chooseLinks (s : Chip) (r : Run) : Run × Option Status :=
  r.fabricDests.foldl (fun (acc : Run × Option Status) d =>
    match s.linkFor acc.1.plan d with
    | .ok l => ({ acc.1 with slvTo := mput d l acc.1.slvTo }, acc.2)
    | .error st => (acc.1, some (acc.2.getD st))) (r, none)

/-- Packets of a run on a link that is DOWN go to the link chosen for their destination now, to be sent again (R339, R347). -/
def Chip.moveResends (s : Chip) (r : Run) : Chip :=
  let mine := fun (p : SlvPacket) => p.run == some r.id && p.kind != .control
  (List.range 16).foldl (fun (t : Chip) l =>
    if (t.link l).state != 10 then t
    else
      let ps := (t.link l).packets.filter fun p => mine p && (mfind p.dest r.slvTo).any fun m => m != l
      let t := t.updLink l fun x => { x with packets := x.packets.filter fun p => !ps.contains p }
      ps.foldl (fun (t : Chip) p =>
        t.updLink (mget l p.dest r.slvTo) fun x => { x with packets := x.packets ++ [{ p with sent := false, numbered := false }] }) t) s

/-- The owner-table entries that the shadow copy holds become visible in the tables a plan binds (R341, R342). -/
def Chip.commitOwner (s : Chip) (part : Nat) (handles : List Nat) : Chip :=
  let q := s.part part
  let inside := fun (a : Nat) => handles.any fun h => (s.bufOf h).any fun b => decide (b.addr ≤ a) && decide (a < b.addr + 576 * b.bolts)
  let rows := q.ownerRows.filter fun e => inside e.1
  let mem := rows.foldl (fun (m : Mem) e => memWriteN m e.1 (e.2.map fun x => BitVec.ofNat 8 x)) s.mem
  let version := (rows.map fun e => leNat (((e.2.drop 24).take 4).map fun x => BitVec.ofNat 8 x)).foldl max q.tableVersion
  { s with mem := mem }.updPart part fun p =>
    { p with ownerRows := p.ownerRows.filter fun e => !inside e.1, tableVersion := version }

/-! ### Outputs (R78) -/

/-- The output handles of a run with their templates. -/
def Run.outputs (r : Run) : List (Nat × List Byte) :=
  ((r.plan.io.zip r.handles).filter fun x => x.1.dir == 1).map fun x => (x.2, x.1.template)

/-- Complete the outputs that are still open. -/
def Chip.finishOutputs (s : Chip) (r : Run) : Chip :=
  r.outputs.foldl (fun t o =>
    if (t.bufOf o.1).any fun b => b.incomplete then t.completeOutput o.1 o.2 else t) s

/-! ### Start (R129, R156, R179, R210, R266, R458) -/

/-- The Scriber state at a plan's start (R156). -/
def Scriber.started (ts : List TaskSlot) (c : Scriber) : Scriber :=
  { tasks := c.tasks, shadowTasks := c.shadowTasks, wdepth := 1, spillp := ts.map fun t => t.spillBase }

/-- What a cell still has under way counts on from another cycle: its swatch's count is taken `d` cycles further. -/
def Cell.shift (d : Nat) (c : Cell) : Cell :=
  if d = 0 then c
  else { c with pad := { c.pad with lands := c.pad.lands.map fun l => { l with due := l.due + d } } }

/-- Every cell of a swatch takes a plan's start state; `fresh` clears the engines and threads too (a start that is not spliced). -/
def Chip.startCells (s : Chip) (p : Plan) (fresh : Bool) (sw : Nat) : Chip :=
  (List.range 512).foldl (fun t c =>
    let cn := cellNo sw c
    let ts := p.cellTasks sw c
    let t := t.setTasks cn ts
    t.updCell cn fun x =>
      let x := { x with scr := x.scr.started ts, mode := .ganged, stream := {} }
      if fresh then
        { x with pad := { x.pad with written := [], use := [] }, press := {}, stip := {}, burin := {}, threads := [], taken := [] }
      else x) s

/-- The Hatch and Weft of a swatch are idle. -/
def Chip.idlePanels (s : Chip) (sw : Nat) : Chip :=
  (List.range 8).foldl (fun t q => t.updPanel (sw * 8 + q) fun pn =>
    { pn with hatch := [], hatchFree := 0, weft := [], weftFree := 0, autos := [], beats := [] }) s

/-- The first bundle address of a swatch: LOAD_ADDR of its first segment with TARGET 0 (R129). -/
def Plan.entryOf (p : Plan) (sw : Nat) : Nat :=
  ((p.segments.find? fun x => x.target == 0 && p.swatchAt x.vswatch == sw).map (·.loadAddr)).getD 0

/-- A token has reached a value (R334). -/
def tokenReached (token value : Nat) : Bool := decide ((token + 2 ^ 32 - value % 2 ^ 32) % 2 ^ 32 < 2 ^ 31)

/-- The version of the owner-table copy a gate asks for: the newest that the local copy has reached (R342). Shadow entries count: their
plan, once started, sees them at its stitch point 0. -/
def Partition.ownerVersion (p : Partition) : Nat :=
  (p.ownerRows.map fun e => leNat (((e.2.drop 24).take 4).map fun x => BitVec.ofNat 8 x)).foldl max p.tableVersion

/-- A gate is open. -/
def Partition.gateOpen (p : Partition) (g : Gate) : Bool :=
  tokenReached (mget 0 g.token p.tokens) g.value && decide (g.version ≤ p.ownerVersion)

/-- The gates of a slot let it start, or fail it with a status (R334). -/
def Partition.gateSays (p : Partition) (slot : Nat) : Option Status × Bool :=
  let gs := p.gates.filter fun g => g.slot == slot
  let bad := gs.findSome? fun g =>
    match g.err with
    | some st => some st
    | none => if g.expired then some Status.timeout else none
  (bad, gs.all fun g => p.gateOpen g)

/-- The buffer of each KEYS entry of a plan by the registrations of the moment: that of its key on the entry's stack (R460). -/
def Chip.keyHandles (s : Chip) (part : Nat) (p : Plan) : List Nat :=
  p.keys.map fun k => (s.keyOn part k.keyId (p.plate k.vplate)).getD 0

/-- The KEYS entries of a plan that a stitch index makes resident are loaded, each from the buffer that the plan uses for it: a running plan stays
with the buffers of its start (R80). -/
def Chip.keysLoadedAt (s : Chip) (part : Nat) (p : Plan) (use : List Nat) (idx : Nat) : Bool :=
  (p.keys.zip use).all fun k =>
    k.1.first != idx || (s.part part).keyRanges.any fun r =>
      r.keyId == k.1.keyId && r.plate == p.plate k.1.vplate && r.offset == k.1.offset && r.loaded && r.handle == k.2

/-- Every input of a request is complete: no running plan still produces it, nor one whose request came before it (R79). -/
def Chip.inputsComplete (s : Chip) (q : Request) (p : Plan) : Bool :=
  let before := s.requests.takeWhile fun x => x.id != q.id
  q.inputsReady && (p.io.zip q.handles).all fun x =>
    x.1.dir != 0 || (((s.bufOf x.2).all fun b => !b.incomplete) && !(before.any fun y =>
      y.phase == .queued && (s.planOf y).any fun o => (o.io.zip y.handles).any fun z => z.1.dir == 1 && z.2 == x.2))

/-- A swatch is in Run and its reload is complete (R419). -/
def Chip.inRun (s : Chip) (sw : Nat) : Bool :=
  let w := s.swatch sw
  w.power == 0 && !w.waking && w.inService && !w.resetting && !w.testing

/-- An earlier request of the queue shares a swatch (R458). -/
def Chip.earlierShares (s : Chip) (q : Request) (p : Plan) : Bool :=
  (s.requests.takeWhile fun x => x.id != q.id).any fun x =>
    x.part == q.part && x.phase == .queued
      && match s.planOf x with
        | some o => o.swatches.any fun sw => p.swatches.contains sw
        | none => false

/-- The conditions of R458 that do not speak of the swatches' other plans. -/
def Chip.readyButSwatches (s : Chip) (q : Request) (p : Plan) : Bool :=
  let x := s.part q.part
  let g := x.gateSays q.slot
  !x.schedHold && !x.resetting && !s.earlierShares q p && s.inputsComplete q p && (g.1.isSome || g.2)
    && s.keysLoadedAt q.part p (s.keyHandles q.part p) 0
    && (!x.debug || p.swatches.all fun sw => (mget {} (plateOf sw) s.plates).dbgLock)

/-- A queued request can start on free swatches now. -/
def Chip.startable (s : Chip) (q : Request) : Bool :=
  match s.planOf q with
  | none => false
  | some p =>
    q.phase == .queued && s.readyButSwatches q p && p.swatches.all fun sw =>
      s.inRun sw && !(s.runs.any fun r => r.plan.swatches.contains sw)

/-- What a start finds wrong with the device: the status it returns (R97, R102, R309, R312, R330, R334, R370, R529, R585). -/
def Chip.startFails (s : Chip) (q : Request) (p : Plan) : Option Status :=
  let x := s.part q.part
  let probe : Run := { id := 0, part := q.part, slot := q.slot, plan := p, handles := q.handles }
  match x.gateSays q.slot with
  | (some st, _) => some st
  | _ =>
    if p.exact && p.configId != s.configId then some .configMismatch
    else if !s.placementOk q.part p then some .configMismatch
    else if s.linksFrayed p || s.threadsCut p q.handles then some .routeFrayed
    else if s.signingOn && !(p.signers.any fun k => (mfind k s.trust.signers).any fun z => z.enabled) then some .signature
    else if x.suspended then some .overcommit
    else (s.chooseLinks probe).2

/-- Check one bound input at a plan's start: one that a plan completed after admission as a binding checks it, with all of Table 3.8 and R453 (R79,
R83); any other by steps 8 and 9 (R81). -/
def Chip.recheckOne (s : Chip) (q : Request) (owner : Option Nat) (e : IoEntry) (h : Nat) : Chip × Option Status :=
  if e.dir != 0 then (s, none)
  else if q.late.contains h then
    match s.bindOne q.part owner e h with
    | (s, x) => (s, x.map (·.1))
  else
    match s.bufOf h with
    | none => (s, some .staleHandle)
    | some b => (s, (firstFail ((s.headerAt b 0).checks89 (s.part q.part).master)).map (·.1))

/-- The checks of R81 on the bound containers in entry order, against the table that the start has made active; those of R83 on an input that a plan
completed after admission. The owner tag of a host submission is that of its first input, complete now. -/
def Chip.recheck (s : Chip) (q : Request) (p : Plan) : Chip × Option Status :=
  let owner := match q.source with
    | .krp .. => some q.owner
    | _ => s.hostOwner p q.handles
  (p.io.zip q.handles).foldl (fun (acc : Chip × Option Status) x =>
    match acc with
    | (s, some st) => (s, some st)
    | (s, none) => s.recheckOne q owner x.1 x.2) (s, none)

/-- A request runs: the hashes of its own inputs are those of the containers bound now, and a host submission whose first input was late takes the
owner tag of the container that it is (R79, R462, R489). -/
def Chip.setRunning (s : Chip) (q : Request) (p : Plan) : Chip :=
  let hs := if q.receiptKind = 0 then [] else q.inHashes.getD (s.ioHashes q p q.handles 0 false)
  let owner := match q.source with
    | .krp .. => q.owner
    | _ => if q.late.isEmpty then q.owner else (s.hostOwner p q.handles).getD q.owner
  { s with requests := s.requests.map fun (x : Request) =>
      if x.id == q.id then { x with phase := .running, inHashes := some hs, owner := owner } else x }

/-- The debug break holds a plan of a partition at a stitch index (R126). -/
def Chip.breaksAt (s : Chip) (part idx : Nat) : Bool :=
  s.dbg.breakEnable && s.dbg.breakPart == part && s.dbg.breakIndex == idx && (s.part part).debug

/-- Begin a run of a plan: its record, its streams, its outputs opened (R78, R129). Its plan cycle 0 falls on the next count of its swatches, or for
a spliced plan on the cycle that the plan before it stands at, with which it keeps step from there on (R108). -/
def Chip.beginRun (s : Chip) (q : Request) (p : Plan) (onto : Option Run) : Chip :=
  let id := s.nextRun
  let x := s.part q.part
  let base := match onto with
    | some o => o.cycle
    | none => (p.swatches.map fun sw => s.countNow sw).foldl max 0
  let s := if onto.isSome then s else p.swatches.foldl (fun (t : Chip) sw =>
    let d := base - t.countNow sw
    { t with cells := t.cells.map fun e => if swatchOf e.1 = sw then (e.1, e.2.shift d) else e }) s
  let r : Run := {
    id := id, part := q.part, slot := q.slot, plan := p, request := some q.id, handles := q.handles, pace := x.pace
    cycle := base, base := base, spliced := onto.map (·.id), keyUse := s.keyHandles q.part p
    streams := p.swatches.foldl (fun (m : SMap Stream) sw => mput sw { pc := p.entryOf sw, next := some base } m) []
    broken := s.breaksAt q.part 0 }
  let r := match onto with
    | some o => { r with phase := o.phase, pace := o.pace, paceAt := o.paceAt, hold := o.hold }
    | none => r
  let r := (s.chooseLinks (s.retiredNow r)).1
  let s := { s with runs := s.runs ++ [r], nextRun := id + 1 }
  let s := r.outputs.foldl (fun t o => t.openOutput o.1) s
  s.setRunning q p

/-- The installed plan as it starts: a Grid plan takes its new binding (R97), and its MODULI section has been written. -/
def Plan.atStart (p : Plan) : Plan :=
  { p with binding := if p.rebind.isEmpty then p.binding else p.rebind, rebind := [], moduliDue := false }

/-- The seed slots that a plan's ENGINE section binds to a KEY_ID. -/
def Plan.seedSlots (p : Plan) (keyId : Nat) : List Nat :=
  p.engine.filterMap fun e => match e with
    | .seed slot k _ => if k == keyId then some slot else none
    | _ => none

/-- The shadow banks of a plan's swatches take the SEEDs of the keys it starts with, which a plan that used another key may have kept out (R80,
R461). -/
def Chip.startSeeds (s : Chip) (part : Nat) (p : Plan) : Chip :=
  (p.keys.zip (s.keyHandles part p)).foldl (fun (t : Chip) k =>
    let slots := p.seedSlots k.1.keyId
    if slots.isEmpty then t else p.swatches.foldl (fun (t : Chip) sw => t.putSeeds sw (slots.map fun x => (x, s.seedIn k.2))) t) s

/-- What every start does before its first plan cycle: the MODULI section of a plan that waited (R52), the SEEDs of its keys, the new binding, the
gates used. -/
def Chip.prepareStart (s : Chip) (q : Request) (p : Plan) : Chip × Plan :=
  let s := if p.moduliDue then (s.keepShadow q.part).updPart q.part fun x => { x with shadow := p.overlay x.shadow } else s
  let s := s.startSeeds q.part p
  let p := p.atStart
  let s := s.updPart q.part fun x =>
    { x with plans := mput q.slot p x.plans, gates := x.gates.filter fun g => g.slot != q.slot }
  (s, p)

/-- Start a request on free swatches: the shadow copies commit, the containers are checked again, the cells take their start state. -/
def Chip.startRequest (s : Chip) (q : Request) (p : Plan) : Chip :=
  match s.startFails q p with
  | some st =>
    (s.updPart q.part fun x => { x with gates := x.gates.filter fun g => g.slot != q.slot }).completeRequest q.id st
  | none =>
    let (s, p) := s.prepareStart q p
    let s := (s.commitShadow q.part p.swatches).commitOwner q.part q.handles
    match s.recheck q p with
    | (s, some st) => s.completeRequest q.id st
    | (s, none) =>
      let s := p.swatches.foldl (fun t sw => (t.startCells p true sw).idlePanels sw) s
      s.beginRun q p none

/-- PLAN_START: the service scheduler starts the first request of a partition's queue that can start (R458). -/
def planStartEvent (part : BitVec 6) (s : Chip) : Chip :=
  match s.requests.find? fun q => q.part == part.toNat && s.startable q with
  | none => s
  | some q =>
    match s.planOf q with
    | some p => s.startRequest q p
    | none => s

/-! ### Splices (R52, R108, R255, R365) -/

/-- The kinds that TSTARTs of a plan's bundles on a swatch give to the threads of a mask, with their descriptors. -/
def Chip.maskThreads (s : Chip) (p : Plan) (mask : Nat) : List (ThreadKind × ThreadDesc) :=
  p.swatches.flatMap fun sw => (s.swatch sw).bundles.filterMap fun e =>
    let w := bits e.2.toNat 160 32
    if p.holdsEntry sw none e.1 && bits w 28 4 == 1 && bit mask (bits w 24 4) then
      match p.threads[bits w 16 8]? with
      | some d => (threadKind d.kind).map fun k => (k, d)
      | none => none
    else none

/-- A thread of a request is remote: its buffer lies on another plate's stack than some swatch of the plan, or is a fabric handle. -/
def Chip.remoteThread (s : Chip) (p : Plan) (hs : List Nat) (x : ThreadKind × ThreadDesc) : Bool :=
  x.1.bound && match hs[x.2.binding]?, p.io[x.2.binding]? with
    | some h, some e =>
      e.dir == 3 || (s.bufOf h).any fun b => !isControl b.kind && p.swatches.any fun sw => plateOf sw != stackOf b.addr
    | _, _ => false

/-- The overlap use of a class (R365): a stack class counts when a thread of the window uses it, a link class always. -/
def overlapUse (p : Plan) (ks : List (ThreadKind × ThreadDesc)) (r cls : Nat) : Nat :=
  if 8 ≤ r then p.resUnits r cls
  else
    let uses := ks.any fun k => match cls with
      | 0 => k.1 == .hbmRead || k.1 == .tackRead
      | 1 => k.1 == .hbmWrite || k.1 == .hbmAdd
      | _ => false
    if uses then p.resUnits r cls else 0

/-- The manifests agree on every entry and chain both set: each entry as the table would hold it (R52). -/
def manifestsAgree (a b : Plan) : Bool :=
  (a.moduli.all fun e => (mfind e.1 b.moduli).all fun v => validEntry v == validEntry e.2)
    && a.chains.all fun e => (mfind e.1 b.chains).all fun v => v == e.2

/-- A request can be spliced onto a run whose SPLICE_OUT stitch point is `out`. -/
def Chip.spliceOk (s : Chip) (r : Run) (out : StitchRec) (q : Request) (p : Plan) : Bool :=
  let over_ := r.plan.totalCycles - out.cycle
  match p.stitches.find? fun x => x.spliceIn with
  | none => false
  | some i =>
    let outK := s.maskThreads r.plan out.threadMask
    let inK := s.maskThreads p i.threadMask
    q.part == r.part && (p.swatches.all fun sw => r.plan.swatches.contains sw) && (r.plan.swatches.all fun sw => p.swatches.contains sw)
      && decide (over_ ≤ i.cycle)
      && Nat.land out.slotMask i.slotMask == 0 && Nat.land out.taskMask i.taskMask == 0 && Nat.land out.threadMask i.threadMask == 0
      && !bit out.slotMask 7 && !bit i.slotMask 7
      && manifestsAgree r.plan p
      && (outK.all fun k => !k.1.isRead) && (inK.all fun k => k.1.isRead)
      && !(outK.any fun k => s.remoteThread r.plan r.handles k) && !(inK.any fun k => s.remoteThread p q.handles k)
      && (List.range 40).all fun res => (List.range (resClasses res)).all fun c =>
        decide (overlapUse r.plan outK res c + overlapUse p inK res c ≤ (mget {} (grantKey res c) (s.part r.part).grants).units)

/-- The SPLICE_OUT stitch point that a run has just committed and whose plan cycle it stands at. -/
def Run.spliceOut (r : Run) : Option StitchRec :=
  match r.plan.stitches[r.nextStitch - 1]? with
  | some x => if x.spliceOut && r.at x.cycle == r.cycle && r.state == .issuing then some x else none
  | none => none

/-- PLAN_SPLICE: at the SPLICE_OUT stitch point of a run the next request's plan starts beside it, where the splice is permitted
(R108). Its task slots of the window take their values; the rest of the cells' state follows at the run's FINAL (R156). -/
def planSplice (run : Nat) (s : Chip) : Chip :=
  match s.run? run with
  | none => s
  | some r =>
    match r.spliceOut, s.requests.find? fun q => q.part == r.part && q.phase == .queued with
    | some out, some q =>
      match s.planOf q with
      | none => s
      | some p =>
        if (s.runs.any fun x => x.spliced == some r.id) || !s.readyButSwatches q p || !s.spliceOk r out q p
            || (s.startFails q p).isSome then s
        else
          let (s, p) := s.prepareStart q p
          let s := (s.commitShadow q.part p.swatches).commitOwner q.part q.handles
          match s.recheck q p with
          | (s, some st) => s.completeRequest q.id st
          | (s, none) =>
            let mask := ((p.stitches.find? fun x => x.spliceIn).map fun x => x.taskMask).getD 0
            let s := p.swatches.foldl (fun t sw => (List.range 512).foldl (fun t c =>
              let cn := cellNo sw c
              let now := (t.cell cn).scr.tasks
              let new := (now.zip (p.cellTasks sw c)).zipIdx.map fun x => if bit mask x.2 then x.1.2 else x.1.1
              t.setTasks cn new) t) s
            let s := s.updCnt q.part fun c => { c with splices := c.splices + 1 }
            s.beginRun q p (some r)
    | _, _ => s

/-! ### Stitch points -/

/-- Threads of a run stop as by a TSTOP in its present cycle, those of a mask apart (R256); the contexts that end so are counted, once for a
swatch in ganged execution and once for a cell in loose execution (R249). -/
def Chip.stopThreads (s : Chip) (r : Run) (keep : Nat) : Chip :=
  let stopped := fun (t : Thread) => ({ (t.settle r.cycle) with stopping := true } : Thread).stopNow r.cycle
  let mine := fun (t : Nat × Thread) => t.2.run == r.id && !bit keep t.1 && !t.2.idle r.cycle
  let done := s.cells.flatMap fun e =>
    if r.plan.swatches.contains (swatchOf e.1) && r.countsCell e.1 then
      e.2.threads.filter fun t => mine t && t.2.endAt.isNone && (stopped t.2).endAt.isSome
    else []
  let s := { s with cells := s.cells.map fun e =>
      if r.plan.swatches.contains (swatchOf e.1) then
        (e.1, { e.2 with threads := e.2.threads.map fun t => if mine t then (t.1, stopped t.2) else t })
      else e }
  if done.isEmpty then s else s.updCnt r.part fun c => { c with spoolDone := c.spoolDone + BitVec.ofNat 32 done.length }

/-- A swatch enters loose execution at cycle c: each cell issues from the target when the ganged stream's next bundle would have
issued, and the ganged stream waits; a halted cell issues nothing (R143). -/
def Chip.enterLoose (s : Chip) (id sw target c : Nat) : Chip :=
  match (s.run? id).bind fun r => mfind sw r.streams with
  | none => s
  | some st =>
    let start := match st.next with
      | some n => max n c
      | none => max c st.floor
    let s := s.updCells (swatchCells sw) fun _ x =>
      { x with mode := .loose, stream := { pc := target, next := if x.scr.halted then none else some start } }
    s.updRun id fun r =>
      { r with loose := sinsert sw r.loose, armed := mdel sw r.armed, streams := mput sw { st with next := none, parked := start } r.streams }

/-- A swatch returns to ganged execution at cycle c (R94, R143): at the resume point once the trap, transfer or IDLE that stood before it has run to
its end, and once those of the cells have (R150). -/
def Chip.leaveLoose (s : Chip) (id sw c : Nat) : Chip :=
  match (s.run? id).bind fun r => mfind sw r.streams with
  | none => s
  | some st =>
    let busy := (swatchCells sw).foldl (fun m cn => max m (s.cell cn).stream.busyTill) (max c (max st.parked st.floor))
    let s := s.updCells (swatchCells sw) fun _ x => { x with mode := .ganged, stream := {} }
    s.updRun id fun r => { r with loose := sremove sw r.loose, streams := mput sw { st with next := some busy, parked := 0 } r.streams }

/-- Loose execution ends and begins at a stitch point. -/
def Chip.switchModes (s : Chip) (r : Run) (c : Nat) : Chip :=
  let s := r.loose.foldl (fun t sw => t.leaveLoose r.id sw c) s
  r.armed.foldl (fun t a => t.enterLoose r.id a.1 a.2 c) s

/-- The previous stitch point passed without its mark (R107). -/
def Chip.missedMark (s : Chip) (r : Run) : Chip :=
  if r.marks.contains (r.nextStitch - 1) then s
  else (s.updRegs r.part fun g => { g with stitchMiss := g.stitchMiss + 1 }).hazard r 3 r.markAt.1 r.markAt.2

/-- The stop a stitch point takes, of what the commit finds and the cause noted earlier: the first of R117. -/
def Run.dueStop (r : Run) (found : Option Status) : Option Status :=
  match found, r.stop with
  | some st, some old => if stopRank st < stopRank old then some st else some old
  | some st, none => some st
  | none, st => st

/-- What goes wrong at the commit of stitch index n: task regions (R138), keys not resident (R228), Selvage links (R339). -/
def Chip.commitFault (s : Chip) (r : Run) (n : Nat) : Option Status :=
  if (s.badTask r.part r.plan.swatches).isSome then some .bound
  else if !s.keysLoadedAt r.part r.plan r.keyUse n then some .notResident
  else none

/-- The pacing figure of a partition takes effect in a run: its windows begin here (R369, R372). -/
def Run.repace (p : Nat) (r : Run) : Run := if r.pace = p then r else { r with pace := p, paceAt := 0 }

/-- A stitch point of a run: the pacing figure takes effect in it, and in a plan that shares its swatches' plan cycles (R108, R369). -/
def Chip.repaceWith (s : Chip) (r : Run) : Chip :=
  { s with runs := s.runs.map fun x => if x.id == r.id || (x.part == r.part && x.meets r) then x.repace (s.part r.part).pace else x }

/-- What commits at a stitch point, FINAL or not: task slots, shadow copies, owner tables (R106, R118, R138, R341). -/
def Chip.commitAll (s : Chip) (r : Run) : Chip :=
  let s := if (s.badTask r.part r.plan.swatches).isSome then s else s.commitTasks r.plan.swatches
  let s := (s.commitShadow r.part r.plan.swatches r.snap).commitOwner r.part r.handles
  s.updRun r.id fun x => { x with snap := none }

/-- Commit the stitch point a run stands at. -/
def Chip.commitStitch (s : Chip) (r : Run) (rec_ : StitchRec) : Chip :=
  let n := r.nextStitch
  let s := s.missedMark r
  let fault := s.commitFault r n
  let (r', down) := s.chooseLinks r
  let s := (s.commitAll r).moveResends r'
  let found := match fault, down with
    | some st, _ => some st
    | none, some _ => some Status.routeFrayed
    | none, none => none
  match r.dueStop found with
  | some st => s.stopPlan r st none 0
  | none =>
    let s := if rec_.spliceOut then s.stopThreads r rec_.threadMask else s
    let s := if rec_.outputDone then s.finishOutputs r else s
    let brk := s.breaksAt r.part n
    let s := s.updRun r.id fun x =>
      let x := ({ (s.retiredNow x) with nextStitch := n + 1, slvTo := r'.slvTo, broken := brk } : Run)
      x.repace (s.part r.part).pace
    s.switchModes r (r.at rec_.cycle)

/-- STITCH_COMMIT: the next stitch point of a run, but for the FINAL one, commits at its plan cycle (R106), in the first plan cycle after a hold that
begins in it (R121). -/
def stitchCommit (run : Nat) (s : Chip) : Chip :=
  match (s.run? run).bind fun r => if r.state == .issuing then (r.plan.stitches[r.nextStitch]?).map fun x => (r, x) else none with
  | none => s
  | some (r0, rec_) =>
    if rec_.kind = 2 then s
    else
      s.atCommit run (r0.at rec_.cycle) fun t =>
        match t.run? run with
        | none => t
        | some r => if r.broken then t else t.commitStitch r rec_

/-! ### The end of a plan -/

/-- A cell holds a unit marked full that a write thread of a run has still to present, or has one of its units under way that is not with a
stack or on the fabric: reads that are to land, Lining lines that are to become visible. -/
def Cell.draining (c : Cell) (id now : Nat) : Bool :=
  (c.threads.any fun t => t.2.run == id && !t.2.kind.isRead && decide ((t.2.settle now).presented < (t.2.settle now).marked
      + (t.2.pendAdv.map (·.2)).sum))
    || c.units.any fun u => u.run == id
        && (u.kind.isRead || u.kind == .liningWrite || (u.stage == .going && (u.fabric || decide (now < u.presentedAt))))

/-- A run still drains in some cell: its write threads, and by the TSTOP that FINAL stands for its read units in flight (R250, R256). -/
def Chip.drains (s : Chip) (r : Run) : Bool :=
  s.cells.any fun e => r.plan.swatches.contains (swatchOf e.1) && e.2.draining r.id r.cycle

/-- The engine work of a run ends with it in a cell; what is on its way to the Pad lands in its own cycle, and the Press keeps its accumulators, tap
and lock for a plan that goes on (R108, R175). -/
def Cell.finalRun (id : Nat) (c : Cell) : Cell :=
  { c with
    press := { c.press with queue := c.press.queue.filter fun o => o.run != id }
    stip := { c.stip with queue := c.stip.queue.filter fun o => o.run != id }
    burin := { c.burin with queue := c.burin.queue.filter fun o => o.run != id } }

/-- The engine work of a run that FINAL finds unfinished ends in its swatches: the rows it would have written hold unspecified values, as at a stop
(R207; DEDUCED, log entry 74). -/
def Chip.finalWork (s : Chip) (r : Run) : Chip :=
  let s := r.plan.swatches.foldl (fun t sw => t.discardPanels r.id sw) s
  let touched := s.cells.filterMap fun e => if r.plan.swatches.contains (swatchOf e.1) then some e.1 else none
  let s := touched.foldl (fun (t : Chip) cn =>
    let c := t.cell cn
    (t.freePadRows cn (c.pendingRows r.id)).updCell cn (Cell.finalRun r.id)) s
  s.strandWeaves r

/-- The writes and adds of a run that are with the stacks are accepted, in queue order with what stopped plans left before them: a completion is
reported only after them (R262, R274). -/
def Chip.acceptWrites (s : Chip) (id : Nat) : Chip :=
  let writes := fun (q : HbmReq) => q.op == .write || q.op == .add
  (List.range 8).foldl (fun (t : Chip) h =>
    let q := (t.stack h).queue
    let mine := fun (x : HbmReq) => x.run == some id && writes x
    let last := ((q.zipIdx.filter fun x => mine x.1).map (·.2)).foldl max 0
    if !(q.any mine) then t
    else
      let goes := q.zipIdx.filter fun (x : HbmReq × Nat) => mine x.1 || (x.1.run.isNone && x.1.origin.isNone && decide (x.2 < last))
      let t := t.updStack h fun x => { x with queue := (x.queue.zipIdx.filter fun y => !(goes.any fun g => g.2 == y.2)).map (·.1) }
      goes.foldl (fun (t : Chip) g => t.finishWrite g.1 (((t.run? id).map (·.cycle)).getD 0)) t) s

/-- The write and add units of a run that its cells have presented join the queues of their stacks. -/
def Chip.joinQueues (s : Chip) (r : Run) : Chip :=
  s.cells.foldl (fun (t : Chip) e =>
    if !r.plan.swatches.contains (swatchOf e.1) then t
    else e.2.units.foldl (fun (t : Chip) u =>
      if u.run == r.id && u.stage == .going && !u.fabric && (u.kind == .hbmWrite || u.kind == .hbmAdd) then
        (t.setUnit e.1 { u with stage := .queued }).updStack (stackOf u.addr) fun x => { x with queue := x.queue ++ [t.requestOf r e.1 u] }
      else t) t) s

/-- One TOKEN on each link the plan used, to each grant it wrote; ERR and the status where a NACK came (R333, R335). -/
def Chip.sendTokens (s : Chip) (r : Run) : Chip :=
  r.slvWrote.foldl (fun t w =>
    let dest := w.2 / 2 ^ 32
    let p : SlvPacket := {
      kind := .token, dest := dest, part := r.part, run := some r.id, handle := w.2 % 2 ^ 32
      err := r.slvFault.isSome, status := (r.slvFault.map Status.code).getD 0, acceptAt := t.time }
    t.updLink w.1 fun l => { l with packets := l.packets ++ [p] }) s

/-- A run is over: the memory has taken what it wrote, its threads are gone, its outputs complete, its tokens sent, its swatches free, its request
done (R78, R120, R256, R274, R333, R456). -/
def Chip.finishRun (s : Chip) (r : Run) : Chip :=
  let s := ((s.joinQueues r).acceptWrites r.id).orphanQueues r.id
  let s := r.plan.swatches.foldl (fun t sw =>
    { t with cells := t.cells.map fun e => if swatchOf e.1 = sw then (e.1, { e.2 with
        threads := e.2.threads.filter fun x => x.2.run != r.id, units := e.2.units.filter fun u => u.run != r.id }) else e }) s
  let s := (s.finishOutputs r).sendTokens r
  let st := r.slvFault.getD .ok
  let s := ((s.endRun r st).settleKeyWin r.part).dropOldKeys r.part
  let s := (s.takeEffect r.part).sweepTwiddles r.part
  match r.request with
  | some q => s.endRequest q st
  | none => s

/-- The first plan cycle after FINAL: a plan that was spliced onto this one takes its start state (R156). -/
def Chip.startNext (s : Chip) (r : Run) : Chip :=
  match s.runs.find? fun x => x.spliced == some r.id with
  | some x => x.plan.swatches.foldl (fun (t : Chip) sw => t.startCells x.plan false sw) s
  | none => s

/-- FINAL of a run: the commit, then a stop that is due or the end. Its threads stop as by TSTOP, its engine work ends, and from here on it only
drains, by F-cycles (R108, R117, R256). -/
def Chip.finalStitch (s : Chip) (r : Run) : Chip :=
  let s := s.missedMark r
  let fault := s.commitFault r r.nextStitch
  let s := s.commitAll r
  match r.dueStop fault with
  | some st => s.stopPlan r st none 0
  | none =>
    let s := ((s.raisePart r.part 1).stopThreads r 0).finalWork r
    let s := s.updRun r.id fun x =>
      { x with state := .draining, loose := [], armed := [], hold := 0, pace := 64, paceAt := 0, wall := none, weaves := [], flits := [] }
    let s := s.startNext r
    match s.run? r.id with
    | none => s
    | some r => if s.drains r then s else s.finishRun r

/-- PLAN_FINAL: at TOTAL_CYCLES the plan ends, or a stop that is due takes effect; else EV_PLAN_DONE is counted, and write threads that
hold units marked full drain before the swatches are free (R108, R117, R256). A debug break at this stitch index holds the plan first (R126). -/
def planFinal (run : Nat) (s : Chip) : Chip :=
  match (s.run? run).bind fun r => if r.state == .issuing then (r.plan.stitches[r.nextStitch]?).map fun x => (r, x) else none with
  | none => s
  | some (r0, rec_) =>
    if rec_.kind != 2 then s
    else
      s.atCommit run (r0.at rec_.cycle) fun t =>
        match t.run? run with
        | none => t
        | some r =>
          if r.broken then t
          else if t.breaksAt r.part r.nextStitch && !r.breakDone then t.updRun run fun x => { x with broken := true, breakDone := true }
          else t.finalStitch r

/-- WRITE_DRAIN_DONE: the last draining thread has read its last row and made its last beat, and what was in flight has landed (R256). -/
def writeDrainDone (run : Nat) (s : Chip) : Chip :=
  match s.run? run with
  | none => s
  | some r => if r.state != .draining || s.drains r then s else s.finishRun r

/-! ### Key residency (R228, R461, R468, R469) -/

/-- The plans that ask for keys, in order: the running ones, with the buffers of their start, then those of the queued requests, with the
registrations of the moment (R80, R461). -/
def Chip.keyAskers (s : Chip) (part : Nat) : List (Plan × Nat × List Nat) :=
  ((s.runsOf part).map fun r => (r.plan, r.nextStitch, r.keyUse)) ++
    ((s.requests.filter fun q => q.part == part && q.phase == .queued).filterMap fun q =>
      (s.planOf q).map fun p => (p, 0, s.keyHandles part p))

/-- The KEYS entries of a plan still to come from a stitch index, by first index, each with its buffer. -/
def Plan.keyOrder (p : Plan) (idx : Nat) (use : List Nat) : List (KeyEntry × Nat) :=
  ((p.keys.zip use).filter fun k => decide (idx ≤ k.1.first)).mergeSort fun a b => decide (a.1.first ≤ b.1.first)

/-- A range holds, or is about to hold, the key of an entry from its buffer. -/
def Partition.rangeFor (x : Partition) (p : Plan) (k : KeyEntry) (h : Nat) : Option KeyRange :=
  x.keyRanges.find? fun r => r.keyId == k.keyId && r.plate == p.plate k.vplate && r.offset == k.offset && r.handle == h

/-- The next residency load of a partition: the plan, the entry and the buffer. -/
def Chip.nextLoad (s : Chip) (part : Nat) : Option (Plan × KeyEntry × Nat) :=
  (s.keyAskers part).findSome? fun a =>
    ((a.1.keyOrder a.2.1 a.2.2).find? fun k => k.2 != 0 && ((s.part part).rangeFor a.1 k.1 k.2).isNone).map fun k => (a.1, k)

/-- The lines of the key container in a buffer. -/
def Chip.keyLines (s : Chip) (part handle : Nat) : Nat :=
  match s.bufOf handle with
  | some b => let h := s.headerAt b 0; cdiv (h.size (h.m18 (s.part part).master)) 144
  | none => 0

/-- A running plan holds a range of a key window for another key, or for another buffer of the same key, until its last stitch index for it (R80,
R468). -/
def Chip.rangeHeld (s : Chip) (part plate lo hi handle : Nat) : Bool :=
  (s.runsOf part).any fun r => r.state == .issuing && (r.plan.keys.zip r.keyUse).any fun k =>
    r.plan.plate k.1.vplate == plate && decide (r.nextStitch ≤ k.1.last)
      && decide (k.1.offset < hi) && decide (lo < k.1.offset + s.keyLines part k.2)
      && !(k.2 == handle && k.1.offset == lo)

/-- RESIDENCY_LOAD_START: firmware begins the next load in queue order; a range that a running plan still holds waits (R461, R468). -/
def residencyLoadStart (part : BitVec 6) (s : Chip) : Chip :=
  let p := part.toNat
  match s.nextLoad p with
  | none => s
  | some (pl, k, h) =>
    let plate := pl.plate k.vplate
    let n := s.keyLines p h
    if s.rangeHeld p plate k.offset (k.offset + n) h then s
    else
      let r : KeyRange := { keyId := k.keyId, plate := plate, offset := k.offset, lines := n, handle := h, loaded := false }
      s.updPart p fun x =>
        { x with keyRanges := (x.keyRanges.filter fun g =>
            g.plate != plate || decide (g.offset + g.lines ≤ k.offset) || decide (k.offset + n ≤ g.offset)) ++ [r] }

/-- A running plan on a swatch uses another buffer of a key. -/
def Chip.otherKey (s : Chip) (part sw keyId handle : Nat) : Bool :=
  (s.runsOf part).any fun r => r.plan.swatches.contains sw && (r.plan.keys.zip r.keyUse).any fun k => k.1.keyId == keyId && k.2 != handle

/-- The SEED of a key goes into every Weft seed slot that an ENGINE record of an installed plan binds to it, through the shadow banks
(R202, R461); where a running plan uses another buffer of the key, the next start writes it (R80). -/
def Chip.bindSeed (s : Chip) (part keyId handle : Nat) : Chip :=
  (s.part part).plans.foldl (fun (t : Chip) p =>
    let slots := p.2.seedSlots keyId
    if slots.isEmpty then t
    else p.2.swatches.foldl (fun (t : Chip) sw =>
      if s.otherKey part sw keyId handle then t
      else (t.putSeeds sw (slots.map fun x => (x, s.seedIn handle))).settleStores sw) t) s

/-- RESIDENCY_LOAD_DONE: the oldest load of the partition is complete. Its bytes become reachable when the key window commits, at once while no plan
of the partition runs, and its seed goes into the bound slots (R228, R238, R461). -/
def residencyLoadDone (part : BitVec 6) (s : Chip) : Chip :=
  let p := part.toNat
  match (s.part p).keyRanges.find? fun r => !r.loaded with
  | none => s
  | some r =>
    match s.bufOf r.handle with
    | none => s.updPart p fun x => { x with keyRanges := x.keyRanges.filter fun g => g != r }
    | some b =>
      let bytes := memReadN s.mem b.addr (min (144 * r.lines) (576 * b.bolts))
      let s := (s.keepShadow p).updPart p fun x =>
        { x with keyRanges := x.keyRanges.map fun (g : KeyRange) => if g == r then { g with loaded := true, staged := some bytes } else g }
      ((s.bindSeed p r.keyId r.handle).settleKeyWin p).dropOldKeys p

end Sys2Proof.Machine
end

