-- ==== Sys2Proof/Machine/Query.lean ====
section
/-! DEFINITION. The queries of the engines and memories, the retirement of pages and blocks, and the debug commands of chapters 4 to 10. -/

namespace Sys2Proof.Machine

/-! ### Queries of a cell -/

/-- The checks of a query that names a cell (R157, R180, R267). -/
def cellQuery (s : Chip) (part cell : Nat) (f : Cell → List Nat) : Chip × Status × Nat × List Nat :=
  if !s.quiet part then fails s .busy
  else if 32768 ≤ cell || (s.swatch (swatchOf cell)).owner != some part then fails s .bound
  else succeeds s (f (s.cell cell))

/-- TC_SCRIBER_QUERY (R157): CWP, WDEPTH, CDEPTH, ATASK, SPILLP of each slot, loop depth, halted flag, poisoned register keys. -/
def tcScriberQuery (c : Call) (part cell : Nat) (s : Chip) : Chip :=
  s.call c 0x0401 { part := some part } [] fun s =>
    cellQuery s part cell fun x =>
      [x.scr.cwp, x.scr.wdepth, x.scr.cdepth, x.scr.atask] ++ x.scr.spillp ++ [x.scr.loops.length, b2n x.scr.halted]
        ++ (x.scr.regs.filter fun e => e.2.poison).map (·.1)

/-- The tap lock of a Press in plan cycle `now`: whether it holds, and the groups that no read up to then has consumed (R166, R180). -/
def Press.tapState (now : Nat) (p : Press) : Nat × Nat :=
  match p.lockAt now with
  | some l => (1, 3 - (l.reads.filter fun e => e.2 ≤ now).length)
  | none => (0, 0)

/-- TC_PS_QUERY (R180): queue depths, tap lock, unconsumed tap groups, the counters of Table 6.9. -/
def tcPsQuery (c : Call) (part cell : Nat) (s : Chip) : Chip :=
  s.call c 0x0402 { part := some part } [] fun s =>
    let n := (s.part part).cnt
    let now := s.countNow (swatchOf cell)
    cellQuery s part cell fun x =>
      [x.press.queue.length, x.stip.queue.length, (x.press.tapState now).1, (x.press.tapState now).2, n.pressSteps.toNat, n.pressDrains.toNat, n.stpGroups.toNat,
       n.stpSuppressed.toNat]

/-- A thread context with the marks that are visible in plan cycle `now` (R249, R250). -/
def Cell.threadNow (c : Cell) (now th : Nat) : Option Thread := (mfind th c.threads).map (·.settle now)

/-- The credits of a read thread, the full units of a write thread. -/
def Thread.room (t : Thread) : Nat := if t.kind.isRead then t.credits else t.fullUnits

/-- TC_SPOOL_QUERY (R267): of each thread idle, kind, descriptor, presented, landed, released, credits, deadline; then the rows the
cell has in flight. -/
def tcSpoolQuery (c : Call) (part cell : Nat) (s : Chip) : Chip :=
  s.call c 0x0405 { part := some part } [] fun s =>
    let now := s.countNow (swatchOf cell)
    cellQuery s part cell fun x =>
      ((List.range 16).flatMap fun th =>
        match x.threadNow now th with
        | none => [1, 0, 0, 0, 0, 0, 0, 0]
        | some t => [b2n (t.idle now), t.d.kind, t.desc, t.presented, t.moved, t.marked, t.room, t.deadline (x.reading th now)])
      ++ [(x.units.map fun u => u.kind.rows).sum]

/-- DBG_SPOOL_STATE (R268, Table 9.11): IDLE, KIND, DESC, CREDITS, PRESENTED and VALID of the selected thread of the selected cell. The data
reads all-ones with VALID 0 while the cell's partition runs a plan that is not held at a break. -/
def Chip.spoolState (s : Chip) : BitVec 63 :=
  let cn := s.dbg.spoolCell
  let now := s.countNow (swatchOf cn)
  let quiet := (s.swatch (swatchOf cn)).owner.all fun p => s.quiet p
  if !quiet then BitVec.ofNat 63 (2 ^ 62 - 1)
  else
    let n := match (s.cell cn).threadNow now s.dbg.spoolThread with
      | none => 1
      | some t => b2n (t.idle now) + 2 * (t.d.kind % 8) + 2 ^ 4 * t.desc + 2 ^ 12 * t.room + 2 ^ 25 * (t.presented % 2 ^ 31)
    BitVec.ofNat 63 (n + 2 ^ 62)

/-! ### Engine stores (R202, R203) -/

/-- Write an item into the shadow bank of every panel of a swatch: none where it does not fit. -/
def Chip.storeItem (s : Chip) (part id : Nat) (item : StoreItem) (sw : Nat) : Option Chip :=
  let panels := (List.range 8).map (sw * 8 + ·)
  match item with
  | .gather rows =>
    panels.foldl (fun (t : Option Chip) p => t.bind fun t =>
      ((t.panel p).shadow.gather.put id rows).map fun g =>
        t.updPanel p fun pn => { pn with shadow := { pn.shadow with gather := g } }) (some s)
      |>.map fun t => t.updSwatch sw fun w => { w with pinTables := sinsert id w.pinTables }
  | .seed v =>
    some ((panels.foldl (fun (t : Chip) p =>
      t.updPanel p fun pn => { pn with shadow := { pn.shadow with seeds := mput id v pn.shadow.seeds } }) s).updSwatch sw
        fun w => { w with pinSeeds := sinsert id w.pinSeeds })
  | .seedOfKey k =>
    let v := s.keySeed part k
    some ((panels.foldl (fun (t : Chip) p =>
      t.updPanel p fun pn => { pn with shadow := { pn.shadow with seeds := mput id v pn.shadow.seeds } }) s).updSwatch sw
        fun w => { w with pinSeeds := sinsert id w.pinSeeds })
  | .twiddle => some s

/-- TC_ENGINE_STORE (Table 7.11): the shadow bank of a store on each swatch of a set. -/
def tcEngineStore (c : Call) (part mask id : Nat) (item : StoreItem) (s : Chip) : Chip :=
  let bound := match item with | .gather _ => 16 | _ => 32
  let rows := match item with | .gather r => r.length | _ => 0
  s.call c 0x0403 { part := some part } [(item == .twiddle, .notSupported), (decide (bound ≤ id), .bound)] fun s =>
    let sws := maskSwatches mask
    let key := match item with | .seedOfKey k => some k | _ => none
    if sws.any fun sw => (s.swatch sw).owner != some part then fails s .bound
    else if 256 < rows then fails s .overcommit
    else if key.any fun k => (mfind k (s.part part).keys).isNone then fails s .notResident
    else
      match sws.foldl (fun (t : Option Chip) sw => t.bind fun t => t.storeItem part id item sw) (some s) with
      | none => fails s .overcommit
      | some t => succeeds (sws.foldl (fun (t : Chip) sw => t.settleStores sw) t)

/-- PTN_ENG_STORE (Table 7.13): twiddle sets, gather rows and seed slots of the most-used panel, and whether a shadow bank differs. -/
def Chip.engStore (s : Chip) (part : Nat) : Nat × Nat × Nat × Bool :=
  let sws := s.swatchesOf part
  let panels := sws.flatMap fun sw => (List.range 8).map fun q => s.panel (sw * 8 + q)
  let most := fun (f : Panel → Nat) => (panels.map f).foldl max 0
  ((s.part part).twsets.length, most fun p => (p.shadow.gather.tables.map fun t => t.2.2).sum, most fun p => p.shadow.seeds.length,
    (panels.any fun p => p.shadow != p.active) || sws.any fun sw => (s.swatch sw).twiddle != (s.swatch sw).twShadow)

/-- TC_ENGINE_QUERY (R211): queue depths of the Burin of local cell 0, the Hatch and the Weft of panel 0, active Yoke moves, store
occupancy, pending flag, the counters of Table 7.13. -/
def tcEngineQuery (c : Call) (part sw : Nat) (s : Chip) : Chip :=
  s.call c 0x0404 { part := some part } [(decide (64 ≤ sw), .bound)] fun s =>
    if !s.quiet part then fails s .busy
    else if (s.swatch sw).owner != some part then fails s .bound
    else
      let (tw, g, sd, pend) := s.engStore part
      let n := (s.part part).cnt
      succeeds s [((swatchCells sw).map fun cn => (s.cell cn).burin.queue.length).foldl max 0,
        ((List.range 8).map fun q => (s.panel (sw * 8 + q)).hatch.length).foldl max 0,
        ((List.range 8).map fun q => (s.panel (sw * 8 + q)).weft.length).foldl max 0,
        (s.swatch sw).moves.length, tw, g, sd, b2n pend, n.burinBfly.toNat, n.hatchRows.toNat, n.yokeWords.toNat,
        n.yokeDrop.toNat, n.weftRows.toNat]

/-! ### Memories (R233, R244, R284, R285, R564) -/

/-- TC_LINING_RETIRE (R233, R244): a block joins the plate's retired list. -/
def tcLiningRetire (c : Call) (plate block : Nat) (s : Chip) : Chip :=
  s.call c 0x0501 { pf0Only := true } [(decide (8 ≤ plate), .bound), (decide (1820 < block), .bound)] fun s =>
    let l := s.lining plate
    if l.retired.contains block then succeeds s
    else if 64 ≤ l.retired.length then fails s .overcommit
    else succeeds (s.updLining plate fun x => { x with retired := x.retired ++ [block] })

/-- TC_MEM_QUERY: error counts, the key window, the retired blocks, the free task and key lines of a partition on a plate. -/
def tcMemQuery (c : Call) (part plate : Nat) (s : Chip) : Chip :=
  s.call c 0x0502 { part := some part } [(decide (8 ≤ plate), .bound)] fun s =>
    let n := (s.part part).cnt
    let w := mget {} plate (s.part part).keyWin
    let q := (s.part part).quotas
    succeeds s ([n.padCe.toNat, n.padUe.toNat, n.lngCe.toNat, n.lngUe.toNat, w.base, w.bound,
        mget 0 plate q.lining - s.liningUse part plate,
        (w.bound - w.base) - ((s.keyBufs part plate).map fun r => r.2 - r.1).sum]
      ++ (s.lining plate).retired)

/-- The maximal runs of pages of [p, p + n) that no listed run covers. -/
def newRuns (listed : List (Nat × Nat)) (p : Nat) : Nat → List (Nat × Nat)
  | 0 => []
  | n + 1 =>
    let rest := newRuns listed (p + 1) n
    if listed.any fun e => decide (e.1 ≤ p) && decide (p < e.1 + e.2) then rest
    else
      match rest with
      | (a, m) :: more => if a = p + 1 then (p, m + 1) :: more else (p, 1) :: rest
      | [] => [(p, 1)]

/-- A page of a stack is retired. -/
def Stack.pageOut (x : Stack) (p : Nat) : Bool := x.retired.any fun e => decide (e.1 ≤ p) && decide (p < e.1 + e.2)

/-- The page on which granule g of the control-memory backing, or granule 28 672 + g of the spare pool, lies (R564). -/
def granulePage (g : Nat) : Nat := (0x8F8000000 + 4096 * g) / 65536

/-- Redirect the granules of control memory that lie on retired pages to usable spare granules; those that find none stay (R564).
Granules are numbered from the start of the backing, the spare pool from 28 672. -/
def Stack.redirectAll (x : Stack) : Stack :=
  let hit := fun (y : Stack) (g : Nat) => y.pageOut (granulePage (mget g g y.redirect))
  let pages := (x.retired.flatMap fun e => (List.range e.2).map (e.1 + ·)).filter fun p => decide (0x8F800 ≤ p * 16) && decide (p < 589824)
  let here := (pages.flatMap fun p => (List.range 16).map fun k => p * 16 + k - 0x8F8000).filter fun g => decide (g < 28672)
  let moved := (x.redirect.map (·.1))
  (here ++ moved).eraseDups.foldl (fun (y : Stack) g =>
    if !hit y g || y.stuck.contains g then y
    else
      let used := y.redirect.map (·.2)
      match (List.range 4096).find? fun k => !used.contains (28672 + k) && !y.pageOut (granulePage (28672 + k)) with
      | some k => { y with redirect := mput g (28672 + k) y.redirect }
      | none => { y with stuck := sinsert g y.stuck }) x

/-- Retired bytes above 5 % of 36 GiB (R285): pages of 64 KiB in 589 824. -/
def Stack.over5 (x : Stack) : Bool := decide (589824 < 20 * (x.retired.map (·.2)).sum)

/-- TC_PAGE_RETIRE (R284, R288, R295): the pages of the run that are not retired yet join the list. Above 5 % the stack is
Degraded, which lowers its capacity (R285, R375). -/
def tcPageRetire (c : Call) (stack first count : Nat) (s : Chip) : Chip :=
  s.call c 0x0503 { pf0Only := true } [(decide (8 ≤ stack), .bound)] fun s =>
    if 256 < count then fails s .badShape
    else if 589823 < first || 589824 < first + count then fails s .bound
    else
      let x := s.stack stack
      let add := newRuns x.retired first count
      if 8192 < x.retired.length + add.length then fails s .overcommit
      else
        let s := s.updStack stack fun x => Stack.redirectAll { x with retired := x.retired ++ add }
        if (s.stack stack).over5 && !x.degraded then
          let s := s.updStack stack fun x => { x with degraded := true }
          succeeds ((s.raiseDev 11 none (some stack) none 0).capacityChange [stack] false)
        else succeeds s

/-- HBM_STATE (Table 10.10) as numbers: READY, ZEROING, DEGRADED, UNITS. -/
def Stack.status (x : Stack) : List Nat := [b2n x.ready, b2n x.zeroing, b2n x.degraded, if x.degraded then 58 else 62]

/-- TC_HBM_QUERY: HBM_STATE, error counts, the UE and CE-threshold records, list entries, f in units of 2^-18. -/
def tcHbmQuery (c : Call) (stack : Nat) (s : Chip) : Chip :=
  s.call c 0x0504 {} [(decide (8 ≤ stack), .bound)] fun s =>
    let x := s.stack stack
    succeeds s (x.status ++ [x.ce.toNat, x.ue.toNat, b2n x.ueAddr.valid, x.ueAddr.a, b2n x.cePage.valid, x.cePage.a,
      x.retired.length, (x.retired.map (·.2)).sum * 2 ^ 18 / 589824])

/-! ### Debug commands (R13, R15) -/

/-- A write of an Expert register by PF0: ignored and counted while Expert control is not available. R15 says so of a clear expert enable; that it is
the same with the enable set in a lifecycle state that R13 does not name is the model's choice (DESIGN CHOICE, log entry 76). -/
def Chip.expertWrite (s : Chip) (f : Chip → Chip) : Chip :=
  if s.expertOn then f s else { s with tlr := { s.tlr with lockedWrites := s.tlr.lockedWrites + 1 } }

/-- DBG_STITCH_GO (R126): a plan held at the break goes on. -/
def dbgStitchGo (s : Chip) : Chip :=
  s.expertWrite fun s => { s with runs := s.runs.map fun (r : Run) => if r.broken then { r with broken := false } else r }

/-- A partition is held at a stitch break. -/
def Chip.heldAtBreak (s : Chip) (part : Nat) : Bool := (s.runsOf part).any fun r => r.broken

/-- Mark rows of a cell poisoned. -/
def Chip.poisonRows (s : Chip) (cn : Nat) (rows : List Nat) : Chip := rows.foldl (fun (t : Chip) r => t.poisonRow cn r) s

/-- The cells of a swatch that hold anything. -/
def Chip.touched (s : Chip) (sw : Nat) : List Nat := s.cells.filterMap fun e => if swatchOf e.1 = sw then some e.1 else none

/-- DBG_PS_ABORT with GO (R181): SWATCH, ENGINE bit 0 Press, bit 1 Stipple. The accumulators and the tap are the Press's. -/
def dbgPsAbort (swatch : BitVec 6) (engine : BitVec 2) (s : Chip) : Chip :=
  s.expertWrite fun s =>
    let sw := swatch.toNat
    let s := { s with dbg := { s.dbg with psSwatch := sw, psEngine := engine.toNat } }
    let held := (s.swatch sw).owner.any fun p => s.heldAtBreak p
    if !held then { s with dbg := { s.dbg with psResult := { status := .engineBusy, done := true } } }
    else
      let press := engine.getLsbD 0
      let stip := engine.getLsbD 1
      let s := (s.touched sw).foldl (fun (t : Chip) cn =>
        let t := if press then t.abortPress cn else t
        if stip then t.abortStipple cn else t) s
      { s with dbg := { s.dbg with psResult := { status := .ok, done := true } } }

/-- The code of ENGINE. -/
def DbgEngine.code : DbgEngine → Nat
  | .none => 0
  | .burin => 1
  | .hatch => 2
  | .weft => 3

/-- The order of Table 8.2 that the writes of an engine have. -/
def DbgEngine.order : DbgEngine → Nat
  | .none => 0
  | .hatch => 3
  | .weft => 4
  | .burin => 5

/-- The writes of an engine to a cell that have not landed before its present cycle. -/
def Chip.flightOf (s : Chip) (e : DbgEngine) (cn : Nat) : List PadLand :=
  let now := s.countNow (swatchOf cn)
  (s.cell cn).pad.lands.filter fun l => l.order == e.order && decide (now ≤ l.due)

/-- An engine of a swatch has something queued or in flight: an instruction, or rows that have not landed (R212). -/
def Chip.engineBusy (s : Chip) (sw : Nat) (e : DbgEngine) : Bool :=
  let cells := s.touched sw
  let panels := (List.range 8).map (sw * 8 + ·)
  match e with
  | .none => false
  | .burin => cells.any fun cn => !(s.cell cn).burin.queue.isEmpty || !(s.flightOf e cn).isEmpty
  | .hatch => (panels.any fun p => !(s.panel p).hatch.isEmpty) || cells.any fun cn => !(s.flightOf e cn).isEmpty
  | .weft => (panels.any fun p => !(s.panel p).weft.isEmpty) || cells.any fun cn => !(s.flightOf e cn).isEmpty

/-- Note a command of DBG_ENG_CMD and its result. -/
def Chip.engResult (s : Chip) (sw : Nat) (e : DbgEngine) (op : Nat) (st : Status) : Chip :=
  { s with dbg := { s.dbg with
      engSwatch := sw, engEngine := e.code, engOp := op, engResult := { status := st, done := true } } }

/-- DBG_ENG_CMD SWAP_NOW (R212): the shadow bank of an idle engine's store becomes active at once. -/
def dbgEngSwapNow (swatch : BitVec 6) (e : DbgEngine) (s : Chip) : Chip :=
  s.expertWrite fun s =>
    let sw := swatch.toNat
    if s.engineBusy sw e then s.engResult sw e 1 .engineBusy
    else
      let panels := (List.range 8).map (sw * 8 + ·)
      let s := match e with
        | .none => s
        | .burin => s.updSwatch sw fun w => { w with twiddle := w.twShadow }
        | .hatch => panels.foldl (fun (t : Chip) p =>
            t.updPanel p fun pn => { pn with active := { pn.active with gather := pn.shadow.gather } }) s
        | .weft => panels.foldl (fun (t : Chip) p =>
            t.updPanel p fun pn => { pn with active := { pn.active with seeds := pn.shadow.seeds } }) s
      s.engResult sw e 1 .ok

/-- The rows in flight from an engine to the cells of a swatch do not land, and are poisoned. -/
def Chip.abortFlight (s : Chip) (sw : Nat) (e : DbgEngine) : Chip :=
  (s.touched sw).foldl (fun (t : Chip) cn =>
    let out := t.flightOf e cn
    (t.poisonRows cn (out.map (·.row))).updCell cn fun x =>
      { x with pad := { x.pad with lands := x.pad.lands.filter fun l => !out.contains l } }) s

/-- DBG_ENG_CMD ABORT (R212): an engine's work is discarded and the rows it had still to write are poisoned. -/
def dbgEngAbort (swatch : BitVec 6) (e : DbgEngine) (s : Chip) : Chip :=
  s.expertWrite fun s =>
    let sw := swatch.toNat
    let s := if e == .none then s else s.abortFlight sw e
    let s := match e with
      | .none => s
      | .burin => (s.touched sw).foldl (fun (t : Chip) cn =>
          (t.poisonRows cn ((t.cell cn).burin.queue.flatMap fun (o : BurinOp) => o.dest)).updCell cn fun x => { x with burin := {} }) s
      | .hatch => (List.range 8).foldl (fun (t : Chip) q =>
          let p := sw * 8 + q
          let ops : List HatchOp := (t.panel p).hatch
          let t := if ops.isEmpty then t
            else (List.range 64).foldl (fun (t : Chip) c => t.poisonRows (p * 64 + c) (ops.flatMap fun (o : HatchOp) => o.dest c)) t
          t.updPanel p fun pn => { pn with hatch := [], hatchFree := 0, autos := [] }) s
      | .weft => (List.range 8).foldl (fun (t : Chip) q =>
          let p := sw * 8 + q
          let ops : List WeftOp := (t.panel p).weft
          let t := if ops.isEmpty then t
            else (List.range 64).foldl (fun (t : Chip) c => t.poisonRows (p * 64 + c) (ops.flatMap fun (o : WeftOp) => o.dest c)) t
          t.updPanel p fun pn => { pn with weft := [], weftFree := 0 }) s
    s.engResult sw e 2 .ok

/-- A reserved OP of DBG_ENG_CMD (Table 7.14). -/
def dbgEngReserved (swatch : BitVec 6) (e : DbgEngine) (op11 : Bool) (s : Chip) : Chip :=
  s.expertWrite fun s => s.engResult swatch.toNat e (if op11 then 3 else 0) .notSupported

/-- The Pad window reaches a cell: its partition is held at a break, runs no plan, or no partition holds it (R224). -/
def Chip.padOpen (s : Chip) (cell : Nat) : Bool :=
  match (s.swatch (swatchOf cell)).owner with
  | some p => s.heldAtBreak p || (s.runsOf p).isEmpty
  | none => true

/-- A read over a clock-domain crossing takes up to four pairs of samples: the first pair whose samples agree gives the value, settled; with
none the last sample stands, not settled (R389). -/
def crossRead {α : Type} [DecidableEq α] (last : α) : List (α × α) → α × Bool
  | [] => (last, false)
  | (a, b) :: rest => if a = b then (b, true) else crossRead b rest

/-- The samples of a register read: a step is whole, so its four pairs sample one value (R389). -/
def samplesOf {α : Type} (v : α) : List (α × α) := [(v, v), (v, v), (v, v), (v, v)]

/-- DBG_PAD_SEL with GO and OP 01 (R224): a row through the debug window; all-ones and VALID 0 where it is not served. -/
def dbgPadRead (cell : BitVec 15) (row : BitVec 12) (s : Chip) : Chip :=
  s.expertWrite fun s =>
    let cn := cell.toNat
    let s := { s with dbg := { s.dbg with padCell := cn, padRow := row.toNat, padOp := 1 } }
    if s.padOpen cn then
      let now := s.countNow (swatchOf cn)
      let (p, v, poisoned, e) := (s.cell cn).pad.read now row.toNat
      let s := s.updCell cn fun x => { x with pad := p }
      let s := match (s.swatch (swatchOf cn)).owner with
        | some q => s.notePad s.nextRun q cn now e
        | none => s
      let (x, settled) := crossRead (v, poisoned) (samplesOf (v, poisoned))
      { s with dbg := { s.dbg with padData := x.1, padPoison := x.2, padValid := true, padSettled := settled } }
    else { s with dbg := { s.dbg with padData := BitVec.allOnes 288, padPoison := true, padValid := false, padSettled := true } }

/-- DBG_PAD_SEL with GO and OP 10 (R224): DBG_PAD_DATA0 to 4 go into a row with their poison bit. -/
def dbgPadWrite (cell : BitVec 15) (row : BitVec 12) (s : Chip) : Chip :=
  s.expertWrite fun s =>
    let cn := cell.toNat
    let d := s.dbg
    let s := { s with dbg := { d with padCell := cn, padRow := row.toNat, padOp := 2 } }
    if s.padOpen cn then
      let now := s.countNow (swatchOf cn)
      let l : PadLand := { due := now, order := 0, seq := 0, row := row.toNat, mask := BitVec.allOnes 8, data := d.padData, poison := d.padPoison }
      { s.updCell cn fun x => { x with pad := (x.pad.settle now).apply l } with dbg := { s.dbg with padValid := true } }
    else { s with dbg := { s.dbg with padValid := false } }

/-- HBM_INJECT with GO (R296): one error is armed on the next controller read of an atom; kinds 00 and 11 arm nothing. -/
def hbmInjectGo (stack : BitVec 3) (atom : BitVec 30) (kind : BitVec 2) (s : Chip) : Chip :=
  s.expertWrite fun s =>
    s.updStack stack.toNat fun x =>
      { x with injAtom := atom.toNat, injKind := kind.toNat, injArmed := if kind == 1 || kind == 2 then true else x.injArmed }

end Sys2Proof.Machine
end

