-- ==== Sys2Proof/Machine/Seam.lean ====
section
/-! DEFINITION. Service Grade, control routes, plates that go offline; Seam training, lane failures, repair, Fray and tests (R34, R297 to
R324, R359, R580, R583). -/

namespace Sys2Proof.Machine

/-! ### Service Grade (R34, R580, R583) -/

/-- A plate. -/
def Chip.plate (s : Chip) (p : Nat) : Plate := mget {} p s.plates

/-- Change a plate. -/
def Chip.updPlate (s : Chip) (p : Nat) (f : Plate → Plate) : Chip := { s with plates := mput p (f (s.plate p)) s.plates }

/-- What R583 asks of a swatch besides its self-test. -/
def Chip.plateServes (s : Chip) (plate : Nat) : Bool :=
  let p := s.plate plate
  p.online && !p.tripped && !p.reset && ((s.lining plate).ready || (s.stack plate).ready)

/-- The swatches of a plate are in service as R583 says. -/
def Chip.reservice (s : Chip) (plate : Nat) : Chip :=
  let ok := s.plateServes plate
  (List.range 8).foldl (fun (t : Chip) i =>
    t.updSwatch (plate * 8 + i) fun w => { w with inService := ok && w.selfTest == .ok && !(w.leaving && (s.runOn (plate * 8 + i)).isNone) }) s

/-! ### Control routes (R310, R311) -/

/-- A Seam port carries traffic. -/
def SeamPort.up (p : SeamPort) : Bool := decide (7 ≤ p.state) && decide (p.state ≤ 10)

/-- Control frames can take a Seam port: routes are recomputed only when a port enters or leaves DOWN or is under test (R310). -/
def SeamPort.routable (p : SeamPort) : Bool := decide (1 ≤ p.state) && decide (p.state ≤ 10)

/-- The paths one hop longer than those of a list, along working ring ports, in the order of the plates they reach. -/
def Chip.spread (s : Chip) (paths : List (List Nat)) : List (List Nat) :=
  (List.range 8).filterMap fun y => (paths.find? fun path => match path.getLast? with
    | some x => (s.seam (portKey x (portTo x y))).routable && (portTo x y != 0) && !path.contains y
    | none => false).map fun path => path ++ [y]

/-- The first path of at most n further hops whose last plate's port C works. -/
def Chip.findRoute (s : Chip) : Nat → List (List Nat) → Option (List Nat)
  | 0, paths => paths.find? fun path => path.getLast?.any fun x => (s.seam (portKey x 0)).routable
  | n + 1, paths =>
    match paths.find? fun path => path.getLast?.any fun x => (s.seam (portKey x 0)).routable with
    | some path => some path
    | none => s.findRoute n (s.spread paths)

/-- The control route of a plate: the plates on the shortest path along working ring ports to one whose port C works, the lower plate number
first among equals (R310). -/
def Chip.controlRoute (s : Chip) (plate : Nat) : Option (List Nat) := s.findRoute 7 [[plate]]

/-- The plates with a control route to the Collar (R310). -/
def Chip.routed (s : Chip) : List Nat := (List.range 8).filter fun p => (s.controlRoute p).isSome

/-- The virtual links of a plan that have slots on a Seam port. -/
def Plan.linksOn (p : Plan) (key : Nat) : List VLink :=
  (p.seam.zipIdx.filter fun l => decide (0 < p.units 4 l.2) && (p.linkPorts l.1).any fun ks => ks.contains key).map (·.1)

/-- The plans that use a Seam port: those with slots on it, and those whose threads cross it (R263, R307). -/
def Chip.usesPort (s : Chip) (r : Run) (key : Nat) : Bool :=
  !(r.plan.linksOn key).isEmpty || (s.threadPorts r.plan r.handles).contains key

/-- The plans that use a port stop at their next stitch points (R307, R308): all of them, or those that did not assume Fray. -/
def Chip.stopOnPort (s : Chip) (key : Nat) (all : Bool) : Chip :=
  { s with runs := s.runs.map fun (r : Run) =>
      let links := r.plan.linksOn key
      let full := if links.isEmpty then s.usesPort r key else links.any fun l => l.assumed == 0
      if (if all then s.usesPort r key else full) then r.stopDue .routeFrayed else r }

/-- A plate goes offline (R311, R359): its swatches leave their partitions, which keep their number in FORMER, EV_PLATE_LOST is raised,
and every plan with a swatch there stops at its next stitch point. -/
def Chip.plateLost (s : Chip) (plate : Nat) : Chip :=
  let sws := (List.range 8).map (plate * 8 + ·)
  let owners := (sws.filterMap fun sw => (s.swatch sw).owner).eraseDups
  let s := s.updPlate plate fun p => { p with online := false }
  let s := s.updSwatches sws fun w => { w with
    inService := false
    lost := true
    former := match w.owner with | some p => some p | none => w.former
    owner := none }
  let s := { s with runs := s.runs.map fun (r : Run) =>
      if r.plan.swatches.any fun sw => plateOf sw == plate then
        let r := r.stopDue .routeFrayed
        { r with streams := r.streams.filter fun e => plateOf e.1 != plate, loose := r.loose.filter fun sw => plateOf sw != plate }
      else r }
  let s := s.raiseDev 8 none (some plate) none 0
  owners.foldl (fun (t : Chip) p => (t.raisePart p 12).noteArrivals p) s

/-- Control routes are recomputed: online plates that have none and are not in a Plate reset are lost (R310, R311). During start-up the
routes are settled when phase 7 ends (Table 21.1). -/
def Chip.reroute (s : Chip) : Chip :=
  let ok := if s.boot.phase = 0 then s.routed else List.range 8
  ((List.range 8).filter fun p => (s.plate p).online && !(s.plate p).reset && !ok.contains p).foldl (fun (t : Chip) p => t.plateLost p) s

/-! ### Ports and their other ends -/

/-- A counter of one end moves on as the other end's has moved from `a` to `b`. -/
def countAlong (n a b c : Nat) : Nat := (c + (b + n - a % n)) % n

/-- The other end of a ring port sees the same state with its directions exchanged; what this end counts since `old` it counts too. -/
def SeamPort.mirror (old p q : SeamPort) : SeamPort :=
  { q with
    state := p.state
    stateAt := p.stateAt
    mode := p.mode
    tx := p.rx
    rx := p.tx
    retried := p.retried
    mapAgain := p.mapAgain
    entering := p.entering
    retiredTx := p.retiredRx
    retiredRx := p.retiredTx
    repairs := countAlong 65536 old.repairs p.repairs q.repairs
    frays := countAlong 256 old.frays p.frays q.frays
    downs := countAlong 256 old.downs p.downs q.downs }

/-- The port key of the other end of a ring port. -/
def seamPeerKey (key : Nat) : Option Nat := (seamPeer (key / 4) (key % 4)).map fun y => portKey y.1 y.2

/-- Change a port and its other end together. -/
def Chip.setPort (s : Chip) (key : Nat) (f : SeamPort → SeamPort) : Chip :=
  let old := s.seam key
  let s := s.updSeam key f
  match seamPeerKey key with
  | some k => s.updSeam k ((s.seam key).mirror old)
  | none => s

/-- A port is connected (R19). -/
def seamConnected (key : Nat) : Bool := decide (key < 32) && (key % 4 == 0 || (seamPeer (key / 4) (key % 4)).isSome)

/-- Enter a training state (Table 11.3). -/
def SeamPort.enter (now st : Nat) (p : SeamPort) : SeamPort := { p with state := st, stateAt := now, retried := false, entering := false }

/-- The data lanes of a direction that do not work (R304, R312). -/
def badLanes (d : SeamDir) (retired : List Nat) : List Nat := (d.failed ++ retired).eraseDups.filter (· < 68)

/-- Lanes of a half that do not work. -/
def badHalf (bad : List Nat) (halfB : Bool) : Nat := (bad.filter fun l => decide (34 ≤ l) == halfB).length

/-- Both forwarded clocks of a direction have failed (R305). -/
def clocksGone (d : SeamDir) (retired : List Nat) : Bool := (d.failed ++ retired).contains 68 && (d.failed ++ retired).contains 69

/-- The half with fewer failed lanes, half A when equal (R306). -/
def bestHalf (bad : List Nat) : Bool := decide (badHalf bad true < badHalf bad false)

/-- What the lane maps of a port allow: 0 full width, 1 Fray, 2 nothing (R306, R308). -/
def SeamPort.allows (p : SeamPort) : Nat :=
  let bt := badLanes p.tx p.retiredTx
  let br := badLanes p.rx p.retiredRx
  if clocksGone p.tx p.retiredTx || clocksGone p.rx p.retiredRx then 2
  else if bt.length ≤ 4 && br.length ≤ 4 then 0
  else if badHalf bt (bestHalf bt) ≤ 2 && badHalf br (bestHalf br) ≤ 2 then 1
  else 2

/-- The half a direction takes: entering Fray the one with fewer failed lanes, and in Fray another one only where its own has fewer than 32
working lanes (R306, R308). -/
def SeamDir.pick (d : SeamDir) (retired : List Nat) (entering : Bool) : SeamDir :=
  let bad := badLanes d retired
  if entering || decide (2 < badHalf bad d.halfB) then { d with halfB := bestHalf bad } else d

/-- Both directions take their halves. -/
def SeamPort.pickHalves (entering : Bool) (p : SeamPort) : SeamPort :=
  { p with tx := p.tx.pick p.retiredTx entering, rx := p.rx.pick p.retiredRx entering }

/-- The half in use of both directions has 32 working lanes. -/
def SeamPort.halvesOk (p : SeamPort) : Bool :=
  decide (badHalf (badLanes p.tx p.retiredTx) p.tx.halfB ≤ 2) && decide (badHalf (badLanes p.rx p.retiredRx) p.rx.halfB ≤ 2)

/-- A plan waits while a port repairs or retrains, or a link's egress is full, under R100 (R305, R306, R397): the hold is counted once as
EV_UNPLANNED_STALL and is hazard kind 3 in debug mode. -/
def Chip.holdRun (s : Chip) (r : Run) (key : Nat) : Chip :=
  let t := s.updRun r.id fun x =>
    { x with waits := sinsert key x.waits, waitFrom := if x.waits.isEmpty then s.time else x.waitFrom }
  (t.raiseBoth r.part 3 1 none none 0).hazard r 3 r.markAt.1 r.markAt.2

/-- Hold the plans with slots on a port. -/
def Chip.holdPort (s : Chip) (key : Nat) : Chip :=
  let who := s.runs.filter fun r => s.usesPort r key && !r.waits.contains key
  who.foldl (fun (t : Chip) r => t.holdRun r key) s

/-- The plans that waited for any of some keys go on; once a plan waits for nothing, the F-cycles it was held are counted (R100). -/
def Chip.releaseRuns (s : Chip) (keys : List Nat) (part : Option Nat) : Chip :=
  let who := s.runs.filter fun r => (keys.any fun k => r.waits.contains k) && part.all fun p => r.part == p
  who.foldl (fun (t : Chip) r =>
    let left := r.waits.filter fun k => !keys.contains k
    let n := if left.isEmpty then (t.time - r.waitFrom) / t.unitOf r else 0
    let t := t.updRun r.id fun x => { x with waits := left }
    t.updRegs r.part fun g => { g with stalls := g.stalls + BitVec.ofNat 32 n }) s

/-- The plans that waited for a port go on. -/
def Chip.releasePort (s : Chip) (key : Nat) : Chip := s.releaseRuns (key :: (seamPeerKey key).toList) none

/-- After a change of a port's mode: routes, the Split, the grade (R310, R368, R34). -/
def Chip.portChanged (s : Chip) (key : Nat) (rise : Bool) : Chip :=
  let res := resOfSeam (key / 4) (key % 4)
  (s.reroute.capacityChange [res] rise).regrade

/-- A port goes DOWN (R305, R308): EV_SEAM_DOWN; plans with slots on it stop at their next stitch points. -/
def Chip.portDown (s : Chip) (key : Nat) : Chip :=
  let s := s.setPort key fun p => { p.enter s.aTick 11 with mode := 2, downs := (p.downs + 1) % 256 }
  let s := s.raiseDev 14 none (some (key / 4)) none 0
  let s := (s.stopOnPort key true).releasePort key
  s.portChanged key false

/-- A port enters RETRAIN for Fray, or for the other half (R306, R308). The mode is that of the completed transition (R33); flits of
plans that assumed the port Full are discarded from here on (R307). -/
def Chip.portRetrain (s : Chip) (key : Nat) : Chip :=
  let was := (s.seam key).mode
  let first := was != 1
  let s := s.setPort key fun p => { (p.pickHalves first).enter s.aTick 10 with mode := 1, entering := first, frays := (p.frays + 1) % 256 }
  let s := if was = 1 then s else s.raiseDev 13 none (some (key / 4)) none 0
  let s := if was = 1 then s else s.stopOnPort key false
  (s.holdPort key).portChanged key false

/-- The port takes what its maps allow once a lane has failed or a repair has ended with a larger map: nothing more to do, RETRAIN or
DOWN. -/
def Chip.portSettle (s : Chip) (key : Nat) : Option Chip :=
  let p := s.seam key
  let a := p.allows
  if a = 2 then some (s.portDown key)
  else if p.mode = 0 then (if a = 1 then some (s.portRetrain key) else none)
  else if p.halvesOk then none
  else some (s.portRetrain key)

/-- Lanes of a port join its runtime map: transmit and receive. -/
def SeamPort.fail (tx rx : List Nat) (p : SeamPort) : SeamPort :=
  { p with
    tx := { p.tx with failed := tx.foldl (fun l x => sinsert x l) p.tx.failed }
    rx := { p.rx with failed := rx.foldl (fun l x => sinsert x l) p.rx.failed } }

/-- Lanes of a connected port fail in one A-tick (R305, R306, R308, R315, R317). In service a data lane in use is repaired by a spare
shift, which holds the plans with slots there; a clock lane whose partner works costs no hold. -/
def Chip.lanesFail (s : Chip) (key : Nat) (tx rx : List Nat) : Chip :=
  let p := s.seam key
  let newTx := tx.filter fun l => decide (l < 70) && !(p.tx.failed ++ p.retiredTx).contains l
  let newRx := rx.filter fun l => decide (l < 70) && !(p.rx.failed ++ p.retiredRx).contains l
  let s := s.setPort key (SeamPort.fail newTx newRx)
  let active := fun (d : SeamDir) (l : Nat) => decide (l < 68) && (p.mode == 0 || decide (34 ≤ l) == d.halfB)
  let data := newTx.any (active p.tx) || newRx.any (active p.rx)
  let clock := (newTx ++ newRx).any fun l => decide (68 ≤ l)
  if p.state = 7 || p.state = 8 then
    match s.portSettle key with
    | some t => t
    | none =>
      if data then
        let s := s.setPort key fun p => { p.enter s.aTick 9 with repairs := (p.repairs + 1) % 65536 }
        (s.raiseDev 12 none (some (key / 4)) none 0).holdPort key
      else if clock then
        (s.setPort key fun p => { p with repairs := (p.repairs + 1) % 65536 }).raiseDev 12 none (some (key / 4)) none 0
      else s
  else s

/-- SEAM_LANE_FAIL: lanes of a port lose lock, in the A-tick of the event. -/
def seamLaneFail (plate : BitVec 3) (port : BitVec 2) (tx rx : List (BitVec 7)) (s : Chip) : Chip :=
  let key := portKey plate.toNat port.toNat
  if seamConnected key then s.lanesFail key (tx.map (·.toNat)) (rx.map (·.toNat)) else s

/-- SEAM_REPAIR_DONE: 64 A-ticks after it began the spare shift is complete, with the map as it then is (R305, R315). -/
def seamRepairDone (plate : BitVec 3) (port : BitVec 2) (s : Chip) : Chip :=
  let key := portKey plate.toNat port.toNat
  let p := s.seam key
  if seamConnected key && p.state = 9 then
    let s := (s.waitTick (p.stateAt + 64)).releasePort key
    match s.portSettle key with
    | some t => t
    | none => s.setPort key fun p => p.enter s.aTick (if p.mode = 1 then 8 else 7)
  else s

/-- SEAM_RETRAIN_DONE: 1 000 A-ticks after it began, the port works at Fray width, or goes DOWN where the map has grown too large
(R306 to R308, R315). -/
def seamRetrainDone (plate : BitVec 3) (port : BitVec 2) (s : Chip) : Chip :=
  let key := portKey plate.toNat port.toNat
  let p := s.seam key
  if seamConnected key && p.state = 10 then
    let s := s.waitTick (p.stateAt + 1000)
    let s := s.setPort key (SeamPort.pickHalves p.entering)
    let q := s.seam key
    if clocksGone q.tx q.retiredTx || clocksGone q.rx q.retiredRx || !q.halvesOk then s.portDown key
    else (s.setPort key fun p => p.enter s.aTick 8).releasePort key
  else s

/-! ### Training (R304, Table 11.3) -/

/-- Start training a port from DETECT; its runtime map is rebuilt except after a test (R312, R317). -/
def Chip.trainPort (s : Chip) (key : Nat) (keepMap : Bool) : Chip :=
  let s := s.setPort key fun p =>
    let p := if keepMap then p else { p with tx := {}, rx := {} }
    { p.enter s.aTick 1 with mode := 2, mapAgain := false }
  s.portChanged key false

/-- The limit of a training state in A-ticks. -/
def trainLimit (st : Nat) : Nat :=
  match st with
  | 1 => 25
  | 2 => 250
  | 3 => 2500
  | 4 => 250
  | 5 => 500
  | 6 => 2500
  | _ => 0

/-- A training state fails: tried once again, then DOWN (R304). -/
def Chip.trainFails (s : Chip) (key : Nat) : Chip :=
  if (s.seam key).retried then s.portDown key
  else s.setPort key fun p => { p with retried := true, stateAt := s.aTick }

/-- A trained port comes up at the width its maps allow (R304, R320). -/
def Chip.portUp (s : Chip) (key : Nat) : Chip :=
  let a := (s.seam key).allows
  if a = 2 then s.portDown key
  else
    let s := s.setPort key fun p => { (p.pickHalves true).enter s.aTick (7 + a) with mode := a }
    let s := if a = 1 then (s.setPort key fun p => { p with frays := (p.frays + 1) % 256 }).raiseDev 13 none (some (key / 4)) none 0 else s
    let s := if a = 1 then s.stopOnPort key false else s
    (s.releasePort key).portChanged key true

/-- SEAM_TRAIN_STATE_DONE: a training state completes. In MAP and VERIFY it finds the lanes that do not work; VERIFY with errors goes
back to MAP once, and fails after that. -/
def seamTrainStateDone (plate : BitVec 3) (port : BitVec 2) (tx rx : List (BitVec 7)) (s : Chip) : Chip :=
  let key := portKey plate.toNat port.toNat
  let p := s.seam key
  let found := SeamPort.fail (tx.map (·.toNat)) (rx.map (·.toNat))
  if !seamConnected key then s
  else
    match p.state with
    | 1 | 2 | 3 | 5 => s.setPort key fun p => p.enter s.aTick (p.state + 1)
    | 4 =>
      let s := s.setPort key found
      if (s.seam key).allows = 2 then s.portDown key else s.setPort key fun p => p.enter s.aTick 5
    | 6 =>
      if tx.isEmpty && rx.isEmpty then s.portUp key
      else
        let s := s.setPort key found
        if p.mapAgain then s.trainFails key else s.setPort key fun p => { p.enter s.aTick 4 with mapAgain := true }
    | _ => s

/-- SEAM_TRAIN_TIMEOUT: a training state exceeds its limit (R304). -/
def seamTrainTimeout (plate : BitVec 3) (port : BitVec 2) (s : Chip) : Chip :=
  let key := portKey plate.toNat port.toNat
  let p := s.seam key
  if seamConnected key && decide (1 ≤ p.state) && decide (p.state ≤ 6) then
    (s.waitTick (p.stateAt + trainLimit p.state)).trainFails key
  else s

/-! ### Corrected flits (R299, R305) -/

/-- A correction is attributed to a lane of a direction: at SEAM_LANE_THRESH.COUNT within the window the lane has failed. -/
def Chip.laneCorrection (s : Chip) (key : Nat) (rx : Bool) (lane : Nat) : Chip :=
  let p := s.seam key
  let old := (p.laneCorr.find? fun e => e.1 == lane && e.2.1 == rx).getD (lane, rx, 0, s.aTick)
  let old := if 2 ^ p.threshWindow < s.aTick - old.2.2.2 then (lane, rx, 0, s.aTick) else old
  let n := old.2.2.1 + 1
  let rest := p.laneCorr.filter fun e => !(e.1 == lane && e.2.1 == rx)
  if 68 ≤ lane then s
  else if p.threshCount != 0 && decide (p.threshCount ≤ n) then
    (s.updSeam key fun p => { p with laneCorr := rest }).lanesFail key (if rx then [] else [lane]) (if rx then [lane] else [])
  else s.updSeam key fun p => { p with laneCorr := (lane, rx, n, old.2.2.2) :: rest }

/-- SEAM_FLIT_DELIVER with the lanes, at most two, whose errors were corrected in the flit: the receiving port counts it and
attributes the corrections (R299, R303, R305). -/
def seamFlitArrive (run : Nat) (vlink : BitVec 5) (uncorrectable : Bool) (corrected : List (BitVec 7)) (s : Chip) : Chip :=
  let port : Option Nat := match s.run? run with
    | none => none
    | some r => (r.flits.find? fun (f : WeaveFlit) => f.vlink == vlink.toNat && f.departed.isSome && f.due.isNone).bind fun f =>
        (r.weaveEntry f.entry).map fun e => receiverOf (Chip.flitPort r e)
  let s := seamFlitDeliver run vlink uncorrectable s
  match port with
  | some key =>
    if corrected.isEmpty || uncorrectable then s
    else
      let s := s.updSeam key fun p => { p with corr := (p.corr + 1) % 2 ^ 40 }
      (corrected.take 2).foldl (fun (t : Chip) (l : BitVec 7) => t.laneCorrection key true l.toNat) s
  | none => s

/-! ### Interconnect test (R314, R317, R318, R324) -/

/-- R318: a running plan holds slots on the port, or the test would cut the plate's last control route. -/
def Chip.testBusy (s : Chip) (key : Nat) : Bool :=
  (s.runs.any fun r => s.usesPort r key) || (s.seam key).state == 12
    || (key % 4 == 0 && !(s.updSeam key fun p => { p with state := 12 }).routed.contains (key / 4))

/-- A test of a port begins. -/
def Chip.startTest (s : Chip) (key phases d : Nat) (fn : Option Fn) (tag : Nat) : Chip :=
  let s := s.setPort key fun p => { p.enter s.aTick 12 with mode := 2 }
  let s := s.updSeam key fun p => { p with testPhases := phases, testD := d, testDone := false, testFn := fn, testTag := tag }
  s.portChanged key false

/-- TC_SEAM_TEST: answered when the test is done; a phase mask of 0 tests nothing. -/
def tcSeamTest (c : Call) (plate port phases d : Nat) (s : Chip) : Chip :=
  let key := portKey plate port
  let bad := firstBad [
    (decide (8 ≤ plate) || decide (4 ≤ port) || !seamConnected key, .bound, 7),
    (decide (16 ≤ phases), .notSupported, 7),
    (decide (30 < d), .badShape, 7)]
  match s.common c { pf0Only := true } [], bad with
  | some (st, n), _ => s.respond c 0x0602 st n []
  | none, some (st, n) => s.respond c 0x0602 st n []
  | none, none =>
    if phases = 0 then s.respond c 0x0602 .ok 0 []
    else if s.testBusy key then s.respond c 0x0602 .busy 8 []
    else s.startTest key phases d (some c.fn) c.tag

/-- SEAM_TEST_CTRL with GO (R324). -/
def seamTestCtrlGo (plate : BitVec 3) (port : BitVec 2) (phases : BitVec 4) (d : BitVec 5) (s : Chip) : Chip :=
  s.expertWrite fun s =>
    let key := portKey plate.toNat port.toNat
    if !seamConnected key then s
    else if phases == 0 then
      s.updSeam key fun p => { p with testPhases := 0, testD := d.toNat, testStatus := .ok, testDone := true }
    else if s.testBusy key then
      s.updSeam key fun p => { p with testPhases := phases.toNat, testD := d.toNat, testStatus := .busy, testDone := true }
    else s.startTest key phases.toNat d.toNat none 0

/-- A result that an interconnect test with a phase mask and an exponent can have: a lane of the port, failed in phase 1, 2 or 3 where that phase
runs; phase 4 never fails a lane, and phase 3 is skipped with exponent 0 (R314, R321). -/
def LaneResult.counts (lanes phases d : Nat) (f : LaneResult) : Bool :=
  let n := f.phase.toNat
  decide (f.lane.toNat < lanes) && decide (1 ≤ n) && decide (n ≤ 3) && bit phases (n - 1) && (n != 3 || d != 0)

/-- SEAM_TEST_DONE: the lanes that failed, in the order found, and the margins measured (R314). The port trains from DETECT with the
failed lanes in its map (R317). -/
def seamTestDone (plate : BitVec 3) (port : BitVec 2) (failed : List LaneResult) (margins : List Nat) (s : Chip) : Chip :=
  let key := portKey plate.toNat port.toNat
  let p := s.seam key
  if seamConnected key && p.state = 12 && !p.testDone then
    let long := (if bit p.testPhases 2 && p.testD != 0 then 2 ^ p.testD else 0) + if bit p.testPhases 3 then 4096 else 0
    let s := s.waitTick (p.stateAt + long)
    let failed := failed.filter (LaneResult.counts 70 p.testPhases p.testD)
    let tx := (failed.filter fun f => !f.rx).map (·.lane.toNat)
    let rx := (failed.filter (·.rx)).map (·.lane.toNat)
    let shown := fun (l : Nat) => if 68 ≤ l then l + 2 else l
    let s := s.updSeam key fun p => { p with
      testStatus := .ok
      testDone := true
      testFailed := tx.eraseDups.length + rx.eraseDups.length
      testFirst := (failed.head?.map fun f => shown f.lane.toNat).getD 0
      testFirstRx := (failed.head?.map (·.rx)).getD false
      testPhase := (failed.head?.map (·.phase.toNat)).getD 0
      testTx := tx
      testRx := rx
      testFn := none }
    let s := (s.setPort key (SeamPort.fail tx rx)).trainPort key true
    match p.testFn with
    | some fn => s.respond { fn := fn, tag := p.testTag } 0x0602 .ok 0
        ([tx.length] ++ tx.map shown ++ [rx.length] ++ rx.map shown ++ margins)
    | none => s
  else s

/-- A test of a port that a reset or a trip interrupts ends with a status; the call that waits is answered. -/
def Chip.endPortTest (s : Chip) (st : Status) (key : Nat) : Chip :=
  let p := s.seam key
  if p.testDone then s
  else
    let s := s.updSeam key fun p => { p with testStatus := st, testDone := true, testFn := none }
    match p.testFn with
    | some fn => s.respond { fn := fn, tag := p.testTag } 0x0602 st 8 []
    | none => s

/-- The tests at both ends of a port end. -/
def Chip.endPortTests (s : Chip) (st : Status) (key : Nat) : Chip :=
  (key :: (seamPeerKey key).toList).foldl (fun (t : Chip) k => t.endPortTest st k) s

/-! ### Calls (Table 11.9) -/

/-- Spares left in a direction: of four at full width, of two in the half in use (R297). -/
def SeamPort.spares (p : SeamPort) (d : SeamDir) (retired : List Nat) : Nat :=
  let bad := badLanes d retired
  match p.mode with
  | 0 => 4 - bad.length
  | 1 => 2 - badHalf bad d.halfB
  | _ => 0

/-- TC_SEAM_QUERY: state, mode, spares, counters, the last test's result, then the failed lanes of each direction. -/
def tcSeamQuery (c : Call) (plate port : Nat) (s : Chip) : Chip :=
  let key := portKey plate port
  s.call c 0x0601 {} [(decide (8 ≤ plate) || decide (4 ≤ port) || !seamConnected key, .bound)] fun s =>
    let p := s.seam key
    let ft := (p.tx.failed ++ p.retiredTx).eraseDups
    let fr := (p.rx.failed ++ p.retiredRx).eraseDups
    succeeds s ([p.state, p.mode, p.spares p.tx p.retiredTx, p.spares p.rx p.retiredRx, p.corr, p.uncorr, p.drop.toNat, p.repairs,
      p.frays, p.downs, p.testStatus.code, b2n p.testDone, p.testFailed, p.testFirst, b2n p.testFirstRx, p.testPhase, ft.length]
      ++ ft ++ [fr.length] ++ fr)

/-- TC_SEAM_LANE_RETIRE (R323): direction 0 transmit, 1 receive. The lane joins the User Ledger; one in use fails at once. -/
def tcSeamLaneRetire (c : Call) (plate port dir lane : Nat) (s : Chip) : Chip :=
  let key := portKey plate port
  s.call c 0x0603 { pf0Only := true }
    [(decide (8 ≤ plate) || decide (4 ≤ port) || !seamConnected key || decide (70 ≤ lane), .bound),
     (decide (1 < dir), .notSupported)] fun s =>
    let p := s.seam key
    let tx := dir = 0
    if (if tx then p.retiredTx else p.retiredRx).contains lane then succeeds s
    else
      let s := s.lanesFail key (if tx then [lane] else []) (if tx then [] else [lane])
      let s := s.setPort key fun p =>
        if tx then { p with retiredTx := sinsert lane p.retiredTx } else { p with retiredRx := sinsert lane p.retiredRx }
      succeeds { s with ledger := { s.ledger with lanes := sinsert (key * 256 + dir * 128 + lane) s.ledger.lanes } }

end Sys2Proof.Machine
end

