-- ==== Sys2Proof/Machine/Selvage.lean ====
section
/-! DEFINITION. The Selvage links and the fabric: egress, packets, arrivals, tokens, retry, training, lanes, calls (R325 to R355). -/

namespace Sys2Proof.Machine

/-! ### Status codes that arrive in packets -/

/-- The status of a code (Table 21.3); an unlisted code is read as ST_NOT_SUPPORTED. -/
def Status.ofCode (n : Nat) : Status :=
  ([.ok, .busy, .badShape, .badModulus, .bound, .notOwner, .staleHandle, .overcommit, .routeFrayed, .clockAbsent, .spillBound,
    .doubleTrap, .engineBusy, .poison, .retiredPage, .signature, .timeout, .resetInProgress, .notSupported, .lifecycle,
    .configMismatch, .notResident] : List Status).getD n .notSupported

/-! ### Links -/

/-- The key under which a plan waits for a link's egress. -/
def egressKey (l : Nat) : Nat := 1000 + l

/-- A link carries traffic (Table 12.4). -/
def SlvLink.up (l : SlvLink) : Bool := l.state == 6 || l.state == 7

/-- Enter a state of Table 12.4. -/
def SlvLink.enter (now st : Nat) (l : SlvLink) : SlvLink := { l with state := st, stateAt := now, retried := false }

/-- The lanes of a direction that do not work. -/
def SlvLink.bad (l : SlvLink) (rx : Bool) : List Nat :=
  ((if rx then l.rx ++ l.retiredRx else l.tx ++ l.retiredTx).eraseDups).filter (· < 9)

/-- What the lanes allow, by the worse direction: 0 full width, 1 Fray, 2 nothing (R338). -/
def SlvLink.allows (l : SlvLink) : Nat :=
  let n := max (l.bad false).length (l.bad true).length
  if n ≤ 1 then 0 else if n ≤ 5 then 1 else 2

/-- After a change of a link's mode (R339, R34). -/
def Chip.linkChanged (s : Chip) (l : Nat) (rise : Bool) : Chip := (s.capacityChange [24 + l] rise).regrade

/-- What a link has not had acknowledged is to be sent again: in the old order with its SEQ, or under new numbers after a full training. -/
def SlvPacket.again (renumber : Bool) (p : SlvPacket) : SlvPacket := { p with sent := false, numbered := p.numbered && !renumber }

/-- A link goes DOWN (R337, R339): what it has not been acknowledged is to be sent again. `event` is EV_SLV_DOWN, EV_SLV_PEER or
EV_SLV_AUTH. -/
def Chip.linkDown (s : Chip) (l event : Nat) : Chip :=
  let s := s.updLink l fun x =>
    { x.enter s.aTick 10 with
      mode := 2
      auth := false
      failsInRow := 0
      failSeq := none
      tagFails := false
      packets := x.packets.map (SlvPacket.again true) }
  (s.raiseDev event none (some l) none 0).linkChanged l false

/-- A link trains from DETECT with an empty runtime map, or with the lanes a test has failed (R337, R352). -/
def Chip.trainLink (s : Chip) (l : Nat) (keepMap : Bool) : Chip :=
  let s := s.updLink l fun x =>
    let x := if keepMap then x else { x with tx := [], rx := [] }
    { x.enter s.aTick 1 with
      mode := 2
      auth := false
      mapAgain := false
      packets := x.packets.map (SlvPacket.again true) }
  s.linkChanged l false

/-- A training state of a link fails: tried again once, then DOWN with EV_SLV_DOWN (R337). -/
def Chip.linkFails (s : Chip) (l : Nat) : Chip :=
  if (s.link l).retried then s.linkDown l 17
  else s.updLink l fun x => { x with retried := true, stateAt := s.aTick }

/-- A trained link comes up: a new frame and key epoch (R328, R331). -/
def Chip.linkUp (s : Chip) (l : Nat) : Chip :=
  let a := (s.link l).allows
  if a = 2 then s.linkDown l 17
  else
    let was := (s.link l).mode
    let s := s.updLink l fun x =>
      { x.enter s.aTick (6 + a) with
        mode := a, frameAt := s.time, readyAt := s.time, epoch := x.epoch + 1, seqTx := 0, lastSlot := [], failsInRow := 0, failSeq := none }
    let s := if a = 1 && was != 1 then s.raiseDev 16 none (some l) none 0 else s
    s.linkChanged l true

/-- Lanes of a link fail in one A-tick (R338). -/
def Chip.linkLanesFail (s : Chip) (l : Nat) (tx rx : List Nat) : Chip :=
  let x := s.link l
  let newTx := tx.filter fun i => decide (i < 9) && !(x.bad false).contains i
  let newRx := rx.filter fun i => decide (i < 9) && !(x.bad true).contains i
  let s := s.updLink l fun x => { x with
    tx := newTx.foldl (fun m i => sinsert i m) x.tx
    rx := newRx.foldl (fun m i => sinsert i m) x.rx }
  if (newTx ++ newRx).isEmpty || !x.up then s
  else
    let a := (s.link l).allows
    if a = 2 then s.linkDown l 17
    else if x.mode = 0 && a = 1 then
      let s := s.updLink l fun x => { x.enter s.aTick 9 with mode := 1 }
      (s.raiseDev 16 none (some l) none 0).linkChanged l false
    else
      (s.updLink l fun x => x.enter s.aTick 8).raiseDev 12 none (some l) none 0

/-- Corrections in a received packet, attributed to receive lanes: at SLV_LANE_THRESH.COUNT within the window a lane has failed (R305, R338). -/
def Chip.slvCorrection (s : Chip) (l lane : Nat) : Chip :=
  let x := s.link l
  let old := (x.laneCorr.find? fun e => e.1 == lane).getD (lane, true, 0, s.aTick)
  let old := if 2 ^ x.threshWindow < s.aTick - old.2.2.2 then (lane, true, 0, s.aTick) else old
  let n := old.2.2.1 + 1
  let rest := x.laneCorr.filter fun e => e.1 != lane
  if 9 ≤ lane then s
  else if x.threshCount != 0 && decide (x.threshCount ≤ n) then
    (s.updLink l fun y => { y with laneCorr := rest }).linkLanesFail l [] [lane]
  else s.updLink l fun y => { y with laneCorr := (lane, true, n, old.2.2.2) :: rest }

/-- SLV_LANE_FAIL. -/
def slvLaneFail (link : BitVec 4) (tx rx : List (BitVec 4)) (s : Chip) : Chip :=
  s.linkLanesFail link.toNat (tx.map (·.toNat)) (rx.map (·.toNat))

/-- The peer is on the fabric list, and no other ACTIVE link has its package id under another identity. -/
def Chip.peerOk (s : Chip) (l : Nat) (p : PeerInfo) : Bool :=
  s.fabric.list.contains (p.pkg.toNat, p.key)
    && !((List.range 16).any fun k => k != l && (s.link k).up && (s.link k).peerPkg == p.pkg.toNat && (s.link k).peerKey != p.key)

/-- SLV_TRAIN_STATE_DONE: a state of Table 12.4 completes; MAP and VERIFY find lanes that do not work, PEER finds the other end. REPAIR and
RETRAIN end 250 and 5 000 A-ticks after they began. -/
def slvTrainStateDone (link : BitVec 4) (tx rx : List (BitVec 4)) (peer : Option PeerInfo) (s : Chip) : Chip :=
  let l := link.toNat
  let x := s.link l
  let found := fun (y : SlvLink) => { y with
    tx := (tx.map (·.toNat)).foldl (fun m i => sinsert i m) y.tx
    rx := (rx.map (·.toNat)).foldl (fun m i => sinsert i m) y.rx }
  match x.state with
  | 1 =>
    { s.updLink l fun y => y.enter s.aTick 2 with fabric := { s.fabric with active := s.fabric.id } }
  | 2 => s.updLink l fun y => y.enter s.aTick 3
  | 3 =>
    let s := s.updLink l found
    if (s.link l).allows = 2 then s.linkDown l 17 else s.updLink l fun y => y.enter s.aTick 4
  | 4 =>
    if tx.isEmpty && rx.isEmpty then
      let (n, s) := s.signLength 1
      ((s.updLink l fun y => y.enter s.aTick 5).sealSubmit (.peer l) true
        (n + 28800 + 128000 + 48000 + 11200)).1
    else
      let s := s.updLink l found
      if x.mapAgain then s.linkFails l else s.updLink l fun y => { y.enter s.aTick 3 with mapAgain := true }
  | 5 =>
    match peer with
    | none => s.linkDown l 18
    | some p =>
      if s.trust.identity && s.peerOk l p then
        (s.updLink l fun y => { y with peerPkg := p.pkg.toNat, peerKey := p.key, auth := true, lat := p.latency.toNat }).linkUp l
      else s.linkDown l 18
  | 8 =>
    let s := s.waitTick (x.stateAt + 250)
    let a := (s.link l).allows
    if a = 2 then s.linkDown l 17
    else if a = 1 && x.mode = 0 then
      let s := s.updLink l fun y => { y.enter s.aTick 9 with mode := 1 }
      (s.raiseDev 16 none (some l) none 0).linkChanged l false
    else s.updLink l fun y => { y.enter s.aTick (6 + y.mode) with readyAt := s.time }
  | 9 =>
    let s := (s.waitTick (x.stateAt + 5000)).updLink l found
    if (s.link l).allows = 2 then s.linkDown l 17
    else
      let s := s.updLink l fun y =>
        { y.enter s.aTick (6 + y.mode) with
          frameAt := s.time, readyAt := s.time, lastSlot := [], epoch := y.epoch + 1, failsInRow := 0, failSeq := none
          packets := y.packets.map (SlvPacket.again false) }
      s
  | _ => s

/-- The limits of Table 12.4 in A-ticks. -/
def slvLimit (st : Nat) : Nat :=
  match st with
  | 1 | 3 => 250
  | 2 | 5 => 25000
  | 4 => 2500
  | 8 => 250
  | 9 => 5000
  | _ => 0

/-- SLV_TRAIN_TIMEOUT: a state exceeds its limit (R337). -/
def slvTrainTimeout (link : BitVec 4) (s : Chip) : Chip :=
  let l := link.toNat
  let x := s.link l
  if slvLimit x.state = 0 then s else (s.waitTick (x.stateAt + slvLimit x.state)).linkFails l

/-! ### Egress (R329, R340, R344) -/

/-- A partition's units of a link. -/
def Chip.linkUnits (s : Chip) (part l : Nat) : Nat := (mget {} (grantKey (24 + l) 0) (s.part part).grants).units

/-- A partition's egress and outstanding share of a link (R344). -/
def Chip.egressShare (s : Chip) (part l : Nat) : Nat := max 8 (512 * s.linkUnits part l / 64)

/-- A partition's posted packets on a link that no ACK or NACK has answered. -/
def Chip.posted (s : Chip) (part l : Nat) : Nat :=
  ((s.link l).packets.filter fun p => p.part == part && p.kind != .control).length

/-- The fabric units of a run on their way to egress. -/
def Chip.fabricUnits (s : Chip) (id : Nat) : List (Nat × SpoolUnit) :=
  s.cells.flatMap fun e => (e.2.units.filter fun u => u.run == id && u.fabric && u.stage == .going).map fun u => (e.1, u)

/-- The packet of a unit: its destination and handle are those of its IO entry, its modulus that of the thread's ENTRY (R329). -/
def Chip.packetOf (s : Chip) (r : Run) (cn : Nat) (u : SpoolUnit) : Option (Nat × SlvPacket) :=
  match mfind u.thread (s.cell cn).threads with
  | none => none
  | some t =>
    (r.ioEntry t.d.binding).map fun e =>
      let w := mget 0 (t.d.entry % 1024) (s.swatch (swatchOf cn)).table.entries
      let m := Modulus.ofEntry w
      (e.2, { kind := if u.kind == .hbmAdd then .add else .write, dest := e.2 / 2 ^ 32, part := r.part, run := some r.id,
              handle := e.2 % 2 ^ 32, bolt := u.addr, q := m.q, m18 := m.m18, integer := bit t.d.entry 15, data := u.data,
              poison := u.poison, acceptAt := s.time })

/-- SLV_EGRESS_ACCEPT: the next fabric unit of a run is accepted at the Collar egress, which ends it for the Spool; a full egress share
holds the plan until an answer comes (R329, R340). -/
def slvEgressAccept (run : Nat) (s : Chip) : Chip :=
  match earliest (s.fabricUnits run) with
  | none => s
  | some (cn, u) =>
    s.atCycle run u.due fun t =>
      match t.run? run with
      | none => t
      | some r =>
        match t.packetOf r cn u with
        | none => t
        | some (full, p) =>
          match mfind p.dest r.slvTo with
          | none => t
          | some l =>
            if t.egressShare r.part l ≤ t.posted r.part l || 512 ≤ ((t.link l).packets.filter fun x => x.kind != .control).length then t.holdRun r (egressKey l)
            else
              let t := t.updLink l fun x => { x with packets := x.packets ++ [p] }
              let t := t.updRun run fun r =>
                { r with slvWrote := if r.slvWrote.contains (l, full) then r.slvWrote else r.slvWrote ++ [(l, full)] }
              match t.run? run with
              | some r => (t.dropUnit cn u).unitMoved r cn u.thread u.due (r.countsCell cn)
              | none => t

/-- The slot of a link's frame that a packet of a partition takes, which owns slots for its units, in Fray for twice as many (R331, R361): none for CONTROL packets and for a partition that holds no unit, which
take slots that no partition holds. -/
def Chip.packetSlot (s : Chip) (l part : Nat) (p : SlvPacket) : Option Nat :=
  let x := s.link l
  let (f, n) := if x.mode = 1 then (3200, 10 * s.linkUnits part l) else (1600, 5 * s.linkUnits part l)
  let from_ := cdiv (max p.acceptAt x.readyAt - x.frameAt) 165
  if n = 0 || p.kind == .control then none
  else match mfind part x.lastSlot with
    | some c => nextSlot n f c 1 from_
    | none => nextSlot n f 0 0 from_

/-- Time passes until a slot of a link's frame. -/
def Chip.waitSlot (s : Chip) (l : Nat) : Option Nat → Chip
  | some c => let at_ := (s.link l).frameAt + 165 * c; if s.time < at_ then s.advance (at_ - s.time) else s
  | none => s

/-- A packet of a partition that waits to be sent. -/
def SlvPacket.waitsOf (part : Nat) (p : SlvPacket) : Bool := p.part == part && !p.sent

/-- A packet departs: under the next SEQ, or again under the one it has, which counts as a replay (R326, R336). -/
def SlvLink.send (slot : Option Nat) (l part : Nat) (y : SlvLink) : SlvLink :=
  let i := (y.packets.findIdx? (SlvPacket.waitsOf part)).getD 0
  let old := (y.packets[i]?).any fun p => p.numbered
  let seq := if old then ((y.packets[i]?).map (·.seq)).getD 0 else y.seqTx
  { y with
    packets := lupd y.packets i fun p =>
      { p with sent := true, numbered := true, seq := seq, first := some (p.first.getD (l, y.epoch, seq)) }
    seqTx := if old then y.seqTx else y.seqTx + 1
    replay := if old then (y.replay + 1) % 2 ^ 24 else y.replay
    lastSlot := match slot with | some c => mput part c y.lastSlot | none => y.lastSlot }

/-- SLV_PACKET_SEND: the oldest waiting packet of a partition departs in the partition's next slot on the link (R331). A partition in reset
sends none (R395); the replay buffer holds 512 packets (R336, R344). -/
def slvPacketSend (link : BitVec 4) (part : BitVec 6) (s : Chip) : Chip :=
  let l := link.toNat
  match (s.link l).packets.find? (SlvPacket.waitsOf part.toNat) with
  | none => s
  | some p =>
    if !(s.link l).up || (s.part part.toNat).resetting || decide (512 ≤ ((s.link l).packets.filter (·.sent)).length) then s
    else
      let slot := s.packetSlot l part.toNat p
      (s.waitSlot l slot).updLink l fun y => y.send slot l part.toNat

/-! ### Answers (R332, R335, R336) -/

/-- A posted packet is answered: it leaves the sender's list, and a plan that waited for the egress share goes on. -/
def Chip.answered (s : Chip) (l : Nat) (p : SlvPacket) : Chip :=
  let s := s.updLink l fun x => { x with packets := x.packets.erase p, failsInRow := 0, failSeq := none, tagFails := false }
  s.releaseRuns [egressKey l] (some p.part)

/-- SLV_ACK_RECEIVE. -/
def slvAckReceive (link : BitVec 4) (seq : Nat) (s : Chip) : Chip :=
  match (s.link link.toNat).packets.find? fun p => p.numbered && p.seq == seq with
  | some p => (s.answered link.toNat p).updLink link.toNat fun x => { x with acks := x.acks + 1 }
  | none => s

/-- SLV_NACK_RECEIVE: the first NACK of a running plan is recorded in PTN_SLV_FAULT; the plan goes on (R335). -/
def slvNackReceive (link : BitVec 4) (seq status : Nat) (pkg : BitVec 12) (s : Chip) : Chip :=
  match (s.link link.toNat).packets.find? fun p => p.numbered && p.seq == seq with
  | none => s
  | some p =>
    let s := s.answered link.toNat p
    match p.run.bind fun id => s.run? id with
    | none => s
    | some r =>
      let s := s.updRun r.id fun r => { r with slvFault := match r.slvFault with | some st => some st | none => some (Status.ofCode status) }
      s.updCnt r.part fun c =>
        { c with slvFault := if c.slvFault.valid then c.slvFault else { valid := true, a := status, b := pkg.toNat } }

/-- SLV_PACKET_ERROR: the peer could not take the packet with this SEQ: it and every later one are sent again; a packet whose eight replays in a row
fail retrains the link, and a tag that still fails after that takes it DOWN with EV_SLV_AUTH (R336). -/
def slvPacketError (link : BitVec 4) (seq : Nat) (tag : Bool) (s : Chip) : Chip :=
  let l := link.toNat
  let x := s.link l
  if !x.up then s
  else if tag && x.tagFails then s.linkDown l 19
  else
    let s := s.updLink l fun y =>
      { y with
        packets := y.packets.map fun p => if p.sent && decide (seq ≤ p.seq) then p.again false else p
        readyAt := s.time
        failsInRow := if y.failSeq == some seq then y.failsInRow + 1 else 0
        failSeq := some seq }
    if 8 ≤ (s.link l).failsInRow then
      s.updLink l fun y => { y.enter s.aTick 9 with tagFails := tag }
    else s

/-- SLV_REKEY: after 2^32 packets a direction takes a new key epoch without leaving ACTIVE (R328). -/
def slvRekey (link : BitVec 4) (s : Chip) : Chip :=
  s.updLink link.toNat fun x => if x.up && decide (2 ^ 32 ≤ x.seqTx) then { x with epoch := x.epoch + 1, seqTx := 0 } else x

/-! ### The target (R327, R332, R333, R342, R348) -/

/-- The grantee's view of a buffer that a fabric handle names, with its grant. -/
def Chip.fabricGrant (s : Chip) (handle : Nat) : Option (Buf × BufGrant) :=
  match s.bufOf handle with
  | none => none
  | some b => if b.view.isSome then (b.grants.find? (·.fabric)).map fun g => (b, g) else none

/-- Return an ACK, or a NACK with its status (R332, R335). -/
def Chip.slvReply (s : Chip) (l seq : Nat) (nack : Option Status) : Chip :=
  s.updLink l fun x => { x with
    replies := ((seq, nack) :: x.replies).take 512
    nack := if nack.isSome then (x.nack + 1) % 65536 else x.nack }

/-- The NACK of a packet. -/
def Chip.slvNack (s : Chip) (h : PacketHead) (st : Status) : Chip := s.slvReply h.link.toNat h.seq (some st)

/-- A packet comes in: its corrections are attributed; one for another package is dropped and counted (R327, R338). -/
def Chip.slvHere (s : Chip) (h : PacketHead) (f : Chip → Chip) : Chip :=
  let s := h.corrected.foldl (fun (t : Chip) lane => t.slvCorrection h.link.toNat lane.toNat) s
  if h.dest.toNat = s.fabric.active then f s
  else s.updLink h.link.toNat fun x => { x with misroute := (x.misroute + 1) % 65536 }

/-- What a packet is known by (R339). -/
def PacketHead.id (h : PacketHead) : SlvId :=
  match h.first with
  | some (l, e, n) => ⟨h.src.toNat, h.srcPart.toNat, l.toNat, e, n⟩
  | none => ⟨h.src.toNat, h.srcPart.toNat, h.link.toNat, h.epoch, h.seq⟩

/-- A packet was taken before, on this or another link (R339). -/
def Chip.slvTaken (s : Chip) (h : PacketHead) : Bool := (List.range 16).any fun l => (s.link l).accepted.contains h.id

/-- A posted packet joins those of its source on its link, in SEQ order (R333). -/
def arrivalInsert (a : SlvArrival) : List SlvArrival → List SlvArrival
  | [] => [a]
  | b :: rest =>
    if b.id.srcPkg == a.id.srcPkg && b.id.srcPart == a.id.srcPart && decide (a.seq < b.seq) then a :: b :: rest else b :: arrivalInsert a rest

/-- A posted packet is taken: it is remembered, and its ACK is due. -/
def Chip.slvTake (s : Chip) (h : PacketHead) (token : Option (Nat × Bool × Nat × Nat)) : Chip :=
  s.updLink h.link.toNat fun x => { x with
    arrivals := arrivalInsert ⟨h.seq, h.id, token⟩ x.arrivals
    accepted := (h.id :: x.accepted).take 512 }

/-- A TOKEN takes effect: its fabric token advances, and an ERR goes to the gates armed on it (R333, R334). -/
def Chip.tokenArrives (s : Chip) (part : Nat) (err : Bool) (status token : Nat) : Chip :=
  s.updPart part fun p => { p with
    tokens := mput token ((mget 0 token p.tokens + 1) % 2 ^ 32) p.tokens
    gates := if err then p.gates.map fun (g : Gate) =>
        if g.token == token && g.err.isNone then { g with err := some (Status.ofCode status) } else g
      else p.gates }

/-- The packets of a link in SEQ order whose bolts the stacks have accepted are acknowledged and leave the list; a TOKEN takes effect
once no earlier packet of its source is left (R332, R333). -/
def Chip.settleLink (s : Chip) (l : Nat) : Nat → Chip
  | 0 => s
  | n + 1 =>
    let x := s.link l
    let waiting := fun (a : SlvArrival) => (List.range 8).any fun h => (s.stack h).queue.any fun q => q.origin == some a.id
    let done := x.arrivals.filter fun a => a.token.isNone && !waiting a
    let list := x.arrivals.filter fun a => a.token.isSome || waiting a
    let free := (list.zipIdx.find? fun a => a.1.token.isSome
      && !((list.take a.2).any fun b => b.id.srcPkg == a.1.id.srcPkg && b.id.srcPart == a.1.id.srcPart)).map fun a => a.1
    let s := done.foldl (fun (t : Chip) a => t.slvReply l a.seq none) (s.updLink l fun y => { y with arrivals := list })
    match free with
    | none => s
    | some a =>
      let s := (s.updLink l fun y => { y with arrivals := list.erase a }).slvReply l a.seq none
      match a.token with
      | some (part, err, status, token) => (s.tokenArrives part err status token).settleLink l n
      | none => s

/-- Settle every link's arrivals. -/
def Chip.settleArrivals (s : Chip) : Chip :=
  (List.range 16).foldl (fun (t : Chip) l => t.settleLink l ((t.link l).arrivals.length + 1)) s

/-- A WRITE or ADD at the target: the checks of Table 12.6, then a remote-class request of the partition that owns the grant. -/
def Chip.slvPost (s : Chip) (h : PacketHead) (add integer : Bool) (q : Nat) (m18 : Bool) (data : List Row) (poison : List Bool) : Chip :=
  s.slvHere h fun s =>
    match h.wellFormed, s.fabricGrant h.handle.toNat with
    | false, _ => s.slvNack h .notSupported
    | true, none => s.slvNack h .staleHandle
    | true, some (b, g) =>
      let addr := b.addr + 576 * h.bolt.toNat
      let entry := (s.part b.part).master.entries.find? fun e =>
        entryValid e.2 && (Modulus.ofEntry e.2).q == q && (Modulus.ofEntry e.2).m18 == m18
      if g.package != h.src.toNat || g.part != h.srcPart.toNat || !(if add then g.add else g.write) then s.slvNack h .notOwner
      else if b.bolts ≤ h.bolt.toNat then s.slvNack h .bound
      else if s.regionRetired addr 576 then s.slvNack h .retiredPage
      else if add && !integer && entry.isNone then s.slvNack h .badModulus
      else if (s.part b.part).resetting then s.slvNack h .resetInProgress
      else if s.slvTaken h then (s.slvTake h none).settleArrivals
      else
        let r : HbmReq := {
          part := b.part, run := none, op := if add then .add else .write, cls := .remote, addr := addr, arrived := s.time,
          data := data, poison := poison, modulus := (entry.map fun e => Modulus.ofEntry e.2).getD {}, integer := integer,
          origin := some h.id }
        (s.updStack (stackOf addr) fun x => { x with queue := x.queue ++ [r] }).slvTake h none

/-- SLV_WRITE_RECEIVE. -/
def slvWriteReceive (h : PacketHead) (data : List Row) (poison : List Bool) (s : Chip) : Chip :=
  s.slvPost h false false 0 false data poison

/-- SLV_ADD_RECEIVE: modular with q and FMT, or in 64-bit integer mode. -/
def slvAddReceive (h : PacketHead) (integer : Bool) (q : W36) (m18 : Bool) (data : List Row) (poison : List Bool) (s : Chip) : Chip :=
  s.slvPost h true integer q.toNat m18 data poison

/-- SLV_TOKEN_RECEIVE (R333). -/
def slvTokenReceive (h : PacketHead) (err : Bool) (status : BitVec 16) (s : Chip) : Chip :=
  s.slvHere h fun s =>
    match h.wellFormed, s.fabricGrant h.handle.toNat with
    | false, _ => s.slvNack h .notSupported
    | true, none => s.slvNack h .staleHandle
    | true, some (b, g) =>
      if g.package != h.src.toNat || g.part != h.srcPart.toNat then s.slvNack h .notOwner
      else if (s.part b.part).resetting then s.slvNack h .resetInProgress
      else if s.slvTaken h then (s.slvTake h none).settleArrivals
      else (s.slvTake h (some (b.part, err, status.toNat, g.token.getD 0))).settleArrivals

/-- HBM_SLOT_SERVE as the whole package sees it: what an arrival slot has accepted is acknowledged, and TOKENs behind it take effect (R332,
R333). -/
def hbmSlotServeAny (stack : BitVec 3) (owner : SlotOwner) (cls : SlotClass) (s : Chip) : Chip :=
  let t := hbmSlotServe stack owner cls s
  match owner with
  | .arrival _ => t.settleArrivals
  | _ => t

/-! ### Owner tables (R341, R342) -/

/-- The 32 bytes of an entry at a table version. -/
def OwnerEntry.bytes (e : OwnerEntry) (version : Nat) : List Nat :=
  (natLE 2 (e.pkg.toNat + if e.valid then 32768 else 0) ++ natLE 1 e.plate.toNat ++ natLE 1 e.swatch.toNat ++ natLE 8 e.addr.toNat
    ++ natLE 4 e.bolts.toNat ++ natLE 4 e.handle.toNat ++ natLE 4 e.boltOff.toNat ++ natLE 4 version ++ natLE 4 0).map (·.toNat)

/-- Write an entry into the shadow copy of a table; with no plan running in the partition it takes effect at once (R342, R118). -/
def Chip.ownerWrite (s : Chip) (part handle block version : Nat) (e : OwnerEntry) : Chip :=
  match s.bufOf handle with
  | none => s
  | some b =>
    let s := s.updPart part fun p => { p with ownerRows := mput (b.addr + 32 * block) (e.bytes version) p.ownerRows }
    if (s.runsOf part).isEmpty then s.commitOwner part [handle] else s

/-- The packages that a table's entries name. -/
def Chip.ownerGroup (s : Chip) (b : Buf) : List Nat :=
  let entry := fun (i : Nat) => leNat (memReadN s.mem (b.addr + 32 * i) 2)
  (((List.range (576 * b.bolts / 32)).filter fun i => bit (entry i) 15).map fun i => entry i % 4096).eraseDups.filter
    fun p => p != s.fabric.active

/-- TC_OWNER_SET (R342): the shadow write, and a CONTROL packet to each package of the tensor's group. -/
def tcOwnerSet (c : Call) (part table block : Nat) (e : OwnerEntry) (s : Chip) : Chip :=
  s.call c 0x0706 { part := some part } [(decide (2 ^ 24 ≤ block), .bound)] fun s =>
    s.withHandle c 0x0706 table fun s b =>
      if b.kind != 2 || 576 * b.bolts < 32 * (block + 1) then fails s .bound
      else
        let version := (s.part part).ownerVersion + 1
        let group := (s.ownerGroup b ++ (if e.valid && e.pkg.toNat != s.fabric.active then [e.pkg.toNat] else [])).eraseDups
        let s := s.ownerWrite part table block version e
        let row : Row := rowOfBytes ((e.bytes version).map fun x => BitVec.ofNat 8 x)
        succeeds (group.foldl (fun (t : Chip) d =>
          let mask := mget 0 d t.fabric.routes
          match (List.range 16).find? fun l => bit mask l && (t.link l).up with
          | some l =>
            let p : SlvPacket := { kind := .control, dest := d, part := part, handle := table, bolt := block, data := [row], acceptAt := t.time }
            t.updLink l fun x => { x with packets := x.packets ++ [p] }
          | none => t) s)

/-- SLV_CONTROL_RECEIVE: a change of a replicated owner table reaches the local shadow copy (R342). `part` and `table` name the local
copy. -/
def slvControlReceive (h : PacketHead) (part : BitVec 6) (table block : BitVec 32) (version : BitVec 32) (e : OwnerEntry) (s : Chip) :
    Chip :=
  s.slvHere h fun s =>
    if !h.wellFormed then s.slvNack h .notSupported
    else
      match s.bufOf table.toNat with
      | some b =>
        if b.part = part.toNat && b.kind = 2 && decide (32 * (block.toNat + 1) ≤ 576 * b.bolts) then
          s.ownerWrite part.toNat table.toNat block.toNat version.toNat e
        else s
      | none => s

/-! ### Calls (Table 12.10) -/

/-- TC_FABRIC_JOIN (R355). -/
def tcFabricJoin (c : Call) (id : Nat) (list : List (Nat × Nat)) (lock : Bool) (s : Chip) : Chip :=
  s.call c 0x0701 { pf0Only := true } [(decide (4096 ≤ id), .bound)] fun s =>
    if s.fabric.lock then fails s .lifecycle
    else if 4096 < list.length then fails s .overcommit
    else
      let s := { s with fabric := { s.fabric with id := id, active := id, flashId := id, list := list, lock := lock } }
      succeeds ((List.range 16).foldl (fun (t : Chip) l => t.trainLink l false) s)

/-- TC_ROUTE_SET: a link that a route names is in use, so the grade follows (R34). -/
def tcRouteSet (c : Call) (dest mask : Nat) (s : Chip) : Chip :=
  s.call c 0x0702 { pf0Only := true } [(decide (4096 ≤ dest), .bound), (decide (65536 ≤ mask), .bound)] fun s =>
    succeeds ({ s with fabric := { s.fabric with routes := mset 0 dest mask s.fabric.routes } }).regrade

/-- TC_SLV_QUERY: state, mode, peer, latency, counters, then the failed lanes of each direction. -/
def tcSlvQuery (c : Call) (link : Nat) (s : Chip) : Chip :=
  s.call c 0x0703 {} [(decide (16 ≤ link), .bound)] fun s =>
    let x := s.link link
    succeeds s ([x.state, x.mode, x.peerPkg, b2n x.auth, x.lat, x.replay, x.nack, x.misroute, (x.bad false).length] ++ x.bad false
      ++ [(x.bad true).length] ++ x.bad true)

/-- A partition holds units on a link. -/
def Chip.linkHeld (s : Chip) (l : Nat) : Bool := s.existing.any fun p => s.linkUnits p l != 0

/-- A test of a link begins. -/
def Chip.startLinkTest (s : Chip) (l phases d : Nat) (fn : Option Fn) (tag : Nat) : Chip :=
  let s := s.updLink l fun x =>
    { x.enter s.aTick 11 with mode := 2, testPhases := phases, testD := d, testDone := false, testFn := fn, testTag := tag }
  s.linkChanged l false

/-- TC_SLV_TEST (R352): phases 2 to 4; answered when the test is done. Phase 1 runs through EXTEST only, so its bit selects nothing. -/
def tcSlvTest (c : Call) (link phases d : Nat) (s : Chip) : Chip :=
  let bad := firstBad [(decide (16 ≤ link), .bound, 7), (decide (16 ≤ phases), .notSupported, 7), (decide (30 < d), .badShape, 7)]
  match s.common c {} [], bad with
  | some (st, n), _ => s.respond c 0x0704 st n []
  | none, some (st, n) => s.respond c 0x0704 st n []
  | none, none =>
    if phases / 2 = 0 then s.respond c 0x0704 .ok 0 []
    else if s.linkHeld link || (s.link link).state == 11 then s.respond c 0x0704 .busy 8 []
    else s.startLinkTest link (phases / 2 * 2) d (some c.fn) c.tag

/-- SLV_TEST_CTRL with GO (R354). -/
def slvTestCtrlGo (link : BitVec 4) (phases : BitVec 4) (d : BitVec 5) (s : Chip) : Chip :=
  s.expertWrite fun s =>
    let l := link.toNat
    if phases.toNat / 2 = 0 then
      s.updLink l fun x => { x with testPhases := phases.toNat, testD := d.toNat, testStatus := .ok, testDone := true }
    else if s.linkHeld l || (s.link l).state == 11 then
      s.updLink l fun x => { x with testPhases := phases.toNat, testD := d.toNat, testStatus := .busy, testDone := true }
    else s.startLinkTest l (phases.toNat / 2 * 2) d.toNat none 0

/-- SLV_TEST_DONE: results of a link test; the link trains again with the failed lanes in its map. -/
def slvTestDone (link : BitVec 4) (failed : List LaneResult) (margins : List Nat) (s : Chip) : Chip :=
  let l := link.toNat
  let x := s.link l
  if x.state = 11 && !x.testDone then
    let long := (if bit x.testPhases 2 && x.testD != 0 then 2 ^ x.testD else 0) + if bit x.testPhases 3 then 4096 else 0
    let s := s.waitTick (x.stateAt + long)
    let failed := failed.filter (LaneResult.counts 9 x.testPhases x.testD)
    let tx := ((failed.filter fun f => !f.rx).map (·.lane.toNat)).eraseDups
    let rx := ((failed.filter (·.rx)).map (·.lane.toNat)).eraseDups
    let s := s.updLink l fun x => { x with
      testStatus := .ok
      testDone := true
      testFailed := tx.length + rx.length
      testFirst := (failed.head?.map (·.lane.toNat)).getD 0
      testFirstRx := (failed.head?.map (·.rx)).getD false
      testPhase := (failed.head?.map (·.phase.toNat)).getD 0
      testFn := none
      tx := tx.foldl (fun m i => sinsert i m) x.tx
      rx := rx.foldl (fun m i => sinsert i m) x.rx }
    let s := s.trainLink l true
    match x.testFn with
    | some fn => s.respond { fn := fn, tag := x.testTag } 0x0704 .ok 0 ([tx.length] ++ tx ++ [rx.length] ++ rx ++ margins)
    | none => s
  else s

/-- TC_SLV_LANE_RETIRE: direction 0 transmit, 1 receive; a lane in use fails at once. -/
def tcSlvLaneRetire (c : Call) (link dir lane : Nat) (s : Chip) : Chip :=
  s.call c 0x0705 { pf0Only := true } [(decide (16 ≤ link) || decide (9 ≤ lane), .bound), (decide (1 < dir), .notSupported)] fun s =>
    let x := s.link link
    if (if dir = 0 then x.retiredTx else x.retiredRx).contains lane then succeeds s
    else
      let s := s.linkLanesFail link (if dir = 0 then [lane] else []) (if dir = 0 then [] else [lane])
      let s := s.updLink link fun x =>
        if dir = 0 then { x with retiredTx := sinsert lane x.retiredTx } else { x with retiredRx := sinsert lane x.retiredRx }
      succeeds { s with ledger := { s.ledger with lanes := sinsert (65536 + link * 256 + dir * 128 + lane) s.ledger.lanes } }

/-- TC_TOKEN_GATE (R334): a gate on an install slot; one with timeout 0 that is not open expires at once. -/
def tcTokenGate (c : Call) (part slot token value version timeout : Nat) (s : Chip) : Chip :=
  s.call c 0x0707 { part := some part } [(decide (64 ≤ slot) || decide (64 ≤ token), .bound)] fun s =>
    let p := s.part part
    let g : Gate := { slot := slot, token := token, value := value, timeout := timeout, armedAt := s.aTick, version := version }
    let g := { g with expired := timeout == 0 && !p.gateOpen g }
    if (mfind slot p.plans).isNone then fails s .staleHandle
    else succeeds (s.updPart part fun p => { p with gates := p.gates.filter (fun x => x.slot != slot) ++ [g] })

/-- TOKEN_GATE_TIMEOUT: the timeouts that have passed close their gates for good; the gated start is due and returns ST_TIMEOUT (R334). -/
def tokenGateTimeout (part : BitVec 6) (slot : BitVec 6) (s : Chip) : Chip :=
  match (s.part part.toNat).gates.find? fun g => g.slot == slot.toNat && !g.expired with
  | none => s
  | some g =>
    let s := s.waitTick (g.armedAt + g.timeout)
    if (s.part part.toNat).gateOpen g then s
    else s.updPart part.toNat fun p => { p with gates := p.gates.map fun (x : Gate) =>
      if x.slot == g.slot && x.token == g.token then { x with expired := true } else x }

/-- TC_FABRIC_FETCH: a staging copy of a block of an owner table into a local buffer; `remote` is what the owning package sends of a
block that is not local. -/
def tcFabricFetch (c : Call) (part table block local_ : Nat) (remote : List Byte) (s : Chip) : Chip :=
  s.call c 0x0708 { part := some part } [(decide (2 ^ 24 ≤ block), .bound)] fun s =>
    s.withHandle c 0x0708 table fun s b =>
      s.withHandle c 0x0708 local_ fun s d =>
        let e := memReadN s.mem (b.addr + 32 * block) 32
        let field := fun (o n : Nat) => leNat ((e.drop o).take n)
        let pkg := field 0 2
        let n := 576 * field 12 4
        if b.kind != 2 || 576 * b.bolts < 32 * (block + 1) || !bit pkg 15 || 576 * d.bolts < n then fails s .bound
        else if pkg % 4096 = s.fabric.active then
          let bytes := memReadN s.mem (field 4 8 % 2 ^ 44) n
          succeeds { s with mem := memWriteN s.mem d.addr bytes }
        else if !((List.range 16).any fun l => bit (mget 0 (pkg % 4096) s.fabric.routes) l && (s.link l).up) then fails s .routeFrayed
        else succeeds { s with mem := memWriteN s.mem d.addr (remote.take n) }

/-- SLV_PKG is written (R354, R355): the id takes effect at the next training, LOCK stays until a Cold reset. -/
def slvPkgWrite (id : BitVec 12) (lock : Bool) (s : Chip) : Chip :=
  if s.fabric.lock then { s with tlr := { s.tlr with lockedWrites := s.tlr.lockedWrites + 1 } }
  else { s with fabric := { s.fabric with id := id.toNat, lock := lock } }

end Sys2Proof.Machine
end

