-- ==== Sys2Proof/Machine/Reset.lean ====
section
/-! DEFINITION. Event registers, MSI-X, crossings, and the partition and Plate resets (R124, R384 to R410). -/

namespace Sys2Proof.Machine

/-! ### Events of a function (R384 to R388) -/

/-- The events of a function. -/
def Chip.eventsOf (s : Chip) : Fn → Events
  | .pf0 => s.tlr.events
  | .vf n => (s.part n).events

/-- Change the events of a function. A partition that does not exist keeps its reset state. -/
def Chip.updEvents (s : Chip) (f : Fn) (g : Events → Events) : Chip :=
  match f with
  | .pf0 => { s with tlr := { s.tlr with events := g s.tlr.events } }
  | .vf n => if (s.part n).present then s.updPart n fun p => { p with events := g p.events } else s

/-- The MSI-X state of a function. -/
def Chip.msixOf (s : Chip) : Fn → Msix
  | .pf0 => s.tlr.msix
  | .vf n => (s.part n).msix

/-- Change the MSI-X state of a function. -/
def Chip.updMsix (s : Chip) (f : Fn) (g : Msix → Msix) : Chip :=
  match f with
  | .pf0 => { s with tlr := { s.tlr with msix := g s.tlr.msix } }
  | .vf n => s.updPart n fun p => { p with msix := g p.msix }

/-- Bus Master Enable of a function (R552). -/
def Chip.masterOf (s : Chip) : Fn → Bool
  | .pf0 => s.pci.busMaster
  | .vf n => (s.part n).busMaster

/-- The assigned event indices of a function (R386). -/
def eventAssigned (f : Fn) (e : Nat) : Bool :=
  match f with
  | .pf0 => decide (e ≤ 21)
  | .vf _ => decide (e ≤ 12) || decide (16 ≤ e ∧ e ≤ 31)

/-- The vectors of a function. -/
def vectorsOf : Fn → Nat
  | .pf0 => 64
  | .vf _ => 32

/-- An event is pending while COUNT and ACK differ (R385). -/
def Events.isPending (x : Events) (e : Nat) : Bool := mget 0 e x.count != mget 0 e x.ack

/-- The vector in an event's route. -/
def Events.vector (x : Events) (e : Nat) : Nat := (mget (0, false) e x.route).1

/-- A vector is asserted while an enabled event routed to it is pending (R387). -/
def Events.asserted (x : Events) (v : Nat) : Bool :=
  x.route.any fun r => r.2.1 == v && r.2.2 && x.isPending r.1

/-- Set ARMED of a vector. -/
def Events.arm (v : Nat) (x : Events) : Events := { x with disarmed := sremove v x.disarmed }

/-- The value that a write of a to ACK leaves (R385). -/
def ackValue (count a : W32) : W32 := if (count - a).toNat < 2 ^ 31 then a else count

/-- EV_ACK_WRITE: the acknowledged count, and ARMED of the vector in the event's route (R385, R388). -/
def evAckWrite (fn : Fn) (event : BitVec 7) (value : W32) (s : Chip) : Chip :=
  let e := event.toNat
  if !eventAssigned fn e then s
  else s.updEvents fn fun x =>
    Events.arm (x.vector e) { x with ack := mput e (ackValue (mget 0 e x.count) value) x.ack }

/-- VEC_REARM_WRITE: each bit written as 1 arms its vector (R388). -/
def vecRearmWrite (fn : Fn) (mask : W64) (s : Chip) : Chip :=
  s.updEvents fn fun x =>
    { x with disarmed := x.disarmed.filter fun v => !(decide (v < vectorsOf fn) && bit mask.toNat v) }

/-- Set one route and arm its vector. -/
def Events.setRoute (e v : Nat) (on : Bool) (x : Events) : Events := Events.arm v { x with route := mput e (v, on) x.route }

/-- EV_ROUTE_WRITE: the four route bytes of a register, and ARMED of the vectors they name (R388, Table 14.9). -/
def evRouteWrite (fn : Fn) (index : BitVec 5) (data : W32) (s : Chip) : Chip :=
  (List.range 4).foldl (fun (t : Chip) k =>
    let e := 4 * index.toNat + k
    let b := bits data.toNat (8 * k) 8
    if eventAssigned fn e then t.updEvents fn (Events.setRoute e (b % vectorsOf fn) (bit b 7)) else t) s

/-- TC_EVENT_ROUTE: one route of a function, 0 for PF0 and n + 1 for partition n (Table 14.7, R409). -/
def tcEventRoute (c : Call) (function event vector : Nat) (enable : Bool) (s : Chip) : Chip :=
  let fn : Fn := if function = 0 then .pf0 else .vf (function - 1)
  s.call c 0x0904 { pf0Only := decide (function = 0), part := if function = 0 then none else some (function - 1) }
      [(!eventAssigned fn event || decide (vectorsOf fn ≤ vector), .bound)] fun s =>
    succeeds (s.updEvents fn (Events.setRoute event vector enable))

/-- Send the message of a vector: ARMED and the pending bit are cleared (R387). -/
def Chip.sendMsix (s : Chip) (fn : Fn) (v : Nat) : Chip :=
  let s := s.updMsix fn fun m => { m with sent := mupd 0 v (· + 1) m.sent, pba := sremove v m.pba }
  s.updEvents fn fun x => { x with disarmed := sinsert v x.disarmed }

/-- MSIX_SEND: a vector that is asserted and armed, of a function whose MSI-X is enabled, sends its message; while it is masked its
pending bit is set instead (R387, R388). A function that may not master the bus sends nothing (R552). -/
def msixSend (fn : Fn) (vector : BitVec 6) (s : Chip) : Chip :=
  let v := vector.toNat
  let x := s.eventsOf fn
  let m := s.msixOf fn
  if !(decide (v < vectorsOf fn) && x.asserted v && !x.disarmed.contains v && m.enabled && s.masterOf fn) then s
  else if m.fnMask || m.masked.contains v then s.updMsix fn fun m => { m with pba := sinsert v m.pba }
  else s.sendMsix fn v

/-- MSIX_UNMASK: the host clears a vector mask; a pending message is sent (R388). -/
def msixUnmask (fn : Fn) (vector : BitVec 6) (s : Chip) : Chip :=
  let v := vector.toNat
  let s := s.updMsix fn fun m => { m with masked := sremove v m.masked }
  let m := s.msixOf fn
  if m.pba.contains v && m.enabled && !m.fnMask && s.masterOf fn then s.sendMsix fn v else s

/-- DBG_EV_INJECT with GO: one increment of an event of a function, like a raised one (R410). -/
def dbgEvInject (event : BitVec 7) (function : BitVec 7) (s : Chip) : Chip :=
  s.expertWrite fun s =>
    let s := { s with dbg := { s.dbg with evIndex := event.toNat, evFunction := function.toNat } }
    if 64 < function.toNat then s
    else
      let fn : Fn := if function = 0 then .pf0 else .vf (function.toNat - 1)
      if eventAssigned fn event.toNat then s.updEvents fn fun x => x.bump event.toNat 1 else s

/-! ### Crossings (R390, R393) -/

/-- Note a failed access in the crossing status of a function. -/
def Chip.xingFail (s : Chip) (fn : Fn) (st : Status) : Chip :=
  let note := fun (x : Xing) => ({ status := st.code, count := (x.count + 1) % 2 ^ 15, valid := true } : Xing)
  match fn with
  | .pf0 => { s with tlr := { s.tlr with xing := note s.tlr.xing } }
  | .vf n => s.updPart n fun p => { p with xing := note p.xing }

/-- An access gets no response: a read returns all-ones, a write is discarded (R390, R393). -/
def Chip.noResponse (s : Chip) (read : Bool) : Chip :=
  if read then { s with dbg := { s.dbg with padData := BitVec.allOnes 288, padPoison := true, padValid := false } } else s

/-- The accesses in flight to the swatches that a reset covers end at once, and the crossing's status says so (R393, R405). -/
def Chip.endAccesses (s : Chip) (covered : Nat → Bool) : Chip :=
  let gone := s.tlr.accesses.filter fun a => covered a.swatch
  let s := { s with tlr := { s.tlr with accesses := s.tlr.accesses.filter fun a => !covered a.swatch } }
  gone.foldl (fun (t : Chip) a => (t.noResponse a.read).xingFail a.fn .resetInProgress) s

/-- TIMEOUT_CHANNEL_EXPIRY: the oldest access of a function in flight, or one that begins now, has no response for 256 A-ticks. It ends with
ST_CLOCK_ABSENT and EV_CLOCK_ABSENT, and the crossing's status records it (R390). While the Collar is in reset an access ends under R393 instead
(R405). -/
def timeoutChannelExpiry (fn : Fn) (s : Chip) : Chip :=
  if s.boot.collarReset then s.xingFail fn .resetInProgress
  else
    let a := s.tlr.accesses.find? fun a => a.fn == fn
    let s := s.waitTick ((match a with | some a => a.since | none => s.aTick) + 256)
    let s := { s with tlr := { s.tlr with accesses := match a with | some a => s.tlr.accesses.erase a | none => s.tlr.accesses } }
    ((s.noResponse (a.any (·.read))).xingFail fn .clockAbsent).raiseDev 21 (match fn with | .pf0 => none | .vf n => some n) none none 0

/-- Whether the Collar half of the host crossing is in reset, so that a host access ends under R393. -/
def Chip.hostHeld (s : Chip) : Bool := s.boot.collarReset

/-- A host access to the Collar half: discarded while it is in reset, with ST_RESET_IN_PROGRESS recorded (R393). -/
def Chip.hostAccess (s : Chip) (fn : Fn) (f : Chip → Chip) : Chip :=
  if s.hostHeld then s.xingFail fn .resetInProgress else f s

/-! ### Step 1 of a partition reset (R395) -/

/-- Serve the writes and adds among some queued requests at once, and drop their reads: what the stacks have accepted completes
(step 3 of R395). -/
def Chip.flush (s : Chip) (mine : HbmReq → Bool) : Chip :=
  ((List.range 8).foldl (fun (t : Chip) h =>
    let qs := (t.stack h).queue.filter mine
    let t := t.updStack h fun x => { x with queue := x.queue.filter fun q => !mine q }
    qs.foldl (fun (t : Chip) (q : HbmReq) =>
      match q.op with
      | .add => t.addBolt q.addr q.integer q.modulus q.data q.poison
      | .write => t.writeBolt q.addr q.data q.poison
      | _ => t) t) s).settleArrivals

/-- The receive buffers posted on the rings of a partition, entries already taken, complete with ST_RESET_IN_PROGRESS (R571). -/
def Chip.abandonRings (s : Chip) (p : Nat) : Chip :=
  (s.part p).rings.foldl (fun (t : Chip) e =>
    e.2.rx.foldl (fun (t : Chip) tag => t.complete p e.1 { status := .resetInProgress, kind := 2, tag := tag })
      (t.updRing p e.1 fun r => { r with rx := [] })) s

/-- Every open request of a partition completes with ST_RESET_IN_PROGRESS: mask stores are scrubbed, downloads dropped, and no receipt
is made (R395, R470, R496). -/
def Chip.abandon (s : Chip) (p : Nat) : Chip :=
  let s := (s.runsOf p).foldl (fun (t : Chip) r => t.stopPlan r .resetInProgress none 0) s
  let ids := (s.requests.filter fun q => q.part == p).map fun q => q.id
  let masks := (s.requests.filter fun q => q.part == p).filterMap fun q => q.mask
  let s := masks.foldl (fun (t : Chip) h =>
    match t.bufOf h with | some b => t.clearRegion b.addr (576 * b.bolts) | none => t) s
  let s := { s with
    requests := s.requests.map fun (q : Request) => if q.part == p then { q with outcome := none } else q
    krp := { s.krp with sessions := s.krp.sessions.map fun (x : KrpSession) =>
      { x with
        downloads := x.downloads.filter fun d => !ids.contains d.request
        transfers := if x.part == p then [] else x.transfers } } }
  (ids.foldl (fun (t : Chip) i => t.completeRequest i .resetInProgress) s).abandonRings p

/-- A partition reset begins: step 1, then the drain of step 2. The call that asked for it is answered at its end; a command of TLR_MT_CMD for
the partition that has not been accepted is lost (R54). -/
def Chip.beginReset (s : Chip) (p cause : Nat) (fn : Option Fn) (tag : Nat) : Chip :=
  let s := s.abandon p
  let m := s.tlr.mt
  let s := if m.running.isSome && m.runPart == p && m.applied.isNone then
      { s with tlr := { s.tlr with mt := { m with applied := some .resetInProgress } } } else s
  let s := s.updPart p fun x => { x with
    resetting := true
    resetSt := { step := 2, cause := cause, startedAt := s.aTick, fn := fn, tag := tag } }
  s.updSwatches (s.swatchesOf p) fun w => { w with resetting := true }

/-- The posted packets of a partition that are not yet answered. -/
def Chip.undrained (s : Chip) (p : Nat) : Nat :=
  ((List.range 16).map fun l => ((s.link l).packets.filter fun x => x.part == p).length).sum

/-- Drop the packets that the drain has not delivered, and count them in LOST (step 2 of R395). -/
def Chip.dropPackets (s : Chip) (p : Nat) : Chip :=
  let n := s.undrained p
  let s := { s with links := s.links.map fun (e : Nat × SlvLink) => (e.1, { e.2 with packets := e.2.packets.filter fun x => x.part != p }) }
  s.updPart p fun x => { x with resetSt := { x.resetSt with step := 3, lost := min 1023 (x.resetSt.lost + n) } }

/-- RESET_DRAIN_TIMEOUT: 250 A-ticks after a reset began its drain ends (R395). -/
def resetDrainTimeout (part : BitVec 6) (s : Chip) : Chip :=
  let p := part.toNat
  let x := s.part p
  if x.resetting && x.resetSt.step == 2 then (s.waitTick (x.resetSt.startedAt + 250)).dropPackets p else s

/-! ### Steps 3 to 6 -/

/-- A reset level covers a swatch: both banks of its stores, its Yoke table and every queue are empty, its DRBGs uninstantiated, its cells
in their reset state, its Pads scrubbed (R210, R234). -/
def Chip.wipeSwatch (s : Chip) (sw : Nat) : Chip :=
  let s := (List.range 8).foldl (fun (t : Chip) q => t.updPanel (sw * 8 + q) fun _ => {}) s
  let s := s.updSwatch sw fun w => { w with
    bundles := [], yoke := [], moves := [], table := {}, twiddle := [], twShadow := [], pinTables := [], pinSeeds := [] }
  { s with cells := s.cells.filter fun e => swatchOf e.1 != sw }

/-- What a swatch of a partition is given before its next plan starts, once it has lost everything: the replicas and twiddle sets, the DRBGs,
the stores, bundles, loose stores and task slots of its installed plans (R59, R124, R210, R416). -/
def Chip.reloadSwatch (s : Chip) (p sw : Nat) : Chip :=
  let q := s.part p
  let bundles := (s.swatch sw).bundles
  let stores : SMap Cell := s.cells.filterMap fun (e : Nat × Cell) =>
    if swatchOf e.1 = sw && !e.2.looseStore.isEmpty then some (e.1, ({ looseStore := e.2.looseStore, seq := e.2.seq } : Cell)) else none
  let s := (s.wipeSwatch sw).seedSwatch sw
  let s := { s with cells := stores.foldl (fun (m : SMap Cell) (e : Nat × Cell) => mput e.1 e.2 m) s.cells }
  let s := s.updSwatch sw fun w => { w with table := q.master, twiddle := q.twsets, twShadow := q.twsets, bundles := bundles }
  (q.plans.filter fun e => e.2.swatches.contains sw).foldl (fun (t : Chip) e =>
    let mine : Plan := { e.2 with swatches := [sw] }
    (t.loadEngines p mine).holdSlots p mine) s

/-- Accepted adds and writes of a partition complete, and its buffers and the grants on them are released: steps 3 and 4 (R352, R395). -/
def Chip.releasePart (s : Chip) (p : Nat) : Chip :=
  let s := s.flush fun q => q.part == p
  let hs := (s.bufs.filter fun e => e.2.live && e.2.part == p).map fun e => handleOf e.1 e.2.gen
  hs.foldl (fun (t : Chip) h => t.releaseBuf h) s

/-- What a partition reset leaves of a partition: its swatches, grants, suspension and pacing, quotas and key windows, policies, rings and
the host's own state (R377, R395, R473, Table 14.3). -/
def Partition.afterReset (flr : Bool) (st : ResetState) (p : Partition) : Partition :=
  { present := p.present
    growOnInstall := p.growOnInstall
    suspended := p.suspended
    heatBy := p.heatBy
    floor := p.floor
    napDelay := p.napDelay
    restDelay := p.restDelay
    resetSt := st
    pace := p.pace
    paceLimit := p.paceLimit
    grants := p.grants
    eff := p.eff
    arrivals := p.arrivals
    keyWin := p.keyWinShadow
    keyWinShadow := p.keyWinShadow
    msix := if flr then {} else p.msix
    mbx := p.mbx
    lockedWrites := p.lockedWrites
    quotas := p.quotas
    schedHold := p.schedHold
    vfEnabled := p.vfEnabled
    busMaster := p.busMaster
    rings := p.rings
    winErr := p.winErr }

/-- The rest of a partition reset with the status it ends with: steps 3 to 6 of R395. -/
def Chip.endReset (s : Chip) (p : Nat) (st : Status) : Chip :=
  let s := (s.dropPackets p).releasePart p
  let sws := s.swatchesOf p
  let s := sws.foldl (fun (t : Chip) sw => (t.wipeSwatch sw).seedSwatch sw) s
  let s := s.updSwatches (sws.filter fun sw => !(s.plate (plateOf sw)).reset) fun w => { w with resetting := false }
  let r := (s.part p).resetSt
  let s := s.updPart p (Partition.afterReset (r.cause == 1) { r with step := 0, status := st.code, done := true, fn := none })
  (s.dropDebugLocks.noteArrivals p).raiseBoth p 0 0 none none 0

/-- A destroyed partition: its grants, swatches and number in FORMER are gone, and every resource it held is shared out again
(R379). -/
def Chip.dissolve (s : Chip) (p : Nat) : Chip :=
  let rs := ((s.part p).grants.map fun g => g.1 / 4).eraseDups
  let s := (s.swatchesOf p).foldl (fun (t : Chip) sw => t.leave sw) s
  let s := s.updSwatches (List.range 64) fun w => if w.former == some p then { w with former := none } else w
  let s := s.updPart p fun x =>
    { msix := x.msix, mbx := x.mbx, lockedWrites := x.lockedWrites, vfEnabled := x.vfEnabled, busMaster := x.busMaster, winErr := x.winErr }
  s.dropDebugLocks.capacityChange rs true

/-- A partition reset ends: its call is answered; a destroy then removes the partition. -/
def Chip.finishReset (s : Chip) (p : Nat) (st : Status) : Chip :=
  let r := (s.part p).resetSt
  let s := s.endReset p st
  let s := if r.cause == 3 then s.dissolve p else s
  match r.fn with
  | some fn => s.respond ⟨fn, r.tag, 0, true, false⟩ (if r.cause == 3 then 0x0804 else 0x0901) st 8 []
  | none => s

/-- A Plate reset in progress has taken over the steps of a partition's reset (R402). -/
def Chip.takenOver (s : Chip) (p : Nat) : Bool := (s.swatchesOf p).any fun sw => (s.plate (plateOf sw)).reset

/-- RESET_COMPLETION of a partition: nothing is left to drain, so steps 3 to 6 end the reset. One that a Plate reset has taken over ends with
that reset (R402). -/
def Chip.partitionDone (s : Chip) (p : Nat) : Chip :=
  if (s.part p).resetting && !s.takenOver p && ((s.part p).resetSt.step != 2 || s.undrained p == 0) then s.finishReset p .ok else s

/-- PARTITION_RESET_TIMEOUT: 100 ms after it began, a partition reset ends with ST_TIMEOUT; the swatches that are not scrubbed leave
service (R396). -/
def partitionResetTimeout (part : BitVec 6) (unscrubbed : W64) (s : Chip) : Chip :=
  let p := part.toNat
  let x := s.part p
  if !x.resetting then s
  else
    let s := s.waitTick (x.resetSt.startedAt + 2500000)
    let bad := (s.swatchesOf p).filter fun sw => bit unscrubbed.toNat sw
    let s := s.updSwatches bad fun w => { w with inService := false, selfTest := .timeout }
    (s.finishReset p .timeout).regrade

/-- TC_PARTITION_RESET (R395, R402). -/
def tcPartitionReset (c : Call) (part : Nat) (s : Chip) : Chip :=
  match s.common c { part := some part } [] with
  | some (st, n) => s.respond c 0x0901 st n []
  | none => s.beginReset part 2 (some c.fn) c.tag

/-- TC_PARTITION_DESTROY (R379): with running plans it first resets the partition; without, its requests complete and everything is
released at once. -/
def tcPartitionDestroy (c : Call) (part : Nat) (s : Chip) : Chip :=
  match s.common c { pf0Only := true, part := some part } [] with
  | some (st, n) => s.respond c 0x0804 st n []
  | none =>
    if !s.alive then s.respond c 0x0804 .lifecycle 8 []
    else if !(s.runsOf part).isEmpty then s.beginReset part 3 (some c.fn) c.tag
    else
      let ids := (s.requests.filter fun q => q.part == part).map fun q => q.id
      let s := ids.foldl (fun (t : Chip) i => t.completeRequest i .staleHandle) s
      ((s.releasePart part).dissolve part).respond c 0x0804 .ok 0 []

/-- VF_FLR: the function's configuration state is reset, its rings stop, and its partition is reset (R395, R402, R562, R571). -/
def vfFlr (vf : BitVec 6) (s : Chip) : Chip :=
  let p := vf.toNat
  let s := s.updPart p fun x => { x with
    busMaster := false
    rings := x.rings.map fun (e : Nat × Ring) => if e.2.ownerPf0 then e else (e.1, { e.2 with flr := true }) }
  if !(s.part p).present || (s.part p).resetting then s.updPart p fun x => { x with msix := {} }
  else s.beginReset p 1 none 0

/-! ### Plate reset (R124, R397) -/

/-- The swatches of a plate. -/
def plateSwatches (plate : Nat) : List Nat := (List.range 8).map (plate * 8 + ·)

/-- The connected ports of a plate. -/
def platePorts (plate : Nat) : List Nat := ([0, 1, 2, 3].map fun x => portKey plate x).filter seamConnected

/-- Every plan with a swatch on a plate stops at once with a status; a break that held one is over, so that no scrub of the plate has to wait for
it (R240, R394, R397). -/
def Chip.stopPlate (s : Chip) (plate : Nat) (st : Status) : Chip :=
  (s.runs.filter fun r => r.plan.swatches.any fun sw => plateOf sw == plate).foldl (fun (t : Chip) r =>
    if (t.run? r.id).isSome then t.stopPlan r st none 0 else t) s

/-- A TC_SELFTEST that meets a Plate reset ends with ST_RESET_IN_PROGRESS (R596). -/
def Chip.endSelfTest (s : Chip) (st : Status) : Chip :=
  match s.boot.testFn with
  | none => s
  | some fn =>
    { s with boot := { s.boot with testFn := none, testMask := 0 } }.respond ⟨fn, s.boot.testTag, 0, true, false⟩ 0x0F02 st 8 []

/-- What a Plate reset leaves of a Lining at once: its retired blocks; its registers have their reset values (R9, R394). -/
def Lining.resetPlate (x : Lining) : Lining := { retired := x.retired, zeroing := true, poison := x.poison, scrubbedAt := x.scrubbedAt }

/-- The registers of a stack's block take their reset values in a Plate reset; the stack keeps training, contents, queue and lists
(R9, R394). -/
def Stack.resetPlate (x : Stack) : Stack :=
  { x with
    ce := 0, ue := 0, ueAddr := {}, threshCount := 8, threshWindow := 24, cePage := {}, cePages := [], injAtom := 0, injKind := 0, injArmed := false }

/-- The registers of a Seam port take their reset values in a Plate reset (R9, R394). A test that it interrupts is not done. -/
def SeamPort.resetPlate (x : SeamPort) : SeamPort :=
  { x with
    corr := 0, uncorr := 0, threshCount := 16, threshWindow := 20, laneCorr := [], drop := 0, repairs := 0, frays := 0, downs := 0
    testPhases := 0, testD := 0, testStatus := .ok, testDone := true, testFailed := 0, testFirst := 0, testFirstRx := false, testPhase := 0
    testTx := [], testRx := [], testFn := none }

/-- A Plate reset begins: its plans stop and stay installed; the Lining, the gateways and the stack controller interface are reset;
its ports train; plans elsewhere that hold slots on its ports wait (R397). -/
def Chip.beginPlateReset (s : Chip) (plate : Nat) (fn : Option Fn) (tag : Nat) (recover : Bool) : Chip :=
  let s := s.stopPlate plate .resetInProgress
  let s := if (plateSwatches plate).any fun sw => bit s.boot.testMask sw then s.endSelfTest .resetInProgress else s
  let s := s.updPlate plate fun p => { p with
    reset := true
    resetAt := s.aTick
    fn := fn
    tag := tag
    recover := recover
    off := false
    tripped := false
    fLock := true }
  let s := s.updSwatches (plateSwatches plate) fun w => { w with
    inService := false
    resetting := true
    selfTest := .resetInProgress
    testing := true
    power := 0
    waking := false }
  let s := s.endAccesses fun sw => plateOf sw == plate
  let s := s.updSwatches (plateSwatches plate) fun w => { w with stops := 0 }
  let s := s.updLining plate Lining.resetPlate
  let s := s.updStack plate Stack.resetPlate
  let s := (platePorts plate).foldl (fun (t : Chip) k => ((t.endPortTests .resetInProgress k).holdPort k).trainPort k false) s
  let s := (platePorts plate).foldl (fun (t : Chip) k => t.updSeam k SeamPort.resetPlate) s
  s.regrade

/-- The key ranges of a partition that stand on a plate are copied again from HBM (Table 8.4). -/
def Chip.reloadKeys (s : Chip) (p plate : Nat) : Chip :=
  (s.part p).keyRanges.foldl (fun (t : Chip) r =>
    match t.bufOf r.handle with
    | none => t
    | some b =>
      if r.plate = plate && r.loaded && r.staged.isNone then
        let w := mget {} plate (t.part p).keyWin
        let bytes := memReadN t.mem b.addr (min (144 * r.lines) (576 * b.bolts))
        { t with mem := memWriteN t.mem (liningBase plate + 144 * (w.base + r.offset)) bytes }
      else t) s

/-- A swatch comes back from a Plate reset: it rejoins the partition it was in, or from which the plate's loss took it while that exists
(R358, R359), with what `reloadSwatch` gives it. -/
def Chip.rejoin (s : Chip) (sw : Nat) : Chip :=
  let w := s.swatch sw
  let owner := match w.owner, w.former with
    | some p, _ => some p
    | none, some p => if (s.part p).present then some p else none
    | none, none => none
  let s := s.updSwatch sw fun w => { w with resetting := false, lost := false, former := none, owner := owner }
  match owner with
  | none => s.wipeSwatch sw
  | some p => s.reloadSwatch p sw

/-- Answer the call that waits for a plate's reset. -/
def Chip.answerPlate (s : Chip) (plate : Nat) (st : Status) : Chip :=
  let p := s.plate plate
  let s := s.updPlate plate fun p => { p with fn := none, recover := false }
  match p.fn with
  | some fn => s.respond ⟨fn, p.tag, 0, true, false⟩ (if p.recover then 0x0604 else 0x0902) st 8 []
  | none => s

/-- RESET_COMPLETION of a plate: accepted adds complete, Pads and Lining are zero, the swatches rejoin with their stores and keys; a plate
without a control route goes offline (R311, R397). Partition resets whose steps it took over end with it (R402). -/
def Chip.plateDone (s : Chip) (plate : Nat) : Chip :=
  let p := s.plate plate
  if !p.reset then s
  else
    let s := s.flush fun q => q.run.isNone && q.origin.isNone && stackOf q.addr == plate
    let s := { s with mem := memClear s.mem (liningBase plate) (144 * liningLines) }
    let s := s.updLining plate fun x => { retired := x.retired, ready := true }
    let s := (plateSwatches plate).foldl (fun (t : Chip) sw => t.rejoin sw) s
    let s := s.existing.foldl (fun (t : Chip) q => t.noteArrivals q) s
    let s := s.existing.foldl (fun (t : Chip) q => t.reloadKeys q plate) s
    let s := s.updPlate plate fun p => { p with reset := false, online := p.online || p.recover }
    let s := s.existing.foldl (fun (t : Chip) q =>
      if (t.part q).resetting && !t.takenOver q && (t.swatchesOf q).any fun sw => plateOf sw == plate then t.finishReset q .ok else t) s
    let s := s.raiseDev 0 none (some plate) none 0
    let s := s.reroute
    let s := ((s.reservice plate).capacityChange [] true).regrade
    s.answerPlate plate (if (s.plate plate).online then .ok else .routeFrayed)

/-- PLATE_RESET_TIMEOUT: 50 ms after it began, the plate goes offline (R394). -/
def plateResetTimeout (plate : BitVec 3) (s : Chip) : Chip :=
  let p := plate.toNat
  if !(s.plate p).reset then s
  else
    let s := s.waitTick ((s.plate p).resetAt + 1250000)
    let s := s.updPlate p fun x => { x with reset := false }
    let s := s.updSwatches (plateSwatches p) fun w => { w with resetting := false, testing := false }
    ((s.plateLost p).regrade).answerPlate p .timeout

/-- TC_PLATE_RESET: PF0 only; a plate already in reset answers ST_RESET_IN_PROGRESS (R402). -/
def tcPlateReset (c : Call) (plate : Nat) (s : Chip) : Chip :=
  match s.common c { pf0Only := true } [(decide (8 ≤ plate), .bound)] with
  | some (st, n) => s.respond c 0x0902 st n []
  | none =>
    if (s.plate plate).reset then s.respond c 0x0902 .resetInProgress 8 []
    else s.beginPlateReset plate (some c.fn) c.tag false

/-- TC_PLATE_RECOVER: a Plate reset over any route that trains; ST_BUSY while the plate is at or above its release level or its
rail is not good (R323, R426, R616). -/
def tcPlateRecover (c : Call) (plate : Nat) (s : Chip) : Chip :=
  match s.common c { pf0Only := true } [(decide (8 ≤ plate), .bound)] with
  | some (st, n) => s.respond c 0x0604 st n []
  | none =>
    if (s.plate plate).reset then s.respond c 0x0604 .resetInProgress 8 []
    else if (s.plate plate).hot || (s.plate plate).railLow then s.respond c 0x0604 .busy 8 []
    else s.beginPlateReset plate (some c.fn) c.tag true

/-- PWR_RESET_CTRL with LEVEL 01 and GO: the sequencer starts a Plate reset (R399, R410). -/
def pwrResetPlate (plate : BitVec 3) (s : Chip) : Chip :=
  s.expertWrite fun s =>
    let s := { s with power := { s.power with resetLevel := 1, resetPlate := plate.toNat } }
    if (s.plate plate.toNat).reset then s else s.beginPlateReset plate.toNat none 0 false

end Sys2Proof.Machine
end

