-- ==== Sys2Proof/Machine/Power.lean ====
section
/-! DEFINITION. Power states, heat, the adaptive supplies, trips and the Ledgers (R411 to R441, R616, R619). -/

namespace Sys2Proof.Machine

/-! ### Power states of a swatch (R415 to R419) -/

/-- What R415 asks before a swatch leaves Run: no plan issues or is held there, its engines and threads are idle, nothing of it
is in flight. -/
def Chip.swatchIdle (s : Chip) (sw : Nat) : Bool :=
  !(s.runs.any fun r => r.plan.swatches.contains sw)
    && !(s.swatch sw).waking && !(s.swatch sw).resetting && !(s.swatch sw).testing
    && (s.swatch sw).moves.isEmpty
    && (s.touched sw).all (fun cn => let c := s.cell cn
        c.press.queue.isEmpty && c.stip.queue.isEmpty && c.burin.queue.isEmpty && c.units.isEmpty)
    && (List.range 8).all fun q => (s.panel (8 * sw + q)).hatch.isEmpty && (s.panel (8 * sw + q)).weft.isEmpty

/-- The policy that holds for a swatch: FLOOR (1 Doze, 2 Nap, 3 Rest), NAP_DELAY, REST_DELAY. A swatch without a partition rests at
once (R417); while Θ of its plate is below 64 an idle swatch naps at once unless its FLOOR is Rest (R422). -/
def Chip.policyOf (s : Chip) (sw : Nat) : Nat × Nat × Nat :=
  match (s.swatch sw).owner with
  | none => (3, 0, 0)
  | some p =>
    let x := s.part p
    if (mget {} (plateOf sw) s.plates).theta < 64 && x.floor < 3 then (2, 0, x.restDelay)
    else (x.floor, x.napDelay, x.restDelay)

/-- What Nap loses of a cell: Scriber and engine state (Table 15.2). -/
def Cell.napped (c : Cell) : Cell := { pad := c.pad, looseStore := c.looseStore, seq := c.seq }

/-- Change the cells of a swatch that were touched. -/
def Chip.eachCell (s : Chip) (sw : Nat) (f : Cell → Cell) : Chip :=
  { s with cells := s.cells.map fun (e : Nat × Cell) => if swatchOf e.1 = sw then (e.1, f e.2) else e }

/-- A swatch enters a state: what the state does not keep is gone (Table 15.2). After Rest only what Tailor firmware reloads for installed
plans comes back (R416). -/
def Chip.enterPower (s : Chip) (sw st : Nat) : Chip :=
  let s := if st = 2 then s.eachCell sw Cell.napped
    else if st = 3 then (match (s.swatch sw).owner with | some p => s.reloadSwatch p sw | none => s.wipeSwatch sw)
    else s
  s.updSwatch sw fun w => { w with power := st, idleSince := s.aTick }

/-- A forced swatch stays in Run or Doze whatever its policy (R441). -/
def Chip.mayEnter (s : Chip) (sw st : Nat) : Bool :=
  let f := (s.swatch sw).forced
  s.swatchIdle sw && (f == 0 || (f == 2 && st == 1)) && decide (st ≤ (s.policyOf sw).1)

/-- DOZE_ENTRY (R417). -/
def dozeEntry (swatch : BitVec 6) (s : Chip) : Chip :=
  let sw := swatch.toNat
  if (s.swatch sw).power == 0 && s.mayEnter sw 1 then s.enterPower sw 1 else s

/-- NAP_ENTRY: NAP_DELAY after the swatch entered Doze (R417, R422). -/
def napEntry (swatch : BitVec 6) (s : Chip) : Chip :=
  let sw := swatch.toNat
  if (s.swatch sw).power == 1 && s.mayEnter sw 2 then
    (s.waitTick ((s.swatch sw).idleSince + (s.policyOf sw).2.1)).enterPower sw 2
  else s

/-- REST_ENTRY: REST_DELAY after the swatch entered Nap; a swatch without a partition rests from any state (R417). -/
def restEntry (swatch : BitVec 6) (s : Chip) : Chip :=
  let sw := swatch.toNat
  let w := s.swatch sw
  let from_ := if w.owner.isNone then decide (w.power < 3) else w.power == 2
  if from_ && s.mayEnter sw 3 then
    (s.waitTick (if w.owner.isNone then 0 else w.idleSince + (s.policyOf sw).2.2)).enterPower sw 3
  else s

/-- PLATE_OFF_ENTRY (R418): allowed by PF0, all eight swatches in Rest for the plate's delay, no installed plan with slots on a port of the
plate, no other plate's control VC forwarded through it. -/
def plateOffEntry (plate : BitVec 3) (s : Chip) : Chip :=
  let p := plate.toNat
  let x := s.plate p
  let sws := plateSwatches p
  let slots := s.parts.any fun e => e.2.plans.any fun pl => (platePorts p).any fun k =>
    pl.2.seam.zipIdx.any fun l => decide (0 < pl.2.units 4 l.2) && (pl.2.linkPorts l.1).any fun ks => ks.contains k
  let forwards := (List.range 8).any fun q => q != p && (s.plate q).online && (s.controlRoute q).any fun path => path.contains p
  if x.offAllowed && !x.off && !x.reset && (sws.all fun sw => (s.swatch sw).power == 3 && !(s.swatch sw).waking) && !slots && !forwards then
    let last := (sws.map fun sw => (s.swatch sw).idleSince).foldl max 0
    let s := s.waitTick (last + x.offDelay)
    (s.updPlate p fun y => { y with off := true, fLock := false }).updSwatches sws fun w => { w with power := 4 }
  else s

/-- A plate leaves Plate Off: its PLL relocks and its other swatches are in Rest. -/
def Chip.plateOn (s : Chip) (p : Nat) : Chip :=
  if (s.plate p).off then
    (s.updPlate p fun y => { y with off := false, fLock := true }).updSwatches (plateSwatches p) fun w =>
      { w with power := if w.power = 4 then 3 else w.power, idleSince := s.aTick }
  else s

/-- A swatch comes to a shallower state: from Rest and Plate Off it is scrubbed and reloaded, its DRBGs instantiated anew (R234, R416). -/
def Chip.wakeInto (s : Chip) (sw st : Nat) : Chip :=
  let old := (s.swatch sw).power
  let s := if old = 4 then s.plateOn (plateOf sw) else s
  let s := if 3 ≤ old && (s.swatch sw).owner.isSome then s.seedSwatch sw else s
  s.updSwatch sw fun w => { w with power := st, waking := false, idleSince := s.aTick }

/-- A-ticks of a wake to Run (Table 15.2). -/
def wakeTicks (power : Nat) : Nat :=
  match power with
  | 0 => 0
  | 1 => 1
  | 2 => 30
  | 3 => 200
  | _ => 1000

/-- SWATCH_WAKE_DONE: a waking swatch reaches Run with its reload complete, not before its wake time has passed (Table 15.2, R416, R419).
One held in Doze stays there (R441). -/
def swatchWakeDone (swatch : BitVec 6) (s : Chip) : Chip :=
  let sw := swatch.toNat
  let w := s.swatch sw
  if !w.waking || (w.forced == 2 && w.power == 1) then s
  else (s.waitTick (w.wakeAt + wakeTicks w.power)).wakeInto sw (if w.forced == 2 then 1 else 0)

/-- The access reaches a swatch as a control flit toward one of its panels (R105). -/
def Chip.reachPanel (panel : Nat) (f : Chip → Chip) (s : Chip) : Chip := f (s.sendControl panel 0)

/-- A write of a function to a register of a plate: the LNG, HBM and SEAM blocks. Without the plate's clock there is no response (R390); during a
Plate reset it ends at once (R393, R405). -/
def Chip.reachPlate (fn : Fn) (plate : Nat) (f : Chip → Chip) (s : Chip) : Chip :=
  let p := s.plate plate
  if p.reset then s.xingFail fn .resetInProgress
  else if p.fLock then f s
  else { s with tlr := { s.tlr with accesses := s.tlr.accesses ++ [⟨fn, 8 * plate, s.aTick, false⟩] } }

/-- An access to a panel of a swatch is carried out at once: its plate has its clock and is not in reset, and the swatch is not gated (R390, R392). -/
def Chip.swatchAnswers (s : Chip) (sw : Nat) : Bool :=
  !(s.plate (plateOf sw)).reset && (s.plate (plateOf sw)).fLock && (s.swatch sw).power == 0

/-- An access of a function to a panel of a swatch through a register or debug window. A gated swatch first wakes. In Plate Off the wake only begins, and
without a clock there is no response: the access is in flight until it times out (R390, R392). During a reset of the plate it ends at once
(R393, R405). -/
def Chip.reachSwatch (fn : Fn) (panel : Nat) (read : Bool) (f : Chip → Chip) (s : Chip) : Chip :=
  let sw := panel / 8
  let p := s.plate (plateOf sw)
  let w := s.swatch sw
  if p.reset then (s.noResponse read).xingFail fn .resetInProgress
  else if w.power = 4 || !p.fLock then
    let s := { s with tlr := { s.tlr with accesses := s.tlr.accesses ++ [⟨fn, sw, s.aTick, read⟩] } }
    if w.power = 4 then s.updSwatch sw (Swatch.startWake s.aTick) else s
  else if w.power = 0 then s.reachPanel panel f
  else ((s.waitTick (s.aTick + wakeTicks w.power)).wakeInto sw 0).reachPanel panel f

/-- A debug window of PF0 on a panel of a swatch (R13, R392): `select` is what the write leaves in the DBG block itself, `act` the access. -/
def Chip.debugWindow (panel : Nat) (read : Bool) (select : Dbg → Dbg) (act : Chip → Chip) (s : Chip) : Chip :=
  if s.expertOn then ({ s with dbg := select s.dbg }).reachSwatch .pf0 panel read act else act s

/-- What a write of a debug window's command register selects, whether or not the swatch answers. -/
def Dbg.selectPs (swatch : BitVec 6) (engine : BitVec 2) (d : Dbg) : Dbg := { d with psSwatch := swatch.toNat, psEngine := engine.toNat }
def Dbg.selectEng (swatch : BitVec 6) (engine : DbgEngine) (op : Nat) (d : Dbg) : Dbg :=
  { d with engSwatch := swatch.toNat, engEngine := engine.code, engOp := op }
def Dbg.selectPad (cell : BitVec 15) (row : BitVec 12) (op : Nat) (d : Dbg) : Dbg :=
  { d with padCell := cell.toNat, padRow := row.toNat, padOp := op }

/-- An Expert command of PF0 to a register of a plate. -/
def Chip.platePort (plate : Nat) (act : Chip → Chip) (s : Chip) : Chip :=
  if s.expertOn then s.reachPlate .pf0 plate act else act s

/-- PWR_FORCE with MODE 01: hold a swatch in Run (R441). -/
def pwrForceRun (swatch : BitVec 6) (s : Chip) : Chip :=
  s.expertWrite fun s =>
    { s with power := { s.power with forceSwatch := swatch.toNat, forceMode := 1 } }.updSwatch swatch.toNat fun w =>
      let w := { w with forced := 1 }
      if w.power = 0 then w else w.startWake s.aTick

/-- PWR_FORCE with MODE 10: hold a swatch in Doze (R441). An idle one enters at once, a deeper one wakes. -/
def pwrForceDoze (swatch : BitVec 6) (s : Chip) : Chip :=
  s.expertWrite fun s =>
    let sw := swatch.toNat
    let s := { s with power := { s.power with forceSwatch := sw, forceMode := 2 } }.updSwatch sw fun w => { w with forced := 2 }
    let p := (s.swatch sw).power
    if p = 0 then (if s.swatchIdle sw then s.enterPower sw 1 else s)
    else if p = 1 then s
    else s.updSwatch sw (Swatch.startWake s.aTick)

/-- PWR_FORCE with MODE 00: the policy holds again. -/
def Chip.unforce (s : Chip) (sw : Nat) : Chip :=
  { s with power := { s.power with forceSwatch := sw, forceMode := 0 } }.updSwatch sw fun w => { w with forced := 0 }

/-- DEBUG_PLL_LOCK: a plate's debug PLL locks; installs that wait for no other plate complete (R413). -/
def debugPllLock (plate : BitVec 3) (s : Chip) : Chip :=
  let p := plate.toNat
  if !(s.plate p).dbgWait then s
  else
    let s := s.updPlate p fun x => { x with dbgLock := true, dbgWait := false }
    let left := s.tlr.dbgInstalls.map fun (d : DbgInstall) => { d with plates := sremove p d.plates }
    let s := { s with tlr := { s.tlr with dbgInstalls := left.filter fun d => !d.plates.isEmpty } }
    (left.filter fun d => d.plates.isEmpty).foldl (fun (t : Chip) (d : DbgInstall) =>
      t.respond ⟨d.fn, d.tag, 0, true, d.quiet⟩ 0x0301 .ok 0 [d.slot]) s

/-! ### Ledgers (R427 to R430, Tables 15.4 and 15.11)

Items: 0 bin, 1 plate voltage, 2 plate T_on, 3 stack T_on, 4 sensor offset (plates 16 p + i, Collar 128 to 131, stacks 132 to 139), 5 and 6 Seam
TX and RX presets, 7 to 9 Selvage pre, post and RX, 10 to 12 HBM read delay, write delay, Vref, 13 cell, 14 Seam lane, 15 Selvage lane. A cell is
named by its cell number: no call addresses a spare (R20). -/

/-- The physical cell of a cell number, 66 × panel + cell (log entry 34). -/
def physCell (n : Nat) : Nat := 66 * (n / 64) + n % 64

/-- The indices of an item. -/
def ledgerCount (item : Nat) : Nat :=
  match item with
  | 0 => 1
  | 1 => 8
  | 2 => 1
  | 3 => 1
  | 4 => 140
  | 5 | 6 => 4480
  | 7 | 8 | 9 => 288
  | 10 | 11 | 12 => 512
  | 13 => 32768
  | 14 => 8192
  | 15 => 4096
  | _ => 0

/-- The range of a user offset. -/
def offsetRange (item : Nat) : Int × Int :=
  match item with
  | 0 => (-2, 0)
  | 1 => (-25, 25)
  | 2 | 3 => (-15, 0)
  | 4 => (0, 8)
  | 5 | 6 | 7 | 8 | 9 => (-4, 4)
  | _ => (-8, 8)

/-- The effective range of an item. -/
def effectiveRange (item : Nat) : Int × Int :=
  match item with
  | 0 => (0, 2)
  | 1 => (650, 800)
  | 2 => (85, 100)
  | 3 => (80, 95)
  | 4 => (-128, 135)
  | 5 | 6 => (0, 15)
  | 7 | 8 | 9 => (0, 31)
  | 10 | 11 => (0, 127)
  | _ => (0, 63)

/-- The key of an item's entry. -/
def ledgerKey (item index : Nat) : Nat := 65536 * item + index

/-- What the Factory Ledger holds where the state lists nothing: the T_on of Table 15.3, the bin and voltage that the log names, zero. -/
def factoryDefault (item : Nat) : Int :=
  match item with
  | 0 => 1
  | 1 => 720
  | 2 => 100
  | 3 => 95
  | _ => 0

/-- The factory content of an item. -/
def Ledger.factoryOf (l : Ledger) (item index : Nat) : Int := mget (factoryDefault item) (ledgerKey item index) l.factory

/-- The user offset of an item. -/
def Ledger.userOf (l : Ledger) (item index : Nat) : Int := mget 0 (ledgerKey item index) l.user

/-- The value the hardware applies: clamp(factory + user) (R427). -/
def Ledger.effective (l : Ledger) (item index : Nat) : Int :=
  let r := effectiveRange item
  max r.1 (min r.2 (l.factoryOf item index + l.userOf item index))

/-- Time units of an F-cycle at a bin (R412). -/
def binUnit (bin : Int) : Nat := if bin = 0 then 132 else if bin = 1 then 120 else 110

/-- The bin whose F-cycle lasts the package's units. -/
def Chip.bin (s : Chip) : Nat := if s.fUnit = 132 then 0 else if s.fUnit = 120 then 1 else 2

/-- The Configuration ID of the present defect map, bin and firmware baseline (R590, Table 20.14). -/
def Chip.makeConfigId (s : Chip) : Nat :=
  let cells := (s.ledger.factoryCells ++ s.ledger.userCells).eraseDups.mergeSort fun a b => decide (a ≤ b)
  Config.defectHash cells % 2 ^ 40 + s.bin * 2 ^ 40 + s.boot.fwBaseline % 2 ^ 16 * 2 ^ 48

/-- Take a new Configuration ID: a change is logged with kind 4, and installed Grid plans are to be rebound at their next start (R97,
R518). -/
def Chip.reconfigure (s : Chip) : Chip :=
  let id := s.makeConfigId
  if id = s.configId then s
  else
    let s := { s with configId := id }
    let s := s.remeasure 10
    { s with parts := s.parts.map fun (e : Nat × Partition) =>
      (e.1, { e.2 with plans := e.2.plans.map fun (x : Nat × Plan) =>
        if x.2.exact then x else (x.1, { x.2 with rebind := s.ownBinding x.2 }) }) }

/-- The lifecycle lets the User Ledger be written (Table 15.6). -/
def Chip.ledgerOpen (s : Chip) : Bool := s.life == .provisioned || s.life == .deployed

/-- A physical cell is retired. -/
def Ledger.cellOut (l : Ledger) (c : Nat) : Bool := l.factoryCells.contains c || l.userCells.contains c

/-- The retirement of a cell would leave its panel fewer than 64 working cells (R429). -/
def Chip.lastCells (s : Chip) (c : Nat) : Bool := decide ((s.goodCells (c / 66)).length ≤ 64)

/-- Retire a physical cell. A swatch left with fewer than 64 working cells in a panel leaves service at its next plan boundary. -/
def Chip.retireCell (s : Chip) (c : Nat) : Chip :=
  if s.ledger.cellOut c then s
  else
    let last := s.lastCells c
    let sw := c / 66 / 8
    let s := { s with ledger := { s.ledger with userCells := sinsert c s.ledger.userCells } }
    let s := if last then
        (if s.runs.any fun r => r.plan.swatches.contains sw then s.updSwatch sw fun w => { w with leaving := true }
         else (s.updSwatch sw fun w => { w with leaving := true, inService := false }).regrade)
      else s
    s.reconfigure

/-- Retire a Seam lane, keyed 256 × port + 128 × direction + lane: one in use fails at once (R305, R427). -/
def Chip.retireSeamLane (s : Chip) (k : Nat) : Chip :=
  let key := k / 256
  let tx := k / 128 % 2 = 0
  let lane := k % 128
  let s := s.lanesFail key (if tx then [lane] else []) (if tx then [] else [lane])
  let s := s.setPort key fun p =>
    if tx then { p with retiredTx := sinsert lane p.retiredTx } else { p with retiredRx := sinsert lane p.retiredRx }
  { s with ledger := { s.ledger with lanes := sinsert k s.ledger.lanes } }

/-- Retire a Selvage lane, keyed likewise by link (R338, R427). -/
def Chip.retireSlvLane (s : Chip) (k : Nat) : Chip :=
  let l := k / 256
  let tx := k / 128 % 2 = 0
  let lane := k % 128
  let s := s.linkLanesFail l (if tx then [lane] else []) (if tx then [] else [lane])
  let s := s.updLink l fun p =>
    if tx then { p with retiredTx := sinsert lane p.retiredTx } else { p with retiredRx := sinsert lane p.retiredRx }
  { s with ledger := { s.ledger with lanes := sinsert (65536 + k) s.ledger.lanes } }

/-- What is wrong with one item of a Ledger write (Table 15.6). -/
def Chip.ledgerBad (s : Chip) (x : Nat × Nat × Int) : Option Status :=
  let (item, index, v) := x
  if ledgerCount item ≤ index then some .bound
  else if item < 13 then
    (let r := offsetRange item
     if v < r.1 || r.2 < v then some .bound else none)
  else if v != 1 then some .notSupported
  else if item = 13 then (if !s.ledger.cellOut (physCell index) && s.lastCells (physCell index) then some .overcommit else none)
  else if item = 14 then (if !seamConnected (index / 256) || 70 ≤ index % 128 then some .bound else none)
  else if 9 ≤ index % 128 then some .bound
  else none

/-- Apply one item of a Ledger write; a plate's rail follows its target (Table 15.4). -/
def Chip.ledgerPut (s : Chip) (x : Nat × Nat × Int) : Chip :=
  let (item, index, v) := x
  match item with
  | 13 => s.retireCell (physCell index)
  | 14 => if s.ledger.lanes.contains index then s else s.retireSeamLane index
  | 15 => if s.ledger.lanes.contains (65536 + index) then s else s.retireSlvLane index
  | _ =>
    let s := { s with ledger := { s.ledger with user := mset 0 (ledgerKey item index) v s.ledger.user } }
    if item = 1 then s.updPlate index fun p => { p with railMv := (s.ledger.effective 1 index).toNat } else s

/-- TC_LEDGER_GET: the factory, user and effective values; of a retirement item, whether the factory, the user, either retired it. -/
def tcLedgerGet (c : Call) (item index : Nat) (s : Chip) : Chip :=
  s.call c 0x0A06 {} [(decide (ledgerCount item ≤ index), .bound)] fun s =>
    let l := s.ledger
    let z := fun (v : Int) => (v % 2 ^ 16).toNat
    if item < 13 then succeeds s [z (l.factoryOf item index), z (l.userOf item index), z (l.effective item index)]
    else if item = 13 then
      let k := physCell index
      succeeds s [b2n (l.factoryCells.contains k), b2n (l.userCells.contains k), b2n (l.cellOut k)]
    else
      let u := l.lanes.contains (if item = 14 then index else 65536 + index)
      succeeds s [0, b2n u, b2n u]

/-- TC_LEDGER_SET: user offsets and retirements; one bad item changes nothing (R427, R428, R438). -/
def tcLedgerSet (c : Call) (items : List (Nat × Nat × Int)) (s : Chip) : Chip :=
  s.call c 0x0A07 { pf0Only := true } [] fun s =>
    if !s.ledgerOpen then fails s .lifecycle
    else
      match items.findSome? s.ledgerBad with
      | some st => fails s st
      | none => succeeds (items.foldl (fun (t : Chip) x => t.ledgerPut x) s)

/-- TC_LEDGER_COMMIT: the present registers become the User Ledger image in the board flash (R430). -/
def tcLedgerCommit (c : Call) (s : Chip) : Chip :=
  s.call c 0x0A08 { pf0Only := true } [] fun s =>
    if !s.ledgerOpen then fails s .lifecycle
    else if !s.ledger.flash then fails s .notSupported
    else
      let l := s.ledger
      let v := ((l.image.map fun i => i.2.2.2).getD 0 + 1) % 2 ^ 16
      succeeds { s with ledger := { l with image := some (l.user, l.userCells, l.lanes, v), imageValid := true } }

/-- TC_CELL_RETIRE: local cell c of a panel names its physical cell c (R429). -/
def tcCellRetire (c : Call) (cell : Nat) (force : Bool) (s : Chip) : Chip :=
  s.call c 0x0A09 { pf0Only := true } [(decide (32768 ≤ cell), .bound)] fun s =>
    let k := physCell cell
    if !s.ledgerOpen then fails s .lifecycle
    else if s.ledger.cellOut k then succeeds s
    else if s.lastCells k && !force then fails s .overcommit
    else succeeds (s.retireCell k)

/-- LDG_USER is written: an entry that fails the checks is ignored and counted (R441). Cells are retired by call only: the window holds a
hash of their map. -/
def ldgUserWrite (item : BitVec 4) (index : BitVec 16) (value : Int) (s : Chip) : Chip :=
  s.expertWrite fun s =>
    let x := (item.toNat, index.toNat, value)
    if !s.ledgerOpen || item.toNat == 13 || (s.ledgerBad x).isSome then
      { s with tlr := { s.tlr with lockedWrites := s.tlr.lockedWrites + 1 } }
    else s.ledgerPut x

/-! ### Power calls (Table 15.8) -/

/-- TC_POWER_POLICY: FLOOR 1 Doze, 2 Nap, 3 Rest. Swatches deeper than a shallower FLOOR come to it at once (R417, R432). -/
def tcPowerPolicy (c : Call) (part floor nap rest : Nat) (s : Chip) : Chip :=
  s.call c 0x0A01 { part := some part }
      [(decide (floor = 0 ∨ 3 < floor), .notSupported), (decide (2 ^ 30 < nap ∨ 2 ^ 30 < rest), .bound)] fun s =>
    let old := (s.part part).floor
    let s := s.updPart part fun p => { p with floor := floor, napDelay := nap, restDelay := rest }
    succeeds ((s.swatchesOf part).foldl (fun (t : Chip) sw =>
      if floor < old && decide (floor < (t.swatch sw).power) then t.wakeInto sw floor else t) s)

/-- TC_PLATE_POWER. -/
def tcPlatePower (c : Call) (plate : Nat) (allow : Bool) (delay : Nat) (s : Chip) : Chip :=
  s.call c 0x0A02 { pf0Only := true } [(decide (8 ≤ plate), .bound), (decide (2 ^ 30 < delay), .bound)] fun s =>
    succeeds (s.updPlate plate fun p => { p with offAllowed := allow, offDelay := delay })

/-- PWR_LIMIT takes a value: 0 reads back 1 150 W (R438). -/
def Chip.setLimit (s : Chip) (w : Nat) : Chip := { s with power := { s.power with limit := if w = 0 then 1150 else w } }

/-- TC_POWER_LIMIT: 300 to 1 150 W. -/
def tcPowerLimit (c : Call) (watts : Nat) (s : Chip) : Chip :=
  s.call c 0x0A03 { pf0Only := true } [(decide (watts ≠ 0 ∧ (watts < 300 ∨ 1150 < watts)), .bound)] fun s => succeeds (s.setLimit watts)

/-- TC_POWER_QUERY of a swatch: its state, its policy, the reload bytes B and the wake bound in A-ticks, 444 B to an A-tick (R416). The spec
gives no size for B: it is a free number. Of a plate: Plate Off, allowed, delay, PLL lock, figure. -/
def tcPowerQuery (c : Call) (plate : Bool) (index : Nat) (s : Chip) : Chip :=
  s.call c 0x0A04 {} [(decide (if plate then 8 ≤ index else 64 ≤ index), .bound)] fun s =>
    if plate then
      let p := s.plate index
      succeeds s [b2n p.off, b2n p.offAllowed, p.offDelay, b2n p.fLock, p.theta]
    else
      let w := s.swatch index
      let mine := match c.fn with | .pf0 => true | .vf n => w.owner == some n
      if !mine then fails s .notOwner
      else
        let (k, s) := s.takeFree
        let b := if 3 ≤ w.power then Config.freeNat k else 0
        let pol := s.policyOf index
        succeeds s [w.power, pol.1, pol.2.1, pol.2.2, b, wakeTicks w.power + cdiv b 444]

/-- A temperature as its register shows it: quarter degrees above −40 °C. -/
def tempField (t : Int) : Nat := ((t + 160) % 1024).toNat

/-- TC_THERMAL_QUERY: each plate's temperature, Θ and heat suspensions, each stack's temperature and level, the Collar's temperature. -/
def tcThermalQuery (c : Call) (s : Chip) : Chip :=
  s.call c 0x0A05 {} [] fun s =>
    succeeds s (((List.range 8).flatMap fun p =>
        [tempField (s.plate p).temp, (s.plate p).theta, (s.existing.filter fun q => (s.part q).heatBy.contains p).length])
      ++ ((List.range 8).flatMap fun h => [tempField (mget {} h s.heat).temp, (mget {} h s.heat).level])
      ++ [tempField s.power.collarTemp])

/-! ### Heat (R420 to R425) -/

/-- The hottest of some raw readings, each with its effective offset; the present temperature where there is none. -/
def Ledger.hottest (l : Ledger) (first : Nat) (old : Int) (raw : List Int) : Int :=
  match raw.zipIdx.map fun x => x.1 + l.effective 4 (first + x.2) with
  | [] => old
  | t :: ts => ts.foldl max t

/-- A plate is treated as being at its throttle onset: the adaptive loop's limit, failed AVSBus transactions, or package power (R420, R424,
R619). -/
def Chip.treatedHot (s : Chip) (p : Nat) : Bool :=
  (s.plate p).atLimit || decide (3 ≤ (s.plate p).avsErrors) || decide (s.power.limit < s.power.avg)

/-- One evaluation of a plate (R421). -/
def Chip.evalPlate (s : Chip) (p : Nat) : Chip :=
  let x := s.plate p
  let on := 4 * s.ledger.effective 2 0
  let hot := decide (on ≤ x.temp) || s.treatedHot p
  let cool := decide (x.temp < on - 20) && !s.treatedHot p && decide (100 * s.power.avg < 95 * s.power.limit)
  if hot && decide (0 < x.theta) then s.updPlate p fun y => { y with theta := y.theta - 8 }
  else if hot then s.heatSuspend p
  else if cool && s.existing.any fun q => (s.part q).heatBy.contains p then s.heatRestore p
  else if cool && decide (x.theta < 64) then s.updPlate p fun y => { y with theta := y.theta + 8 }
  else s

/-- The throttle level of a stack at a temperature: it rises at T_on and at T_on + 5 °C and falls below the release level (Table 15.3). -/
def throttleLevel (on t : Int) (level : Nat) : Nat :=
  if on + 20 ≤ t then 2 else if on ≤ t then max 1 level else if t < on - 20 then 0 else level

/-- The capacity a level leaves (R425). -/
def levelCap (level : Nat) : Nat := if level = 0 then 62 else if level = 1 then 46 else 30

/-- A run has a stop or a new pacing figure that waits for its next stitch point (R369). -/
def Chip.awaits (s : Chip) (r : Run) : Bool := r.stop.isSome || r.pace != (s.part r.part).pace

/-- A stack takes a new throttle level: a capacity change; the partitions whose running plans must first pass a stitch point are noted
(R369, R425). -/
def Chip.setLevel (s : Chip) (h level : Nat) : Chip :=
  let old := (mget {} h s.heat).level
  if level = old then s
  else
    let s := { s with heat := mupd {} h (fun (x : StackHeat) => { x with level := level }) s.heat }
    let s := s.updStack h fun x => { x with thermCap := levelCap level }
    let s := s.capacityChange [h] (level < old)
    let who := ((s.runs.filter fun r => s.awaits r).map fun r => r.part).eraseDups
    let new := who.filter fun p => !(s.power.withdrawals.any fun w => w.part == p)
    { s with power := { s.power with withdrawals := s.power.withdrawals ++ new.map fun p => ⟨p, s.aTick⟩ } }

/-- THERMAL_EVALUATION: every 2^14 A-ticks the sensors are read and each plate's figure is evaluated (R421, R424). The raw readings are in
quarter degrees; `watts` is the 1 ms average. -/
def thermalEvaluation (plates : List (List Int)) (hs collar : List Int) (watts : BitVec 11) (s : Chip) : Chip :=
  let s := s.waitTick ((s.aTick / 2 ^ 14 + 1) * 2 ^ 14)
  let l := s.ledger
  let s := (List.range 8).foldl (fun (t : Chip) p =>
    t.updPlate p fun x =>
      let temp := l.hottest (16 * p) x.temp (plates[p]?.getD [])
      { x with temp := temp, hot := decide (4 * l.effective 2 0 - 20 ≤ temp) }) s
  let s := { s with power := { s.power with
    collarTemp := l.hottest 128 s.power.collarTemp collar
    avg := watts.toNat
    overLimit := decide (s.power.limit < watts.toNat) } }
  let s := (List.range 8).foldl (fun (t : Chip) h =>
    let old := mget {} h t.heat
    let temp := l.hottest (132 + h) old.temp ((hs[h]?).toList)
    let t := { t with heat := mput h { old with temp := temp } t.heat }
    t.setLevel h (throttleLevel (4 * l.effective 3 0) temp old.level)) s
  ((List.range 8).foldl (fun (t : Chip) p => t.evalPlate p) s).reshare

/-- WITHDRAWAL_TIMEOUT: 2^18 A-ticks after a withdrawal began, the plans of the partition that still wait stop with ST_OVERCOMMIT (R425). -/
def withdrawalTimeout (part : BitVec 6) (s : Chip) : Chip :=
  let p := part.toNat
  match s.power.withdrawals.find? fun w => w.part == p with
  | none => s
  | some w =>
    let s := s.waitTick (w.since + 2 ^ 18)
    let s := { s with power := { s.power with withdrawals := s.power.withdrawals.filter fun x => x.part != p } }
    ((s.runsOf p).filter fun r => s.awaits r).foldl (fun (t : Chip) r =>
      if (t.run? r.id).isSome then t.stopPlan r .overcommit none 0 else t) s

/-- AVS_LIMIT_TIMEOUT: 1 ms at the upper bound without margin (R420). -/
def avsLimitTimeout (plate : BitVec 3) (s : Chip) : Chip := s.updPlate plate.toNat fun p => { p with atLimit := true }

/-- AVS_MARGIN_RETURN: the loop has margin again, its transactions succeed (R420, R619). -/
def avsMarginReturn (plate : BitVec 3) (s : Chip) : Chip :=
  s.updPlate plate.toNat fun p => { p with atLimit := false, avsErrors := 0 }

/-- AVSBUS_TRANSACTION_ERROR: three in a row treat the plate as at its throttle onset until one succeeds (R619). -/
def avsbusTransactionError (plate : BitVec 3) (s : Chip) : Chip :=
  s.updPlate plate.toNat fun p => { p with avsErrors := min 3 (p.avsErrors + 1) }

/-! ### Trips (R426, R435, R616) -/

/-- A plate stops: its plans stop at once with ST_CLOCK_ABSENT, its ports go DOWN, it is offline; a reset of it ends (R426, R435). -/
def Chip.tripPlate (s : Chip) (p : Nat) : Chip :=
  let s := s.stopPlate p .clockAbsent
  let resetting := (s.plate p).reset
  let s := s.updPlate p fun x => { x with fLock := false, dbgLock := false, reset := false }
  let s := s.updSwatches (plateSwatches p) fun w => { w with resetting := false, testing := false, inService := false }
  let s := (platePorts p).foldl (fun (t : Chip) k =>
    if (t.seam k).state = 11 then t else (t.endPortTests .clockAbsent k).portDown k) s
  let s := if (s.plate p).online then s.plateLost p else s
  let s := s.regrade
  if resetting then s.answerPlate p .clockAbsent else s

/-- PLATE_TEMP_TRIP, with a fatal record of the error log (R426, R619). -/
def plateTempTrip (plate : BitVec 3) (s : Chip) : Chip :=
  let p := plate.toNat
  if (s.plate p).tripped then s
  else
    let s := s.updPlate p fun x => { x with tripped := true, hot := true }
    (s.logRec Status.clockAbsent.code 3 none (some p) none 0).tripPlate p

/-- PLATE_RAIL_UNDERVOLTAGE: as a plate trip; the plate cannot be recovered until the rail is good (R616). -/
def plateRailUndervoltage (plate : BitVec 3) (s : Chip) : Chip :=
  let p := plate.toNat
  if (s.plate p).railLow then s
  else
    let s := s.updPlate p fun x => { x with railLow := true }
    (s.logRec Status.clockAbsent.code 3 none (some p) none 0).tripPlate p

/-- A plan holds slots on a stack. -/
def Plan.usesStack (p : Plan) (h : Nat) : Bool := [1, 2, 3].any fun c => decide (0 < p.stackUnits c h)

/-- STACK_TEMP_TRIP: accepted writes and adds complete, the stack leaves service with its contents, and the plans with slots on it stop at
once (R426). -/
def stackTempTrip (stack : BitVec 3) (s : Chip) : Chip :=
  let h := stack.toNat
  if (mget {} h s.heat).tripped || !(s.stack h).ready then s
  else
    let s := { s with heat := mupd {} h (fun (x : StackHeat) => { x with tripped := true }) s.heat }
    let s := s.logRec Status.clockAbsent.code 3 none (some h) none 0
    let s := (s.runs.filter fun r => r.plan.usesStack h).foldl (fun (t : Chip) r =>
      if (t.run? r.id).isSome then t.stopPlan r .clockAbsent none 0 else t) s
    let s := s.flush fun q => stackOf q.addr == h
    let s := s.updStack h fun x => { x with ready := false }
    ((s.capacityChange [h] false).reservice h).regrade

/-- STACK_TRIP_RELEASE: below its release level the stack returns to service (R426). -/
def stackTripRelease (stack : BitVec 3) (s : Chip) : Chip :=
  let h := stack.toNat
  if !(mget {} h s.heat).tripped then s
  else
    let s := { s with heat := mupd {} h (fun (x : StackHeat) => { x with tripped := false }) s.heat }
    let s := s.updStack h fun x => { x with ready := true }
    ((s.reservice h).capacityChange [h] true).regrade

/-- COLLAR_TEMP_TRIP: THERMTRIP_N is asserted and every clock of the package stops, until a Cold reset (R426). -/
def collarTempTrip (s : Chip) : Chip :=
  let s := s.logRec Status.clockAbsent.code 3 none none none 0
  { s with power := { s.power with thermtrip := true }, boot := { s.boot with dead := true } }

/-- PLATE_PLL_UNLOCK: a main PLL that loses lock triggers a Plate reset (R414). -/
def platePllUnlock (plate : BitVec 3) (s : Chip) : Chip :=
  let p := plate.toNat
  if (s.plate p).reset || (s.plate p).off then s else s.beginPlateReset p none 0 false

end Sys2Proof.Machine
end

