-- ==== Sys2Proof/Machine/Krp.lean ====
section
/-! DEFINITION. The Kremal Request Protocol: frames and their checks, session set-up, transfers, retransmission, Handoff, limits
(R475 to R502). -/

namespace Sys2Proof.Machine

/-! ### Frames (R477, R478) -/

/-- The id of a message, for its NACK. -/
def KrpMsg.id : KrpMsg → Nat
  | .keys i _ _ | .submit i _ _ | .chunk i _ _ _ _ | .handoffIn i _ _ _ | .missing i _ _ _ | .resend i => i
  | _ => 0

/-- A frame of client data. -/
def KrpMsg.isData : KrpMsg → Bool
  | .chunk _ _ _ _ _ => true
  | _ => false

/-- Count something on the Ethernet port of a carrier. -/
def Chip.onPort (s : Chip) (c : Carrier) (f : KrpPort → KrpPort) : Chip :=
  match c with
  | .net p _ _ => s.updKrpPort p f
  | .host _ _ _ => s

/-- Frames reach the device over a carrier: the port's link is up and its receive is not looped; a host queue always. -/
def Chip.carrierUp (s : Chip) : Carrier → Bool
  | .net p _ _ => decide (p < 2) && (mget {} p s.krp.ports).link && !(s.krp.loopOn && s.krp.loopPort == p)
  | .host _ _ _ => true

/-- GAP_TICKS of a carrier: its port's, or the default of a port on a host queue. -/
def Chip.gapTicks (s : Chip) : Carrier → Nat
  | .net p _ _ => (mget {} p s.krp.ports).gap
  | .host _ _ _ => 2500

/-- Two frames are on the same binding: the same Ethernet port, source address and UDP port, or a host queue of the same function (R476). -/
def Carrier.same : Carrier → Carrier → Bool
  | .net p a u, .net q b v => p == q && a == b && u == v
  | .host p pf0 _, .host q pf1 _ => pf0 == pf1 && (pf0 || p == q)
  | _, _ => false

/-- The test of R502 drops this data frame: the Nth of the session in the slot it names. -/
def Chip.testDrops (s : Chip) (x : KrpSession) : Bool :=
  decide (2 ≤ s.krp.dropN) && x.slot == s.krp.dropSession && (x.nth + 1) % s.krp.dropN == 0

/-- Count an Ethernet drop. -/
def Chip.dropSession (s : Chip) (c : Carrier) : Chip := s.onPort c fun p => { p with session := (p.session + 1) % 2 ^ 12 }

/-- A frame has arrived on a carrier. -/
def Chip.countFrame (s : Chip) (f : KrpFrame) : Chip := s.onPort f.carrier fun p => { p with rx := p.rx + 1 }

/-- A data frame of the session that the drop test names is counted for it (R502). -/
def Chip.countData (s : Chip) (data : Bool) (x : KrpSession) : Chip :=
  if data && x.slot == s.krp.dropSession then s.updSession x.id fun y => { y with nth := y.nth + 1 } else s

/-- A frame is taken: its packet number is recorded (R478). -/
def Chip.recordFrame (s : Chip) (f : KrpFrame) (x : KrpSession) : Chip :=
  let high := max x.pnIn f.pn
  s.updSession x.id fun y => { y with
    pnIn := high, seen := (f.pn :: y.seen).filter fun n => decide (high ≤ n + 1024), framesIn := y.framesIn + 1, lastFrame := s.aTick }

/-- Take a frame in: the drops of R478 and R502 in order, then the packet number is recorded and a handler runs. `half` asks for a
session that awaits stage 3. -/
def Chip.takeFrame (s : Chip) (f : KrpFrame) (data half : Bool) (handle : Chip → KrpSession → Chip) : Chip :=
  if !s.carrierUp f.carrier then s
  else
    let s := s.countFrame f
    match s.session? f.session with
    | none => s.dropSession f.carrier
    | some x =>
      let drop := data && s.testDrops x
      let s := s.countData data x
      if drop then s.onPort f.carrier fun p => { p with test := (p.test + 1) % 2 ^ 4 }
      else if !x.carrier.same f.carrier || x.half != half || !x.stage2 || 2 ^ 36 ≤ x.framesIn then s.dropSession f.carrier
      else if !f.tagOk then s.onPort f.carrier fun p => { p with auth := (p.auth + 1) % 2 ^ 16 }
      else if x.seen.contains f.pn || f.pn + 1024 < x.pnIn then
        s.onPort f.carrier fun p => { p with replay := (p.replay + 1) % 2 ^ 12 }
      else handle (s.recordFrame f x) x

/-- NACK FRAME (R487). -/
def Chip.nackFrame (s : Chip) (session id : Nat) (st : Status) : Chip := s.nack session id st 3 0 0 []

/-- NACK PROTOCOL (R487). -/
def Chip.nackProtocol (s : Chip) (session id : Nat) : Chip := s.nack session id .notSupported 4 0 0 []

/-- NACK REFUSED (R487, R488). -/
def Chip.nackRefused (s : Chip) (session id : Nat) (st : Status) (retry : Nat) : Chip := s.nack session id st 1 0 retry []

/-- NACK FAILED (R487). -/
def Chip.nackFailed (s : Chip) (session id : Nat) (st : Status) (index : Nat) : Chip := s.nack session id st 5 index 0 []

/-! ### Session set-up (R479 to R481) -/

/-- A NACK to a carrier that has no session. -/
def Chip.nackOpen (s : Chip) (c : Carrier) (st : Status) (reason retry : Nat) : Chip :=
  { s with krp := { s.krp with replies := s.krp.replies ++ [(⟨0x0A, 0, st, reason, 0, 0, retry, []⟩ : KrpSent)] } }.frameOut c 64

/-- Session set-up is refused with ST_BUSY and RETRY_AFTER 100 000 µs, and again until then (R488, R492). -/
def Chip.openBusy (s : Chip) (c : Carrier) : Chip :=
  { s with krp := { s.krp with holdoff := (c, s.aTick + 2500000) :: s.krp.holdoff.filter fun h => h.1 != c } }.nackOpen c .busy 1 100000

/-- The bytes of a text. -/
def ascii (t : String) : List Byte := t.toList.map fun c => BitVec.ofNat 8 c.toNat

/-- Remove a session. -/
def Chip.dropKrpSession (s : Chip) (id : Nat) : Chip :=
  { s with krp := { s.krp with
      sessions := s.krp.sessions.filter fun x => x.id != id
      pieces := s.krp.pieces.filter fun p => p.session != id || id == 0 } }

/-- The boot chain has completed: OPEN is accepted (R497). -/
def Chip.booted (s : Chip) : Bool := s.boot.phase = 0 || 5 ≤ s.boot.phase

/-- The lowest session slot in no use. -/
def Chip.freeSlot (s : Chip) : Nat :=
  let used := s.krp.sessions.map (·.slot)
  ((List.range (used.length + 1)).find? fun k => !used.contains k).getD used.length

/-- A SIG_KIND's algorithms work. -/
def Chip.canSign (s : Chip) (kind : Nat) : Bool := (kind == 3 || s.algorithm 2) && (kind == 2 || s.algorithm 4)

/-- The Seal DRBG serves one generate request, which the user takes as a number of 512 bits: none when it is not instantiated, or when it has
reached its reseed limit and the TRNG is failed (R509, R510). -/
def Chip.sealDraw (s : Chip) : Option (Nat × Chip) :=
  let d := s.trust.drbg
  let spent := d.spent 4096
  if !d.ready || (spent && s.trust.trng == 0) then none
  else
    let fresh := DrbgKey.instantiate s.seeds
    some (leNat ((List.range 64).map (d.byte fresh)),
      { s with
        seeds := if spent then s.seeds + 1 else s.seeds
        trust := { s.trust with drbg := d.draw 4096 fresh } })

/-- GLB_BASELINE: Behaviour Baseline 1 (R10). -/
def behaviourBaseline : Nat := 1

/-- The keys of a session from its shared secrets and its transcript hash (step 3 of R479). -/
def krpKeys (secret th2 : List Byte) : KrpKeys :=
  let prk := hkdfExtract (ascii "KRP1 hybrid") secret
  { c2dKey := hkdfExpand prk (ascii "c2d key" ++ th2) 32
    d2cKey := hkdfExpand prk (ascii "d2c key" ++ th2) 32
    c2dIv := hkdfExpand prk (ascii "c2d iv" ++ th2) 12
    d2cIv := hkdfExpand prk (ascii "d2c iv" ++ th2) 12 }

/-- Take stage 1 (R479, R492, R499, R510): the session waits for the Seal, which draws the ephemeral keys and signs stage 2. A device without
identity keys refuses with ST_LIFECYCLE (log 77, DESIGN CHOICE). -/
def Chip.takeStage1 (s : Chip) (c : Carrier) (body : List Byte) : Chip :=
  let log := leAt body 1 1
  let kind := leAt body 2 1
  if body.length != 1256 then s.nackOpen c .badShape 3 0
  else if leAt body 0 1 != 1 || kind = 0 || 3 < kind || !zeroAt body 3 5 then s.nackOpen c .notSupported 3 0
  else if log < 10 then s.nackOpen c .badShape 3 0
  else
    match s.krp.holdoff.find? fun h => h.1 == c && decide (s.aTick < h.2) with
    | some h => s.nackOpen c .busy 1 ((h.2 - s.aTick) / 25)
    | none =>
      if 8192 ≤ (s.krp.sessions.filter fun x => !x.half).length || 512 ≤ (s.krp.sessions.filter fun x => x.half).length then
        s.openBusy c
      else if !s.trust.identity then s.nackOpen c .lifecycle 1 0
      else if !(s.algorithm 8 && s.algorithm 9 && s.algorithm 11 && s.canSign kind) then s.nackOpen c .notSupported 1 0
      else
        match s.sealDraw with
        | none => s.nackOpen c .timeout 1 0
        | some (k, s) =>
          let id := s.krp.nextSession
          let (secret, reply) := Config.kexReply k body
          let log := min log 13
          let stage2 := natLE 1 2 ++ natLE 1 kind ++ natLE 1 log ++ natLE 5 0 ++ natLE 8 id ++ reply.take 1152 ++ natLE 8 s.configId
            ++ natLE 2 behaviourBaseline ++ natLE 6 0
          let th := sha384 (ascii "KRP1 open" ++ body ++ stage2)
          let x : KrpSession := {
            id := id, slot := s.freeSlot, carrier := c, chunkLog2 := log, sigKind := kind, transcript := BitVec.ofNat 384 (leNat th)
            keys := krpKeys secret th, openedAt := s.aTick, lastFrame := s.aTick }
          let (n, t) := s.signLength kind
          let t := { t with krp := { t.krp with sessions := t.krp.sessions ++ [x], nextSession := id + 1 } }
          let (t, ok) := t.sealSubmit (.openStage2 id) true (n + 48000 + 9600)
          if ok then t else (t.dropKrpSession id).openBusy c

/-- A piece's number and length fit a frame of at most 1 200 bytes with its header and, from stage 3 on, its tag (R477, R479). -/
def pieceFits (session piece count : Nat) (body : List Byte) : Bool :=
  decide (0 < count ∧ count ≤ 8 ∧ piece < count) && decide (body.length ≤ if session = 0 then 1176 else 1160)

/-- Keep a piece of an OPEN stage; the whole stage when this was the last one missing (R479). -/
def Chip.gather (s : Chip) (c : Carrier) (session piece count : Nat) (body : List Byte) : Chip × Option (List Byte) :=
  let mine := fun (p : OpenPieces) => p.carrier.same c && p.session == session
  let new : OpenPieces := { carrier := c, session := session, count := count, since := s.aTick }
  let old := (s.krp.pieces.find? mine).getD new
  let old := if decide (old.since + 2 ^ 25 < s.aTick) || old.count != count then new else old
  let x := { old with pieces := mput piece body old.pieces }
  let rest := s.krp.pieces.filter fun p => !mine p
  if x.pieces.length = count then
    ({ s with krp := { s.krp with pieces := rest } }, some (x.pieces.flatMap fun p => p.2))
  else ({ s with krp := { s.krp with pieces := rest ++ [x] } }, none)

/-- A piece of an OPEN stage arrives: the stage is taken when all its pieces have (R479). -/
def Chip.takePiece (s : Chip) (c : Carrier) (session piece count : Nat) (body : List Byte)
    (bad : Chip → Chip) (take : Chip → List Byte → Chip) : Chip :=
  if !pieceFits session piece count body then bad s
  else
    match s.gather c session piece count body with
    | (t, some b) => take t b
    | (t, none) => t

/-- OPEN_STAGE1: one frame of stage 1. It has no tag and no session (R477, R479). -/
def Chip.openStage1 (s : Chip) (f : KrpFrame) (piece count : Nat) (body : List Byte) : Chip :=
  if !s.carrierUp f.carrier || !s.booted then s
  else
    let s := s.countFrame f
    if !f.reservedZero || f.session != 0 then s.nackOpen f.carrier .notSupported 3 0
    else
      s.takePiece f.carrier 0 piece count body (fun t => t.nackOpen f.carrier .notSupported 3 0)
        fun t b => t.takeStage1 f.carrier b

/-- The Seal has made stage 2: it is sent, and the ephemeral keys are erased (R479, R481). -/
def Chip.stage2Done (s : Chip) (id : Nat) : Chip :=
  match s.session? id with
  | none => s
  | some x =>
    let s := s.updSession id fun y => { y with stage2 := true, sent := y.sent ++ [⟨0x01, id, .ok, 0, 2, 0, 0, []⟩] }
    let bytes := 1184 + (if x.sigKind = 3 then 0 else 4627) + (if x.sigKind = 2 then 0 else 96)
    (List.range (cdiv bytes 1176)).foldl (fun (t : Chip) k => t.frameOut x.carrier (24 + min 1176 (bytes - 1176 * k))) s

/-- Take stage 3 (R480): the entry of the client list and its algorithm at once, the signature by the Seal. Every failure ends the session. -/
def Chip.takeStage3 (s : Chip) (x : KrpSession) (body : List Byte) : Chip :=
  let fails_ := fun (st : Status) => (s.nackFrame x.id x.id st).dropKrpSession x.id
  let alg := leAt body 1 1
  let keyId := leNat (bytesAt body 8 48)
  if body.length < 56 then fails_ .badShape
  else if leAt body 0 1 != 3 || leAt body 3 1 != 0 || 2 ≤ leAt body 2 1 then fails_ .notSupported
  else
    match s.krp.clients.find? fun c => c.keyId == keyId && c.alg == alg with
    | none => fails_ .signature
    | some _ =>
      if !s.algorithm alg then fails_ .notSupported
      else
        let th3 := sha384 (natLE 48 x.transcript.toNat ++ ascii "client")
        let ok := Config.sigVerify alg (bytesAt body 8 48) th3 (body.drop 56)
        let t := s.updSession x.id fun y => { y with
          stage3 := true, verified := ok, client := keyId, alg := alg, ownerEndpoint := bit (leAt body 2 1) 0, rxRate := leAt body 4 4 }
        let (t, room) := t.sealSubmit (.openStage3 x.id) true (verifyCycles alg 0)
        if room then t else (s.nackRefused x.id x.id .busy 100000).dropKrpSession x.id

/-- OPEN_STAGE3: one frame of stage 3, under the client-to-device keys. -/
def Chip.openStage3 (s : Chip) (f : KrpFrame) (piece count : Nat) (body : List Byte) : Chip :=
  if (s.session? f.session).any fun x => !x.half then s.takeFrame f false false fun s x => s.nackProtocol x.id 0
  else
    s.takeFrame f false true fun s x =>
      if x.stage3 then s
      else if !f.reservedZero then (s.nackFrame x.id x.id .notSupported).dropKrpSession x.id
      else
        s.takePiece f.carrier x.id piece count body (fun t => (t.nackFrame x.id x.id .notSupported).dropKrpSession x.id)
          fun t b => t.takeStage3 x b

/-- A host queue of VF n + 1 serves only partition n (R476). -/
def Carrier.serves : Carrier → Nat → Bool
  | .host p pf0 _, part => pf0 || p == part
  | .net _ _ _, _ => true

/-- The Seal has checked stage 3: the session opens with the client entry's partition, owner tag and limits, or closes (R479, R480,
R492). -/
def Chip.stage3Done (s : Chip) (id : Nat) : Chip :=
  match s.session? id with
  | none => s
  | some x =>
    match s.krp.clients.find? fun c => c.keyId == x.client && c.alg == x.alg with
    | none => (s.nackFrame id id .signature).dropKrpSession id
    | some c =>
      if !x.verified then (s.nackFrame id id .signature).dropKrpSession id
      else if !x.carrier.serves c.part then (s.nackRefused id id .notOwner 0).dropKrpSession id
      else if c.sessions ≤ (s.krp.sessions.filter fun y => !y.half && y.client == c.keyId).length then
        (s.nackRefused id id .busy 100000).dropKrpSession id
      else
        let s := s.updSession id fun y => { y with
          half := false, part := c.part, owner := c.owner, maxOpen := c.maxOpen, window := c.window, idle := c.idle
          lastFrame := s.aTick, openedAt := s.aTick }
        s.krpSend id ⟨0x01, id, .ok, 0, 4, 0, 0, []⟩ (24 + 20 + 16)

/-! ### Announcements (R482, R483, R493) -/

/-- Chunks of a transfer. -/
def KrpSession.chunks (x : KrpSession) (bytes : Nat) : Nat := cdiv bytes (2 ^ x.chunkLog2)

/-- The size of a chunk. -/
def KrpSession.chunkSize (x : KrpSession) (bytes seq : Nat) : Nat :=
  let z := 2 ^ x.chunkLog2
  if (seq + 1) * z ≤ bytes then z else bytes - seq * z

/-- What an announcement said before under the same type and id: nothing, the same, or something else (R493). -/
def KrpSession.repeats (x : KrpSession) (type id : Nat) (bytes : List Byte) : Option Bool :=
  (x.announced.find? fun a => a.1 == type && a.2.1 == id).map fun a => a.2.2 == bytes

/-- Remember an announcement. -/
def Chip.announce (s : Chip) (session type id : Nat) (bytes : List Byte) : Chip :=
  s.updSession session fun x => { x with announced := x.announced ++ [(type, id, bytes)] }

/-- Start an upload. -/
def Chip.addTransfer (s : Chip) (session : Nat) (t : Transfer) : Chip :=
  s.updSession session fun x => { x with transfers := x.transfers ++ [{ t with since := s.aTick }] }

/-- KEYS (R482, R493, R499). -/
def Chip.krpKeys (s : Chip) (x : KrpSession) (id bytes : Nat) (header : List Byte) : Chip :=
  let said := natLE 8 id ++ natLE 8 bytes ++ header
  match x.repeats 2 id said with
  | some true =>
    match x.sent.find? fun m => m.type == 2 && m.id == id with
    | some m => s.krpSend x.id m (24 + 16 + 16)
    | none => s
  | some false => s.nackProtocol x.id id
  | none =>
    if bytes = 0 then s.nackRefused x.id id .badShape 0
    else if !s.serving || (s.part x.part).resetting then s.nackRefused x.id id .resetInProgress 0
    else
      match s.allocBuf x.part 0 255 (cdiv bytes 576) false with
      | .error st => s.nackRefused x.id id st 0
      | .ok (h, s) =>
        (s.announce x.id 2 id said).addTransfer x.id { id := id, kind := .key, bytes := bytes, header := header, handle := h }

/-- The checks of an announced header in place of its container (R483): steps 5 to 12 of Table 3.8 on a container of the announced
bytes. -/
def Chip.announcedFail (s : Chip) (part owner bytes : Nat) (header : List Byte) : Option (Status × Nat) :=
  let h := Header.ofBytes header
  let t := (s.part part).master
  let first : List (Bool × Status × Nat × Nat) := [
    (bytes < 576, .bound, 3, 0), (h.magic != kctMagic, .badShape, 5, 0), (h.hcrc != headerCrc h.raw, .badShape, 5, 60)]
  (firstFail (first ++ h.checks67 ++ h.checks89 t ++ h.checks1012 t bytes (some owner))).map fun x => (x.1, x.2.1)

/-- The binding of a KRP request to a plan: every IO input has an announced input that matches it (R453, R455, R483). -/
def krpBind (part owner : Nat) (inputs : List (Nat × List Byte)) (s : Chip) (pl : Plan) : Chip × Option (Status × Nat) :=
  let ins := pl.io.filter fun e => e.dir == 0
  if ins.length != inputs.length then (s, some (.badShape, 0))
  else if pl.io.any fun e => e.dir == 3 then (s, some (.notSupported, 0))
  else
    (s, (ins.zip inputs).findSome? fun x =>
      match s.announcedFail part owner x.2.1 x.2.2 with
      | some f => some f
      | none => if x.1.suits (Header.ofBytes x.2.2) then none else some (.badShape, 0))

/-- Allocate the buffers of a KRP request on a plan: one per IO entry, an input's at least as large as announced. -/
def krpMake (part : Nat) : List IoEntry → List Nat → Chip → Option (Chip × List Nat)
  | [], _, s => some (s, [])
  | e :: rest, sizes, s =>
    let size := if e.dir = 0 then (sizes.head?).getD 0 else 0
    match s.allocBuf part 0 255 (max e.bolts (cdiv size 576)) false with
    | .error _ => none
    | .ok (h, s) =>
      (krpMake part rest (if e.dir = 0 then sizes.drop 1 else sizes) s).map fun x => (x.1, h :: x.2)

/-- Admission of a SUBMIT (R483): the device owns every buffer of the request. -/
def krpAdmission (x : KrpSession) (id service : Nat) (inputs : List (Nat × List Byte)) : Admission :=
  { part := x.part, target := .service service, source := .krp x.id id, owner := x.owner, inputsReady := inputs.isEmpty
    bind_ := krpBind x.part x.owner inputs
    make := fun s pl => (krpMake x.part pl.io (inputs.map fun i => i.1) s).map fun r => (r.1, r.2, r.2) }

/-- Refuse a SUBMIT, and again until RETRY_AFTER has passed (R488). -/
def Chip.refuseSubmit (s : Chip) (x : KrpSession) (id : Nat) (st : Status) (retry : Nat) : Chip :=
  let s := if retry = 0 then s
    else s.updSession x.id fun y => { y with
      refusals := (id, s.aTick + 25 * retry, st) :: y.refusals.filter fun r => r.1 != id }
  s.nackRefused x.id id st retry

/-- SUBMIT (R483, R488, R492, R493, R499). -/
def Chip.krpSubmit (s : Chip) (x : KrpSession) (id service : Nat) (inputs : List (Nat × List Byte)) : Chip :=
  let said := natLE 8 id ++ natLE 1 service ++ inputs.flatMap fun i => natLE 8 i.1 ++ i.2
  match x.repeats 3 id said with
  | some true => s.krpSend x.id { type := 3, id := id, status := .ok } (24 + 16 + 16)
  | some false => s.nackProtocol x.id id
  | none =>
    match x.refusals.find? fun r => r.1 == id && decide (s.aTick < r.2.1) with
    | some r => s.nackRefused x.id id r.2.2 (cdiv (r.2.1 - s.aTick) 25)
    | none =>
      if !s.serving || (s.part x.part).resetting then s.refuseSubmit x id .resetInProgress 0
      else if 16 < inputs.length || inputs.any fun i => i.1 = 0 then s.nackRefused x.id id .badShape 0
      else if x.maxOpen ≤ (s.requests.filter fun q => match q.source with | .krp y _ => y == x.id | _ => false).length then
        let first := ((mfind service (s.part x.part).services).bind fun v => v.slots.head?).bind fun c => mfind c (s.part x.part).plans
        s.refuseSubmit x id .busy (s.retryAfter x.part first)
      else
        match s.admitRequest (krpAdmission x id service inputs) with
        | (s, .error r) =>
          s.refuseSubmit x id r.st (if r.st = .busy then r.retry else if r.st = .overcommit && r.step = 3 then 1000000 else 0)
        | (s, .ok rid) =>
          let handles := match s.requests.find? fun q => q.id == rid with
            | some q => (((s.planOf q).map (·.io)).getD [] |>.zip q.handles).filterMap fun e => if e.1.dir = 0 then some e.2 else none
            | none => []
          let s := (inputs.zip handles).zipIdx.foldl (fun (t : Chip) (e : ((Nat × List Byte) × Nat) × Nat) =>
            t.addTransfer x.id {
              id := id, kind := .input e.2, bytes := e.1.1.1, header := e.1.1.2, handle := e.1.2 }) (s.announce x.id 3 id said)
          s.krpSend x.id { type := 3, id := id, status := .ok } (24 + 16 + 16)

/-! ### Completed transfers (R482, R490) -/

/-- Remove a transfer. -/
def Chip.dropTransfer (s : Chip) (session : Nat) (t : Transfer) : Chip :=
  s.updSession session fun x => { x with transfers := x.transfers.filter fun y => !(y.id == t.id && y.kind == t.kind) }

/-- Table 3.8 on a complete upload, and the comparison with what was announced. -/
def Chip.uploadFail (s : Chip) (x : KrpSession) (t : Transfer) : Chip × Option Status :=
  match s.checkContainer x.part t.handle 0 (some x.owner) with
  | (s, some (st, _, _)) => (s, some st)
  | (s, none) =>
    match s.bufOf t.handle with
    | none => (s, some .staleHandle)
    | some b => (s, if memReadN s.mem b.addr 128 == t.header then none else some .badShape)

/-- A key upload is complete: it is registered, or its buffer is released; KEYS answers. -/
def Chip.keyLanded (s : Chip) (x : KrpSession) (t : Transfer) : Chip :=
  let (s, fail) := s.uploadFail x t
  let h := Header.ofBytes t.header
  let keys := (s.part x.part).keys
  let answer := fun (s : Chip) (st : Status) =>
    s.krpSend x.id { type := 2, id := t.id, status := st, seq := h.keyId } (24 + 16 + 16)
  match fail with
  | some st => answer (s.releaseBuf t.handle) st
  | none =>
    if !h.isKey then answer (s.releaseBuf t.handle) .badShape
    else if (mfind h.keyId keys).isNone && 4096 ≤ keys.length then answer (s.releaseBuf t.handle) .overcommit
    else
      match s.registerKey x.part h.keyId t.handle with
      | some u => answer u .ok
      | none => answer (s.releaseBuf t.handle) .overcommit

/-- The open request of a session with a REQUEST_ID. -/
def Chip.krpRequest (s : Chip) (session id : Nat) : Option Request :=
  s.requests.find? fun q => q.source == .krp session id && q.outcome.isNone

/-- An input has landed: the request's inputs are complete when every one has passed. -/
def Chip.inputLanded (s : Chip) (x : KrpSession) (t : Transfer) (index : Nat) : Chip :=
  let (s, fail) := s.uploadFail x t
  match s.krpRequest x.id t.id with
  | none => s
  | some q =>
    match fail with
    | some st => (s.nackFailed x.id t.id st index).completeRequest q.id st
    | none =>
      let more := (s.session? x.id).any fun y => y.transfers.any fun u => u.id == t.id &&
        match u.kind with | .input _ => true | _ => false
      if more then s
      else { s with requests := s.requests.map fun (r : Request) => if r.id == q.id then { r with inputsReady := true } else r }

/-- The request whose round waits on a session under a REQUEST_ID. -/
def Chip.roundOf (s : Chip) (session id : Nat) : Option Request :=
  s.requests.find? fun q => q.phase == .handoff && q.dest == some session && q.outer == id && q.outcome.isNone

/-- The handles of the next stage: the envelope and the mask store at the entries of its stage, the request's own buffer of the same IO
index elsewhere where it is large enough, a new one otherwise. Answers the handles and the new ones. -/
def Chip.stageHandles (s : Chip) (q : Request) (env mask : Nat) (st : Stage) :
    List (IoEntry × Nat) → Option (Chip × List Nat × List Nat)
  | [] => some (s, [], [])
  | (e, i) :: rest =>
    let old := (q.first[i]?).bind fun h => (s.bufOf h).bind fun b => if e.bolts ≤ b.bolts then some h else none
    let pick : Option (Chip × Nat × List Nat) :=
      if i = st.envIn then some (s, env, [])
      else if i = st.mask then some (s, mask, [])
      else
        match old with
        | some h => some (s, h, [])
        | none =>
          match s.allocBuf q.part 0 255 e.bolts false with
          | .ok (h, t) => some (t, h, [h])
          | .error _ => none
    match pick with
    | none => none
    | some (t, h, new) =>
      match t.stageHandles q env mask st rest with
      | none => none
      | some (u, hs, news) => some (u, h :: hs, new ++ news)

/-- The checks of a returned envelope: R482, then its own fields and the envelope-input IO entry of the next stage (R490). -/
def Chip.envelopeFail (s : Chip) (x : KrpSession) (q : Request) (t : Transfer) (e : Option IoEntry) : Chip × Option Status :=
  let (s, fail) := s.uploadFail x t
  let h := Header.ofBytes t.header
  match fail, e with
  | some st, _ => (s, some st)
  | none, none => (s, some .staleHandle)
  | none, some e =>
    (s, if h.type != 7 || h.request != q.outer || h.round != q.round || h.direction != 1 || !e.suits h then some .badShape else none)

/-- A returned envelope has landed: the round succeeds and the next stage is queued, or the transfer ends (R490, R494). -/
def Chip.envelopeLanded (s : Chip) (x : KrpSession) (t : Transfer) : Chip :=
  match s.roundOf x.id t.id with
  | none => s.releaseBuf t.handle
  | some q =>
    if q.timer.any fun d => d ≤ s.aTick then s.failRound q.id
    else
      let next := ((s.policyFor q).stages[q.round + 1]?).getD ⟨0, 0, 0, 0⟩
      let pl := mfind next.slot (s.part q.part).plans
      let (s, fail) := s.envelopeFail x q t (pl.bind fun p => p.io[next.envIn]?)
      match fail, pl with
      | none, some p =>
        let s := s.updCnt q.part fun c => { c with handoffDone := c.handoffDone + 1 }
        match s.stageHandles q t.handle (q.mask.getD 0) next p.io.zipIdx with
        | none => (s.dropHandles q.id (q.env.toList ++ q.mask.toList ++ [t.handle])).completeRequest q.id .overcommit
        | some (s, hs, news) =>
          let s := { s with
            krp := { s.krp with sessions := s.krp.sessions.map fun (y : KrpSession) =>
              { y with downloads := y.downloads.filter fun d => !(d.handoff && (d.request == q.id)) } }
            requests := s.requests.map fun (r : Request) => if r.id == q.id then { r with
                phase := .queued, slot := next.slot, handles := hs, round := r.round + 1, timer := none, dest := none, env := none
                own := r.own ++ [t.handle] ++ news } else r }
          s.wake p.swatches
      | some st, _ => (s.releaseBuf t.handle).nackFailed x.id t.id st 0
      | none, none => (s.releaseBuf t.handle).nackFailed x.id t.id .staleHandle 0

/-- Every chunk of a transfer has landed. -/
def Chip.transferLanded (s : Chip) (x : KrpSession) (t : Transfer) : Chip :=
  let s := s.dropTransfer x.id t
  match t.kind with
  | .key => s.keyLanded x t
  | .input i => s.inputLanded x t i
  | .handoff => s.envelopeLanded x t

/-- A transfer fails: NACK FAILED; a key's or envelope's buffer is released, an input's request completes with the status. -/
def Chip.transferFails (s : Chip) (x : KrpSession) (t : Transfer) (st : Status) : Chip :=
  let s := s.dropTransfer x.id t
  match t.kind with
  | .input i =>
    let s := s.nackFailed x.id t.id st i
    match s.krpRequest x.id t.id with
    | some q => s.completeRequest q.id st
    | none => s
  | _ => (s.releaseBuf t.handle).nackFailed x.id t.id st 0

/-! ### Chunks and gaps (R482, R484, R486) -/

/-- The lowest SEQ below n that a list lacks, or n. -/
def lowestMissing (got : List Nat) (n : Nat) : Nat := ((List.range n).find? fun k => !got.contains k).getD n

/-- The missing ranges below n, at most 64, from the lowest. -/
def missingRanges (got : List Nat) (n : Nat) : List (Nat × Nat) :=
  let step := fun (acc : List (Nat × Nat)) (k : Nat) =>
    if got.contains k then acc
    else
      match acc with
      | (a, c) :: rest => if a + c = k then (a, c + 1) :: rest else (k, 1) :: acc
      | [] => [(k, 1)]
  ((List.range n).foldl step []).reverse.take 64

/-- A transfer's state after a chunk landed. -/
def Transfer.landed (now n seq : Nat) (t : Transfer) : Transfer :=
  let low := lowestMissing t.got n
  let got := seq :: t.got
  let low' := lowestMissing got n
  let gap := got.any fun k => decide (low' < k)
  { t with
    got := got, since := now, nacks := 0
    gapSince := if !gap then none else if low' = low then some (t.gapSince.getD now) else some now
    nackAt := if low' = low then t.nackAt else none }

/-- The kind of a CHUNK's transfer. -/
def chunkKind (kind index : Nat) : Option TransferKind :=
  match kind with
  | 0 => some (.input index)
  | 1 => if index = 0 then some .key else none
  | 2 => if index = 0 then some .handoff else none
  | _ => none

/-- CHUNK (R482, R486, R494, R499). -/
def Chip.krpChunk (s : Chip) (x : KrpSession) (id kind index seq : Nat) (data : List Byte) : Chip :=
  match chunkKind kind index with
  | none => s.nackFrame x.id id .notSupported
  | some k =>
    match x.transfers.find? fun t => t.id == id && t.kind == k with
    | none =>
      if k == .handoff || x.announced.any fun a => a.2.1 == id then s else s.nackProtocol x.id id
    | some t =>
      let n := x.chunks t.bytes
      if data.isEmpty || n ≤ seq || data.length != x.chunkSize t.bytes seq then s.nackFrame x.id id .badShape
      else if t.reported + x.window ≤ seq then s.onPort x.carrier fun p => { p with window := (p.window + 1) % 2 ^ 12 }
      else if t.got.contains seq then s
      else
        match s.bufOf t.handle with
        | none => s
        | some b =>
          let a := b.addr + seq * 2 ^ x.chunkLog2
          let s := { s with mem := memWriteN s.mem a data }.markAtoms (stackOf a) (a % 0x1000000000) data.length []
          let again := t.asked.any fun r => decide (r.1 ≤ seq) && decide (seq < r.1 + r.2)
          let s := if again then s.updCnt x.part fun c => { c with krpRetx := c.krpRetx + 1 } else s
          let u := t.landed s.aTick n seq
          if u.got.length = n then s.transferLanded x u
          else s.updSession x.id fun y => { y with
            transfers := y.transfers.map fun z => if z.id == t.id && z.kind == t.kind then u else z }

/-- The A-tick at which a transfer's next gap report is due (R484). -/
def Transfer.due (gap : Nat) (t : Transfer) : Nat :=
  match t.nackAt, t.gapSince with
  | some k, _ => k + gap
  | none, some g => min (g + gap) (t.since + gap)
  | none, none => t.since + gap

/-- KRP_GAP_TIMER: a gap of GAP_TICKS is reported; after the eighth report with no chunk the transfer fails (R484). -/
def krpGapTimer (session id kind index : Nat) (s : Chip) : Chip :=
  match s.session? session, chunkKind kind index with
  | some x, some k =>
    match x.transfers.find? fun t => t.id == id && t.kind == k with
    | none => s
    | some t =>
      let s := s.waitTick (t.due (s.gapTicks x.carrier))
      if 8 ≤ t.nacks then s.transferFails x t .timeout
      else
        let n := x.chunks t.bytes
        let ranges := missingRanges t.got n
        let s := s.updSession session fun y => { y with
          transfers := y.transfers.map fun z => if z.id == t.id && z.kind == t.kind then { z with
            nacks := z.nacks + 1, nackAt := some s.aTick, reported := lowestMissing t.got n, asked := ranges } else z }
        s.krpSend session ⟨0x0A, id, .ok, 2, index, kind, 0, ranges⟩ (24 + 24 + 8 * ranges.length + 16)
  | _, _ => s

/-! ### Handoff and downloads (R485, R490, R494) -/

/-- HANDOFF-IN: announced for a round that waits on this session. -/
def Chip.krpHandoffIn (s : Chip) (x : KrpSession) (id round bytes : Nat) (header : List Byte) : Chip :=
  match s.roundOf x.id id with
  | none => s.nackRefused x.id id .staleHandle 0
  | some q =>
    if q.round != round || q.timer.any fun d => d ≤ s.aTick then s.nackRefused x.id id .staleHandle 0
    else if bytes = 0 then s.nackRefused x.id id .badShape 0
    else
      match x.transfers.find? fun t => t.id == id && t.kind == .handoff with
      | some t => if t.bytes == bytes && t.header == header then s else s.nackProtocol x.id id
      | none =>
        match s.allocBuf q.part 0 255 (cdiv bytes 576) false with
        | .error st => s.nackRefused x.id id st 0
        | .ok (h, s) => s.addTransfer x.id { id := id, kind := .handoff, bytes := bytes, header := header, handle := h }

/-- Chunks of a download. -/
def Download.chunks (d : Download) (x : KrpSession) : Nat := x.chunks d.bytes

/-- The next chunk of a download: one asked for again, else the next in order. -/
def Download.nextSeq (d : Download) (x : KrpSession) : Option (Nat × Bool) :=
  match d.again with
  | k :: _ => some (k, true)
  | [] => if d.next < d.chunks x then some (d.next, false) else none

/-- A chunk has been sent. -/
def Download.sent (d : Download) (again : Bool) : Download :=
  if again then { d with again := d.again.drop 1 } else { d with next := d.next + 1 }

/-- The time that n bytes take at a session's RX_RATE in MB/s, 0 for the 400 Gb/s of the line: base units (R485). -/
def KrpSession.pace (x : KrpSession) (n : Nat) : Nat := cdiv (n * 25 * 10560) (if x.rxRate = 0 then 50000 else x.rxRate)

/-- RESULT_CHUNK_SEND: the next RESULT or HANDOFF-OUT chunk of a session leaves at its pace. The round timer starts with the last chunk of
an envelope; the RECEIPT follows the last RESULT chunk (R464, R485, R490). -/
def resultChunkSend (session : Nat) (s : Chip) : Chip :=
  match s.session? session with
  | none => s
  | some x =>
    match x.downloads.findSome? fun d => (d.nextSeq x).map fun k => (d, k) with
    | none => s
    | some (d, seq, again) =>
      let s := if s.time < x.sendAt then s.advance (x.sendAt - s.time) else s
      let n := x.chunkSize d.bytes seq
      let s := s.krpSend session { type := if d.handoff then 7 else 5, id := d.requestId, status := .ok, index := d.index, seq := seq }
        (24 + 32 + n + 16)
      let s := if again then s.updCnt x.part fun c => { c with krpRetx := c.krpRetx + 1 } else s
      let e := d.sent again
      let done := (e.nextSeq x).isNone
      let s := s.updSession session fun y => { y with
        sendAt := s.time + y.pace n
        downloads := if done && !d.handoff then y.downloads.erase d else y.downloads.map fun z => if z == d then e else z }
      if d.handoff then
        if !again && e.next = e.chunks x then
          { s with requests := s.requests.map fun (q : Request) =>
              if q.id == d.request && q.timer.isNone then { q with timer := some (s.aTick + (s.policyFor q).timeout) } else q }
        else s
      else if done then s.tryReceipt d.request
      else s

/-- The listed chunks of a download, in order. -/
def listed (ranges : List (Nat × Nat)) (n : Nat) : List Nat :=
  (ranges.flatMap fun r => (List.range (min r.2 (n - r.1))).map fun k => r.1 + k)

/-- NACK MISSING from a client: the listed chunks are sent again while the request is held or the round lasts (R485, R499). -/
def Chip.krpMissing (s : Chip) (x : KrpSession) (id stream index : Nat) (ranges : List (Nat × Nat)) : Chip :=
  if stream < 3 || 4 < stream then s.nackProtocol x.id id
  else if 64 < ranges.length then s.nackFrame x.id id .notSupported
  else
    let mine := fun (d : Download) => d.requestId == id && d.index == index && d.handoff == (stream == 4)
    match x.downloads.find? mine with
    | some d =>
      s.updSession x.id fun y => { y with
        downloads := y.downloads.map fun z => if mine z then { z with again := z.again ++ listed ranges (d.chunks x) } else z }
    | none =>
      let held := (s.part x.part).receipts.find? fun e => e.2.request == id && e.2.session == some x.id
      match held.bind fun e => (e.2.outs[index]?).map fun o => (e.1, o) with
      | some (req, o) =>
        if stream = 4 then s.nackRefused x.id id .staleHandle 0
        else
          let n := x.chunks o.2
          if (listed ranges n).isEmpty then s
          else s.updSession x.id fun y => { y with
            downloads := y.downloads ++ [{
              requestId := id, request := req, handoff := false, index := index, handle := o.1, bytes := o.2, next := n
              again := listed ranges n }] }
      | none => s.nackRefused x.id id .staleHandle 0

/-- NACK RESEND from a client: the RECEIPT of a completed, held request is sent again (R485). -/
def Chip.krpResend (s : Chip) (x : KrpSession) (id : Nat) : Chip :=
  match (s.part x.part).receipts.find? fun e => e.2.request == id && e.2.session == some x.id && e.2.ready with
  | some e =>
    if s.requests.any fun q => q.id == e.1 then s.nackRefused x.id id .staleHandle 0
    else s.receiptOut x.part e.1 x.id id e.2.status
  | none => s.nackRefused x.id id .staleHandle 0

/-! ### Closing (R481, R492, R495, R496) -/

/-- Close a session: CLOSE is sent with a reason unless the client sent it; incomplete transfers are abandoned with the requests that
wait for them, and rounds that wait on the session fail. -/
def Chip.closeSession (s : Chip) (id : Nat) (reason : Option Nat) : Chip :=
  match s.session? id with
  | none => s
  | some x =>
    let s := match reason with
      | some r => s.krpSend id ⟨0x09, id, .ok, r, 0, 0, 0, []⟩ (24 + 8 + 16)
      | none => s
    let s := s.updSession id fun y => { y with half := true }
    let rounds := (s.requests.filter fun q => q.phase == .handoff && q.dest == some id).map (·.id)
    let s := rounds.foldl (fun (t : Chip) r => t.failRound r) s
    let unfinished := (s.requests.filter fun q => !q.inputsReady && match q.source with | .krp y _ => y == id | _ => false)
    let s := unfinished.foldl (fun (t : Chip) q =>
      let t := q.own.foldl (fun (u : Chip) h => u.releaseBuf h) t
      let t := if q.receiptKind = 0 then t else t.releaseBuf q.receiptBuf
      t.dropRequest q.id) s
    let s := (x.transfers.filter fun t => t.kind == .key).foldl (fun (t : Chip) u => t.releaseBuf u.handle) s
    let s := { s with requests := s.requests.filter fun q =>
      !(q.outcome.isSome && match q.source with | .krp y _ => y == id | _ => false) }
    s.dropKrpSession id

/-- Open requests of a session. -/
def Chip.openOn (s : Chip) (id : Nat) : List Request :=
  s.requests.filter fun q => match q.source with | .krp y _ => y == id | _ => false

/-- HALF_OPEN_EXPIRY (R492). -/
def halfOpenExpiry (session : Nat) (s : Chip) : Chip :=
  match s.session? session with
  | some x => if x.half then (s.waitTick (x.openedAt + 2 ^ 25)).dropKrpSession session else s
  | none => s

/-- OPEN_PIECE_TIMEOUT: the pieces of a stage that did not all arrive in 2^25 A-ticks are discarded (R479). -/
def openPieceTimeout (c : Carrier) (session : Nat) (s : Chip) : Chip :=
  let mine := fun (p : OpenPieces) => p.carrier.same c && p.session == session
  match s.krp.pieces.find? mine with
  | none => s
  | some p =>
    let s := s.waitTick (p.since + 2 ^ 25)
    { s with krp := { s.krp with pieces := s.krp.pieces.filter fun p => !mine p } }

/-- SESSION_IDLE_TIMEOUT: no frame and no open request for the idle timeout (R492, R495). -/
def sessionIdleTimeout (session : Nat) (s : Chip) : Chip :=
  match s.session? session with
  | some x =>
    if x.half || !(s.openOn session).isEmpty then s
    else (s.waitTick (x.lastFrame + x.idle * 65536)).closeSession session (some 1)
  | none => s

/-- KRP_SESSION_REKEY: at the 2^36th frame of a direction the device closes the session with reason REKEY (R481). -/
def krpSessionRekey (session : Nat) (s : Chip) : Chip :=
  match s.session? session with
  | some x => if x.framesIn < 2 ^ 36 && x.framesOut < 2 ^ 36 then s else s.closeSession session (some 2)
  | none => s

/-- HANDOFF_TIMEOUT of a request, named by the device's own number (R491). -/
def handoffTimeout (request : Nat) (s : Chip) : Chip :=
  match (s.requests.find? fun q => q.id == request && q.phase == .handoff).bind fun q => q.timer with
  | some t => (s.waitTick t).failRound request
  | none => s

/-! ### Messages -/

/-- The effect of a message on an open session. -/
def Chip.krpBody (s : Chip) (x : KrpSession) : KrpMsg → Chip
  | .keys id bytes header => s.krpKeys x id bytes header
  | .submit id service inputs => s.krpSubmit x id service inputs
  | .chunk id kind index seq data => s.krpChunk x id kind index seq data
  | .handoffIn id round bytes header => s.krpHandoffIn x id round bytes header
  | .close => s.closeSession x.id none
  | .missing id stream index ranges => s.krpMissing x id stream index ranges
  | .resend id => s.krpResend x id
  | .open1 _ _ _ | .open3 _ _ _ => s.nackProtocol x.id 0
  | .other _ => s.nackProtocol x.id 0

/-- A message arrives (R478): OPEN stages by their own rules, every other on an open session. -/
def krpReceive (f : KrpFrame) (m : KrpMsg) (s : Chip) : Chip :=
  match m with
  | .open1 piece count body => s.openStage1 f piece count body
  | .open3 piece count body => s.openStage3 f piece count body
  | _ =>
    s.takeFrame f m.isData false fun s x =>
      if !f.reservedZero then s.nackFrame x.id m.id .notSupported else s.krpBody x m

/-! ### Ethernet and calls (R475, R500, R501) -/

/-- NET_HOUSEKEEPING_FRAME: NDP, ARP and ICMP echo are answered by a configured port; an IP fragment is dropped and counted. -/
def netHousekeepingFrame (port : BitVec 1) (kind : HouseFrame) (s : Chip) : Chip :=
  let p := mget {} port.toNat s.krp.ports
  if !s.carrierUp (.net port.toNat 0 0) then s
  else if kind = .fragment then s.updKrpPort port.toNat fun x => { x with frag := (x.frag + 1) % 2 ^ 8 }
  else if p.configured then s.updKrpPort port.toNat fun x => { x with answers := x.answers + 1 }
  else s

/-- ETHERNET_LINK_CHANGE. -/
def ethernetLinkChange (port : BitVec 1) (up : Bool) (s : Chip) : Chip := s.updKrpPort port.toNat fun x => { x with link := up }

/-- TC_KRP_PORT_SET. -/
def tcKrpPortSet (c : Call) (port addr4 addr6 udp vlan gap : Nat) (persist : Bool) (s : Chip) : Chip :=
  s.call c 0x0C01 { pf0Only := true }
      [(decide (1 < port), .bound), (decide (2 ^ 32 ≤ addr4), .bound), (decide (2 ^ 128 ≤ addr6), .bound), (decide (65536 ≤ udp), .bound),
       (decide (4096 ≤ vlan), .bound), (decide (2 ^ 32 ≤ gap), .bound)] fun s =>
    let set := fun (x : KrpPort) => { x with configured := true, addr4 := addr4, addr6 := addr6, udp := udp, vlan := vlan, gap := gap }
    let s := s.updKrpPort port set
    succeeds (if persist then { s with krp := { s.krp with flashPorts := mput port (set {}) s.krp.flashPorts } } else s)

/-- TC_KRP_CLIENT_SET: adds or replaces a client entry; 4 096 entries (R492). -/
def tcKrpClientSet (c : Call) (k : KrpClient) (s : Chip) : Chip :=
  s.call c 0x0C02 { pf0Only := true, part := some k.part }
      [(decide (2 ^ 384 ≤ k.keyId), .bound), (decide (k.alg = 0 ∨ 4 < k.alg), .notSupported), (decide (2 ^ 32 ≤ k.owner), .bound),
       (decide (k.maxOpen = 0 ∨ 16384 < k.maxOpen), .bound), (decide (k.sessions = 0 ∨ 8192 < k.sessions), .bound),
       (decide (k.window = 0 ∨ 65536 ≤ k.window), .bound), (decide (2 ^ 32 ≤ k.idle), .bound)] fun s =>
    let rest := fun (l : List KrpClient) => l.filter fun x => x.keyId != k.keyId
    if 4096 ≤ (rest s.krp.clients).length then fails s .overcommit
    else succeeds { s with krp := { s.krp with
      clients := rest s.krp.clients ++ [k]
      flashClients := if k.persist then rest s.krp.flashClients ++ [k] else s.krp.flashClients } }

/-- TC_KRP_CLIENT_REMOVE: the client's sessions close with reason 3 (R496). -/
def tcKrpClientRemove (c : Call) (keyId : Nat) (s : Chip) : Chip :=
  s.call c 0x0C03 { pf0Only := true } [] fun s =>
    if !(s.krp.clients.any fun x => x.keyId == keyId) then fails s .staleHandle
    else
      let rest := fun (l : List KrpClient) => l.filter fun x => x.keyId != keyId
      let s := { s with krp := { s.krp with clients := rest s.krp.clients, flashClients := rest s.krp.flashClients } }
      let mine := (s.krp.sessions.filter fun x => x.client == keyId && !x.half).map (·.id)
      succeeds (mine.foldl (fun (t : Chip) i => t.closeSession i (some 3)) s)

/-- A carrier as numbers. -/
def Carrier.nums : Carrier → List Nat
  | .net p a u => [0, p, a, u]
  | .host p pf0 r => [1, p, b2n pf0, r]

/-- TC_KRP_SESSION_QUERY: for each session its id, binding, open requests and counters. -/
def tcKrpSessionQuery (c : Call) (part : Nat) (s : Chip) : Chip :=
  s.call c 0x0C04 { part := some part } [] fun s =>
    succeeds s ((s.krp.sessions.filter fun x => !x.half && x.part == part).flatMap fun x =>
      x.id :: x.carrier.nums ++ [(s.openOn x.id).length, x.framesIn, x.framesOut])

/-- TC_KRP_SESSION_CLOSE: CLOSE with reason 0; a VF only for its own partition (R501). -/
def tcKrpSessionClose (c : Call) (session : Nat) (s : Chip) : Chip :=
  s.call c 0x0C05 {} [] fun s =>
    match s.session? session with
    | none => fails s .staleHandle
    | some x =>
      if x.half then fails s .staleHandle
      else if !c.fn.owns x.part then fails s .notOwner
      else succeeds (s.closeSession session (some 0))

end Sys2Proof.Machine
end

