-- ==== Sys2Proof/Machine/SealUnit.lean ====
section
/-! DEFINITION. The Seal: its jobs and yields, attestation, the plan log, the lifecycle, the policy, randomness, SPDM (R503 to R538). -/

namespace Sys2Proof.Machine

/-! ### Calls that a token authorises (R523) -/

/-- A policy key is enrolled and not revoked. -/
def Seal.enrolled (x : Seal) : Bool := x.policyKeys.any fun k => !k.2.revoked

/-- LDG_POLICY after a change. -/
def Chip.newPolicy (s : Chip) : PolicyOp → Nat
  | .policy v lock => v % 16 + 2 ^ 31 * b2n (lock || s.trust.locked)
  | .returned => 0xFFFFFFFF
  | _ => s.policyValue

/-- The lists and keys after a change. -/
def Seal.changed (x : Seal) : PolicyOp → Seal
  | .policy _ _ | .returned => x
  | .key slot (some k) => { x with policyKeys := mput slot ⟨sha384Num k, false⟩ x.policyKeys }
  | .key slot none => { x with policyKeys := mupd ⟨0, false⟩ slot (fun y => { y with revoked := true }) x.policyKeys }
  | .signer false slot alg key mask enable => { x with signers := mput slot ⟨alg, key, mask, enable⟩ x.signers }
  | .signer true slot alg key mask enable => { x with keySigners := mput slot ⟨alg, key, mask, enable⟩ x.keySigners }

/-- The message that a token signs (R523). -/
def Chip.tokenMessage (s : Chip) (op : PolicyOp) : List Byte :=
  ascii "KPO1 sign" ++ natLE 8 s.configId ++ natLE 4 (s.trust.policySeq + 1) ++ natLE 4 (s.newPolicy op)
    ++ natLE 48 (Config.measure 9 (s.trust.changed op).lists).toNat

/-- The supplied keys that occupy unrevoked policy slots, as signers of one algorithm. -/
def Chip.tokenKeys (s : Chip) (t : Token) (alg : Nat) : SMap Signer :=
  (t.keys.filter fun k => (mfind k.1 s.trust.policyKeys).any fun p => !p.revoked && p.hash == sha384Num k.2).map fun k =>
    (k.1, ⟨alg, k.2, 0, true⟩)

/-- A token authorises a change: every entry of its block verifies under a policy key. -/
def Chip.tokenFail (s : Chip) (op : PolicyOp) (t : Token) : Option Status :=
  match signatureBlock t.block with
  | none => some .signature
  | some es =>
    if es.any fun e => !s.checkable e.1 e.2.2.length then some .notSupported
    else if es.all fun e => blockVerifies (s.tokenKeys t e.1) (fun _ => true) (s.tokenMessage op) [e] then none
    else some .signature

/-- What refuses a change besides its token (R523, R527, R535, Table 18.8). -/
def Chip.changeFail (s : Chip) (op : PolicyOp) : Option Status :=
  let x := s.trust
  if !(s.life == .provisioned || s.life == .deployed) then some .lifecycle
  else if op == .returned then none
  else if x.locked then some .lifecycle
  else if 4096 ≤ x.policySeq then some .overcommit
  else
    match op with
    | .policy v _ =>
      if 16 ≤ v then some .notSupported
      else if bit v 1 && !(x.signers.any fun e => e.2.enabled) then some .badShape
      else none
    | .key slot (some k) =>
      if 4 ≤ slot || (mfind slot x.policyKeys).isSome then some .overcommit else if k.isEmpty then some .badShape else none
    | .key slot none => if 4 ≤ slot then some .overcommit else none
    | .signer kind slot alg key _ _ =>
      if (if kind then 64 else 16) ≤ slot then some .overcommit
      else if alg = 0 || 7 < alg then some .notSupported
      else if key.isEmpty then some .badShape
      else none
    | .returned => none

/-! ### Entry into Returned (R522, R531) -/

/-- A Seal job uses the identity private keys or keys of a session. -/
def SealUse.secret : SealUse → Bool
  | .receipt _ _ | .openStage2 _ | .openStage3 _ | .peer _ | .spdm _ | .attest _ _ | .identity _ => true
  | _ => false

/-- The Seal drops the jobs whose keys are erased, also the one that runs (R18, R522, R531). -/
def Seal.dropSecret (time : Nat) (x : Seal) : Seal :=
  Seal.next time { x with
    running := x.running.filter fun j => !j.use.secret
    high := x.high.filter fun j => !j.use.secret
    low := x.low.filter fun j => !j.use.secret }

/-- Answer the calls whose Seal jobs an erasure drops. -/
def Chip.dropSecretCalls (s : Chip) : Chip :=
  (s.trust.running.toList ++ s.trust.low).foldl (fun (t : Chip) j =>
    match j.use with
    | .attest c _ => t.respond c 0x0D02 .lifecycle 8 []
    | .identity c => t.respond c 0x0D04 .lifecycle 8 []
    | _ => t) s

/-- Steps 3 to 8 of the erasure; boot completes them for a device that reads Returned-pending. A link without its keys carries nothing: it
goes DOWN (Table 12.4). -/
def Chip.eraseRest (s : Chip) : Chip :=
  let s := s.dropSecretCalls
  let s := { s with
    krp := { s.krp with sessions := [], pieces := [] }
    parts := s.parts.map fun (e : Nat × Partition) => (e.1, { e.2 with receipts := e.2.receipts.filter fun r => r.2.ready })
    panels := s.panels.map fun (e : Nat × Panel) => (e.1, { e.2 with drbg := {} })
    seams := s.seams.map fun (e : Nat × SeamPort) => (e.1, { e.2 with retiredTx := [], retiredRx := [] })
    trust := { s.trust.dropSecret s.time with
      drbg := {}
      identity := false
      identityNo := 0
      hukKilled := true
      policyImage := false
      spdm := { s.trust.spdm with session := none, finished := false } }
    ledger := { s.ledger with
      user := [], userCells := [], lanes := [], userApplied := false, image := none, imageValid := false } }
  let s := (s.links.filter fun e => e.2.state == 5 || e.2.auth).foldl (fun (t : Chip) e => t.linkDown e.1 18) s
  let s := { s with links := s.links.map fun (e : Nat × SlvLink) => (e.1, { e.2 with retiredTx := [], retiredRx := [], peerKey := 0 }) }
  let s := s.reconfigure
  let s := { s with life := .returned, trust := { s.trust with pending := false } }
  (s.remeasure 8).logRec 0 3 none none none 0

/-- Entry into Returned: Returned-pending, steps 1 to 3 of R395 for every partition, the rest. -/
def Chip.erase (s : Chip) : Chip :=
  let s := { s with trust := { s.trust with pending := true } }
  let ps := (s.parts.filter fun e => e.2.present).map (·.1)
  let s := ps.foldl (fun (t : Chip) p => ((t.abandon p).dropPackets p).flush fun q => q.part == p) s
  s.eraseRest

/-! ### Changes -/

/-- A plan-signer slot that takes another key no longer accepts the plans that the key it held accepted (R529). -/
def Chip.forgetSigner (s : Chip) : PolicyOp → Chip
  | .signer false slot alg key _ _ =>
    if (mfind slot s.trust.signers).any fun x => x.alg == alg && x.key == key then s
    else { s with parts := s.parts.map fun (e : Nat × Partition) =>
      (e.1, { e.2 with plans := e.2.plans.map fun (p : Nat × Plan) => (p.1, { p.2 with signers := p.2.signers.filter (· != slot) }) }) }
  | _ => s

/-- Make a policy change: POLICY_SEQ and its counter rise, the image is rewritten, the measurement follows (R517, R523). -/
def Chip.applyChange (s : Chip) (op : PolicyOp) : Chip :=
  match op with
  | .returned => s.erase
  | _ =>
    let s := s.forgetSigner op
    let v := s.newPolicy op
    let x := s.trust.changed op
    let s := { s with
      expert := bit v 0
      planSigning := bit v 1
      trust := { x with
        dualSig := bit v 2, keySigning := bit v 3, restricted := false, locked := bit v 31, policyImage := true
        policySeq := x.policySeq + 1 } }
    s.remeasure (match op with | .policy _ _ => 8 | _ => 9)

/-- A call that changes the policy: at once in Provisioned, after the Seal has checked its token in Deployed and for entry into
Returned once a policy key is enrolled (R521, R523, R537). -/
def Chip.policyCall (s : Chip) (c : Call) (code : Nat) (op : PolicyOp) (t : Token) : Chip :=
  match s.common c { pf0Only := true } [] with
  | some (st, n) => s.respond c code st n []
  | none =>
    match s.changeFail op with
    | some st => s.respond c code st 8 []
    | none =>
      let needs := if op == .returned then s.trust.enrolled else s.life == .deployed
      if !needs then (s.applyChange op).respond c code .ok 0 []
      else
        let (s, room) := s.sealSubmit (.token c code op t) false (blockCycles ((signatureBlock t.block).getD []))
        if room then s else s.respond c code .busy 8 []

/-- TC_POLICY_SET. -/
def tcPolicySet (c : Call) (value : Nat) (lock : Bool) (t : Token) (s : Chip) : Chip := s.policyCall c 0x0D05 (.policy value lock) t

/-- TC_POLICY_KEY_SET: fuses a key's hash into an empty slot, or revokes a slot. -/
def tcPolicyKeySet (c : Call) (slot : Nat) (key : Option (List Byte)) (t : Token) (s : Chip) : Chip :=
  s.policyCall c 0x0D06 (.key slot key) t

/-- TC_SIGNER_SET: a plan signer with its partition mask, or a key signer with its OWNER. -/
def tcSignerSet (c : Call) (keyKind : Bool) (slot alg : Nat) (key : List Byte) (mask : Nat) (enable : Bool) (t : Token) (s : Chip) : Chip :=
  s.policyCall c 0x0D07 (.signer keyKind slot alg key mask enable) t

/-- The identity key pairs are generated, unless the TRNG has failed: they are stored, the certificates written, Provisioned fused, and the
public keys returned (R512, R521, R533). -/
def Chip.makeIdentity (s : Chip) (c : Call) : Chip :=
  if s.life != .manufacturing then s.respond c 0x0D04 .lifecycle 8 []
  else
    match if s.trust.trng = 0 then none else s.sealDraw with
    | none => s.respond c 0x0D04 .timeout 8 []
    | some (k, s) =>
      let s := { s with
        life := .provisioned
        trust := { s.trust with
          identity := true, identityNo := k
          spdm := { s.trust.spdm with certs := mput 0 (Config.identityCert k) s.trust.spdm.certs } } }
      (s.remeasure 8).respond c 0x0D04 .ok 8 ((Config.identityKeys k).map (·.toNat))

/-- TC_LIFECYCLE_SET (R512, R521, R531, R533). Entry into Provisioned waits for the LOW job that generates the identity keys (R504). -/
def tcLifecycleSet (c : Call) (target : Nat) (t : Token) (s : Chip) : Chip :=
  let answer := fun (s : Chip) (st : Status) (r : List Nat) => s.respond c 0x0D04 st 8 r
  match s.common c { pf0Only := true } [(decide (3 < target), .bound)] with
  | some (st, n) => s.respond c 0x0D04 st n []
  | none =>
    match s.life, target with
    | .manufacturing, 1 =>
      if !s.ledger.factoryOk || s.trust.hukKilled then answer s .lifecycle []
      else if s.trust.trng = 0 then answer s .timeout []
      else if !s.canSign 1 then answer s .notSupported []
      else
        let (t, room) := s.sealSubmit (.identity c) false 96000
        if room then t else answer s .busy []
    | .provisioned, 2 =>
      if s.trust.enrolled then answer ({ s with life := .deployed }.remeasure 8) .ok [] else answer s .lifecycle []
    | .manufacturing, 3 => answer s.erase .ok []
    | .provisioned, 3 | .deployed, 3 => s.policyCall c 0x0D04 .returned t
    | _, _ => answer s .lifecycle []

/-- TC_SVN_COMMIT: each counter rises to the SVN of the image that runs (R514). -/
def tcSvnCommit (c : Call) (s : Chip) : Chip :=
  s.call c 0x0D08 { pf0Only := true } [] fun s =>
    let new := s.trust.imageSvn.foldl (fun (m : SMap Nat) e => mput e.1 (max e.2 (mget 0 e.1 m)) m) s.trust.svn
    if new = s.trust.svn then succeeds s
    else succeeds ({ s with trust := { s.trust with svn := new } }.remeasure 8)

/-! ### Queries (R518, R519, R532) -/

/-- The algorithms that are enabled, as a mask of their codes (R536). -/
def Chip.enabledMask (s : Chip) : Nat := (((List.range 16).filter fun n => decide (0 < n ∧ n < 14) && s.algorithm n).map fun n => 2 ^ n).sum

/-- TC_SEAL_QUERY: queue depths, TRNG health, algorithms enabled, SVN counters. -/
def tcSealQuery (c : Call) (s : Chip) : Chip :=
  s.call c 0x0D01 {} [] fun s =>
    succeeds s ([s.trust.high.length, s.trust.low.length, s.trust.trng.toNat, s.enabledMask]
      ++ (List.range 5).map fun k => mget 0 (k + 2) s.trust.svn)

/-- The code of a Service Grade (R519). -/
def Grade.code : Grade → Nat
  | .mgmt => 0
  | .reduced => 1
  | .frayed => 2
  | .full => 3

/-- A measurement register: index 16 is the plan log digest (R517). -/
def Chip.measurement (s : Chip) (i : Nat) : BitVec 384 := if i = 16 then s.trust.planDigest else mget 0 i s.trust.meas

/-- Bytes 0 to 871 of an attestation report (R519). -/
def Chip.reportBody (s : Chip) (nonce : List Byte) : List Byte :=
  natLE 4 0x3141544B ++ natLE 1 s.life.code ++ natLE 1 s.grade.code ++ natLE 2 1 ++ natLE 8 s.configId
    ++ (nonce ++ List.replicate 32 0).take 32 ++ natLE 8 (s.trust.planSeq - 1)
    ++ (List.range 17).flatMap fun i => natLE 48 (s.measurement i).toNat

/-- TC_ATTEST: the report as it stands when the call is served, which a LOW job signs (R504, R519, R532). Without identity keys there is
nothing to sign with: ST_LIFECYCLE. -/
def tcAttest (c : Call) (nonce : List Byte) (s : Chip) : Chip :=
  match s.common c {} [] with
  | some (st, n) => s.respond c 0x0D02 st n []
  | none =>
    if !s.trust.identity then s.respond c 0x0D02 .lifecycle 8 []
    else if !s.canSign 1 then s.respond c 0x0D02 .notSupported 8 []
    else
      let (n, t) := s.signLength 1
      let (t, room) := t.sealSubmit (.attest c (s.reportBody nonce)) false n
      if room then t else s.respond c 0x0D02 .busy 8 []

/-- A report's signatures are made. -/
def Chip.attested (s : Chip) (c : Call) (body : List Byte) : Chip :=
  let k := s.trust.identityNo
  s.respond c 0x0D02 .ok 0 ((body ++ Config.mldsaSign k body ++ Config.ecdsaSign k body).map (·.toNat))

/-- TC_MEAS_LOG: records from a sequence number with the digest after each; the current digest and the newest number for 0 records. -/
def tcMeasLog (c : Call) (first count : Nat) (s : Chip) : Chip :=
  s.call c 0x0D03 {} [] fun s =>
    let l := ((s.trust.planLog.reverse.filter fun r => decide (first ≤ r.seq)).take count).flatMap fun r =>
      [r.kind, r.part, r.slot, r.seq, r.digest.toNat, r.after.toNat]
    succeeds s (l ++ [s.trust.planDigest.toNat, s.trust.planSeq - 1])

/-- TC_SEAL_KAT: the known-answer tests run again as a LOW job; `failed` names the algorithms that will fail (R536, R538). -/
def tcSealKat (c : Call) (failed : List (BitVec 4)) (s : Chip) : Chip :=
  match s.common c { expert := true } [] with
  | some (st, n) => s.respond c 0x8D01 st n []
  | none =>
    let (k, s) := s.takeFree
    let (s, room) := s.sealSubmit (.kat c (failed.map (·.toNat))) false (Config.freeNat k)
    if room then s else s.respond c 0x8D01 .busy 8 []

/-- TC_TRNG_RAW: unconditioned samples of one noise source, whose values are open (R538). -/
def tcTrngRaw (c : Call) (source count : Nat) (s : Chip) : Chip :=
  s.call c 0x8D02 { expert := true } [(decide (3 < source), .bound), (decide (4096 < count), .bound)] fun s =>
    succeeds { s with free := s.free + count } ((List.range count).map fun i => Config.freeNat (s.free + i))

/-! ### Jobs (R504, R505, R528) -/

/-- The C-cycles of a running job that are done by now. -/
def Chip.jobProgress (s : Chip) (j : SealJob) : Nat := j.done + s.cCycles j.since

/-- The yield mark at which a running LOW job gives way to a waiting HIGH job, if it comes before the job's end (R505). -/
def Chip.yieldMark (s : Chip) : Option (SealJob × Nat) :=
  s.trust.running.bind fun j =>
    let m := cdiv (s.jobProgress j) 19200 * 19200
    if !j.high && !s.trust.high.isEmpty && m < j.length then some (j, m) else none

/-- SEAL_YIELD: at the mark the LOW job's state is saved in 64 C-cycles and the HIGH job starts. -/
def sealYield (s : Chip) : Chip :=
  match s.yieldMark with
  | none => s
  | some (j, m) =>
    let s := s.advance (j.since + (m - j.done) * 165 - s.time)
    let x := { s.trust with running := none, low := { j with done := m, yielded := true } :: s.trust.low }
    { s with trust := x.next (s.time + 64 * 165) }

/-- The accumulator after a raw-mode operation: a sum beyond 1 040 bits wraps without a flag (R507). -/
def RawOp.into (acc : BitVec 1040) (o : RawOp) : BitVec 1040 :=
  (if o.clear then 0 else acc) + o.a.setWidth 1040 * o.b.setWidth 1040

/-- The accumulator as it reads after n C-cycles of a raw-mode sequence: an operation's result is readable 40 C-cycles after its issue, and
one runs at a time (Table 18.1, R507). -/
def rawAfter (acc : BitVec 1040) (ops : List RawOp) (n : Nat) : BitVec 1040 := (ops.take (n / 40)).foldl RawOp.into acc

/-- Tailor firmware submits a raw-mode sequence, a LOW job of 40 C-cycles for each operation; a disabled raw mode takes none (R504, R507,
R536). -/
def Chip.rawSequence (s : Chip) (ops : List RawOp) : Chip × Bool :=
  if s.algorithm 13 then s.sealSubmit (.raw ops) false (40 * ops.length) else (s, false)

/-- The raw-mode accumulator as Tailor firmware reads it now. -/
def Chip.rawResult (s : Chip) : BitVec 1040 :=
  match (s.trust.running.toList ++ s.trust.low.filter (·.yielded)).find? fun j => match j.use with | .raw _ => true | _ => false with
  | some ⟨_, .raw ops, _, _, done, since, yielded⟩ => rawAfter s.trust.rawAcc ops (if yielded then done else done + s.cCycles since)
  | _ => s.trust.rawAcc

/-- A held receipt's signatures are made (R462). A device without identity keys makes none: the receipt carries no signature. -/
def Chip.signReceipt (s : Chip) (part id : Nat) : Chip :=
  match mfind id (s.part part).receipts with
  | none => s
  | some r =>
    let k := s.trust.identityNo
    let sig := if !s.trust.identity then [] else (if r.sigKind = 3 then [] else Config.mldsaSign k r.body) ++ (if r.sigKind = 2 then [] else Config.ecdsaSign k r.body)
    let s := s.updPart part fun p => { p with receipts := mput id { r with signatures := sig, ready := true } p.receipts }
    s.tryReceipt id

/-- The known-answer tests have run. -/
def Chip.katDone (s : Chip) (failed : List Nat) : Chip :=
  { s with trust := { s.trust with katFailed := failed, katOk := failed.isEmpty } }

/-- What the end of a job brings. -/
def Chip.jobEffect (s : Chip) : SealUse → Chip
  | .receipt part id => s.signReceipt part id
  | .openStage2 x => s.stage2Done x
  | .openStage3 x => s.stage3Done x
  | .peer _ => s
  | .spdm r => { s with trust := { s.trust with spdm := { s.trust.spdm with response := some r } } }
  | .token c code op t =>
    match s.changeFail op, s.tokenFail op t with
    | some st, _ => s.respond c code st 8 []
    | none, some st => s.respond c code st 8 []
    | none, none => (s.applyChange op).respond c code .ok 0 []
  | .kat c failed => (s.katDone failed).respond c 0x8D01 .ok 0 failed
  | .install c part image plateMap table debug hash accepted => s.finishInstall c part image plateMap table debug (some (hash, accepted))
  | .keyBundle c part handle digest ok => s.keyRegister c part handle (some (digest, ok))
  | .attest c body => s.attested c body
  | .identity c => s.makeIdentity c
  | .raw ops => { s with trust := { s.trust with rawAcc := ops.foldl RawOp.into s.trust.rawAcc } }

/-- A receipt's signatures are with the Seal. -/
def Seal.signing (x : Seal) (part id : Nat) : Bool := (x.running.toList ++ x.high).any fun j => j.use == .receipt part id

/-- Receipts whose signatures found the queue full are submitted while there is room (R527). -/
def Chip.resubmit (s : Chip) : Chip :=
  s.parts.foldl (fun (t : Chip) (e : Nat × Partition) =>
    e.2.receipts.foldl (fun (t : Chip) (r : Nat × Receipt) =>
      if r.2.ready || t.trust.signing e.1 r.1 || 256 ≤ t.trust.high.length then t else t.submitReceipt e.1 r.1 r.2.sigKind) t) s

/-- SEAL_JOB_DONE: the running job's program ends, its result is taken, and the next job starts. No end comes before a yield that is due. -/
def sealJobDone (s : Chip) : Chip :=
  match s.trust.running, s.yieldMark with
  | some j, none =>
    let s := s.advance (j.since + (j.length - j.done) * 165 - s.time)
    let x := { s.trust with running := none }
    (({ s with trust := x.next s.time }).jobEffect j.use).resubmit
  | _, _ => s

/-! ### Randomness (R508 to R510, R198) -/

/-- TRNG_SOURCE_FAIL: a noise source fails its health tests. -/
def trngSourceFail (source : BitVec 2) (s : Chip) : Chip :=
  { s with trust := { s.trust with trng := s.trust.trng &&& ~~~((1 : BitVec 4) <<< source.toNat) } }

/-- DRBG_RESEED of a panel's instance, or of the Seal's: a replacement takes over at a request boundary; while the TRNG is failed, the
DRBG is uninstantiated. -/
def drbgReseed (panel : Option (BitVec 9)) (s : Chip) : Chip :=
  let failed := s.trust.trng == 0
  let seed := s.seeds
  let new := fun (d : Drbg) =>
    if failed then { d with ready := false, next := none }
    else if d.ready then { d with next := some (DrbgKey.instantiate seed) } else d
  let s := if failed then s else { s with seeds := seed + 1 }
  match panel with
  | some p => s.updPanel p.toNat fun x => { x with drbg := new x.drbg }
  | none =>
    { s with trust := { s.trust with
      drbg := if failed || s.trust.drbg.ready then new s.trust.drbg
              else { ready := true, cur := DrbgKey.instantiate seed } } }

/-! ### SPDM (R520, Table 18.5) -/

/-- Change the SPDM state. -/
def Chip.updSpdm (s : Chip) (f : Spdm → Spdm) : Chip := { s with trust := { s.trust with spdm := f s.trust.spdm } }

/-- Respond. -/
def Chip.spdmSay (s : Chip) (k : SpdmKind) (data : List Nat) : Chip := s.updSpdm fun x => { x with response := some ⟨k, data⟩ }

/-- The ERROR response UnsupportedRequest. -/
def Chip.spdmUnsupported (s : Chip) : Chip := s.spdmSay .unsupportedRequest []

/-- The responder runs: the boot chain has completed. -/
def Chip.spdmUp (s : Chip) (f : Chip → Chip) : Chip := if s.booted then f s else s

/-- A request that needs what the negotiation of versions, capabilities and algorithms settled. -/
def Chip.spdmReady (s : Chip) (f : Chip → Chip) : Chip :=
  s.spdmUp fun s => if s.trust.spdm.algorithms then f s else s.spdmSay .unexpectedRequest []

/-- A response that the Seal signs as a HIGH job (ECDSA P-384). -/
def Chip.spdmSigned (s : Chip) (k : SpdmKind) (data body : List Nat) (more : Nat) : Chip :=
  if !s.trust.identity || !s.algorithm 4 then s.spdmUnsupported
  else
    let sig := (Config.ecdsaSign s.trust.identityNo (body.flatMap fun n => natLE 48 n)).map (·.toNat)
    let (s, room) := s.sealSubmit (.spdm ⟨k, data ++ sig⟩) true (64000 + more)
    if room then s else s.spdmSay .unexpectedRequest []

/-- SPDM_GET_VERSION: 1.2 and 1.3; the negotiation starts again. -/
def spdmGetVersion (s : Chip) : Chip :=
  s.spdmUp fun s => (s.updSpdm fun x => { certs := x.certs, version := 1 }).spdmSay .version [0x12, 0x13]

/-- SPDM_GET_CAPABILITIES under a version. -/
def spdmGetCapabilities (version : Byte) (s : Chip) : Chip :=
  s.spdmUp fun s =>
    if s.trust.spdm.version = 0 then s.spdmSay .unexpectedRequest []
    else if version != 0x12 && version != 0x13 then s.spdmUnsupported
    else (s.updSpdm fun x => { x with version := version.toNat, capable := true }).spdmSay .capabilities [version.toNat]

/-- SPDM_NEGOTIATE_ALGORITHMS: what the requester offers among ECDSA P-384, SHA-384, secp384r1, AES-256-GCM. -/
def spdmNegotiateAlgorithms (asym hash dhe aead : Bool) (s : Chip) : Chip :=
  s.spdmUp fun s =>
    if !s.trust.spdm.capable then s.spdmSay .unexpectedRequest []
    else if !(asym && hash) then s.spdmUnsupported
    else (s.updSpdm fun x => { x with algorithms := true }).spdmSay .algorithms [1, 1, b2n dhe, b2n aead]

/-- SPDM_GET_DIGESTS: the slots that hold a chain, with its SHA-384. -/
def spdmGetDigests (s : Chip) : Chip :=
  s.spdmReady fun s => s.spdmSay .digests (s.trust.spdm.certs.flatMap fun e => [e.1, (sha384Num e.2).toNat])

/-- SPDM_GET_CERTIFICATE: a portion of a slot's chain. -/
def spdmGetCertificate (slot : BitVec 3) (offset length : BitVec 16) (s : Chip) : Chip :=
  s.spdmReady fun s =>
    match mfind slot.toNat s.trust.spdm.certs with
    | none => s.spdmUnsupported
    | some c =>
      let part := (c.drop offset.toNat).take (min length.toNat 4096)
      s.spdmSay .certificate ([slot.toNat, part.length, c.length - offset.toNat - part.length] ++ part.map (·.toNat))

/-- SPDM_CHALLENGE: CHALLENGE_AUTH under the slot's chain, with the digest of all measurements. -/
def spdmChallenge (slot : BitVec 3) (nonce : BitVec 256) (s : Chip) : Chip :=
  s.spdmReady fun s =>
    match mfind slot.toNat s.trust.spdm.certs with
    | none => s.spdmUnsupported
    | some c =>
      let d := [slot.toNat, (sha384Num c).toNat, nonce.toNat] ++ (List.range 17).map fun i => (s.measurement i).toNat
      s.spdmSigned .challengeAuth d d 0

/-- SPDM_GET_MEASUREMENTS of one SPDM index (Table 18.4 counts from 1), 0 for their number, 255 for all; signed on request. The plan
log's digest is that of the last record before the report (R532). -/
def spdmGetMeasurements (index : Byte) (sign : Bool) (nonce : BitVec 256) (s : Chip) : Chip :=
  s.spdmReady fun s =>
    let i := index.toNat
    let d := if i = 0 then [17] else
      (((List.range 17).filter fun k => i = 255 || k + 1 = i).flatMap fun k => [k + 1, (s.measurement k).toNat])
        ++ [s.trust.planSeq - 1]
    if 17 < i && i != 255 then s.spdmUnsupported
    else if sign then s.spdmSigned .measurements d (nonce.toNat :: d) 0
    else s.spdmSay .measurements d

/-- SPDM_KEY_EXCHANGE: a session is begun (key exchange on secp384r1, response signed). -/
def spdmKeyExchange (slot : BitVec 3) (session : BitVec 16) (exchange : List Byte) (s : Chip) : Chip :=
  s.spdmReady fun s =>
    match mfind slot.toNat s.trust.spdm.certs, s.sealDraw with
    | some _, some (k, s) =>
      let d := [session.toNat, leNat (Config.kexReply k exchange).2]
      (s.updSpdm fun x => { x with session := some session.toNat, finished := false, phase := 0 }).spdmSigned .keyExchange d d 128000
    | _, _ => s.spdmUnsupported

/-- SPDM_FINISH: the session is established. -/
def spdmFinish (macOk : Bool) (s : Chip) : Chip :=
  s.spdmReady fun s =>
    if s.trust.spdm.session.isSome && !s.trust.spdm.finished && macOk then
      (s.updSpdm fun x => { x with finished := true }).spdmSay .finish []
    else s.spdmSay .unexpectedRequest []

/-- A request inside the established session. -/
def Chip.spdmInside (s : Chip) (f : Chip → Chip) : Chip :=
  s.spdmReady fun s =>
    if s.trust.spdm.session.isSome && s.trust.spdm.finished then f s else s.spdmSay .unexpectedRequest []

/-- SPDM_HEARTBEAT. -/
def spdmHeartbeat (s : Chip) : Chip := s.spdmInside fun s => s.spdmSay .heartbeatAck []

/-- SPDM_KEY_UPDATE: one key, all keys, or the check of new keys. -/
def spdmKeyUpdate (op : BitVec 2) (s : Chip) : Chip :=
  s.spdmInside fun s =>
    if op = 0 then s.spdmUnsupported
    else (s.updSpdm fun x => if op = 3 then x else { x with phase := x.phase + 1 }).spdmSay .keyUpdateAck [op.toNat]

/-- SPDM_END_SESSION. -/
def spdmEndSession (s : Chip) : Chip :=
  s.spdmInside fun s =>
    (s.updSpdm fun x => { x with session := none, finished := false, phase := 0 }).spdmSay .endSessionAck []

/-- SPDM_SET_CERTIFICATE: slots 1 to 7, in Provisioned only. -/
def spdmSetCertificate (slot : BitVec 3) (chain : List Byte) (s : Chip) : Chip :=
  s.spdmReady fun s =>
    if slot = 0 || s.life != .provisioned then s.spdmUnsupported
    else (s.updSpdm fun x => { x with certs := mput slot.toNat chain x.certs }).spdmSay .setCertificate [slot.toNat]

/-- SPDM_UNSUPPORTED_REQUEST: any other request. -/
def spdmUnsupportedRequest (s : Chip) : Chip := s.spdmUp fun s => s.spdmUnsupported

end Sys2Proof.Machine
end

