-- ==== Sys2Proof/Machine/Bringup.lean ====
section
/-! DEFINITION. Cold start-up, swatch self-test, Cold reset, Collar warm reset, the error log (R322, R394, R398, R399, R414, R439, R442, R513 to
R517, R578 to R602, R616). -/

namespace Sys2Proof.Machine

/-! ### Cold start-up (Table 21.1) -/

/-- Enter a phase. -/
def Chip.enterPhase (s : Chip) (n : Nat) : Chip := { s with boot := { s.boot with phase := n, phaseAt := s.aTick } }

/-- The bound of a phase in A-ticks. -/
def phaseBound (n : Nat) : Nat :=
  match n with
  | 1 => 500
  | 2 => 2500
  | 3 => 25000
  | 4 => 1875000
  | 5 => 6250000
  | 6 => 1250000
  | _ => 500000

/-- Hold the package in Cold reset for a cause. -/
def Chip.holdCold (s : Chip) (cause : Nat) : Chip := { s with boot := { s.boot with cold := sinsert cause s.boot.cold } }

/-- The lanes that the User Ledger retires are out of use on their ports and links. -/
def Chip.applyLanes (s : Chip) : Chip :=
  s.ledger.lanes.foldl (fun (t : Chip) k =>
    let tx := k / 128 % 2 = 0
    let lane := k % 128
    if k < 65536 then
      t.setPort (k / 256) fun p =>
        if tx then { p with retiredTx := sinsert lane p.retiredTx } else { p with retiredRx := sinsert lane p.retiredRx }
    else
      t.updLink (k % 65536 / 256) fun p =>
        if tx then { p with retiredTx := sinsert lane p.retiredTx } else { p with retiredRx := sinsert lane p.retiredRx }) s

/-- Phase 2: the Factory Ledger is loaded, and the User Ledger image applied when it is authentic (R427, R430). The bin takes effect
(R412). -/
def Chip.loadLedgers (s : Chip) (r : BootReport) (userOk : Bool) : Chip :=
  let l := s.ledger
  let l := if s.life == .manufacturing then { l with factory := r.factory, factoryCells := r.factoryCells } else l
  let l := { l with factoryOk := true, user := [], userCells := [], lanes := [], userApplied := false, userRejected := false }
  let l := match l.image with
    | none => l
    | some (items, cells, lanes, version) =>
      if userOk && l.imageValid then { l with user := items, userCells := cells, lanes := lanes, version := version, userApplied := true }
      else { l with userRejected := true }
  { s with ledger := l, fUnit := binUnit (l.effective 0 0) }.applyLanes

/-- Phase 3: the plates run their main PLLs at the bin and their rails at target; a plate that does not stays in Plate Off, offline. -/
def Chip.clockPlates (s : Chip) (lost : BitVec 8) : Chip :=
  (List.range 8).foldl (fun (t : Chip) p =>
    if lost.getLsbD p then t
    else
      (t.updPlate p fun x => { x with fLock := true, off := false, online := true, railMv := (t.ledger.effective 1 p).toNat }).updSwatches
        (plateSwatches p) fun w => { w with power := 3 }) s

/-- The policy is loaded after a Cold reset: an image that fails its checks is replaced by the restrictive policy (R523). -/
def Chip.loadPolicy (s : Chip) (ok : Bool) : Chip :=
  if s.boot.trustDone then s
  else if ok && s.trust.policyImage then { s with trust := { s.trust with restricted := false } }
  else
    { s with
      expert := false
      planSigning := true
      trust := { s.trust with keySigning := true, dualSig := false, signers := [], keySigners := [], restricted := true } }

/-- Phase 4: the trust units, the boot chain, the policy, the measurements (R508, R509, R513 to R517, R522, R523, R536). -/
def Chip.trustPhase (s : Chip) (r : BootReport) : Chip :=
  let s := if s.trust.pending then s.eraseRest else s
  let s := if s.boot.trustDone then s else s.katDone (r.failedKat.map (·.toNat))
  let trng := if !s.boot.trustDone then r.trng else s.trust.trng &&& r.trng
  let seed := s.seeds
  let images := r.images.filter fun (i : Nat × Nat × BitVec 384) => decide (mget 0 i.1 s.trust.svn ≤ i.2.1)
  let s := { s with
    seeds := seed + 1
    mgmt := { s.mgmt with update := [] }
    boot := { s.boot with fwBaseline := r.baseline.toNat, copyB := r.copyB.toNat, step := 6 }
    tlr := { s.tlr with cores := ~~~r.failedCores }
    trust := { s.trust with
      trng := trng
      drbg := if trng = 0 then {} else { ready := true, cur := DrbgKey.instantiate seed }
      imageSvn := images.foldl (fun (m : SMap Nat) (i : Nat × Nat × BitVec 384) => mput i.1 i.2.1 m) []
      meas := images.foldl (fun (m : SMap (BitVec 384)) (i : Nat × Nat × BitVec 384) => mput (i.1 - 1) i.2.2 m) [(0, r.romDigest)]
      planLog := []
      planDigest := 0
      planSeq := 0 } }
  let s := s.loadPolicy r.policyOk
  let s := { s with boot := { s.boot with trustDone := true } }
  let s := { s with configId := s.makeConfigId }
  [6, 7, 8, 9, 10].foldl (fun (t : Chip) i => t.measure i) s

/-- Phase 4 ends without the boot chain: Management-only mode with the recovery agent, or, without even that, PCIe configuration space
and the Test Access Port alone (R515, R584). -/
def Chip.recovery (s : Chip) (r : BootReport) : Chip :=
  let s := { s with boot := { s.boot with
    recovery := true, failedStep := r.failedStep.toNat, step := r.failedStep.toNat - 1, mute := !r.minimal } }
  s.logRec 0 3 none none none 0

/-- Phase 5 begins: every port C trains; after a Cold reset the Linings are zeroed. -/
def Chip.enterPhase5 (s : Chip) : Chip :=
  let s := (List.range 8).foldl (fun (t : Chip) p =>
    let t := t.updLining p fun x => { x with ready := false, zeroing := true }
    if (t.plate p).off then t else t.trainPort (portKey p 0) false) s
  s.enterPhase 5

/-- Ports that still train go DOWN. -/
def Chip.portsDown (s : Chip) (keys : List Nat) : Chip :=
  keys.foldl (fun (t : Chip) k => if decide (1 ≤ (t.seam k).state) && decide ((t.seam k).state ≤ 6) then t.portDown k else t) s

/-- Phase 5 ends: ports C that are not up are DOWN, the stacks that trained are in service and zeroed from then on; the self-test of phase 6
begins on every online plate. A Collar warm reset keeps the stacks as they are (R294, R398, R596). -/
def Chip.endPhase5 (s : Chip) (r : BootReport) : Chip :=
  let s := s.portsDown ((List.range 8).map fun p => portKey p 0)
  let s := (List.range 8).foldl (fun (t : Chip) h =>
    if s.boot.stacksDone || r.badStacks.getLsbD h then t
    else t.updStack h fun x => { x with ready := true, zeroing := true }) s
  let on := (List.range 8).filter fun p => (s.plate p).online
  let s := { s with boot := { s.boot with plateDone := (on.map fun p => 2 ^ p).sum, stacksDone := true } }
  let s := s.updSwatches (on.flatMap plateSwatches) fun w => { w with testing := true, selfTest := .resetInProgress, power := 0 }
  s.enterPhase 6

/-- The self-test of a swatch ends with a status and its failing cells; a swatch that no partition holds returns to Rest (R439, R582, R583). -/
def Chip.endTest (s : Chip) (sw : Nat) (st : Status) (failing : List Nat) : Chip :=
  let s := s.updSwatch sw fun w => { w with
    testing := false, selfTest := st, failing := failing, power := if w.owner.isNone then 3 else w.power, idleSince := s.aTick }
  s.reservice (plateOf sw)

/-- Phase 6 ends: a swatch whose test is not done is out of service; the ring ports train, which a Collar warm reset leaves as they are once a
Cold start-up has trained them (R322). -/
def Chip.endPhase6 (s : Chip) : Chip :=
  let late := (List.range 64).filter fun sw => (s.swatch sw).testing
  let s := late.foldl (fun (t : Chip) sw => t.endTest sw .timeout []) s
  let rings := seamPorts.filter fun k => k % 4 != 0 && decide (k % 4 = 2 ∨ k % 4 = 3)
  let s := rings.foldl (fun (t : Chip) k =>
    if s.boot.coldDone || (t.plate (k / 4)).off then t else t.trainPort k false) s
  s.enterPhase 7

/-- Phase 7 ends: control routes, the first grade with EV_GRADE_CHANGE once; then the Selvage links train, after a Cold reset with the
package id of the board flash (R310, R352, R580). -/
def Chip.endPhase7 (s : Chip) : Chip :=
  let s := s.portsDown (seamPorts.filter fun k => k % 4 != 0)
  let s := (s.enterPhase 0).reroute
  let s := (List.range 8).foldl (fun (t : Chip) p => t.reservice p) s
  let s := if s.boot.coldDone then s else { s with fabric := { s.fabric with id := s.fabric.flashId } }
  let s := { s with boot := { s.boot with gradeReported := true, coldDone := true } }
  let s := { s with grade := s.gradeNow }.raiseDev 20 none none none 0
  (List.range 16).foldl (fun (t : Chip) l => t.trainLink l false) s

/-- A phase ends as its work went. -/
def Chip.endPhase (s : Chip) (r : BootReport) : Chip :=
  match s.boot.phase with
  | 1 => { s with boot := { s.boot with cLock := true } }.enterPhase 2
  | 2 => if r.factoryOk then (s.loadLedgers r r.userOk).enterPhase 3 else s.holdCold 2
  | 3 => (s.clockPlates r.lostPlates).enterPhase 4
  | 4 =>
    let s := s.trustPhase r
    if r.failedStep != 0 || !r.minimal then s.recovery r else s.enterPhase5
  | 5 => s.endPhase5 r
  | 6 => s.endPhase6
  | 7 => s.endPhase7
  | _ => s

/-- BRINGUP_PHASE_DONE. -/
def bringupPhaseDone (r : BootReport) (s : Chip) : Chip :=
  if s.boot.recovery then s else s.endPhase r

/-- BRINGUP_PHASE_TIMEOUT: at its bound a phase that is not done takes its outcome (Table 21.1). -/
def bringupPhaseTimeout (r : BootReport) (s : Chip) : Chip :=
  if s.boot.recovery || s.boot.phase = 0 then s
  else
    let s := s.waitTick (s.boot.phaseAt + phaseBound s.boot.phase)
    match s.boot.phase with
    | 1 => s.holdCold 2
    | 2 => s.endPhase { r with userOk := false }
    | 4 => s.endPhase { r with failedStep := if r.failedStep = 0 then 2 else r.failedStep }
    | _ => s.endPhase r

/-! ### Self-test and zeroing (R243, R294, R581 to R583) -/

/-- Answer a TC_SELFTEST whose last swatch is done. -/
def Chip.selfTestAnswer (s : Chip) (sw : Nat) : Chip :=
  if !bit s.boot.testMask sw then s
  else
    let m := s.boot.testMask - 2 ^ sw
    let s := { s with boot := { s.boot with testMask := m } }
    if m = 0 then s.endSelfTest .ok else s

/-- SELFTEST_DONE: the physical cells of a swatch, 66 × panel + cell, whose comparisons did not match. The swatch passes when every
one of them is retired (R581). -/
def selftestDone (swatch : BitVec 6) (failing : List Nat) (s : Chip) : Chip :=
  let sw := swatch.toNat
  if !(s.swatch sw).testing then s
  else
    let live := failing.filter fun c => !s.ledger.cellOut c
    ((s.endTest sw (if live.isEmpty then .ok else .poison) failing).regrade).selfTestAnswer sw

/-- Zeroing of a stack or of a plate's Lining is complete: the space holds zeros and can be allocated; a Lining is READY (R243,
R294). -/
def zeroingDone (lining : Bool) (index : BitVec 3) (s : Chip) : Chip :=
  let i := index.toNat
  if lining then
    if !(s.lining i).zeroing || (s.plate i).reset then s
    else
      let s := { s with mem := memClear s.mem (liningBase i) (144 * liningLines) }
      let s := s.updLining i fun x => { x with ready := true, zeroing := false, poison := [], ce := [], ue := [], origin := [] }
      (s.reservice i).regrade
  else if !(s.stack i).zeroing then s
  else
    let s := { s with mem := memClear s.mem (i * 0x1000000000) 0x8F8000000 }
    let s := s.updStack i fun x => { x with zeroing := false, poison := [], ceAtoms := [], ueAtoms := [] }
    ((s.reservice i).capacityChange [i] true).regrade

/-! ### Cold reset (R394, R439) -/

/-- What the board flash, the fuses and the monotonic counters of the model keep through a Cold reset; everything else takes its reset
value. -/
def Chip.cold (s : Chip) : Chip :=
  { free := s.free
    seeds := s.seeds
    life := s.life
    expert := s.expert
    planSigning := s.planSigning
    linings := s.linings.map fun (e : Nat × Lining) => (e.1, { retired := e.2.retired })
    hbm := s.hbm.map fun (e : Nat × Stack) => (e.1, { retired := e.2.retired, degraded := e.2.degraded, redirect := e.2.redirect, stuck := e.2.stuck })
    tlr := { flash := s.tlr.flash }
    fabric := { flashId := s.fabric.flashId, list := s.fabric.list }
    plates := s.plates.map fun (e : Nat × Plate) => (e.1, { railLow := e.2.railLow })
    ledger := {
      factory := s.ledger.factory, factoryCells := s.ledger.factoryCells, flash := s.ledger.flash, image := s.ledger.image
      imageValid := s.ledger.imageValid }
    trust := {
      identity := s.trust.identity, identityNo := s.trust.identityNo, hukKilled := s.trust.hukKilled, pending := s.trust.pending
      svn := s.trust.svn, policySeq := s.trust.policySeq, policyKeys := s.trust.policyKeys, signers := s.trust.signers
      keySigners := s.trust.keySigners, dualSig := s.trust.dualSig, keySigning := s.trust.keySigning
      policyImage := s.trust.policyImage, spdm := { certs := s.trust.spdm.certs } }
    krp := {
      ports := s.krp.flashPorts, clients := s.krp.flashClients, flashPorts := s.krp.flashPorts, flashClients := s.krp.flashClients }
    power := { thermtrip := s.power.thermtrip }
    boot := { cold := s.boot.cold, refLost := s.boot.refLost }
    mgmt := s.mgmt }

/-- COLD_RESET by PERST# or power-on, with the sideband straps sampled (R399, R617, R618). Causes outside the package that hold the
Cold reset go on holding it; THERMTRIP_N ends only with the always-on supply. -/
def coldReset (powerOn sel : Bool) (addr : BitVec 2) (s : Chip) : Chip :=
  let t := s.cold
  { t with
    boot := { t.boot with cold := t.boot.cold.filter fun c => c != 2 }
    power := { t.power with thermtrip := t.power.thermtrip && !powerOn }
    mgmt := { sel := sel, addr := addr.toNat, update := s.mgmt.update } }

/-- REFA_LOSS: REFA has stopped for 25 periods, and the package holds itself in Cold reset (R414). -/
def refaLoss (s : Chip) : Chip :=
  let t := s.cold
  { t with boot := { t.boot with cold := sinsert 1 t.boot.cold, refLost := true } }

/-- REFA_RETURN. -/
def refaReturn (s : Chip) : Chip :=
  { s with boot := { s.boot with cold := sremove 1 s.boot.cold, refLost := false } }

/-- RAIL_UNDERVOLTAGE of a rail other than a plate's, by its PWR_RAIL bit 8 to 19: Cold reset until it returns, with a fatal record
(R616, R619). -/
def railUndervoltage (rail : BitVec 5) (s : Chip) : Chip :=
  let r := rail.toNat
  if r < 8 || 19 < r then s
  else
    let t := (s.logRec Status.clockAbsent.code 3 none none none 0).cold
    { t with boot := { t.boot with cold := sinsert r t.boot.cold } }

/-- RAIL_RETURN: a plate's rail is good again, or a rail no longer holds the Cold reset. -/
def railReturn (rail : BitVec 5) (s : Chip) : Chip :=
  let r := rail.toNat
  if r < 8 then s.updPlate r fun p => { p with railLow := false }
  else { s with boot := { s.boot with cold := sremove r s.boot.cold } }

/-! ### Collar warm reset (R398 to R400, R402) -/

/-- What a Collar warm reset leaves of a partition's function: MSI-X, configuration space, what it wrote to host memory. -/
def Partition.afterCollar (p : Partition) : Partition :=
  { msix := p.msix
    vfEnabled := p.vfEnabled
    busMaster := p.busMaster
    mbx := { responses := p.mbx.responses }
    rings := p.rings.map fun (e : Nat × Ring) => (e.1, { written := e.2.written }) }

/-- A plate after the Collar has been reset: no reset, no debug selection and no waiting call is left; its clocks, heat and policy stay. -/
def Plate.afterCollar (p : Plate) : Plate :=
  { p with dbgLock := false, dbgWait := false, offAllowed := false, offDelay := 0, reset := false, fn := none, recover := false }

/-- Both halves of a port C in a Collar warm reset: it is OFF until phase 5 trains it, and its registers have their reset values (R391,
R394). -/
def SeamPort.afterCollar (x : SeamPort) : SeamPort := { retiredTx := x.retiredTx, retiredRx := x.retiredRx }

/-- The Collar is reset: no partition, buffer, plan, request or session exists; every Pad and Lining is to be zeroed, ports C and
links to be trained, and the boot chain runs from its ROM: start-up restarts at phase 4 (R398, R596, R600). The stacks keep what they
hold; accesses in flight to the Collar end with ST_RESET_IN_PROGRESS (R393, R405); an unlocked package id takes its reset value
(R9, R355). -/
def Chip.collarBoot (s : Chip) (cause : Nat) : Chip :=
  let flying := s.tlr.accesses
  let took := (s.parts.filter fun e => e.2.present && e.2.resetting).map (·.1)
  let s := { s with
    seams := s.seams.map fun (e : Nat × SeamPort) => if e.1 % 4 = 0 then (e.1, e.2.afterCollar) else e
    cells := []
    panels := []
    swatches := s.swatches.map fun (e : Nat × Swatch) => (e.1, { power := e.2.power, forced := e.2.forced })
    parts := s.parts.map fun (e : Nat × Partition) => (e.1, e.2.afterCollar)
    runs := []
    mem := s.mem.filter fun c => decide (c.1 < 0x8000000000)
    linings := s.linings.map fun (e : Nat × Lining) => (e.1, { retired := e.2.retired, zeroing := true })
    hbm := s.hbm.map fun (e : Nat × Stack) => (e.1, { e.2 with queue := [] })
    links := s.links.map fun (e : Nat × SlvLink) => (e.1, { retiredTx := e.2.retiredTx, retiredRx := e.2.retiredRx })
    bufs := s.bufs.map fun (e : Nat × Buf) => (e.1, { e.2 with gen := nextGen e.2.gen, live := false, grants := [], view := none })
    requests := []
    tlr := {
      mbx := { responses := s.tlr.mbx.responses }, msix := s.tlr.msix, errLog := s.tlr.errLog, errSeq := s.tlr.errSeq, flash := s.tlr.flash }
    dbg := {}
    grade := .mgmt
    fabric := { s.fabric with id := if s.fabric.lock then s.fabric.id else 0, routes := [], active := 0 }
    plates := s.plates.map fun (e : Nat × Plate) => (e.1, e.2.afterCollar)
    power := { s.power with withdrawals := [] }
    trust := { s.trust with
      running := none, high := [], low := [], rawAcc := 0, drbg := {}, imageSvn := [], meas := [], planLog := []
      planDigest := 0, planSeq := 0, spdm := { certs := s.trust.spdm.certs } }
    krp := {
      ports := s.krp.ports, clients := s.krp.clients, flashPorts := s.krp.flashPorts, flashClients := s.krp.flashClients
      nextSession := s.krp.nextSession }
    pci := { s.pci with windows := [], winErr := {} }
    boot := { s.boot with
      plateDone := 0, step := 0, recovery := false, failedStep := 0, copyB := 0, mute := false, cause := cause
      warms := min 65535 (s.boot.warms + 1), collarReset := true, gradeReported := false, testFn := none, testMask := 0
      took := took.foldl (fun m p => sinsert p m) s.boot.took } }
  (flying.foldl (fun (t : Chip) a => t.xingFail a.fn .resetInProgress) s).enterPhase 4

/-- COLLAR_WARM_RESET: steps 1 to 3 of R395 for every partition, then the Collar. A plate's fall to Management-only mode raises no grade
change before the first report. -/
def collarWarmReset (cause : BitVec 3) (s : Chip) : Chip :=
  let ps := (s.parts.filter fun e => e.2.present).map (·.1)
  let s := ps.foldl (fun (t : Chip) p => (t.abandon p).dropPackets p) s
  (s.flush fun _ => true).collarBoot cause.toNat

/-- TC_COLLAR_RESET, PF0 only: the call is answered, then the reset runs (R400, R410). -/
def tcCollarReset (c : Call) (s : Chip) : Chip :=
  match s.common c { pf0Only := true } [] with
  | some (st, n) => s.respond c 0x0903 st n []
  | none => collarWarmReset 1 (s.respond c 0x0903 .ok 0 [])

/-- PWR_RESET_CTRL with LEVEL 10 and GO: the always-on sequencer resets the Collar (R399, R410). -/
def pwrResetCollarWarm (s : Chip) : Chip :=
  s.expertWrite fun s => collarWarmReset 2 { s with power := { s.power with resetLevel := 2 } }

/-- TAILOR_WATCHDOG_EXPIRY (R399). -/
def tailorWatchdogExpiry (s : Chip) : Chip := collarWarmReset 3 s

/-- COLLAR_PLL_UNLOCK (R414). -/
def collarPllUnlock (s : Chip) : Chip := collarWarmReset 4 s

/-- TAILOR_CORE_FAIL: the core leaves service; its duties move to the others (R442). -/
def tailorCoreFail (core : BitVec 3) (s : Chip) : Chip :=
  { s with tlr := { s.tlr with cores := s.tlr.cores &&& ~~~((1 : BitVec 8) <<< core.toNat) } }

/-- A Collar warm reset has run the boot chain again: host accesses reach the Collar, and the device counts EV_RESET_DONE, as does each
partition whose reset it took over (R402). -/
def Chip.collarDone (s : Chip) : Chip :=
  if s.boot.collarReset && s.booted then
    let took := s.boot.took
    took.foldl (fun (t : Chip) p => t.raisePart p 0)
      ({ s with boot := { s.boot with collarReset := false, took := [] } }.raiseDev 0 none none none 0)
  else s

/-- RESET_COMPLETION. -/
def resetCompletion (x : ResetScope) (s : Chip) : Chip :=
  match x with
  | .partition p => s.partitionDone p.toNat
  | .plate p => s.plateDone p.toNat
  | .collar => s.collarDone

/-! ### Calls (R601, R602, Table 21.10) -/

/-- TC_GRADE_QUERY: the grade, swatches in service, each swatch's self-test with its failing cells, stacks and ports not in service. -/
def tcGradeQuery (c : Call) (s : Chip) : Chip :=
  s.call c 0x0F01 {} [] fun s =>
    let on := (List.range 64).filter fun sw => (s.swatch sw).inService
    let tests := (List.range 64).flatMap fun sw =>
      let w := s.swatch sw
      [w.selfTest.code, w.failing.length] ++ w.failing
    let outs := (List.range 8).filter fun h => !(s.stack h).ready
    let ports := seamPorts.filter fun k => !(s.seam k).up
    succeeds s ([s.grade.code, on.length] ++ tests ++ outs.length :: outs ++ ports.length :: ports)

/-- TC_SELFTEST: each named idle swatch is tested; the call is answered when the last is done (R581, R599). -/
def tcSelftest (c : Call) (mask : Nat) (s : Chip) : Chip :=
  let answer := fun (st : Status) (n : Nat) => s.respond c 0x0F02 st n []
  match s.common c { pf0Only := true } [(decide (2 ^ 64 ≤ mask), .bound)] with
  | some (st, n) => answer st n
  | none =>
    let sws := (List.range 64).filter fun sw => bit mask sw
    if sws.isEmpty then answer .ok 0
    else if s.boot.testFn.isSome || sws.any fun sw => (s.swatch sw).owner.isSome || (s.swatch sw).testing then answer .busy 8
    else if sws.any fun sw => (s.swatch sw).resetting then answer .resetInProgress 8
    else if sws.any fun sw => !(s.plate (plateOf sw)).online then answer .clockAbsent 8
    else
      let s := { s with boot := { s.boot with testFn := some c.fn, testTag := c.tag, testMask := mask } }
      let s := s.updSwatches sws fun w => { w with testing := true, waking := false, power := 0 }
      ((sws.map plateOf).eraseDups.foldl (fun (t : Chip) p => t.plateOn p) s).updSwatches sws fun w => { w with power := 0 }

/-- A record as numbers. -/
def LogRec.nums (r : LogRec) : List Nat :=
  [r.time, r.code, r.kind, r.part.getD 255, r.unit.getD 255, b2n r.persisted,
   match r.cell with | some x => x + 2 ^ 15 | none => 0, r.addr, r.seq]

/-- TC_ERROR_LOG: records from a SEQ, at most 64, of memory or of the flash ring; a VF sees its own. The result opens with the first SEQ
returned, or the newest SEQ for none (R595, R598, R601). -/
def tcErrorLog (c : Call) (first count : Nat) (flash : Bool) (s : Chip) : Chip :=
  s.call c 0x0F03 {} [(decide (64 < count), .bound)] fun s =>
    let mine := fun (r : LogRec) => match c.fn with | .pf0 => true | .vf n => r.part == some n
    let rs := (((if flash then s.tlr.flash else s.tlr.errLog).reverse.filter fun r => decide (first ≤ r.seq) && mine r)).take count
    succeeds s ((match rs with | r :: _ => r.seq | [] => s.tlr.errSeq - 1) :: rs.flatMap LogRec.nums)

/-- TC_ERRLOG_CLEAR: the flash ring is erased and a record of kind 2 notes it (R602). -/
def tcErrlogClear (c : Call) (s : Chip) : Chip :=
  s.call c 0x8F01 { expert := true } [] fun s =>
    succeeds ({ s with tlr := { s.tlr with flash := [] } }.logRec 0 2 none none none 0)

end Sys2Proof.Machine
end

