-- ==== Sys2Proof/Machine/HostIf.lean ====
section
/-! DEFINITION. The host interface: PCIe configuration, memory windows, AtomicOps, rings, the management endpoints and the Test Access
Port (chapter 20, R279, R313, R314, R516). -/

namespace Sys2Proof.Machine

/-! ### Functions -/

/-- The number of a function: 0 for PF0, n + 1 for the VF of partition n. -/
def Fn.index : Fn → Nat
  | .pf0 => 0
  | .vf n => n + 1

/-- The function with a number. -/
def fnAt (k : Nat) : Fn := if k = 0 then .pf0 else .vf (k - 1)

/-- The host reaches a function: the link is up, and a VF is enabled. -/
def Chip.reach (s : Chip) : Fn → Bool
  | .pf0 => s.pci.up
  | .vf n => s.pci.up && decide (n < 64) && (s.part n).vfEnabled

/-- A host command to a function: nothing happens while the host cannot reach it; while the Collar is in reset it ends under R393. -/
def Chip.fromHost (s : Chip) (fn : Fn) (f : Chip → Chip) : Chip := if s.reach fn then s.hostAccess fn f else s

/-- A function owns a ring pair. -/
def Ring.ownedBy (r : Ring) (fn : Fn) : Bool := r.ownerPf0 == (fn == Fn.pf0)

/-- The partitions whose rings a function may own. -/
def Fn.parts : Fn → List Nat
  | .pf0 => List.range 64
  | .vf n => [n]

/-! ### PCIe configuration (R549 to R552, R572, R575, R579) -/

/-- The completions of a ring that wait are written, in order (R552). -/
def Chip.flushRing (s : Chip) (p n : Nat) : Chip :=
  let w := (mget {} n (s.part p).rings).waiting
  w.foldl (fun (t : Chip) c => t.complete p n c) (s.updRing p n fun r => { r with waiting := [] })

/-- The rings of a function resume (R552). -/
def Chip.flushRings (s : Chip) (fn : Fn) : Chip :=
  fn.parts.foldl (fun (t : Chip) p =>
    ((t.part p).rings.filter fun e => e.2.enabled && e.2.ownedBy fn).foldl (fun (u : Chip) e => u.flushRing p e.1) t) s

/-- Set Bus Master Enable of a function. -/
def Chip.setMaster (s : Chip) (fn : Fn) (on : Bool) : Chip :=
  match fn with
  | .pf0 => { s with pci := { s.pci with busMaster := on } }
  | .vf n => s.updPart n fun p => { p with busMaster := on }

/-- BUS_MASTER_ENABLE_CHANGE (R552). -/
def busMasterEnableChange (fn : Fn) (on : Bool) (s : Chip) : Chip :=
  if !s.reach fn then s
  else
    let s := s.setMaster fn on
    if on then s.flushRings fn else s

/-- MSI-X after a reset of its function: what was sent stays sent. -/
def Msix.cleared (m : Msix) : Msix := { sent := m.sent }

/-- The configuration state of a VF after a reset of it: no Bus Master Enable, MSI-X disabled. -/
def Partition.unconfigured (p : Partition) : Partition := { p with busMaster := false, msix := p.msix.cleared }

/-- PCIE_HOT_RESET: the configuration state of every function; nothing else of the device (R550). -/
def pcieHotReset (s : Chip) : Chip :=
  { s with
    pci := { s.pci with up := false, busMaster := false }
    tlr := { s.tlr with msix := s.tlr.msix.cleared }
    parts := s.parts.map fun (e : Nat × Partition) => (e.1, { e.2.unconfigured with vfEnabled := false }) }

/-- PCIE_LINK_UP: the link has trained, from the end of phase 1 (R575, R579). -/
def pcieLinkUp (speed : BitVec 3) (width : BitVec 5) (flit : Bool) (s : Chip) : Chip :=
  if s.boot.phase = 1 then s
  else { s with pci := { s.pci with up := true, speed := speed.toNat, width := width.toNat, flit := flit } }

/-- Pending messages of a function that are no longer masked are sent (R388). -/
def Chip.sendPending (s : Chip) (fn : Fn) : Chip :=
  let m := s.msixOf fn
  if m.enabled && !m.fnMask && s.masterOf fn then
    (m.pba.filter fun v => !m.masked.contains v).foldl (fun (t : Chip) v => t.sendMsix fn v) s
  else s

/-- Enable the first VFs; those that are no longer enabled lose their configuration. -/
def Chip.enableVfs (s : Chip) (count : Nat) : Chip :=
  (List.range 64).foldl (fun (t : Chip) n =>
    if n < count then t.updPart n fun p => { p with vfEnabled := true }
    else if (t.part n).vfEnabled then t.updPart n fun p => { p.unconfigured with vfEnabled := false }
    else t) s

/-- Configuration requests end with retry status: after a Cold reset, before phase 4 is done, and within 100 ms (R579). -/
def Chip.retriesConfig (s : Chip) : Bool :=
  decide (1 ≤ s.boot.phase ∧ s.boot.phase ≤ 4) && !s.boot.trustDone && decide (s.aTick < 2500000)

/-- PCIE_CONFIG_REQUEST (R579). -/
def pcieConfigRequest (fn : Fn) (op : ConfigOp) (s : Chip) : Chip :=
  if !s.reach fn then s
  else if s.retriesConfig then { s with pci := { s.pci with retries := s.pci.retries + 1 } }
  else
    match op with
    | .read | .other => s
    | .msixEnable on mask => (s.updMsix fn fun m => { m with enabled := on, fnMask := mask }).sendPending fn
    | .vfEnable count => if fn = Fn.pf0 && count.toNat ≤ 64 then s.enableVfs count.toNat else s

/-- A call of PF0 is no longer answered. -/
def Call.hush (c : Call) : Call := if c.fn = Fn.pf0 then { c with quiet := true } else c

/-- A use of the Seal answers PF0 no more. -/
def SealUse.quiet : SealUse → SealUse
  | .token c code op t => .token c.hush code op t
  | .kat c failed => .kat c.hush failed
  | .install c part image plateMap table debug hash ok => .install c.hush part image plateMap table debug hash ok
  | .keyBundle c part handle digest ok => .keyBundle c.hush part handle digest ok
  | .attest c body => .attest c.hush body
  | .identity c => .identity c.hush
  | .receipt a b => .receipt a b
  | .openStage2 x => .openStage2 x
  | .openStage3 x => .openStage3 x
  | .peer l => .peer l
  | .spdm r => .spdm r
  | .raw ops => .raw ops

/-- A Seal job answers PF0 no more. -/
def SealJob.hush (j : SealJob) : SealJob := { j with use := j.use.quiet }

/-- PF0 no longer waits for an answer. -/
def notPf0 (f : Option Fn) : Option Fn := if f = some Fn.pf0 then none else f

/-- PF0_FLR: PF0's configuration state with VF Enable, its rings, its mailbox; calls being served go on unheard (R551, R562). -/
def pf0Flr (s : Chip) : Chip :=
  if !s.pci.up then s
  else
    let m := s.tlr.mbx
    let mbx := (List.range m.pending).foldl (fun (m : Mailbox) _ => m.answer ⟨0, 0, .resetInProgress, 0, []⟩) m
    let x := s.trust
    let s := { s with
      pci := { s.pci with busMaster := false }
      tlr := { s.tlr with
        msix := s.tlr.msix.cleared
        mbx := mbx
        dbgInstalls := s.tlr.dbgInstalls.map fun (d : DbgInstall) => { d with quiet := d.quiet || d.fn == Fn.pf0 } }
      parts := s.parts.map fun (e : Nat × Partition) => (e.1, { e.2 with
        rings := e.2.rings.map fun (r : Nat × Ring) => if r.2.ownerPf0 then (r.1, { r.2 with flr := true }) else r
        resetSt := { e.2.resetSt with fn := notPf0 e.2.resetSt.fn } })
      plates := s.plates.map fun (e : Nat × Plate) => (e.1, { e.2 with fn := notPf0 e.2.fn })
      seams := s.seams.map fun (e : Nat × SeamPort) => (e.1, { e.2 with testFn := notPf0 e.2.testFn })
      links := s.links.map fun (e : Nat × SlvLink) => (e.1, { e.2 with testFn := notPf0 e.2.testFn })
      requests := s.requests.map fun (q : Request) =>
        match q.source with
        | .call .pf0 _ => { q with source := .silent }
        | _ => q
      boot := { s.boot with testFn := notPf0 s.boot.testFn }
      trust := { x with running := x.running.map SealJob.hush, high := x.high.map SealJob.hush, low := x.low.map SealJob.hush } }
    s.enableVfs 0

/-! ### Memory windows (R554 to R556, R577) -/

/-- The key of an aperture. -/
def apertureKey (fn : Fn) (aperture : Nat) : Nat := 1024 * fn.index + aperture

/-- How the last host access of a window ended: the completion's kind. -/
def endData : Nat := 0
def endUnsupported : Nat := 1
def endAbort : Nat := 2
def endPoisoned : Nat := 3
def endMalformed : Nat := 4

/-- PCI_WIN_ERR of a function. -/
def Chip.updWinErr (s : Chip) (fn : Fn) (g : WinErr → WinErr) : Chip :=
  match fn with
  | .pf0 => { s with pci := { s.pci with winErr := g s.pci.winErr } }
  | .vf n => s.updPart n fun p => { p with winErr := g p.winErr }

/-- The completion of a host access: its kind and its data. -/
def Chip.ends (s : Chip) (kind : Nat) (data : Nat := 0) : Chip := { s with pci := { s.pci with lastKind := kind, lastRead := data } }

/-- A discarded write or failed read: counted, and recorded when the record is armed (R555). -/
def Chip.winFail (s : Chip) (fn : Fn) (aperture kind : Nat) (st : Status) : Chip :=
  (s.updWinErr fn fun w =>
    let w := { w with count := w.count + 1 }
    if w.valid then w else { w with aperture := aperture, status := st.code, valid := true }).ends kind

/-- Bytes [a, a + n) lie in one region of the device physical address map that a window reaches (R563, R564, R225). -/
def windowRegion (a n : Nat) : Bool :=
  if a < 0x8000000000 then decide (a % 0x1000000000 + n ≤ 0x8F8000000)
  else if controlBase ≤ a then decide (a + n ≤ controlBase + 0x38000000)
  else decide (a < 0x8200000000) && decide (a % 0x40000000 + n ≤ 0x40000000 - 64)

/-- What an access asks of a buffer. -/
inductive WinOp where
  | read | write | atomic
deriving DecidableEq, Repr

/-- The buffer behind an aperture allows an access (R451). -/
def Buf.grantsOp (b : Buf) : WinOp → Bool
  | .read => b.canRead
  | .write => b.canWrite
  | .atomic => b.canRead && b.canWrite

/-- The device physical address of an access, or the completion kind and the status of the row of Table 20.3 that ends it. Every byte of an
access has one outcome: an access that straddles a bound fails whole. -/
def Chip.winAddr (s : Chip) (fn : Fn) (aperture offset n : Nat) (op : WinOp) : Except (Nat × Status) Nat :=
  match mfind (apertureKey fn aperture) s.pci.windows with
  | none => .error (endUnsupported, .bound)
  | some w =>
    match w.handle with
    | some h =>
      match s.bufOf h with
      | none => .error (endUnsupported, .bound)
      | some b =>
        let off := w.offset + offset
        if 576 * b.bolts < off + n then .error (endAbort, .bound)
        else if s.regionRetired (b.addr + off) n then .error (endAbort, .retiredPage)
        else if !b.grantsOp op then .error (endAbort, .notOwner)
        else .ok (b.addr + off)
    | none =>
      let a := w.offset + offset
      if !windowRegion a n then .error (endUnsupported, .bound)
      else if s.regionRetired a n then .error (endAbort, .retiredPage)
      else .ok a

/-- The lines of a Lining that bytes overlap. -/
def linesIn (a n : Nat) : List Nat := (List.range (lineOf (a + n - 1) + 1 - lineOf a)).map (lineOf a + ·)

/-- The memory is read at bytes [a, a + n): waiting errors take effect. -/
def Chip.senseMem (s : Chip) (a n : Nat) : Chip :=
  if a < 0x8000000000 then s.touchAtoms (stackOf a) (a % 0x1000000000) n
  else if controlBase ≤ a then s.touchControl a n
  else
    let plate := (a - 0x8000000000) / 0x40000000
    (linesIn a n).foldl (fun (t : Chip) l => (t.senseLine plate l).1) (s.settleLining plate)

/-- Bytes are written from a: what they cover wholly loses its poison; the rest is a read-modify-write (R245, R280, R281). -/
def Chip.storeMem (s : Chip) (a : Nat) (data : List Byte) : Chip :=
  let n := data.length
  if n = 0 then s
  else if a < 0x8000000000 then
    let off := a % 0x1000000000
    let s := if off % 576 = 0 && (off + n) % 576 = 0 then s else s.touchAtoms (stackOf a) off n
    let s := { s with mem := memWriteN s.mem a data }
    s.markAtoms (stackOf a) off n []
  else if controlBase ≤ a then
    let s := s.touchControl a n
    { s with mem := memWriteN s.mem a data }.markControl a n
  else
    let plate := (a - 0x8000000000) / 0x40000000
    let base := 0x8000000000 + plate * 0x40000000
    let s := s.senseMem a n
    let s := { s with mem := memWriteN s.mem a data }
    let whole := fun k => decide (a ≤ base + 144 * k) && decide (base + 144 * k + 144 ≤ a + n)
    s.updLining plate fun l => { l with
      poison := l.poison.filter fun k => !whole k
      ce := l.ce.filter fun k => !whole (k / 16)
      ue := l.ue.filter fun k => !whole (k / 16)
      origin := l.origin.filter fun e => !(linesIn a n).contains e.1 }

/-- A host access to a window: before a grade is reported it ends under R35; a TLP that crosses a 4 KiB boundary is malformed. -/
def Chip.window (s : Chip) (fn : Fn) (aperture offset n : Nat) (op : WinOp) (f : Chip → Nat → Chip) : Chip :=
  s.fromHost fn fun s =>
    if !s.boot.gradeReported then s.winFail fn aperture endAbort .resetInProgress
    else if 4096 < offset % 4096 + n then s.ends endMalformed
    else
      match s.winAddr fn aperture offset (max 1 n) op with
      | .error (kind, st) => s.winFail fn aperture kind st
      | .ok a => f s a

/-- WINDOW_READ of n bytes at an offset of an aperture (R555). -/
def windowRead (fn : Fn) (aperture : BitVec 10) (offset : BitVec 22) (n : Nat) (s : Chip) : Chip :=
  s.window fn aperture.toNat offset.toNat n .read fun s a =>
    let s := s.senseMem a n
    s.ends (if 0 < n && s.regionPoisoned a n then endPoisoned else endData) (leNat (memReadN s.mem a n))

/-- WINDOW_WRITE of bytes at an offset of an aperture (R555). -/
def windowWrite (fn : Fn) (aperture : BitVec 10) (offset : BitVec 22) (data : List Byte) (s : Chip) : Chip :=
  s.window fn aperture.toNat offset.toNat data.length .write fun s a => (s.storeMem a data).ends endData

/-- The word an AtomicOp leaves. -/
def AtomicOp.result (old : W64) : AtomicOp → W64
  | .fetchAdd x => old + x
  | .swap x => x
  | .cas c x => if old = c then x else old

/-- ATOMIC_OP: the first row of Table 20.3 that applies; a 64-bit one on control memory changes its word unless it is poisoned (R279). -/
def atomicOp (fn : Fn) (aperture : BitVec 10) (offset : BitVec 22) (bits64 : Bool) (op : AtomicOp) (s : Chip) : Chip :=
  let n := if bits64 then 8 else 4
  s.fromHost fn fun s =>
    if !s.boot.gradeReported then s.winFail fn aperture.toNat endAbort .resetInProgress
    else
      match s.winAddr fn aperture.toNat offset.toNat n .atomic with
      | .error (kind, st) => s.winFail fn aperture.toNat kind st
      | .ok a =>
        if !bits64 then s.winFail fn aperture.toNat endUnsupported .notOwner
        else if a % 8 != 0 then s.ends endMalformed
        else if a < controlBase then s.winFail fn aperture.toNat endUnsupported .notOwner
        else
          let s := s.touchControl a 8
          let old := leNat (memReadN s.mem a 8)
          if s.regionPoisoned a 8 then s.ends endPoisoned old
          else { s with mem := memWriteN s.mem a (natLE 8 (op.result (BitVec.ofNat 64 old)).toNat) }.ends endData old

/-! ### Window calls (R554, R570, R576, R577) -/

/-- The common checks of a call that names a function: 0 PF0, n + 1 the VF of partition n. -/
def windowShape (function : Nat) : CallShape :=
  { pf0Only := decide (function = 0), part := if function = 0 then none else some (function - 1) }

/-- Map an aperture. -/
def Chip.mapAperture (s : Chip) (function aperture : Nat) (w : Aperture) : Chip :=
  { s with pci := { s.pci with windows := mput (1024 * function + aperture) w s.pci.windows } }

/-- TC_WINDOW_MAP (R554). -/
def tcWindowMap (c : Call) (function aperture handle offset : Nat) (s : Chip) : Chip :=
  s.call c 0x0E03 (windowShape function) [(decide (64 < function), .bound), (decide (1024 ≤ aperture), .bound)] fun s =>
    match s.checkHandle c c.fn.part 0x0E03 handle with
    | (s, .error st) => fails s st
    | (s, .ok b) =>
      if function != 0 && (b.part != function - 1 || (b.view.isSome && b.grants.any (·.fabric))) then fails s .notOwner
      else if function != 0 && b.kind = 1 then fails s .notSupported
      else if 576 * b.bolts < offset || offset % 4096 != 0 then fails s .bound
      else succeeds (s.mapAperture function aperture ⟨some handle, offset⟩)

/-- TC_WINDOW_UNMAP (R570): an aperture that is not mapped is ST_OK too (R576). -/
def tcWindowUnmap (c : Call) (function aperture : Nat) (s : Chip) : Chip :=
  s.call c 0x0E04 (windowShape function) [(decide (64 < function), .bound), (decide (1024 ≤ aperture), .bound)] fun s =>
    succeeds { s with pci := { s.pci with windows := mdel (1024 * function + aperture) s.pci.windows } }

/-- TC_WINDOW_QUERY: of each mapped aperture its number, its handle or zero, and its offset or physical address. -/
def tcWindowQuery (c : Call) (function : Nat) (s : Chip) : Chip :=
  s.call c 0x0E05 (windowShape function) [(decide (64 < function), .bound)] fun s =>
    succeeds s ((s.pci.windows.filter fun w => w.1 / 1024 == function).flatMap fun w =>
      [w.1 % 1024, w.2.handle.getD 0, w.2.offset])

/-- TC_WINDOW_MAP_PHYS (R577). -/
def tcWindowMapPhys (c : Call) (aperture addr : Nat) (s : Chip) : Chip :=
  s.call c 0x8E01 { expert := true } [(decide (1024 ≤ aperture), .bound)] fun s =>
    if addr % 4096 != 0 || !windowRegion addr 1 then fails s .bound
    else succeeds (s.mapAperture 0 aperture ⟨none, addr⟩)

/-! ### Rings (R557 to R562, R567 to R569, R571) -/

/-- A ring pair of a partition. -/
def Chip.ring (s : Chip) (p n : Nat) : Ring := mget {} n (s.part p).rings

/-- A doorbell reaches a ring: a VF has the page of its own partition only, PF0 every one; a non-owner's is counted (R557). -/
def Chip.doorbell (s : Chip) (fn : Fn) (p n : Nat) (sq : Bool) (f : Ring → Ring) : Chip :=
  s.fromHost fn fun s =>
    let r := s.ring p n
    if !fn.owns p || !r.enabled then s
    else if !r.ownedBy fn then
      s.updRing p n fun r => { r with wrongFunc := min 255 (r.wrongFunc + 1), overrun := r.overrun || sq }
    else s.updRing p n f

/-- SQ_DOORBELL (R557, R568). -/
def sqDoorbell (fn : Fn) (part : BitVec 6) (ring : BitVec 3) (tail : BitVec 12) (s : Chip) : Chip :=
  let stamp := s.time / 165
  s.doorbell fn part.toNat ring.toNat true fun r =>
    let n := max 1 r.sqSize
    let t := tail.toNat % n
    let waiting := (r.sqTail + n - r.sqHead) % n
    let new := (t + n - r.sqTail) % n
    if n - 1 < waiting + new then { r with overrun := true } else { r with sqTail := t, marks := r.marks ++ [(t, stamp)] }

/-- CQ_DOORBELL: the host releases entries it has read (R557, R558). A head beyond what is written releases nothing. -/
def cqDoorbell (fn : Fn) (part : BitVec 6) (ring : BitVec 3) (head : BitVec 12) (s : Chip) : Chip :=
  s.doorbell fn part.toNat ring.toNat false fun r =>
    let n := max 1 r.cqSize
    let h := head.toNat % n
    let k := (h + n - r.cqHead) % n
    if r.written.length < k then r else { r with cqHead := h, written := r.written.drop k }

/-- The C-cycle in which the tail write that covers the next entry of a ring reached the Collar. -/
def Ring.stamp (r : Ring) : Nat := (r.marks.head?.map (·.2)).getD 0

/-- A ring has an entry that it could take: one is waiting and a CQ entry is free for its completion (R558, R561, R562). -/
def Chip.canTake (s : Chip) (p : Nat) (r : Ring) : Bool :=
  r.enabled && !r.err && s.ringOpen p r && r.sqHead != r.sqTail && decide (r.taken + r.written.length < r.cqSize)

/-- A ring may take its next entry: no other ring of the partition that could take one has an earlier tail write, or one of the same C-cycle and
a lower number (R558). -/
def Chip.mayTake (s : Chip) (p n : Nat) : Bool :=
  let r := s.ring p n
  s.canTake p r && (s.part p).rings.all fun e =>
    !(s.canTake p e.2 && decide (e.2.stamp < r.stamp ∨ (e.2.stamp = r.stamp ∧ e.1 < n)))

/-- A ring after its next entry is taken: a tail write that it has caught up with is forgotten. -/
def Ring.next (r : Ring) : Ring :=
  let head := (r.sqHead + 1) % (max 1 r.sqSize)
  { r with sqHead := head, seq := r.seq + 1, taken := r.taken + 1, marks := r.marks.dropWhile fun m => m.1 == head }

/-- The package after a ring's next entry is taken. -/
def Chip.took (s : Chip) (p n : Nat) : Chip := s.updRing p n Ring.next

/-- The REQUEST_ID of the entry that a ring takes next: zero on KRP rings (R558, Table 20.5). -/
def Ring.requestId (n : Nat) (r : Ring) : Nat := if r.krp then 0 else n * 2 ^ 56 + r.seq % 2 ^ 56

/-- Take the next entry of a ring, where it may be taken, and run it with the ring as it stood before (R558). While the partition is in reset the
entry completes with ST_RESET_IN_PROGRESS (R571). -/
def Chip.take (s : Chip) (p n tag : Nat) (f : Chip → Ring → Chip) : Chip :=
  if !s.mayTake p n then s
  else
    let r := s.ring p n
    if (s.part p).resetting then
      (s.took p n).complete p n { status := .resetInProgress, kind := 1, tag := tag, requestId := r.requestId n }
    else f (s.took p n) r

/-- An entry is refused (R559, R573). -/
def Chip.refuseEntry (s : Chip) (p n tag id : Nat) (x : Refused) : Chip :=
  let v := match x.st with
    | .busy => x.retry
    | .overcommit => 1000000
    | _ => 0
  s.complete p n { status := x.st, kind := 1, tag := tag, requestId := id, value := v, detail := x.step }

/-- The owner tag of a host submission to a target. -/
def Chip.targetOwner (s : Chip) (part : Nat) (target : Target) (hs : List Nat) : Nat :=
  match (s.candidates part target).bind fun l => l.head?.bind fun i => mfind i (s.part part).plans with
  | some pl => (s.hostOwner pl hs).getD 0
  | none => 0

/-- SQ_START: an entry is checked, admitted and bound as a request (R453, R559, R573, R574). -/
def sqStart (part : BitVec 6) (ring : BitVec 3) (reservedOk service : Bool) (target : BitVec 16) (tag : W32) (nhandles : Byte)
    (indirect : Bool) (handles : List W32) (s : Chip) : Chip :=
  let p := part.toNat
  let n := ring.toNat
  s.take p n tag.toNat fun s r =>
    let id := r.requestId n
    let refuse := fun (s : Chip) (x : Refused) => s.refuseEntry p n tag.toNat id x
    let t := target.toNat
    let k := nhandles.toNat
    if r.krp || !reservedOk then refuse s ⟨.notSupported, 0, 0⟩
    else if 64 < k || (!indirect && 10 < k) then refuse s ⟨.badShape, 0, 0⟩
    else if (if service then 256 else 64) ≤ t then refuse s ⟨.bound, 2, 0⟩
    else
      let goal := if service then Target.service t else Target.slot t
      let hs := (handles.take k).map (·.toNat)
      let a := hostAdmission p goal (.ring n tag.toNat r.seq) (s.targetOwner p goal hs) hs
      match s.admitRequest { a with came := some r.stamp } with
      | (s, .ok _) => s
      | (s, .error x) => refuse s x

/-- SQ_FRAME_TX: one KRP frame from host memory. It completes when it has been read, whatever becomes of it (R559, R573). -/
def sqFrameTx (part : BitVec 6) (ring : BitVec 3) (reservedOk : Bool) (tag len : W32) (f : KrpFrame) (m : KrpMsg) (s : Chip) : Chip :=
  let p := part.toNat
  let n := ring.toNat
  s.take p n tag.toNat fun s r =>
    let refuse := fun (st : Status) => s.refuseEntry p n tag.toNat (r.requestId n) ⟨st, 0, 0⟩
    if !r.krp || !reservedOk then refuse .notSupported
    else if len.toNat < 24 || 8264 < len.toNat then refuse .badShape
    else
      let s := s.complete p n { status := .ok, kind := 3, tag := tag.toNat }
      krpReceive { f with carrier := .host p r.ownerPf0 n } m s

/-- SQ_RXBUF: a buffer for one frame toward the host; a frame that is held is written into it (R559, R573). -/
def sqRxbuf (part : BitVec 6) (ring : BitVec 3) (reservedOk : Bool) (tag len : W32) (s : Chip) : Chip :=
  let p := part.toNat
  let n := ring.toNat
  s.take p n tag.toNat fun s r =>
    let refuse := fun (st : Status) => s.refuseEntry p n tag.toNat (r.requestId n) ⟨st, 0, 0⟩
    if !r.krp || !reservedOk then refuse .notSupported
    else if len.toNat < 8264 then refuse .badShape
    else
      match (s.ring p n).rxHeld with
      | frame :: rest =>
        (s.updRing p n fun r => { r with rxHeld := rest }).complete p n
          { status := .ok, kind := 2, tag := tag.toNat, value := frame.length }
      | [] => s.updRing p n fun r => { r with rx := r.rx ++ [tag.toNat] }

/-- SQ_NOP (R559). An entry with a reserved OPCODE or field is refused (R573). -/
def sqNop (part : BitVec 6) (ring : BitVec 3) (reservedOk : Bool) (tag : W32) (s : Chip) : Chip :=
  let p := part.toNat
  let n := ring.toNat
  s.take p n tag.toNat fun s r =>
    if !reservedOk then s.refuseEntry p n tag.toNat (r.requestId n) ⟨.notSupported, 0, 0⟩
    else s.complete p n { status := .ok, kind := 4, tag := tag.toNat, requestId := r.requestId n }

/-- RING_DMA_ERROR: a failed read leaves its entry not taken; a failed write discards the completion last written. The ring is halted
(R561). -/
def ringDmaError (part : BitVec 6) (ring : BitVec 3) (write : Bool) (s : Chip) : Chip :=
  let p := part.toNat
  let n := ring.toNat
  let r := s.ring p n
  if !r.enabled || !s.ringOpen p r || (!write && r.sqHead = r.sqTail) then s
  else s.updRing p n fun r =>
    { r with err := true, errIndex := if r.err then r.errIndex else r.sqHead, written := if write then r.written.dropLast else r.written }

/-- A ring size: a power of two, 16 to 4 096 (R557). -/
def ringSize (n : Nat) : Bool := [16, 32, 64, 128, 256, 512, 1024, 2048, 4096].contains n

/-- TC_RING_SET: the caller becomes the ring's owner; a base of zero disables the ring (R557, R569, R574). -/
def tcRingSet (c : Call) (part ring : Nat) (krp : Bool) (sqBase sqSize cqBase cqSize : Nat) (s : Chip) : Chip :=
  s.call c 0x0E01 { part := some part } [(decide (8 ≤ ring), .bound)] fun s =>
    let off := sqBase = 0 || cqBase = 0
    if !off && !(ringSize sqSize && ringSize cqSize && sqBase % 4096 == 0 && cqBase % 4096 == 0) then fails s .badShape
    else if (s.ring part ring).taken != 0 then fails s .busy
    else
      let r : Ring :=
        if off then {}
        else {
          enabled := true, krp := krp, ownerPf0 := c.fn == Fn.pf0, sqBase := sqBase, cqBase := cqBase, sqSize := sqSize
          cqSize := cqSize }
      succeeds (s.updRing part ring fun _ => r)

/-- TC_RING_QUERY: owner, type, sizes, heads and tails, SEQ, then enabled, stopped, halted, overrun. -/
def tcRingQuery (c : Call) (part ring : Nat) (s : Chip) : Chip :=
  s.call c 0x0E02 { part := some part } [(decide (8 ≤ ring), .bound)] fun s =>
    let r := s.ring part ring
    succeeds s [b2n r.ownerPf0, b2n r.krp, r.sqSize, r.cqSize, r.sqHead, r.sqTail, r.cqHead, r.cqTail, r.seq, b2n r.enabled,
      b2n (!s.ringOpen part r), b2n r.err, b2n r.overrun]

/-! ### Test Access Port (R313, R314) -/

/-- GLB_IDCODE (Table 20.14). -/
def idcode : Nat := 1 + 0x2E5 * 2 + 0x6400 * 2 ^ 12 + Config.stepping.toNat * 2 ^ 28

/-- The lifecycle states in which every instruction of the port is open (Table 11.4). -/
def Chip.tapOpen (s : Chip) : Bool := s.life == .manufacturing || s.life == .returned

/-- An instruction of the port: its number and the value it shifts out; one that is not open is decoded as BYPASS. -/
def Chip.tap (s : Chip) (isOpen : Bool) (code out : Nat) : Chip :=
  { s with mgmt := { s.mgmt with tapInstr := if isOpen then code else 0, tapOut := if isOpen then out else 0 } }

/-- TAP_BYPASS. -/
def tapBypass (s : Chip) : Chip := s.tap true 0 0

/-- TAP_IDCODE. -/
def tapIdcode (s : Chip) : Chip := s.tap true 1 idcode

/-- TAP_SAMPLE_PRELOAD. -/
def tapSamplePreload (s : Chip) : Chip := s.tap true 2 0

/-- TAP_EXTEST: in service only in Management-only mode with the Expert enable set (Table 11.4). -/
def tapExtest (s : Chip) : Chip := s.tap (s.tapOpen || (s.grade == .mgmt && s.expertOn)) 3 0

/-- TAP_DIE_ACCESS: the die-level wrappers, where open (Table 11.4). -/
def tapDieAccess (s : Chip) : Chip := s.tap s.tapOpen 4 0

/-- TAP_SEAM_INTERCONNECT_TEST: a test of a port, where open; a busy or unconnected port starts none (Table 11.4, R314, R318). -/
def tapSeamInterconnectTest (plate : BitVec 3) (port : BitVec 2) (phases : BitVec 4) (d : BitVec 5) (s : Chip) : Chip :=
  let key := portKey plate.toNat port.toNat
  let go := s.tapOpen && seamConnected key && phases != 0 && !s.testBusy key
  let s := s.tap s.tapOpen 5 0
  if go then s.startTest key phases.toNat d.toNat none 0 else s

/-! ### Management endpoints (R516, R565) -/

/-- MCTP_SET_ENDPOINT_ID. -/
def mctpSetEndpointId (eid : Byte) (s : Chip) : Chip := { s with mgmt := { s.mgmt with eid := eid.toNat } }

/-- The value of a sensor. -/
def Chip.sense (s : Chip) : Sensor → Int
  | .plateTemp p => (s.plate p.toNat).temp
  | .stackTemp h => (mget {} h.toNat s.heat).temp
  | .collarTemp => s.power.collarTemp
  | .power => s.power.avg
  | .theta p => (s.plate p.toNat).theta
  | .grade => s.grade.code
  | .lifecycle => s.life.code
  | .online p => b2n (s.plate p.toNat).online

/-- PLDM_SENSOR_READ (R565). -/
def pldmSensorRead (sensor : Sensor) (s : Chip) : Chip := { s with mgmt := { s.mgmt with reading := some (s.sense sensor) } }

/-- PLDM_FIRMWARE_UPDATE of the image of a boot step, with the verdict on its signatures and its security version: the inactive copy is
written only when it verifies (R513, R514, R516). -/
def pldmFirmwareUpdate (component : BitVec 3) (sigOk : Bool) (svn : BitVec 6) (s : Chip) : Chip :=
  let k := component.toNat
  if 2 ≤ k && k ≤ 6 && sigOk && mget 0 k s.trust.svn ≤ svn.toNat then
    { s with mgmt := { s.mgmt with update := mput k svn.toNat s.mgmt.update } }
  else s

end Sys2Proof.Machine
end

