-- ==== Sys2Proof/Machine/Registers.lean ====
section
/-! DEFINITION. Writes of register fields without behaviour of their own, under their access codes (R8, R9, R15, R61, R566, R577). -/

namespace Sys2Proof.Machine

/-- The partition whose registers a write names; none for registers of PF0 alone. -/
def RegWrite.part? : RegWrite → Option Nat
  | .ptnPlanFault p _ | .ptnHazard p _ | .ptnDoubleTrap p _ | .ptnSlvFault p _ | .ptnQos p _ | .ptnXing p _ | .ptnMbxBase p _
  | .ptnMbxState p _ | .ringState p _ _ | .ringErr p _ _ => some p.toNat
  | _ => none

/-- Write-one-to-clear of a first-error record's VALID bit (R8). -/
def Latch.w1c (clear : Bool) (l : Latch) : Latch := if clear then { l with valid := false } else l

/-- Bit 31 of a register's data, the VALID bit of most records. -/
def top (d : W32) : Bool := d.getLsbD 31

/-- A field of a register's data. -/
def field (d : W32) (lo n : Nat) : Nat := bits d.toNat lo n

/-- Write one bit set of the chain staging registers: word 0 the counts, word k + 1 the indices of positions 4 k to 4 k + 3 (Table 2.8). -/
def Chain.stageWord (word data : Nat) (c : Chain) : Chain :=
  if word = 0 then { c with qcount := bits data 0 7, pcount := bits data 8 7 }
  else if 16 < word then c
  else
    let l := c.index ++ List.replicate (64 - c.index.length) 0
    { c with index := (List.range 4).foldl (fun (l : List Nat) j => lset l (4 * (word - 1) + j) (bits data (16 * j) 10)) l }

/-- Change the Modulus Table staging registers. -/
def Chip.updMt (s : Chip) (f : MtStage → MtStage) : Chip := { s with tlr := { s.tlr with mt := f s.tlr.mt } }

/-- Change the debug registers. -/
def Chip.updDbg (s : Chip) (f : Dbg → Dbg) : Chip := { s with dbg := f s.dbg }

/-- Replace 64 bits of a Pad row by a debug data register; register 4 holds the last 32 bits and POISON (Table 8.12). -/
def Dbg.padWrite (k data : Nat) (d : Dbg) : Dbg :=
  if 4 < k then d
  else
    let row := BitVec.ofNat 288 (setBits d.padData.toNat (64 * k) (if k = 4 then 32 else 64) data)
    { d with padData := row, padPoison := if k = 4 then bit data 32 else d.padPoison }

/-- The record of PCI_WIN_ERR as PF0 writes it under Expert control (R577, Table 20.16). -/
def winErrOf (d : Nat) : WinErr :=
  { count := BitVec.ofNat 32 d, aperture := bits d 32 10, status := bits d 42 16, valid := bit d 63 }

/-- PCI_LIMIT by register: a value out of range is ignored, zero restores the reset value (R424, R441). -/
def Chip.writeLimit (s : Chip) (w : Nat) : Chip := if w = 0 || (300 ≤ w && w ≤ 1150) then s.setLimit w else s

/-- The effect of a register write that reached its register. -/
def Chip.regWrite (s : Chip) (fn : Fn) (w : RegWrite) : Chip :=
  match w with
  | .mtStage k d => s.expertWrite fun s => s.updMt fun m =>
      { m with stage := BitVec.ofNat 256 (setBits m.stage.toNat (64 * k.toNat) 64 d.toNat) }
  | .mtTarget d => s.expertWrite fun s => s.updMt fun m => { m with index := field d 0 10, part := field d 10 6, chain := field d 16 4 }
  | .mtChainStage k d => s.expertWrite fun s => s.updMt fun m => { m with chainStage := m.chainStage.stageWord k.toNat d.toNat }
  | .mtResult d => s.expertWrite fun s => s.updMt fun m => if d.getLsbD 17 then { m with busySeen := false } else m
  | .ptnPlanFault p d => s.updRegs p.toNat fun r => { r with fault := r.fault.w1c (top d) }
  | .ptnHazard p d => s.updRegs p.toNat fun r => { r with hazard := r.hazard.w1c (top d) }
  | .ptnDoubleTrap p d => s.updRegs p.toNat fun r => { r with doubleTrap := r.doubleTrap.w1c (top d) }
  | .ptnSlvFault p d => s.updCnt p.toNat fun c => { c with slvFault := c.slvFault.w1c (top d) }
  | .ptnQos p d => s.updPart p.toNat fun x => { x with qosValid := x.qosValid && !top d }
  | .ptnXing p d => s.updPart p.toNat fun x => { x with xing := { x.xing with valid := x.xing.valid && !top d } }
  | .ptnMbxBase p d => s.updPart p.toNat fun x => { x with mbx := { x.mbx with base := d.toNat / 4096 * 4096 } }
  | .ptnMbxState p d => s.updPart p.toNat fun x => { x with mbx := { x.mbx with overrun := x.mbx.overrun && !d.getLsbD 1 } }
  | .ringState p n d => s.updRing p.toNat n.toNat fun r =>
      let r := { r with overrun := r.overrun && !d.getLsbD 4 }
      if fn = Fn.pf0 && s.expertOn then { r with err := d.getLsbD 3 } else r
  | .ringErr p n d =>
      if fn = Fn.pf0 && s.expertOn then s.updRing p.toNat n.toNat fun r => { r with errIndex := field d 0 12 } else s
  | .tlrXing d => { s with tlr := { s.tlr with xing := { s.tlr.xing with valid := s.tlr.xing.valid && !top d } } }
  | .tlrMbxBase d => { s with tlr := { s.tlr with mbx := { s.tlr.mbx with base := d.toNat / 4096 * 4096 } } }
  | .tlrMbxState d => { s with tlr := { s.tlr with mbx := { s.tlr.mbx with overrun := s.tlr.mbx.overrun && !d.getLsbD 1 } } }
  | .dbgStitchBreak d => s.expertWrite fun s => s.updDbg fun x =>
      { x with breakPart := field d 0 6, breakIndex := field d 16 12, breakEnable := top d }
  | .dbgScrSel d => s.expertWrite fun s => s.updDbg fun x =>
      { x with scrCell := field d 0 15, scrSpace := field d 16 2, scrWin := field d 18 3, scrIndex := field d 24 8 }
  | .dbgPsAbort d => s.expertWrite fun s => s.updDbg fun x => { x with psSwatch := field d 0 6, psEngine := field d 8 2 }
  | .dbgEngCmd d => s.expertWrite fun s => s.updDbg fun x =>
      { x with engSwatch := field d 0 6, engEngine := field d 8 2, engOp := field d 12 2 }
  | .dbgPadSel d => s.expertWrite fun s => s.updDbg fun x =>
      { x with padCell := field d 0 15, padRow := field d 16 12, padOp := field d 28 2 }
  | .dbgPadData k d => s.expertWrite fun s => s.updDbg (Dbg.padWrite k.toNat d.toNat)
  | .dbgSpoolSel d => s.expertWrite fun s => s.updDbg fun x => { x with spoolCell := field d 0 15, spoolThread := field d 16 4 }
  | .dbgEvInject d => s.expertWrite fun s => s.updDbg fun x => { x with evIndex := field d 0 7, evFunction := field d 7 7 }
  | .hbmUeAddr h d => s.reachPlate fn h.toNat fun s => s.updStack h.toNat fun x => { x with ueAddr := x.ueAddr.w1c (d.getLsbD 63) }
  | .hbmCeThresh h d => s.expertWrite fun s => s.reachPlate fn h.toNat fun s => s.updStack h.toNat fun x => { x with threshCount := field d 0 8, threshWindow := field d 8 8 }
  | .hbmCePage h d => s.reachPlate fn h.toNat fun s => s.updStack h.toNat fun x => { x with cePage := x.cePage.w1c (top d) }
  | .hbmInject h d => s.expertWrite fun s => s.reachPlate fn h.toNat fun s => s.updStack h.toNat fun x => { x with injAtom := bits d.toNat 0 30, injKind := bits d.toNat 30 2 }
  | .lngUeAddr p d => s.reachPlate fn p.toNat fun s => s.updLining p.toNat fun l => { l with ueAddr := l.ueAddr.w1c (top d) }
  | .seamLaneThresh p x d => s.expertWrite fun s => s.reachPlate fn p.toNat fun s => s.updSeam (portKey p.toNat x.toNat) fun q =>
      { q with threshCount := field d 0 8, threshWindow := field d 8 8 }
  | .seamTestCtrl p x d => s.expertWrite fun s => s.reachPlate fn p.toNat fun s => s.updSeam (portKey p.toNat x.toNat) fun q =>
      { q with testPhases := field d 0 4, testD := field d 4 5 }
  | .slvLaneThresh l d => s.expertWrite fun s => s.updLink l.toNat fun x => { x with threshCount := field d 0 8, threshWindow := field d 8 8 }
  | .slvTestCtrl l d => s.expertWrite fun s => s.updLink l.toNat fun x => { x with testPhases := field d 0 4, testD := field d 4 5 }
  | .slvRoute n d => s.expertWrite fun s =>
      { s with fabric := { s.fabric with routes := mset 0 n.toNat (field d 0 16) s.fabric.routes } }.regrade
  | .pwrResetCtrl d => s.expertWrite fun s => { s with power := { s.power with resetLevel := field d 0 2, resetPlate := field d 2 3 } }
  | .pwrLimit d => s.expertWrite fun s => s.writeLimit (field d 0 11)
  | .pwrForce d => s.expertWrite fun s =>
      if top d && field d 6 2 = 0 then s.unforce (field d 0 6)
      else { s with power := { s.power with forceSwatch := field d 0 6, forceMode := field d 6 2 } }
  | .krpTest d => s.expertWrite fun s => { s with krp := { s.krp with
      loopOn := d.getLsbD 0, loopPort := field d 1 1, dropN := field d 2 16, dropSession := field d 18 14 } }
  | .pciWinErr f d =>
      if 64 < f.toNat then s
      else if fn = Fn.pf0 && s.expertOn then s.updWinErr (fnAt f.toNat) fun _ => winErrOf d.toNat
      else s.updWinErr (fnAt f.toNat) fun w => { w with valid := w.valid && !d.getLsbD 63 }
  | .resetCause d => { s with boot := { s.boot with cause := field d 0 3, warms := field d 3 16 } }
  | .msixMask v => s.updMsix fn fun m => { m with masked := sinsert v.toNat m.masked }
  | .swtOther sw => s.reachSwatch fn (8 * sw.toNat) false id
  | .expertOther => s.expertWrite id
  | .other => s

/-- REGISTER_WRITE by a function: a VF reaches its own partition's registers only (R14, R553, R566). -/
def registerWrite (fn : Fn) (w : RegWrite) (s : Chip) : Chip :=
  s.fromHost fn fun s =>
    match fn, w.part? with
    | .pf0, _ => s.regWrite fn w
    | .vf n, some p => if n = p then s.regWrite fn w else s
    | .vf _, none =>
      match w with
      | .msixMask _ => s.regWrite fn w
      | _ => s

end Sys2Proof.Machine
end

