-- ==== Sys2Proof/Machine/Gate.lean ====
section
/-! DEFINITION. When the package takes a command at all: held in Cold reset, after THERMTRIP_N, without its Management-only set, before Tailor
firmware serves mailboxes (R35, R393, R414, R426, R443, R552, R584). -/

namespace Sys2Proof.Machine

/-- Nothing of the package runs: it is held in Cold reset, or THERMTRIP_N has stopped every clock (R414, R426, R616). -/
def Chip.held (s : Chip) : Bool := s.boot.dead || !s.boot.cold.isEmpty

/-- One F-cycle of the package passes: what the block does with no command waiting. While it is held only time passes: no clock of it
runs (R414, R426). -/
def Chip.tick (s : Chip) : Chip := if s.held then { s with time := s.time + s.fUnit } else s.advance s.fUnit

/-- An event or a command inside the package: nothing happens while it is held. -/
def Chip.live (s : Chip) (f : Chip → Chip) : Chip := if s.held then s else f s

/-- A command over an interface that a package without its Management-only set does not present (R584). -/
def Chip.shown (s : Chip) (f : Chip → Chip) : Chip := s.live fun s => if s.boot.mute then s else f s

/-- A command of the host to a register or doorbell of a function. -/
def Chip.host (s : Chip) (fn : Fn) (f : Chip → Chip) : Chip := s.shown fun s => s.fromHost fn f

/-- A command to a function that the host reaches. -/
def Chip.reached (s : Chip) (fn : Fn) (f : Chip → Chip) : Chip := s.live fun s => if s.reach fn then f s else s

/-- Tailor firmware serves the mailbox of a function: the boot chain has run, the Collar is not in reset, the Management-only set is present
and the function may master the bus, which the mailbox is read over (R443, R513, R552, R584). -/
def Chip.serves (s : Chip) (fn : Fn) : Bool :=
  !s.boot.mute && !s.boot.collarReset && (s.boot.phase == 0 || decide (5 ≤ s.boot.phase)) && s.masterOf fn

/-- A Tailor call: it is served, or its entry stays in the mailbox, which the device does not read. -/
def Chip.served (s : Chip) (c : Call) (f : Chip → Chip) : Chip := s.live fun s => if s.serves c.fn then f s else s

/-- TLR_MT_CMD with a reserved OP; OP 000 starts nothing, and is counted like every write of an Expert register while the expert enable is clear
(R15, R61). -/
def mtReserved (op : BitVec 3) (s : Chip) : Chip :=
  if op = 0 then s.expertWrite id else if op.toNat < 5 then s else mtCommand op.toNat s

end Sys2Proof.Machine
end

