-- ==== Sys2Proof/Machine/State.lean ====
section
/-! DEFINITION. The state of the block: the package and the queue of commands that wait; its state at reset; the reasons a step can stop. -/

namespace Sys2Proof.Machine

/-- The package and the commands that wait, first in, first out. -/
structure State where
  chip : Chip := {}
  pending : List Instr := []
deriving DecidableEq, Repr

/-- The state at the release of a Cold reset (R394, R575, R578): every register at its reset value, phase 1 of start-up begins, nothing
waits. Values that the spec does not give are named in the assumption log. -/
def State.reset : State := { chip := {}, pending := [] }

/-- Why a step could stop with a fault. The spec gives every command of the table an effect, so no meaning raises this; it is safe. -/
inductive Fault where
  | unspecified
deriving DecidableEq, Repr

/-- Why a step could be refused. No meaning refuses; it is safe. -/
inductive Refusal where
  | notModelled (mnemonic : String)
deriving DecidableEq, Repr

/-- A command's effect on the package: the queue stays. -/
def State.on (s : State) (f : Chip → Chip) : Host.Outcome State Fault Refusal := .next { s with chip := f s.chip }

end Sys2Proof.Machine
end

