-- ==== Sys2Proof/Machine/CmdCallsA.lean ====
section
/-! DEFINITION. Tailor calls: moduli, containers, plans, queries, links, the fabric (groups 01 to 07). Each command with the conditions
under which the package takes it. -/

namespace Sys2Proof.Machine

/-- TC_MODULUS_SET: Checks and writes a shadow Modulus Table entry, binding a twiddle set if asked (R43). -/
def execTcModulusSet (c : Call) (part index q logn fmt psi tw : Nat) (s : State) : Host.Outcome State Fault Refusal :=
  s.on fun t => t.served c (tcModulusSet c part index q logn fmt psi tw)

/-- TC_MODULUS_CLEAR: Clears a shadow entry and frees its twiddle set when unused (R60). -/
def execTcModulusClear (c : Call) (part index : Nat) (s : State) : Host.Outcome State Fault Refusal :=
  s.on fun t => t.served c (tcModulusClear c part index)

/-- TC_CHAIN_SET: Checks and writes a shadow chain descriptor (R46). -/
def execTcChainSet (c : Call) (part chain qcount pcount : Nat) (index : List Nat) (s : State) : Host.Outcome State Fault Refusal :=
  s.on fun t => t.served c (tcChainSet c part chain qcount pcount index)

/-- TC_CHAIN_CLEAR: Clears a shadow chain (R60). -/
def execTcChainClear (c : Call) (part chain : Nat) (s : State) : Host.Outcome State Fault Refusal :=
  s.on fun t => t.served c (tcChainClear c part chain)

/-- TC_MODULUS_GET: Returns the active and shadow values of an entry or chain (R48). -/
def execTcModulusGet (c : Call) (part index : Nat) (isChain : Bool) (s : State) : Host.Outcome State Fault Refusal :=
  s.on fun t => t.served c (tcModulusGet c part index isChain)

/-- TC_CONTAINER_CHECK: Runs the container checks and returns the status and failing step (R83). -/
def execTcContainerCheck (c : Call) (part handle offset : Nat) (s : State) : Host.Outcome State Fault Refusal :=
  s.on fun t => t.served c (tcContainerCheck c part handle offset)

/-- TC_CONTAINER_SIZE: Returns the container size computed from a header image (R72). -/
def execTcContainerSize (c : Call) (header : List Byte) (s : State) : Host.Outcome State Fault Refusal :=
  s.on fun t => t.served c (tcContainerSize c header)

/-- TC_PLAN_INSTALL: Validates a Plan Image, loads its segments and returns an install slot (R109). -/
def execTcPlanInstall (c : Call) (part image : Nat) (plateMap : List Nat) (table : Nat) (debug : Bool) (s : State) : Host.Outcome State
    Fault Refusal :=
  s.on fun t => t.served c (tcPlanInstall c part image plateMap table debug)

/-- TC_PLAN_START: Binds containers and queues a plan to the service scheduler (R453). -/
def execTcPlanStart (c : Call) (part : Nat) (target : Target) (handles : List Nat) (s : State) : Host.Outcome State Fault Refusal :=
  s.on fun t => t.served c (tcPlanStart c part target handles)

/-- TC_PLAN_REMOVE: Removes a plan, effective at its FINAL stitch point if running (R120). -/
def execTcPlanRemove (c : Call) (part slot : Nat) (s : State) : Host.Outcome State Fault Refusal :=
  s.on fun t => t.served c (tcPlanRemove c part slot)

/-- TC_PLAN_QUERY: Returns plan hash, binding, state and last status (R88). -/
def execTcPlanQuery (c : Call) (part slot : Nat) (s : State) : Host.Outcome State Fault Refusal :=
  s.on fun t => t.served c (tcPlanQuery c part slot)

/-- TC_SCRIBER_QUERY: Returns a cell's Scriber state (R157). -/
def execTcScriberQuery (c : Call) (part cell : Nat) (s : State) : Host.Outcome State Fault Refusal :=
  s.on fun t => t.served c (tcScriberQuery c part cell)

/-- TC_PS_QUERY: Returns a cell's Press and Stipple queue, tap and counter state (R180). -/
def execTcPsQuery (c : Call) (part cell : Nat) (s : State) : Host.Outcome State Fault Refusal :=
  s.on fun t => t.served c (tcPsQuery c part cell)

/-- TC_ENGINE_STORE: Writes a gather table or seed slot into the shadow bank (R202). -/
def execTcEngineStore (c : Call) (part mask id : Nat) (item : StoreItem) (s : State) : Host.Outcome State Fault Refusal :=
  s.on fun t => t.served c (tcEngineStore c part mask id item)

/-- TC_ENGINE_QUERY: Returns engine queue depths, store occupancy and counters (R211). -/
def execTcEngineQuery (c : Call) (part swatch : Nat) (s : State) : Host.Outcome State Fault Refusal :=
  s.on fun t => t.served c (tcEngineQuery c part swatch)

/-- TC_SPOOL_QUERY: Returns a cell's Spool thread state (R267). -/
def execTcSpoolQuery (c : Call) (part cell : Nat) (s : State) : Host.Outcome State Fault Refusal :=
  s.on fun t => t.served c (tcSpoolQuery c part cell)

/-- TC_LINING_RETIRE: Adds a Lining block to the plate's retired list (R233). -/
def execTcLiningRetire (c : Call) (plate block : Nat) (s : State) : Host.Outcome State Fault Refusal :=
  s.on fun t => t.served c (tcLiningRetire c plate block)

/-- TC_MEM_QUERY: Returns Pad and Lining error counts, key window and free lines (R244). -/
def execTcMemQuery (c : Call) (part plate : Nat) (s : State) : Host.Outcome State Fault Refusal :=
  s.on fun t => t.served c (tcMemQuery c part plate)

/-- TC_PAGE_RETIRE: Adds a run of HBM pages to the stack's retired list (R284). -/
def execTcPageRetire (c : Call) (stack first count : Nat) (s : State) : Host.Outcome State Fault Refusal :=
  s.on fun t => t.served c (tcPageRetire c stack first count)

/-- TC_HBM_QUERY: Returns a stack's state, error records and retired list (R295). -/
def execTcHbmQuery (c : Call) (stack : Nat) (s : State) : Host.Outcome State Fault Refusal :=
  s.on fun t => t.served c (tcHbmQuery c stack)

/-- TC_SEAM_QUERY: Returns a Seam port's state, maps and counters (R323). -/
def execTcSeamQuery (c : Call) (plate port : Nat) (s : State) : Host.Outcome State Fault Refusal :=
  s.on fun t => t.served c (tcSeamQuery c plate port)

/-- TC_SEAM_TEST: Runs the interconnect test on an idle port (R318). -/
def execTcSeamTest (c : Call) (plate port phases d : Nat) (s : State) : Host.Outcome State Fault Refusal :=
  s.on fun t => t.served c (tcSeamTest c plate port phases d)

/-- SEAM_TEST_DONE: An interconnect test completes with per-lane results and the port retrains (R314). -/
def execSeamTestDone (plate : BitVec 3) (port : BitVec 2) (failed : List LaneResult) (margins : List Nat) (s : State) : Host.Outcome State
    Fault Refusal :=
  s.on fun t => t.live (seamTestDone plate port failed margins)

/-- TC_SEAM_LANE_RETIRE: Adds a Seam lane to the User Ledger and fails it if in use (R323). -/
def execTcSeamLaneRetire (c : Call) (plate port dir lane : Nat) (s : State) : Host.Outcome State Fault Refusal :=
  s.on fun t => t.served c (tcSeamLaneRetire c plate port dir lane)

/-- TC_PLATE_RECOVER: Performs a Plate reset of an offline plate over any route that trains (R311). -/
def execTcPlateRecover (c : Call) (plate : Nat) (s : State) : Host.Outcome State Fault Refusal :=
  s.on fun t => t.served c (tcPlateRecover c plate)

/-- TC_FABRIC_JOIN: Sets the package id and fabric list and retrains every link (R355). -/
def execTcFabricJoin (c : Call) (id : Nat) (list : List (Nat × Nat)) (lock : Bool) (s : State) : Host.Outcome State Fault Refusal :=
  s.on fun t => t.served c (tcFabricJoin c id list lock)

/-- TC_ROUTE_SET: Writes one Selvage route entry (R327). -/
def execTcRouteSet (c : Call) (dest mask : Nat) (s : State) : Host.Outcome State Fault Refusal :=
  s.on fun t => t.served c (tcRouteSet c dest mask)

/-- TC_SLV_QUERY: Returns a Selvage link's state, peer and counters (R353). -/
def execTcSlvQuery (c : Call) (link : Nat) (s : State) : Host.Outcome State Fault Refusal :=
  s.on fun t => t.served c (tcSlvQuery c link)

/-- TC_SLV_TEST: Runs the link test phases on a link with no units held (R352). -/
def execTcSlvTest (c : Call) (link phases d : Nat) (s : State) : Host.Outcome State Fault Refusal :=
  s.on fun t => t.served c (tcSlvTest c link phases d)

/-- TC_SLV_LANE_RETIRE: Adds a Selvage lane to the User Ledger (R338). -/
def execTcSlvLaneRetire (c : Call) (link dir lane : Nat) (s : State) : Host.Outcome State Fault Refusal :=
  s.on fun t => t.served c (tcSlvLaneRetire c link dir lane)

/-- TC_OWNER_SET: Writes owner-table entries to the shadow copy and replicates them (R342). -/
def execTcOwnerSet (c : Call) (part table block : Nat) (entry : OwnerEntry) (s : State) : Host.Outcome State Fault Refusal :=
  s.on fun t => t.served c (tcOwnerSet c part table block entry)

/-- TC_TOKEN_GATE: Arms a fabric token gate on an install slot (R334). -/
def execTcTokenGate (c : Call) (part slot token value version timeout : Nat) (s : State) : Host.Outcome State Fault Refusal :=
  s.on fun t => t.served c (tcTokenGate c part slot token value version timeout)

/-- TC_FABRIC_FETCH: Copies a remote block into a local buffer as service traffic (R352). -/
def execTcFabricFetch (c : Call) (part table block local_ : Nat) (remote : List Byte) (s : State) : Host.Outcome State Fault Refusal :=
  s.on fun t => t.served c (tcFabricFetch c part table block local_ remote)

end Sys2Proof.Machine
end

