-- ==== Sys2Proof/Machine/CmdCallsB.lean ====
section
/-! DEFINITION. Tailor calls: partitions, resets, power, Ledgers, buffers, keys, services (groups 08 to 0B). Each command with the
conditions under which the package takes it. -/

namespace Sys2Proof.Machine

/-- TC_PARTITION_CREATE: Forms a partition from a set of idle swatches (R356). -/
def execTcPartitionCreate (c : Call) (part mask : Nat) (grow : Bool) (s : State) : Host.Outcome State Fault Refusal :=
  s.on fun t => t.served c (tcPartitionCreate c part mask grow)

/-- TC_PARTITION_GROW: Adds idle swatches to a partition after loading its state (R358). -/
def execTcPartitionGrow (c : Call) (part mask : Nat) (s : State) : Host.Outcome State Fault Refusal :=
  s.on fun t => t.served c (tcPartitionGrow c part mask)

/-- TC_PARTITION_SHRINK: Removes unused swatches from a partition and scrubs them (R378). -/
def execTcPartitionShrink (c : Call) (part mask : Nat) (s : State) : Host.Outcome State Fault Refusal :=
  s.on fun t => t.served c (tcPartitionShrink c part mask)

/-- TC_PARTITION_DESTROY: Resets and ends a partition, releasing its plans and grants (R379). -/
def execTcPartitionDestroy (c : Call) (part : Nat) (s : State) : Host.Outcome State Fault Refusal :=
  s.on fun t => t.served c (tcPartitionDestroy c part)

/-- TC_PARTITION_QUERY: Returns a partition's swatches, state, pacing and grants (R380). -/
def execTcPartitionQuery (c : Call) (part : Nat) (s : State) : Host.Outcome State Fault Refusal :=
  s.on fun t => t.served c (tcPartitionQuery c part)

/-- TC_SPLIT_SET: Sets one grant under admission and runs rebalance (R366). -/
def execTcSplitSet (c : Call) (part resource cls units : Nat) (strict : Bool) (s : State) : Host.Outcome State Fault Refusal :=
  s.on fun t => t.served c (tcSplitSet c part resource cls units strict)

/-- TC_SPLIT_QUERY: Returns a resource's capacity, charges and per-partition grants (R380). -/
def execTcSplitQuery (c : Call) (resource : Nat) (s : State) : Host.Outcome State Fault Refusal :=
  s.on fun t => t.served c (tcSplitQuery c resource)

/-- TC_PARTITION_RESET: Runs the ordered partition reset (R395). -/
def execTcPartitionReset (c : Call) (part : Nat) (s : State) : Host.Outcome State Fault Refusal :=
  s.on fun t => t.served c (tcPartitionReset c part)

/-- TC_PLATE_RESET: Runs a Plate reset (R397). -/
def execTcPlateReset (c : Call) (plate : Nat) (s : State) : Host.Outcome State Fault Refusal :=
  s.on fun t => t.served c (tcPlateReset c plate)

/-- TC_COLLAR_RESET: Runs a Collar warm reset after the call returns (R398). -/
def execTcCollarReset (c : Call) (s : State) : Host.Outcome State Fault Refusal :=
  s.on fun t => t.served c (tcCollarReset c)

/-- TC_EVENT_ROUTE: Writes one event route and sets ARMED for its vector (R388). -/
def execTcEventRoute (c : Call) (function ev vector : Nat) (enable : Bool) (s : State) : Host.Outcome State Fault Refusal :=
  s.on fun t => t.served c (tcEventRoute c function ev vector enable)

/-- TC_POWER_POLICY: Sets a partition's power FLOOR and delays (R417). -/
def execTcPowerPolicy (c : Call) (part floor nap rest : Nat) (s : State) : Host.Outcome State Fault Refusal :=
  s.on fun t => t.served c (tcPowerPolicy c part floor nap rest)

/-- TC_PLATE_POWER: Allows or forbids Plate Off for a plate (R418). -/
def execTcPlatePower (c : Call) (plate : Nat) (allow : Bool) (delay : Nat) (s : State) : Host.Outcome State Fault Refusal :=
  s.on fun t => t.served c (tcPlatePower c plate allow delay)

/-- TC_POWER_LIMIT: Sets PWR_LIMIT (R424). -/
def execTcPowerLimit (c : Call) (watts : Nat) (s : State) : Host.Outcome State Fault Refusal :=
  s.on fun t => t.served c (tcPowerLimit c watts)

/-- TC_POWER_QUERY: Returns power state, policy, reload bytes and wake bound (R416). -/
def execTcPowerQuery (c : Call) (plate : Bool) (index : Nat) (s : State) : Host.Outcome State Fault Refusal :=
  s.on fun t => t.served c (tcPowerQuery c plate index)

/-- TC_THERMAL_QUERY: Returns temperatures, thermal figures and heat suspensions (R421). -/
def execTcThermalQuery (c : Call) (s : State) : Host.Outcome State Fault Refusal :=
  s.on fun t => t.served c (tcThermalQuery c)

/-- TC_LEDGER_GET: Returns factory, user and effective values of a Ledger item (R427). -/
def execTcLedgerGet (c : Call) (item index : Nat) (s : State) : Host.Outcome State Fault Refusal :=
  s.on fun t => t.served c (tcLedgerGet c item index)

/-- TC_LEDGER_SET: Sets user offsets or adds retirements (R427). -/
def execTcLedgerSet (c : Call) (items : List (Nat × Nat × Int)) (s : State) : Host.Outcome State Fault Refusal :=
  s.on fun t => t.served c (tcLedgerSet c items)

/-- TC_LEDGER_COMMIT: Writes the User Ledger registers to flash as a new image (R430). -/
def execTcLedgerCommit (c : Call) (s : State) : Host.Outcome State Fault Refusal :=
  s.on fun t => t.served c (tcLedgerCommit c)

/-- TC_CELL_RETIRE: Retires one cell, changing the defect map and Configuration ID (R429). -/
def execTcCellRetire (c : Call) (cell : Nat) (force : Bool) (s : State) : Host.Outcome State Fault Refusal :=
  s.on fun t => t.served c (tcCellRetire c cell force)

/-- TC_BUF_ALLOC: Allocates a buffer and returns a handle and address (R447). -/
def execTcBufAlloc (c : Call) (part kind place bolts : Nat) (priv : Bool) (s : State) : Host.Outcome State Fault Refusal :=
  s.on fun t => t.served c (tcBufAlloc c part kind place bolts priv)

/-- TC_BUF_FREE: Releases a buffer and advances its handle generation (R448). -/
def execTcBufFree (c : Call) (handle : Nat) (s : State) : Host.Outcome State Fault Refusal :=
  s.on fun t => t.served c (tcBufFree c handle)

/-- TC_BUF_SHARE: Grants a local or remote party access to a buffer range (R451). -/
def execTcBufShare (c : Call) (handle : Nat) (fabric : Bool) (package part first bolts : Nat) (read add write : Bool) (token : Nat) (s :
    State) : Host.Outcome State Fault Refusal :=
  s.on fun t => t.served c (tcBufShare c handle fabric package part first bolts read add write token)

/-- TC_BUF_REVOKE: Ends a buffer grant (R451). -/
def execTcBufRevoke (c : Call) (handle : Nat) (s : State) : Host.Outcome State Fault Refusal :=
  s.on fun t => t.served c (tcBufRevoke c handle)

/-- TC_BUF_QUERY: Returns a buffer's description (R447). -/
def execTcBufQuery (c : Call) (handle : Nat) (s : State) : Host.Outcome State Fault Refusal :=
  s.on fun t => t.served c (tcBufQuery c handle)

/-- TC_QUOTA_SET: Sets a partition's quotas (R450). -/
def execTcQuotaSet (c : Call) (part : Nat) (hbm keyLines lining : List Nat) (control handles maxOpen : Nat) (s : State) : Host.Outcome State
    Fault Refusal :=
  s.on fun t => t.served c (tcQuotaSet c part hbm keyLines lining control handles maxOpen)

/-- TC_KEY_REGISTER: Registers a key container held in an HBM buffer (R459). -/
def execTcKeyRegister (c : Call) (part handle bundle : Nat) (s : State) : Host.Outcome State Fault Refusal :=
  s.on fun t => t.served c (tcKeyRegister c part handle bundle)

/-- TC_KEY_EVICT: Removes a key registration unless a plan names it (R459). -/
def execTcKeyEvict (c : Call) (part keyId : Nat) (s : State) : Host.Outcome State Fault Refusal :=
  s.on fun t => t.served c (tcKeyEvict c part keyId)

/-- TC_KEY_QUERY: Returns the key registry (R459). -/
def execTcKeyQuery (c : Call) (part : Nat) (s : State) : Host.Outcome State Fault Refusal :=
  s.on fun t => t.served c (tcKeyQuery c part)

/-- TC_SERVICE_DEFINE: Creates a service with candidates, limits and Handoff policy (R454). -/
def execTcServiceDefine (c : Call) (part service : Nat) (slots : List Nat) (maxOpen kind : Nat) (policy : HandoffPolicy) (s : State) :
    Host.Outcome State Fault Refusal :=
  s.on fun t => t.served c (tcServiceDefine c part service slots maxOpen kind policy)

/-- TC_SERVICE_REMOVE: Ends admission for a service (R467). -/
def execTcServiceRemove (c : Call) (part service : Nat) (s : State) : Host.Outcome State Fault Refusal :=
  s.on fun t => t.served c (tcServiceRemove c part service)

/-- TC_SERVICE_QUERY: Returns a service's definition (R454). -/
def execTcServiceQuery (c : Call) (part service : Nat) (s : State) : Host.Outcome State Fault Refusal :=
  s.on fun t => t.served c (tcServiceQuery c part service)

/-- TC_RECEIPT_GET: Returns a held receipt (R464). -/
def execTcReceiptGet (c : Call) (part request : Nat) (s : State) : Host.Outcome State Fault Refusal :=
  s.on fun t => t.served c (tcReceiptGet c part request)

/-- TC_TIME_SET: Sets the device time base (R463). -/
def execTcTimeSet (c : Call) (time : Nat) (s : State) : Host.Outcome State Fault Refusal :=
  s.on fun t => t.served c (tcTimeSet c time)

/-- TC_BUF_ALLOC_AT: Expert allocation at a given device physical address (R474). -/
def execTcBufAllocAt (c : Call) (part addr bolts : Nat) (s : State) : Host.Outcome State Fault Refusal :=
  s.on fun t => t.served c (tcBufAllocAt c part addr bolts)

/-- TC_SCHED_HOLD: Expert hold or resume of the service scheduler for a partition (R474). -/
def execTcSchedHold (c : Call) (part : Nat) (hold : Bool) (s : State) : Host.Outcome State Fault Refusal :=
  s.on fun t => t.served c (tcSchedHold c part hold)

end Sys2Proof.Machine
end

