-- ==== Sys2Proof/Machine/CmdCallsC.lean ====
section
/-! DEFINITION. Tailor calls: KRP, the Seal, the host interface, bring-up (groups 0C to 0F). Each command with the conditions under which
the package takes it. -/

namespace Sys2Proof.Machine

/-- TC_KRP_PORT_SET: Configures one Ethernet port for KRP (R475). -/
def execTcKrpPortSet (c : Call) (port addr4 addr6 udp vlan gap : Nat) (persist : Bool) (s : State) : Host.Outcome State Fault Refusal :=
  s.on fun t => t.served c (tcKrpPortSet c port addr4 addr6 udp vlan gap persist)

/-- TC_KRP_CLIENT_SET: Adds or replaces a KRP client entry (R480). -/
def execTcKrpClientSet (c : Call) (client : KrpClient) (s : State) : Host.Outcome State Fault Refusal :=
  s.on fun t => t.served c (tcKrpClientSet c client)

/-- TC_KRP_CLIENT_REMOVE: Removes a client entry and closes its sessions (R496). -/
def execTcKrpClientRemove (c : Call) (keyId : Nat) (s : State) : Host.Outcome State Fault Refusal :=
  s.on fun t => t.served c (tcKrpClientRemove c keyId)

/-- TC_KRP_SESSION_QUERY: Returns a partition's KRP sessions and counters (R501). -/
def execTcKrpSessionQuery (c : Call) (part : Nat) (s : State) : Host.Outcome State Fault Refusal :=
  s.on fun t => t.served c (tcKrpSessionQuery c part)

/-- TC_KRP_SESSION_CLOSE: Closes a KRP session with CLOSE reason 0 (R495). -/
def execTcKrpSessionClose (c : Call) (session : Nat) (s : State) : Host.Outcome State Fault Refusal :=
  s.on fun t => t.served c (tcKrpSessionClose c session)

/-- TC_SEAL_QUERY: Returns Seal queue, TRNG health, algorithms and SVN counters (R503). -/
def execTcSealQuery (c : Call) (s : State) : Host.Outcome State Fault Refusal :=
  s.on fun t => t.served c (tcSealQuery c)

/-- TC_ATTEST: Returns a signed attestation report over a nonce (R519). -/
def execTcAttest (c : Call) (nonce : List Byte) (s : State) : Host.Outcome State Fault Refusal :=
  s.on fun t => t.served c (tcAttest c nonce)

/-- TC_MEAS_LOG: Returns plan log records and running digests (R518). -/
def execTcMeasLog (c : Call) (first count : Nat) (s : State) : Host.Outcome State Fault Refusal :=
  s.on fun t => t.served c (tcMeasLog c first count)

/-- TC_LIFECYCLE_SET: Makes a lifecycle transition under its conditions (R521). -/
def execTcLifecycleSet (c : Call) (target : Nat) (token : Token) (s : State) : Host.Outcome State Fault Refusal :=
  s.on fun t => t.served c (tcLifecycleSet c target token)

/-- TC_POLICY_SET: Changes LDG_POLICY and signer lists under a token (R523). -/
def execTcPolicySet (c : Call) (value : Nat) (lock : Bool) (token : Token) (s : State) : Host.Outcome State Fault Refusal :=
  s.on fun t => t.served c (tcPolicySet c value lock token)

/-- TC_POLICY_KEY_SET: Fuses or revokes a policy key slot (R523). -/
def execTcPolicyKeySet (c : Call) (slot : Nat) (key : Option (List Byte)) (token : Token) (s : State) : Host.Outcome State Fault Refusal :=
  s.on fun t => t.served c (tcPolicyKeySet c slot key token)

/-- TC_SIGNER_SET: Writes one plan-signer or key-signer slot (R525). -/
def execTcSignerSet (c : Call) (keyKind : Bool) (slot alg : Nat) (key : List Byte) (mask : Nat) (enable : Bool) (token : Token) (s : State)
    : Host.Outcome State Fault Refusal :=
  s.on fun t => t.served c (tcSignerSet c keyKind slot alg key mask enable token)

/-- TC_SVN_COMMIT: Raises each SVN counter to the running image's SVN (R514). -/
def execTcSvnCommit (c : Call) (s : State) : Host.Outcome State Fault Refusal :=
  s.on fun t => t.served c (tcSvnCommit c)

/-- TC_SEAL_KAT: Expert rerun of the Seal known-answer tests (R538). -/
def execTcSealKat (c : Call) (failed : List (BitVec 4)) (s : State) : Host.Outcome State Fault Refusal :=
  s.on fun t => t.served c (tcSealKat c failed)

/-- TC_TRNG_RAW: Expert return of raw samples from one noise source (R538). -/
def execTcTrngRaw (c : Call) (source count : Nat) (s : State) : Host.Outcome State Fault Refusal :=
  s.on fun t => t.served c (tcTrngRaw c source count)

/-- TC_RING_SET: Configures a ring pair and makes the caller its owner (R557). -/
def execTcRingSet (c : Call) (part ring : Nat) (krp : Bool) (sqBase sqSize cqBase cqSize : Nat) (s : State) : Host.Outcome State Fault
    Refusal :=
  s.on fun t => t.served c (tcRingSet c part ring krp sqBase sqSize cqBase cqSize)

/-- TC_RING_QUERY: Returns a ring pair's configuration and state (R576). -/
def execTcRingQuery (c : Call) (part ring : Nat) (s : State) : Host.Outcome State Fault Refusal :=
  s.on fun t => t.served c (tcRingQuery c part ring)

/-- TC_WINDOW_MAP: Maps a BAR2 aperture to a buffer (R554). -/
def execTcWindowMap (c : Call) (function aperture handle offset : Nat) (s : State) : Host.Outcome State Fault Refusal :=
  s.on fun t => t.served c (tcWindowMap c function aperture handle offset)

/-- TC_WINDOW_UNMAP: Unmaps a BAR2 aperture (R570). -/
def execTcWindowUnmap (c : Call) (function aperture : Nat) (s : State) : Host.Outcome State Fault Refusal :=
  s.on fun t => t.served c (tcWindowUnmap c function aperture)

/-- TC_WINDOW_QUERY: Returns a function's aperture mappings (R576). -/
def execTcWindowQuery (c : Call) (function : Nat) (s : State) : Host.Outcome State Fault Refusal :=
  s.on fun t => t.served c (tcWindowQuery c function)

/-- TC_WINDOW_MAP_PHYS: Expert mapping of an aperture to a device physical address (R577). -/
def execTcWindowMapPhys (c : Call) (aperture addr : Nat) (s : State) : Host.Outcome State Fault Refusal :=
  s.on fun t => t.served c (tcWindowMapPhys c aperture addr)

/-- TC_GRADE_QUERY: Returns grade, swatches in service and self-test results (R601). -/
def execTcGradeQuery (c : Call) (s : State) : Host.Outcome State Fault Refusal :=
  s.on fun t => t.served c (tcGradeQuery c)

/-- TC_SELFTEST: Runs the swatch self-test on named idle swatches (R581). -/
def execTcSelftest (c : Call) (mask : Nat) (s : State) : Host.Outcome State Fault Refusal :=
  s.on fun t => t.served c (tcSelftest c mask)

/-- SELFTEST_DONE: A swatch self-test completes and sets its service state (R581). -/
def execSelftestDone (swatch : BitVec 6) (failing : List Nat) (s : State) : Host.Outcome State Fault Refusal :=
  s.on fun t => t.live (selftestDone swatch failing)

/-- TC_ERROR_LOG: Returns error log records (R598). -/
def execTcErrorLog (c : Call) (first count : Nat) (flash : Bool) (s : State) : Host.Outcome State Fault Refusal :=
  s.on fun t => t.served c (tcErrorLog c first count flash)

/-- TC_ERRLOG_CLEAR: Expert erase of the flash ring of fatal records (R602). -/
def execTcErrlogClear (c : Call) (s : State) : Host.Outcome State Fault Refusal :=
  s.on fun t => t.served c (tcErrlogClear c)

end Sys2Proof.Machine
end

