-- ==== Sys2Proof/Machine/CmdEngines.lean ====
section
/-! DEFINITION. The engines of a cell and a panel: Press, Stipple, Burin, Hatch, Weft (chapters 6 and 7). Each command with the conditions
under which the package takes it. -/

namespace Sys2Proof.Machine

/-- MMA: Press multiply-accumulates COUNT steps of two Pad streams into its accumulators (R162). -/
def execMma (i : Issuer) (m18 : Bool) (ga gb : BitVec 4) (count : BitVec 9) (s : State) : Host.Outcome State Fault Refusal :=
  s.on fun t => t.live (pressMma i m18 ga gb count)

/-- MMA_STEP: One MMA step accumulates its products at its fixed F-cycle (R162). -/
def execMmaStep (i : Issuer) (s : State) : Host.Outcome State Fault Refusal :=
  s.on fun t => t.live (mmaStepEvent i)

/-- DRAIN: Press reads, clears and reduces every accumulator to the Pad or the tap (R163). -/
def execDrain (i : Issuer) (m18 tap rowmod : Bool) (gd : BitVec 4) (entry : BitVec 10) (s : State) : Host.Outcome State Fault Refusal :=
  s.on fun t => t.live (pressDrain i m18 tap rowmod gd entry)

/-- DRAIN_WORD_LAND: A drained wide word lands in the Pad or becomes readable in the tap (R164). -/
def execDrainWordLand (i : Issuer) (s : State) : Host.Outcome State Fault Refusal :=
  s.on fun t => t.live (drainWordEvent i)

/-- ZERO: Press clears every accumulator (R164). -/
def execZero (i : Issuer) (s : State) : Host.Outcome State Fault Refusal :=
  s.on fun t => t.live (pressZero i)

/-- TAPREL: Press releases the tap lock and clears the accumulators (R164). -/
def execTaprel (i : Issuer) (s : State) : Host.Outcome State Fault Refusal :=
  s.on fun t => t.live (pressTapRel i)

/-- ENGINE_START: A queued engine instruction starts when the previous one ends its occupancy (R161). -/
def execEngineStart (i : Issuer) (panel : BitVec 3) (engine : EngineName) (s : State) : Host.Outcome State Fault Refusal :=
  s.on fun t => t.live (engineStart i panel engine)

/-- MADD: Stipple modular add over COUNT groups (R167). -/
def execMadd (i : Issuer) (f : StipFields) (s : State) : Host.Outcome State Fault Refusal :=
  s.on fun t => t.live (stipIssue .madd i f)

/-- MSUB: Stipple modular subtract over COUNT groups (R167). -/
def execMsub (i : Issuer) (f : StipFields) (s : State) : Host.Outcome State Fault Refusal :=
  s.on fun t => t.live (stipIssue .msub i f)

/-- MNEG: Stipple modular negate over COUNT groups (R167). -/
def execMneg (i : Issuer) (f : StipFields) (s : State) : Host.Outcome State Fault Refusal :=
  s.on fun t => t.live (stipIssue .mneg i f)

/-- MMUL: Stipple modular multiply over COUNT groups (R167). -/
def execMmul (i : Issuer) (f : StipFields) (s : State) : Host.Outcome State Fault Refusal :=
  s.on fun t => t.live (stipIssue .mmul i f)

/-- MMAD: Stipple modular multiply-add over COUNT groups (R167). -/
def execMmad (i : Issuer) (f : StipFields) (s : State) : Host.Outcome State Fault Refusal :=
  s.on fun t => t.live (stipIssue .mmad i f)

/-- MMSB: Stipple modular multiply-subtract over COUNT groups (R167). -/
def execMmsb (i : Issuer) (f : StipFields) (s : State) : Host.Outcome State Fault Refusal :=
  s.on fun t => t.live (stipIssue .mmsb i f)

/-- RESC: Stipple rescale correction in one pass (R167). -/
def execResc (i : Issuer) (f : StipFields) (s : State) : Host.Outcome State Fault Refusal :=
  s.on fun t => t.live (stipIssue .resc i f)

/-- RED: Stipple reduces a residue into another limb's modulus (R167). -/
def execRed (i : Issuer) (f : StipFields) (s : State) : Host.Outcome State Fault Refusal :=
  s.on fun t => t.live (stipIssue .red i f)

/-- MOVE: Stipple copies bits unchanged (R167). -/
def execMove (i : Issuer) (f : StipFields) (s : State) : Host.Outcome State Fault Refusal :=
  s.on fun t => t.live (stipIssue .move i f)

/-- DIGIT: Stipple extracts a bit field with a broadcast shift and width (R167). -/
def execDigit (i : Issuer) (f : StipFields) (s : State) : Host.Outcome State Fault Refusal :=
  s.on fun t => t.live (stipIssue .digit i f)

/-- STIPPLE_GROUP: One Stipple group's destination rows land at the end of its latency (R167). -/
def execStippleGroup (i : Issuer) (s : State) : Host.Outcome State Fault Refusal :=
  s.on fun t => t.live (stipGroupEvent i)

/-- NTT: Burin forward transform of COUNT blocks in place (R187). -/
def execNtt (i : Issuer) (gd gk gp logm : BitVec 4) (sstart : BitVec 5) (s : State) : Host.Outcome State Fault Refusal :=
  s.on fun t => t.live (burinIssue false i gd gk gp logm sstart)

/-- INTT: Burin inverse transform of COUNT blocks in place, with optional NINV scaling (R187). -/
def execIntt (i : Issuer) (gd gk gp logm : BitVec 4) (sstart : BitVec 5) (s : State) : Host.Outcome State Fault Refusal :=
  s.on fun t => t.live (burinIssue true i gd gk gp logm sstart)

/-- BURIN_ROW_WRITE: A transformed Burin row is written at its fixed F-cycle (R188). -/
def execBurinRowWrite (i : Issuer) (s : State) : Host.Outcome State Fault Refusal :=
  s.on fun t => t.live (burinRowEvent i)

/-- AUTO: Hatch runs one stage of the automorphism route for k (R192). -/
def execAuto (i : Issuer) (stage span m18 : Bool) (logn : BitVec 3) (gs gd gp : BitVec 4) (s : State) : Host.Outcome State Fault Refusal :=
  s.on fun t => t.live (hatchIssue (.auto stage span m18 logn) i gs gd gp)

/-- TRANS: Hatch exchanges cell bits and word bits across a panel (R193). -/
def execTrans (i : Issuer) (beta pos : BitVec 3) (oc : BitVec 2) (gs gd gp : BitVec 4) (s : State) : Host.Outcome State Fault Refusal :=
  s.on fun t => t.live (hatchIssue (.trans beta pos oc) i gs gd gp)

/-- BREV: Hatch moves rows to the bit-reversed cell (R191). -/
def execBrev (i : Issuer) (gs gd gp : BitVec 4) (s : State) : Host.Outcome State Fault Refusal :=
  s.on fun t => t.live (hatchIssue .brev i gs gd gp)

/-- GATHER: Hatch gathers words by a loaded table (R191). -/
def execGather (i : Issuer) (table gs gd gp : BitVec 4) (s : State) : Host.Outcome State Fault Refusal :=
  s.on fun t => t.live (hatchIssue (.gather table) i gs gd gp)

/-- HATCH_ROW_LAND: Hatch destination rows land at the end of their latency (R193). -/
def execHatchRowLand (i : Issuer) (panel : BitVec 3) (s : State) : Host.Outcome State Fault Refusal :=
  s.on fun t => t.live (hatchRowEvent i panel)

/-- EXPAND: Weft regenerates seeded limbs from a seed slot (R200). -/
def execExpand (i : Issuer) (slot : BitVec 5) (gd gp : BitVec 4) (s : State) : Host.Outcome State Fault Refusal :=
  s.on fun t => t.live (weftIssue (.expand slot) i gd gp)

/-- SAMPLE: Weft samples uniform, ternary or Gaussian coefficients from the panel DRBG (R198). -/
def execSample (i : Issuer) (dist : BitVec 2) (gd gp : BitVec 4) (s : State) : Host.Outcome State Fault Refusal :=
  s.on fun t => t.live (weftIssue (.sample dist) i gd gp)

/-- WEFT_ROW_LAND: A Weft output row lands in every cell of the panel (R200). -/
def execWeftRowLand (i : Issuer) (panel : BitVec 3) (s : State) : Host.Outcome State Fault Refusal :=
  s.on fun t => t.live (weftRowEvent i panel)

end Sys2Proof.Machine
end

