-- ==== Sys2Proof/Machine/CmdHost.lean ====
section
/-! DEFINITION. The host interface: MSI-X, rings, windows, PCIe (chapters 14 and 20). Each command with the conditions under which the
package takes it. -/

namespace Sys2Proof.Machine

/-- MSIX_SEND: An asserted, armed, unmasked vector sends its MSI-X message (R387). -/
def execMsixSend (fn : Fn) (vector : BitVec 6) (s : State) : Host.Outcome State Fault Refusal :=
  s.on fun t => t.live (msixSend fn vector)

/-- MSIX_UNMASK: Clearing a vector mask sends a pending message (R388). -/
def execMsixUnmask (fn : Fn) (vector : BitVec 6) (s : State) : Host.Outcome State Fault Refusal :=
  s.on fun t => t.host fn (msixUnmask fn vector)

/-- SQ_DOORBELL: An SQ tail write signals new submission entries (R557). -/
def execSqDoorbell (fn : Fn) (part : BitVec 6) (ring : BitVec 3) (tail : BitVec 12) (s : State) : Host.Outcome State Fault Refusal :=
  s.on fun t => t.shown (sqDoorbell fn part ring tail)

/-- CQ_DOORBELL: A CQ head write releases consumed completion entries (R557). -/
def execCqDoorbell (fn : Fn) (part : BitVec 6) (ring : BitVec 3) (head : BitVec 12) (s : State) : Host.Outcome State Fault Refusal :=
  s.on fun t => t.shown (cqDoorbell fn part ring head)

/-- SQ_START: A START entry is admitted and bound as a request (R559). -/
def execSqStart (part : BitVec 6) (ring : BitVec 3) (reservedOk service : Bool) (target : BitVec 16) (tag : W32) (nhandles : Byte) (indirect
    : Bool) (handles : List W32) (s : State) : Host.Outcome State Fault Refusal :=
  s.on fun t => t.shown (sqStart part ring reservedOk service target tag nhandles indirect handles)

/-- SQ_FRAME_TX: A FRAME_TX entry hands one KRP frame from host memory (R559). -/
def execSqFrameTx (part : BitVec 6) (ring : BitVec 3) (reservedOk : Bool) (tag len : W32) (f : KrpFrame) (m : KrpMsg) (s : State) :
    Host.Outcome State Fault Refusal :=
  s.on fun t => t.shown (sqFrameTx part ring reservedOk tag len f m)

/-- SQ_RXBUF: An RXBUF entry posts a host buffer for one received frame (R559). -/
def execSqRxbuf (part : BitVec 6) (ring : BitVec 3) (reservedOk : Bool) (tag len : W32) (s : State) : Host.Outcome State Fault Refusal :=
  s.on fun t => t.shown (sqRxbuf part ring reservedOk tag len)

/-- SQ_NOP: A NOP entry completes at once (R559). -/
def execSqNop (part : BitVec 6) (ring : BitVec 3) (reservedOk : Bool) (tag : W32) (s : State) : Host.Outcome State Fault Refusal :=
  s.on fun t => t.shown (sqNop part ring reservedOk tag)

/-- RING_DMA_ERROR: A failed ring DMA halts the ring (R561). -/
def execRingDmaError (part : BitVec 6) (ring : BitVec 3) (write : Bool) (s : State) : Host.Outcome State Fault Refusal :=
  s.on fun t => t.shown (ringDmaError part ring write)

/-- WINDOW_READ: A host read through a BAR2 aperture (R555). -/
def execWindowRead (fn : Fn) (aperture : BitVec 10) (offset : BitVec 22) (n : Nat) (s : State) : Host.Outcome State Fault Refusal :=
  s.on fun t => t.shown (windowRead fn aperture offset n)

/-- WINDOW_WRITE: A host write through a BAR2 aperture (R555). -/
def execWindowWrite (fn : Fn) (aperture : BitVec 10) (offset : BitVec 22) (data : List Byte) (s : State) : Host.Outcome State Fault Refusal
    :=
  s.on fun t => t.shown (windowWrite fn aperture offset data)

/-- ATOMIC_OP: A host AtomicOp to control memory (R279). -/
def execAtomicOp (fn : Fn) (aperture : BitVec 10) (offset : BitVec 22) (bits64 : Bool) (op : AtomicOp) (s : State) : Host.Outcome State
    Fault Refusal :=
  s.on fun t => t.shown (atomicOp fn aperture offset bits64 op)

/-- PCIE_CONFIG_REQUEST: A configuration request, retried until phase 4 is done (R579). -/
def execPcieConfigRequest (fn : Fn) (op : ConfigOp) (s : State) : Host.Outcome State Fault Refusal :=
  s.on fun t => t.live (pcieConfigRequest fn op)

/-- BUS_MASTER_ENABLE_CHANGE: Bus Master Enable changes, stopping or resuming a function's DMA (R552). -/
def execBusMasterEnableChange (fn : Fn) (on : Bool) (s : State) : Host.Outcome State Fault Refusal :=
  s.on fun t => t.live (busMasterEnableChange fn on)

/-- PCIE_HOT_RESET: Hot Reset or Link Down resets PCIe configuration state only (R550). -/
def execPcieHotReset (s : State) : Host.Outcome State Fault Refusal :=
  s.on fun t => t.live pcieHotReset

/-- PF0_FLR: PF0 Function Level Reset stops PF0 rings and mailbox (R551). -/
def execPf0Flr (s : State) : Host.Outcome State Fault Refusal :=
  s.on fun t => t.live pf0Flr

/-- VF_FLR: A VF Function Level Reset runs a partition reset (R395). -/
def execVfFlr (vf : BitVec 6) (s : State) : Host.Outcome State Fault Refusal :=
  s.on fun t => t.reached (.vf vf.toNat) (vfFlr vf)

/-- PCIE_LINK_UP: The PCIe link completes training and window accesses and doorbells begin to be accepted (R575). -/
def execPcieLinkUp (speed : BitVec 3) (width : BitVec 5) (flit : Bool) (s : State) : Host.Outcome State Fault Refusal :=
  s.on fun t => t.live (pcieLinkUp speed width flit)

end Sys2Proof.Machine
end

