-- ==== Sys2Proof/Machine/CmdKrp.lean ====
section
/-! DEFINITION. The Kremal Request Protocol (chapter 17) and the timers of receipts and gates. Each command with the conditions under which
the package takes it. -/

namespace Sys2Proof.Machine

/-- OPEN_STAGE1: Client stage 1 is taken and the device answers with signed stage 2 (R479). -/
def execOpenStage1 (f : KrpFrame) (piece count : Nat) (body : List Byte) (s : State) : Host.Outcome State Fault Refusal :=
  s.on fun t => t.shown (krpReceive f (.open1 piece count body))

/-- OPEN_STAGE3: Client stage 3 is verified and the device answers stage 4 (R480). -/
def execOpenStage3 (f : KrpFrame) (piece count : Nat) (body : List Byte) (s : State) : Host.Outcome State Fault Refusal :=
  s.on fun t => t.shown (krpReceive f (.open3 piece count body))

/-- KEYS: A key upload announcement allocates a buffer for the transfer (R482). -/
def execKeys (f : KrpFrame) (id bytes : Nat) (header : List Byte) (s : State) : Host.Outcome State Fault Refusal :=
  s.on fun t => t.shown (krpReceive f (.keys id bytes header))

/-- SUBMIT: A request announcement is admitted, selects a plan and starts the wake (R483). -/
def execSubmit (f : KrpFrame) (id service : Nat) (inputs : List (Nat × List Byte)) (s : State) : Host.Outcome State Fault Refusal :=
  s.on fun t => t.shown (krpReceive f (.submit id service inputs))

/-- CHUNK: A chunk of an upload lands; a complete transfer is checked (R482). -/
def execChunk (f : KrpFrame) (id kind index seq : Nat) (data : List Byte) (s : State) : Host.Outcome State Fault Refusal :=
  s.on fun t => t.shown (krpReceive f (.chunk id kind index seq data))

/-- HANDOFF_IN: A refreshed envelope upload is announced for a Handoff round (R490). -/
def execHandoffIn (f : KrpFrame) (id round bytes : Nat) (header : List Byte) (s : State) : Host.Outcome State Fault Refusal :=
  s.on fun t => t.shown (krpReceive f (.handoffIn id round bytes header))

/-- CLOSE: A session closes, abandoning incomplete transfers (R495). -/
def execClose (f : KrpFrame) (s : State) : Host.Outcome State Fault Refusal :=
  s.on fun t => t.shown (krpReceive f .close)

/-- NACK_MISSING_RECEIVE: A client NACK MISSING makes the device resend listed chunks (R485). -/
def execNackMissingReceive (f : KrpFrame) (id stream index : Nat) (ranges : List (Nat × Nat)) (s : State) : Host.Outcome State Fault Refusal
    :=
  s.on fun t => t.shown (krpReceive f (.missing id stream index ranges))

/-- NACK_RESEND_RECEIVE: A client NACK RESEND makes the device resend a RECEIPT (R485). -/
def execNackResendReceive (f : KrpFrame) (id : Nat) (s : State) : Host.Outcome State Fault Refusal :=
  s.on fun t => t.shown (krpReceive f (.resend id))

/-- RESULT_CHUNK_SEND: The device sends the next RESULT or HANDOFF-OUT chunk at the paced rate (R485). -/
def execResultChunkSend (session : Nat) (s : State) : Host.Outcome State Fault Refusal :=
  s.on fun t => t.shown (resultChunkSend session)

/-- KRP_GAP_TIMER: A gap lasting GAP_TICKS sends NACK MISSING, failing after the eighth (R484). -/
def execKrpGapTimer (session id kind index : Nat) (s : State) : Host.Outcome State Fault Refusal :=
  s.on fun t => t.shown (krpGapTimer session id kind index)

/-- OPEN_PIECE_TIMEOUT: An OPEN stage whose pieces do not all arrive in time is discarded (R479). -/
def execOpenPieceTimeout (carrier : Carrier) (session : Nat) (s : State) : Host.Outcome State Fault Refusal :=
  s.on fun t => t.shown (openPieceTimeout carrier session)

/-- HALF_OPEN_EXPIRY: A session awaiting stage 3 expires (R492). -/
def execHalfOpenExpiry (session : Nat) (s : State) : Host.Outcome State Fault Refusal :=
  s.on fun t => t.shown (halfOpenExpiry session)

/-- SESSION_IDLE_TIMEOUT: An idle session is closed with reason 1 (R492). -/
def execSessionIdleTimeout (session : Nat) (s : State) : Host.Outcome State Fault Refusal :=
  s.on fun t => t.shown (sessionIdleTimeout session)

/-- KRP_SESSION_REKEY: At 2^36 frames the device sends CLOSE with reason REKEY (R481). -/
def execKrpSessionRekey (session : Nat) (s : State) : Host.Outcome State Fault Refusal :=
  s.on fun t => t.shown (krpSessionRekey session)

/-- HANDOFF_TIMEOUT: A Handoff round timer expires, zeroing the mask and ending the request (R491). -/
def execHandoffTimeout (request : Nat) (s : State) : Host.Outcome State Fault Refusal :=
  s.on fun t => t.shown (handoffTimeout request)

/-- NET_HOUSEKEEPING_FRAME: Tailor firmware answers NDP, ARP or ICMP echo (R475). -/
def execNetHousekeepingFrame (port : BitVec 1) (kind : HouseFrame) (s : State) : Host.Outcome State Fault Refusal :=
  s.on fun t => t.shown (netHousekeepingFrame port kind)

/-- RECEIPT_EXPIRY: A held receipt is released after its retention time (R464). -/
def execReceiptExpiry (part : BitVec 6) (id : Nat) (s : State) : Host.Outcome State Fault Refusal :=
  s.on fun t => t.live (receiptExpiry part id)

/-- TOKEN_GATE_TIMEOUT: A gate's timeout passes and its start returns ST_TIMEOUT (R334). -/
def execTokenGateTimeout (part slot : BitVec 6) (s : State) : Host.Outcome State Fault Refusal :=
  s.on fun t => t.live (tokenGateTimeout part slot)

/-- ETHERNET_LINK_CHANGE: An Ethernet port's link comes up or goes down, changing KRP_PORT_STATE.LINK (R500). -/
def execEthernetLinkChange (port : BitVec 1) (up : Bool) (s : State) : Host.Outcome State Fault Refusal :=
  s.on fun t => t.live (ethernetLinkChange port up)

end Sys2Proof.Machine
end

