-- ==== Sys2Proof/Machine/CmdLinks.lean ====
section
/-! DEFINITION. Selvage and Seam links (chapters 11 and 12). Each command with the conditions under which the package takes it. -/

namespace Sys2Proof.Machine

/-- SLV_EGRESS_ACCEPT: A cross-package unit is accepted at the Collar egress, ending it for the Spool (R329). -/
def execSlvEgressAccept (run : Nat) (s : State) : Host.Outcome State Fault Refusal :=
  s.on fun t => t.live (slvEgressAccept run)

/-- SLV_PACKET_SEND: A packet departs in its partition's next Selvage slot (R331). -/
def execSlvPacketSend (link : BitVec 4) (part : BitVec 6) (s : State) : Host.Outcome State Fault Refusal :=
  s.on fun t => t.live (slvPacketSend link part)

/-- SLV_WRITE_RECEIVE: A WRITE packet is checked and presented to the stack (R332). -/
def execSlvWriteReceive (h : PacketHead) (data : List Row) (poison : List Bool) (s : State) : Host.Outcome State Fault Refusal :=
  s.on fun t => t.live (slvWriteReceive h data poison)

/-- SLV_ADD_RECEIVE: An ADD packet is checked and presented to the stack (R332). -/
def execSlvAddReceive (h : PacketHead) (integer : Bool) (q : W36) (m18 : Bool) (data : List Row) (poison : List Bool) (s : State) :
    Host.Outcome State Fault Refusal :=
  s.on fun t => t.live (slvAddReceive h integer q m18 data poison)

/-- SLV_TOKEN_RECEIVE: A TOKEN advances a fabric token after earlier packets (R333). -/
def execSlvTokenReceive (h : PacketHead) (err : Bool) (status : BitVec 16) (s : State) : Host.Outcome State Fault Refusal :=
  s.on fun t => t.live (slvTokenReceive h err status)

/-- SLV_CONTROL_RECEIVE: A CONTROL packet updates a replicated owner table (R342). -/
def execSlvControlReceive (h : PacketHead) (part : BitVec 6) (table block version : BitVec 32) (entry : OwnerEntry) (s : State) :
    Host.Outcome State Fault Refusal :=
  s.on fun t => t.live (slvControlReceive h part table block version entry)

/-- SLV_ACK_RECEIVE: An ACK retires an outstanding posted packet (R332). -/
def execSlvAckReceive (link : BitVec 4) (seq : Nat) (s : State) : Host.Outcome State Fault Refusal :=
  s.on fun t => t.live (slvAckReceive link seq)

/-- SLV_NACK_RECEIVE: A NACK records the first failing status of the plan (R335). -/
def execSlvNackReceive (link : BitVec 4) (seq status : Nat) (pkg : BitVec 12) (s : State) : Host.Outcome State Fault Refusal :=
  s.on fun t => t.live (slvNackReceive link seq status pkg)

/-- SLV_PACKET_ERROR: A packet failing RS or GCM is replayed, and repeated failure retrains the link (R336). -/
def execSlvPacketError (link : BitVec 4) (seq : Nat) (tag : Bool) (s : State) : Host.Outcome State Fault Refusal :=
  s.on fun t => t.live (slvPacketError link seq tag)

/-- SLV_REKEY: A link rekeys after 2^32 packets per direction (R328). -/
def execSlvRekey (link : BitVec 4) (s : State) : Host.Outcome State Fault Refusal :=
  s.on fun t => t.live (slvRekey link)

/-- SLV_LANE_FAIL: A Selvage lane fails, leading to repair, Fray or DOWN (R338). -/
def execSlvLaneFail (link : BitVec 4) (tx rx : List (BitVec 4)) (s : State) : Host.Outcome State Fault Refusal :=
  s.on fun t => t.live (slvLaneFail link tx rx)

/-- SLV_TRAIN_STATE_DONE: A Selvage training state completes and the next begins (R337). -/
def execSlvTrainStateDone (link : BitVec 4) (tx rx : List (BitVec 4)) (peer : Option PeerInfo) (s : State) : Host.Outcome State Fault
    Refusal :=
  s.on fun t => t.live (slvTrainStateDone link tx rx peer)

/-- SLV_TRAIN_TIMEOUT: A Selvage training state exceeds its limit and retries or goes DOWN (R337). -/
def execSlvTrainTimeout (link : BitVec 4) (s : State) : Host.Outcome State Fault Refusal :=
  s.on fun t => t.live (slvTrainTimeout link)

/-- SLV_TEST_DONE: A Selvage link test completes with its results and the link trains again (R352). -/
def execSlvTestDone (link : BitVec 4) (failed : List LaneResult) (margins : List Nat) (s : State) : Host.Outcome State Fault Refusal :=
  s.on fun t => t.live (slvTestDone link failed margins)

/-- SEAM_LANE_FAIL: A Seam lane fails, leading to repair, Fray or DOWN (R305). -/
def execSeamLaneFail (plate : BitVec 3) (port : BitVec 2) (tx rx : List (BitVec 7)) (s : State) : Host.Outcome State Fault Refusal :=
  s.on fun t => t.live (seamLaneFail plate port tx rx)

/-- SEAM_REPAIR_DONE: The REPAIR state ends and held plans resume (R305). -/
def execSeamRepairDone (plate : BitVec 3) (port : BitVec 2) (s : State) : Host.Outcome State Fault Refusal :=
  s.on fun t => t.live (seamRepairDone plate port)

/-- SEAM_RETRAIN_DONE: RETRAIN ends and Full-linked flits are discarded from then on (R307). -/
def execSeamRetrainDone (plate : BitVec 3) (port : BitVec 2) (s : State) : Host.Outcome State Fault Refusal :=
  s.on fun t => t.live (seamRetrainDone plate port)

/-- SEAM_TRAIN_STATE_DONE: A Seam training state completes and the next begins (R304). -/
def execSeamTrainStateDone (plate : BitVec 3) (port : BitVec 2) (tx rx : List (BitVec 7)) (s : State) : Host.Outcome State Fault Refusal :=
  s.on fun t => t.live (seamTrainStateDone plate port tx rx)

/-- SEAM_TRAIN_TIMEOUT: A Seam training state exceeds its limit and retries or goes DOWN (R304). -/
def execSeamTrainTimeout (plate : BitVec 3) (port : BitVec 2) (s : State) : Host.Outcome State Fault Refusal :=
  s.on fun t => t.live (seamTrainTimeout plate port)

end Sys2Proof.Machine
end

