-- ==== Sys2Proof/Machine/CmdManagement.lean ====
section
/-! DEFINITION. The Test Access Port, SPDM, PLDM and MCTP (chapters 11, 18 and 20). Each command with the conditions under which the package
takes it. -/

namespace Sys2Proof.Machine

/-- TAP_BYPASS: The Test Access Port BYPASS instruction (R313). -/
def execTapBypass (s : State) : Host.Outcome State Fault Refusal :=
  s.on tapBypass

/-- TAP_IDCODE: The Test Access Port IDCODE instruction (R313). -/
def execTapIdcode (s : State) : Host.Outcome State Fault Refusal :=
  s.on tapIdcode

/-- TAP_SAMPLE_PRELOAD: The Test Access Port SAMPLE/PRELOAD instruction (R313). -/
def execTapSamplePreload (s : State) : Host.Outcome State Fault Refusal :=
  s.on tapSamplePreload

/-- TAP_EXTEST: The Test Access Port EXTEST instruction, where open (R313). -/
def execTapExtest (s : State) : Host.Outcome State Fault Refusal :=
  s.on tapExtest

/-- TAP_DIE_ACCESS: Die-level 1838 wrapper, scan and built-in self-test access, where open (R313). -/
def execTapDieAccess (s : State) : Host.Outcome State Fault Refusal :=
  s.on tapDieAccess

/-- TAP_SEAM_INTERCONNECT_TEST: The Seam interconnect test through the Test Access Port (R314). -/
def execTapSeamInterconnectTest (plate : BitVec 3) (port : BitVec 2) (phases : BitVec 4) (d : BitVec 5) (s : State) : Host.Outcome State
    Fault Refusal :=
  s.on fun t => t.live (tapSeamInterconnectTest plate port phases d)

/-- SPDM_GET_VERSION: SPDM GET_VERSION request (R520). -/
def execSpdmGetVersion (s : State) : Host.Outcome State Fault Refusal :=
  s.on fun t => t.shown spdmGetVersion

/-- SPDM_GET_CAPABILITIES: SPDM GET_CAPABILITIES request (R520). -/
def execSpdmGetCapabilities (version : Byte) (s : State) : Host.Outcome State Fault Refusal :=
  s.on fun t => t.shown (spdmGetCapabilities version)

/-- SPDM_NEGOTIATE_ALGORITHMS: SPDM NEGOTIATE_ALGORITHMS request (R520). -/
def execSpdmNegotiateAlgorithms (asym hash dhe aead : Bool) (s : State) : Host.Outcome State Fault Refusal :=
  s.on fun t => t.shown (spdmNegotiateAlgorithms asym hash dhe aead)

/-- SPDM_GET_DIGESTS: SPDM GET_DIGESTS request (R520). -/
def execSpdmGetDigests (s : State) : Host.Outcome State Fault Refusal :=
  s.on fun t => t.shown spdmGetDigests

/-- SPDM_GET_CERTIFICATE: SPDM GET_CERTIFICATE request (R520). -/
def execSpdmGetCertificate (slot : BitVec 3) (offset length : BitVec 16) (s : State) : Host.Outcome State Fault Refusal :=
  s.on fun t => t.shown (spdmGetCertificate slot offset length)

/-- SPDM_CHALLENGE: SPDM CHALLENGE request (R520). -/
def execSpdmChallenge (slot : BitVec 3) (nonce : BitVec 256) (s : State) : Host.Outcome State Fault Refusal :=
  s.on fun t => t.shown (spdmChallenge slot nonce)

/-- SPDM_GET_MEASUREMENTS: SPDM GET_MEASUREMENTS request (R520). -/
def execSpdmGetMeasurements (index : Byte) (sign : Bool) (nonce : BitVec 256) (s : State) : Host.Outcome State Fault Refusal :=
  s.on fun t => t.shown (spdmGetMeasurements index sign nonce)

/-- SPDM_KEY_EXCHANGE: SPDM KEY_EXCHANGE request (R520). -/
def execSpdmKeyExchange (slot : BitVec 3) (session : BitVec 16) (exchange : List Byte) (s : State) : Host.Outcome State Fault Refusal :=
  s.on fun t => t.shown (spdmKeyExchange slot session exchange)

/-- SPDM_FINISH: SPDM FINISH request (R520). -/
def execSpdmFinish (macOk : Bool) (s : State) : Host.Outcome State Fault Refusal :=
  s.on fun t => t.shown (spdmFinish macOk)

/-- SPDM_HEARTBEAT: SPDM HEARTBEAT request (R520). -/
def execSpdmHeartbeat (s : State) : Host.Outcome State Fault Refusal :=
  s.on fun t => t.shown spdmHeartbeat

/-- SPDM_KEY_UPDATE: SPDM KEY_UPDATE request (R520). -/
def execSpdmKeyUpdate (op : BitVec 2) (s : State) : Host.Outcome State Fault Refusal :=
  s.on fun t => t.shown (spdmKeyUpdate op)

/-- SPDM_END_SESSION: SPDM END_SESSION request (R520). -/
def execSpdmEndSession (s : State) : Host.Outcome State Fault Refusal :=
  s.on fun t => t.shown spdmEndSession

/-- SPDM_SET_CERTIFICATE: SPDM SET_CERTIFICATE request for slots 1 to 7 (R520). -/
def execSpdmSetCertificate (slot : BitVec 3) (chain : List Byte) (s : State) : Host.Outcome State Fault Refusal :=
  s.on fun t => t.shown (spdmSetCertificate slot chain)

/-- SPDM_UNSUPPORTED_REQUEST: Any other SPDM request draws ERROR UnsupportedRequest (R520). -/
def execSpdmUnsupportedRequest (s : State) : Host.Outcome State Fault Refusal :=
  s.on fun t => t.shown spdmUnsupportedRequest

/-- PLDM_SENSOR_READ: A PLDM Type 2 sensor read over the management path (R565). -/
def execPldmSensorRead (sensor : Sensor) (s : State) : Host.Outcome State Fault Refusal :=
  s.on fun t => t.shown (pldmSensorRead sensor)

/-- PLDM_FIRMWARE_UPDATE: A PLDM firmware update verifies and writes the inactive copy (R516). -/
def execPldmFirmwareUpdate (component : BitVec 3) (sigOk : Bool) (svn : BitVec 6) (s : State) : Host.Outcome State Fault Refusal :=
  s.on fun t => t.shown (pldmFirmwareUpdate component sigOk svn)

/-- MCTP_SET_ENDPOINT_ID: The MCTP bus owner assigns the device's endpoint ID, replacing EID 0 (R565). -/
def execMctpSetEndpointId (eid : Byte) (s : State) : Host.Outcome State Fault Refusal :=
  s.on fun t => t.shown (mctpSetEndpointId eid)

end Sys2Proof.Machine
end

