-- ==== Sys2Proof/Machine/CmdMovement.lean ====
section
/-! DEFINITION. Data movement: Spool, Lining, HBM, Weave, Yoke, Seam flits (chapters 4, 7 to 11). Each command with the conditions under
which the package takes it. -/

namespace Sys2Proof.Machine

/-- TSTART: Spool loads a thread descriptor and starts the thread (R250). -/
def execTstart (i : Issuer) (thread : BitVec 4) (desc : BitVec 8) (gr : BitVec 4) (s : State) : Host.Outcome State Fault Refusal :=
  s.on fun t => t.live (spoolTstart i thread desc gr)

/-- ADVANCE: Spool releases or marks full K segments of a thread's ring (R249). -/
def execAdvance (i : Issuer) (thread : BitVec 4) (segs : BitVec 2) (s : State) : Host.Outcome State Fault Refusal :=
  s.on fun t => t.live (spoolAdvance i thread segs)

/-- TSTOP: Spool stops new presentations of a thread (R250). -/
def execTstop (i : Issuer) (thread : BitVec 4) (s : State) : Host.Outcome State Fault Refusal :=
  s.on fun t => t.live (spoolTstop i thread)

/-- SPOOL_PRESENT: A cell presents the eligible thread with the least deadline on a resource (R252). -/
def execSpoolPresent (i : Issuer) (resource : Resource) (s : State) : Host.Outcome State Fault Refusal :=
  s.on fun t => t.live (spoolPresent i resource)

/-- UNIT_LAND: A bolt, line or tack record lands in the thread's ring rows (R251). -/
def execUnitLand (i : Issuer) (thread : BitVec 4) (s : State) : Host.Outcome State Fault Refusal :=
  s.on fun t => t.live (unitLand i thread)

/-- WRITE_DRAIN_DONE: The last draining write thread after FINAL finishes and frees the swatches (R256). -/
def execWriteDrainDone (run : Nat) (s : State) : Host.Outcome State Fault Refusal :=
  s.on fun t => t.live (writeDrainDone run)

/-- LINING_READ_BEAT: A panel port read beat moves one line to each cell of an octet (R229). -/
def execLiningReadBeat (i : Issuer) (panel : BitVec 3) (s : State) : Host.Outcome State Fault Refusal :=
  s.on fun t => t.live (liningReadBeat i panel)

/-- LINING_WRITE_BEAT: A panel port write beat reads an octet's rows for the Lining (R229). -/
def execLiningWriteBeat (i : Issuer) (panel : BitVec 3) (s : State) : Host.Outcome State Fault Refusal :=
  s.on fun t => t.live (liningWriteBeat i panel)

/-- LINING_LINE_LAND: A read line lands in a cell's Pad rows 22 F-cycles after its beat (R229). -/
def execLiningLineLand (i : Issuer) (panel : BitVec 3) (s : State) : Host.Outcome State Fault Refusal :=
  s.on fun t => t.live (liningLineLand i panel)

/-- LINING_PATROL_SCRUB: The patrol scrub visits and corrects Lining lines on its period (R232). -/
def execLiningPatrolScrub (plate : BitVec 3) (s : State) : Host.Outcome State Fault Refusal :=
  s.on fun t => t.live (liningPatrolScrub plate)

/-- HBM_REQUEST_ARRIVE: A presented request reaches the stack controller and joins its class queue (R272). -/
def execHbmRequestArrive (run : Nat) (stack : BitVec 3) (s : State) : Host.Outcome State Fault Refusal :=
  s.on fun t => t.live (hbmRequestArrive run stack)

/-- HBM_SLOT_SERVE: A slot serves the oldest queued request of its plan and class (R272). -/
def execHbmSlotServe (stack : BitVec 3) (owner : SlotOwner) (cls : SlotClass) (s : State) : Host.Outcome State Fault Refusal :=
  s.on fun t => t.live (hbmSlotServeAny stack owner cls)

/-- CONTROL_TACK_RETURN: A Collar-cache tack record returns, ending any hold on the plan (R276). -/
def execControlTackReturn (i : Issuer) (thread : BitVec 4) (late : Nat) (s : State) : Host.Outcome State Fault Refusal :=
  s.on fun t => t.live (controlTackReturn i thread late)

/-- WEAVE_FLIT_LAND: A Weave flit lands in its destination rows, or is dropped on a slot collision (R101). -/
def execWeaveFlitLand (run : Nat) (entry : BitVec 12) (s : State) : Host.Outcome State Fault Refusal :=
  s.on fun t => t.live (weaveFlitLand run entry)

/-- YOKE_WORD_LAND: A Yoke wide word lands, or is dropped when its port is taken (R195). -/
def execYokeWordLand (i : Issuer) (panel : BitVec 3) (s : State) : Host.Outcome State Fault Refusal :=
  s.on fun t => t.live (yokeWordEvent i panel)

/-- CONTROL_FLIT_DELIVER: A control-VC flit reaches its destination in a cycle free of data (R105). -/
def execControlFlitDeliver (panel : BitVec 9) (s : State) : Host.Outcome State Fault Refusal :=
  s.on fun t => t.live (controlFlitDeliver panel)

/-- SEAM_FLIT_DEPART: A data flit departs the gateway in its plan's next data slot (R300). -/
def execSeamFlitDepart (run : Nat) (vlink : BitVec 5) (s : State) : Host.Outcome State Fault Refusal :=
  s.on fun t => t.live (seamFlitDepart run vlink)

/-- SEAM_FLIT_DELIVER: A flit is delivered to the destination gateway after the pinned latency (R303). -/
def execSeamFlitDeliver (run : Nat) (vlink : BitVec 5) (uncorrectable : Bool) (corrected : List (BitVec 7)) (s : State) : Host.Outcome State
    Fault Refusal :=
  s.on fun t => t.live (seamFlitArrive run vlink uncorrectable corrected)

end Sys2Proof.Machine
end

