-- ==== Sys2Proof/Machine/CmdPlans.lean ====
section
/-! DEFINITION. Plan instances: stitch points, starts, residency (chapters 4 and 16). Each command with the conditions under which the
package takes it. -/

namespace Sys2Proof.Machine

/-- STITCH_COMMIT: At a stitch point's plan cycle all shadow changes commit and stops take effect (R106). -/
def execStitchCommit (run : Nat) (s : State) : Host.Outcome State Fault Refusal :=
  s.on fun t => t.live (stitchCommit run)

/-- PLAN_FINAL: The plan reaches its FINAL stitch point at TOTAL_CYCLES and ends (R108). -/
def execPlanFinal (run : Nat) (s : State) : Host.Outcome State Fault Refusal :=
  s.on fun t => t.live (planFinal run)

/-- PLAN_START: The service scheduler starts the queue head once swatches, inputs, keys and gate allow (R458). -/
def execPlanStart (part : BitVec 6) (s : State) : Host.Outcome State Fault Refusal :=
  s.on fun t => t.live (planStartEvent part)

/-- PLAN_SPLICE: The next plan starts at the running plan's SPLICE_OUT stitch point (R108). -/
def execPlanSplice (run : Nat) (s : State) : Host.Outcome State Fault Refusal :=
  s.on fun t => t.live (planSplice run)

/-- RESIDENCY_LOAD_START: Tailor firmware begins copying a key into a plate's key window (R461). -/
def execResidencyLoadStart (part : BitVec 6) (s : State) : Host.Outcome State Fault Refusal :=
  s.on fun t => t.live (residencyLoadStart part)

/-- RESIDENCY_LOAD_DONE: A residency load completes and its seed is written into the bound seed slots (R461). -/
def execResidencyLoadDone (part : BitVec 6) (s : State) : Host.Outcome State Fault Refusal :=
  s.on fun t => t.live (residencyLoadDone part)

/-- SEAL_JOB_DONE: A Seal job completes and its result is used (R504). -/
def execSealJobDone (s : State) : Host.Outcome State Fault Refusal :=
  s.on fun t => t.live sealJobDone

/-- SEAL_YIELD: At a window boundary a LOW job yields to a waiting HIGH job (R505). -/
def execSealYield (s : State) : Host.Outcome State Fault Refusal :=
  s.on fun t => t.live sealYield

end Sys2Proof.Machine
end

