-- ==== Sys2Proof/Machine/CmdPower.lean ====
section
/-! DEFINITION. Rails, temperature, power states, random sources (chapters 15, 18 and 22). Each command with the conditions under which the
package takes it. -/

namespace Sys2Proof.Machine

/-- PLATE_RAIL_UNDERVOLTAGE: A plate rail below 0.60 V for 25 A-ticks acts as a plate trip (R616). -/
def execPlateRailUndervoltage (plate : BitVec 3) (s : State) : Host.Outcome State Fault Refusal :=
  s.on fun t => t.live (plateRailUndervoltage plate)

/-- RAIL_UNDERVOLTAGE: Another rail out of regulation for 25 A-ticks holds the package in Cold reset (R616). -/
def execRailUndervoltage (rail : BitVec 5) (s : State) : Host.Outcome State Fault Refusal :=
  s.on (railUndervoltage rail)

/-- RAIL_RETURN: A rail that left regulation returns, releasing the Cold reset hold or letting a plate be recovered (R616). -/
def execRailReturn (rail : BitVec 5) (s : State) : Host.Outcome State Fault Refusal :=
  s.on (railReturn rail)

/-- PLATE_TEMP_TRIP: A plate at trip temperature stops its clocks and goes offline (R426). -/
def execPlateTempTrip (plate : BitVec 3) (s : State) : Host.Outcome State Fault Refusal :=
  s.on fun t => t.live (plateTempTrip plate)

/-- STACK_TEMP_TRIP: A stack at trip temperature enters self-refresh out of service (R426). -/
def execStackTempTrip (stack : BitVec 3) (s : State) : Host.Outcome State Fault Refusal :=
  s.on fun t => t.live (stackTempTrip stack)

/-- STACK_TRIP_RELEASE: A tripped stack below its release level returns to service (R426). -/
def execStackTripRelease (stack : BitVec 3) (s : State) : Host.Outcome State Fault Refusal :=
  s.on fun t => t.live (stackTripRelease stack)

/-- COLLAR_TEMP_TRIP: A Collar trip asserts THERMTRIP_N and stops every clock (R426). -/
def execCollarTempTrip (s : State) : Host.Outcome State Fault Refusal :=
  s.on fun t => t.live collarTempTrip

/-- THERMAL_EVALUATION: Each plate's thermal figure and heat suspensions are evaluated every 2^14 A-ticks (R421). -/
def execThermalEvaluation (plates : List (List Int)) (hs collar : List Int) (watts : BitVec 11) (s : State) : Host.Outcome State Fault
    Refusal :=
  s.on fun t => t.live (thermalEvaluation plates hs collar watts)

/-- WITHDRAWAL_TIMEOUT: A withdrawal still waiting after 2^18 A-ticks stops the affected plans (R425). -/
def execWithdrawalTimeout (part : BitVec 6) (s : State) : Host.Outcome State Fault Refusal :=
  s.on fun t => t.live (withdrawalTimeout part)

/-- AVS_LIMIT_TIMEOUT: A plate loop at its upper bound for 1 ms is treated as at throttle onset (R420). -/
def execAvsLimitTimeout (plate : BitVec 3) (s : State) : Host.Outcome State Fault Refusal :=
  s.on fun t => t.live (avsLimitTimeout plate)

/-- AVS_MARGIN_RETURN: The plate's adaptive loop regains margin, ending the throttle-onset treatment and clearing AT_LIMIT (R420). -/
def execAvsMarginReturn (plate : BitVec 3) (s : State) : Host.Outcome State Fault Refusal :=
  s.on fun t => t.live (avsMarginReturn plate)

/-- AVSBUS_TRANSACTION_ERROR: Three consecutive AVSBus errors treat the plate as at throttle onset (R619). -/
def execAvsbusTransactionError (plate : BitVec 3) (s : State) : Host.Outcome State Fault Refusal :=
  s.on fun t => t.live (avsbusTransactionError plate)

/-- TRNG_SOURCE_FAIL: A noise source failing its health tests is disabled (R508). -/
def execTrngSourceFail (source : BitVec 2) (s : State) : Host.Outcome State Fault Refusal :=
  s.on fun t => t.live (trngSourceFail source)

/-- DRBG_RESEED: A DRBG reaching its request count is reseeded by a replacement instance (R198). -/
def execDrbgReseed (panel : Option (BitVec 9)) (s : State) : Host.Outcome State Fault Refusal :=
  s.on fun t => t.live (drbgReseed panel)

/-- DOZE_ENTRY: An idle swatch enters Doze (R417). -/
def execDozeEntry (swatch : BitVec 6) (s : State) : Host.Outcome State Fault Refusal :=
  s.on fun t => t.live (dozeEntry swatch)

/-- NAP_ENTRY: NAP_DELAY expires and the swatch enters Nap (R417). -/
def execNapEntry (swatch : BitVec 6) (s : State) : Host.Outcome State Fault Refusal :=
  s.on fun t => t.live (napEntry swatch)

/-- REST_ENTRY: REST_DELAY expires and the swatch enters Rest (R417). -/
def execRestEntry (swatch : BitVec 6) (s : State) : Host.Outcome State Fault Refusal :=
  s.on fun t => t.live (restEntry swatch)

/-- PLATE_OFF_ENTRY: A plate whose swatches rested for its delay enters Plate Off (R418). -/
def execPlateOffEntry (plate : BitVec 3) (s : State) : Host.Outcome State Fault Refusal :=
  s.on fun t => t.live (plateOffEntry plate)

/-- SWATCH_WAKE_DONE: A swatch reaches Run with its reload complete (R416). -/
def execSwatchWakeDone (swatch : BitVec 6) (s : State) : Host.Outcome State Fault Refusal :=
  s.on fun t => t.live (swatchWakeDone swatch)

end Sys2Proof.Machine
end

