-- ==== Sys2Proof/Machine/CmdRegisters.lean ====
section
/-! DEFINITION. Register writes that act (chapters 2, 4 to 15, 16). Each command with the conditions under which the package takes it. -/

namespace Sys2Proof.Machine

/-- MAILBOX_TAIL_WRITE: A tail advance hands new mailbox entries to Tailor firmware (R443). -/
def execMailboxTailWrite (fn : Fn) (tail : BitVec 4) (s : State) : Host.Outcome State Fault Refusal :=
  s.on fun t => t.host fn (mailboxTailWrite fn tail)

/-- MT_CMD_WRITE_ENTRY: TLR_MT_CMD OP 001 writes a staged entry after the Table 2.2 checks (R61). -/
def execMtCmdWriteEntry (s : State) : Host.Outcome State Fault Refusal :=
  s.on fun t => t.host .pf0 (mtCommand 1)

/-- MT_CMD_CLEAR_ENTRY: TLR_MT_CMD OP 010 clears an entry (R61). -/
def execMtCmdClearEntry (s : State) : Host.Outcome State Fault Refusal :=
  s.on fun t => t.host .pf0 (mtCommand 2)

/-- MT_CMD_WRITE_CHAIN: TLR_MT_CMD OP 011 writes a staged chain (R61). -/
def execMtCmdWriteChain (s : State) : Host.Outcome State Fault Refusal :=
  s.on fun t => t.host .pf0 (mtCommand 3)

/-- MT_CMD_CLEAR_CHAIN: TLR_MT_CMD OP 100 clears a chain (R61). -/
def execMtCmdClearChain (s : State) : Host.Outcome State Fault Refusal :=
  s.on fun t => t.host .pf0 (mtCommand 4)

/-- MT_CMD_RESERVED: A reserved TLR_MT_CMD OP completes with ST_NOT_SUPPORTED (R61). -/
def execMtCmdReserved (op : BitVec 3) (s : State) : Host.Outcome State Fault Refusal :=
  s.on fun t => t.host .pf0 (mtReserved op)

/-- MT_CMD_DONE: A Modulus Table command completes and reports DONE and STATUS (R61). -/
def execMtCmdDone (s : State) : Host.Outcome State Fault Refusal :=
  s.on fun t => t.live mtDone

/-- DBG_STITCH_GO: Releases a plan held at a stitch break (R126). -/
def execDbgStitchGo (s : State) : Host.Outcome State Fault Refusal :=
  s.on fun t => t.host .pf0 dbgStitchGo

/-- DBG_PS_ABORT: Aborts Press or Stipple work on a swatch held at a break (R181). -/
def execDbgPsAbort (swatch : BitVec 6) (engine : BitVec 2) (s : State) : Host.Outcome State Fault Refusal :=
  s.on fun t => t.host .pf0 (Chip.debugWindow (8 * swatch.toNat) false (Dbg.selectPs swatch engine) (dbgPsAbort swatch engine))

/-- DBG_ENG_SWAP_NOW: Makes an idle engine's shadow store bank active at once (R212). -/
def execDbgEngSwapNow (swatch : BitVec 6) (engine : DbgEngine) (s : State) : Host.Outcome State Fault Refusal :=
  s.on fun t => t.host .pf0 (Chip.debugWindow (8 * swatch.toNat) false (Dbg.selectEng swatch engine 1) (dbgEngSwapNow swatch engine))

/-- DBG_ENG_ABORT: Discards an engine's queued and running work and poisons its destinations (R212). -/
def execDbgEngAbort (swatch : BitVec 6) (engine : DbgEngine) (s : State) : Host.Outcome State Fault Refusal :=
  s.on fun t => t.host .pf0 (Chip.debugWindow (8 * swatch.toNat) false (Dbg.selectEng swatch engine 2) (dbgEngAbort swatch engine))

/-- DBG_ENG_CMD_RESERVED: A reserved DBG_ENG_CMD OP completes with ST_NOT_SUPPORTED (R212). -/
def execDbgEngCmdReserved (swatch : BitVec 6) (engine : DbgEngine) (op11 : Bool) (s : State) : Host.Outcome State Fault Refusal :=
  s.on fun t => t.host .pf0 (dbgEngReserved swatch engine op11)

/-- DBG_PAD_READ: Reads a Pad row through the debug window (R224). -/
def execDbgPadRead (cell : BitVec 15) (row : BitVec 12) (s : State) : Host.Outcome State Fault Refusal :=
  s.on fun t => t.host .pf0 (Chip.debugWindow (cell.toNat / 64) true (Dbg.selectPad cell row 1) (dbgPadRead cell row))

/-- DBG_PAD_WRITE: Writes a Pad row and its poison bit through the debug window (R224). -/
def execDbgPadWrite (cell : BitVec 15) (row : BitVec 12) (s : State) : Host.Outcome State Fault Refusal :=
  s.on fun t => t.host .pf0 (Chip.debugWindow (cell.toNat / 64) false (Dbg.selectPad cell row 2) (dbgPadWrite cell row))

/-- HBM_INJECT_GO: Arms one injected HBM error on an atom (R296). -/
def execHbmInjectGo (stack : BitVec 3) (atom : BitVec 30) (kind : BitVec 2) (s : State) : Host.Outcome State Fault Refusal :=
  s.on fun t => t.host .pf0 (Chip.platePort stack.toNat (hbmInjectGo stack atom kind))

/-- SEAM_TEST_CTRL_GO: Starts a Seam interconnect test through registers (R324). -/
def execSeamTestCtrlGo (plate : BitVec 3) (port : BitVec 2) (phases : BitVec 4) (d : BitVec 5) (s : State) : Host.Outcome State Fault
    Refusal :=
  s.on fun t => t.host .pf0 (Chip.platePort plate.toNat (seamTestCtrlGo plate port phases d))

/-- SLV_TEST_CTRL_GO: Starts a Selvage link test through registers (R354). -/
def execSlvTestCtrlGo (link phases : BitVec 4) (d : BitVec 5) (s : State) : Host.Outcome State Fault Refusal :=
  s.on fun t => t.host .pf0 (slvTestCtrlGo link phases d)

/-- PWR_RESET_PLATE: PWR_RESET_CTRL LEVEL 01 starts a Plate reset through the sequencer (R410). -/
def execPwrResetPlate (plate : BitVec 3) (s : State) : Host.Outcome State Fault Refusal :=
  s.on fun t => t.host .pf0 (pwrResetPlate plate)

/-- PWR_RESET_COLLAR_WARM: PWR_RESET_CTRL LEVEL 10 starts a Collar warm reset through the sequencer (R410). -/
def execPwrResetCollarWarm (s : State) : Host.Outcome State Fault Refusal :=
  s.on fun t => t.host .pf0 pwrResetCollarWarm

/-- DBG_EV_INJECT: Adds one increment to a chosen event of a chosen function (R410). -/
def execDbgEvInject (ev function : BitVec 7) (s : State) : Host.Outcome State Fault Refusal :=
  s.on fun t => t.host .pf0 (dbgEvInject ev function)

/-- PWR_FORCE_RUN: Holds a swatch in Run whatever its policy (R441). -/
def execPwrForceRun (swatch : BitVec 6) (s : State) : Host.Outcome State Fault Refusal :=
  s.on fun t => t.host .pf0 (pwrForceRun swatch)

/-- PWR_FORCE_DOZE: Holds a swatch in Doze whatever its policy (R441). -/
def execPwrForceDoze (swatch : BitVec 6) (s : State) : Host.Outcome State Fault Refusal :=
  s.on fun t => t.host .pf0 (pwrForceDoze swatch)

/-- LDG_USER_WRITE: Writes the User Ledger window directly under its checks (R441). -/
def execLdgUserWrite (item : BitVec 4) (index : BitVec 16) (value : Int) (s : State) : Host.Outcome State Fault Refusal :=
  s.on fun t => t.host .pf0 (ldgUserWrite item index value)

/-- DBG_CAP_OVERRIDE_WRITE: Lowers or restores a resource's capacity, running rebalance (R383). -/
def execDbgCapOverrideWrite (resource cap : BitVec 6) (enable : Bool) (s : State) : Host.Outcome State Fault Refusal :=
  s.on fun t => t.host .pf0 (capOverrideWrite resource.toNat cap.toNat enable)

/-- SLV_PKG_WRITE: Writes the package id or sets the fabric lock (R355). -/
def execSlvPkgWrite (id : BitVec 12) (lock : Bool) (s : State) : Host.Outcome State Fault Refusal :=
  s.on fun t => t.host .pf0 (slvPkgWrite id lock)

/-- EV_ACK_WRITE: Writes an event's acknowledged count and rearms its vector (R385). -/
def execEvAckWrite (fn : Fn) (ev : BitVec 7) (value : W32) (s : State) : Host.Outcome State Fault Refusal :=
  s.on fun t => t.host fn (evAckWrite fn ev value)

/-- VEC_REARM_WRITE: Rearms the vectors whose bits are written as 1 (R388). -/
def execVecRearmWrite (fn : Fn) (mask : W64) (s : State) : Host.Outcome State Fault Refusal :=
  s.on fun t => t.host fn (vecRearmWrite fn mask)

/-- EV_ROUTE_WRITE: Writes route bytes directly and rearms the named vector (R388). -/
def execEvRouteWrite (fn : Fn) (index : BitVec 5) (data : W32) (s : State) : Host.Outcome State Fault Refusal :=
  s.on fun t => t.host fn (evRouteWrite fn index data)

/-- REGISTER_WRITE: A write to a register field without behaviour of its own, under its access code (R8). -/
def execRegisterWrite (fn : Fn) (write : RegWrite) (s : State) : Host.Outcome State Fault Refusal :=
  s.on fun t => t.shown (registerWrite fn write)

end Sys2Proof.Machine
end

