-- ==== Sys2Proof/Machine/CmdResets.lean ====
section
/-! DEFINITION. Resets, bring-up, clocks (chapters 14, 15 and 21). Each command with the conditions under which the package takes it. -/

namespace Sys2Proof.Machine

/-- COLD_RESET: PERST# or power-on resets the whole package and starts bring-up (R394). -/
def execColdReset (powerOn sel : Bool) (addr : BitVec 2) (s : State) : Host.Outcome State Fault Refusal :=
  s.on (coldReset powerOn sel addr)

/-- BRINGUP_PHASE_DONE: A Cold start-up phase completes and the next begins (R578). -/
def execBringupPhaseDone (r : BootReport) (s : State) : Host.Outcome State Fault Refusal :=
  s.on fun t => t.live (bringupPhaseDone r)

/-- BRINGUP_PHASE_TIMEOUT: A Cold start-up phase exceeds its bound and takes its outcome (R578). -/
def execBringupPhaseTimeout (r : BootReport) (s : State) : Host.Outcome State Fault Refusal :=
  s.on fun t => t.live (bringupPhaseTimeout r)

/-- COLLAR_WARM_RESET: A Collar warm reset stops every partition and reboots the Collar (R398). -/
def execCollarWarmReset (cause : BitVec 3) (s : State) : Host.Outcome State Fault Refusal :=
  s.on fun t => t.live (collarWarmReset cause)

/-- TAILOR_WATCHDOG_EXPIRY: An unserviced Tailor watchdog triggers a Collar warm reset (R399). -/
def execTailorWatchdogExpiry (s : State) : Host.Outcome State Fault Refusal :=
  s.on fun t => t.live tailorWatchdogExpiry

/-- TAILOR_CORE_FAIL: A Tailor core failing self-test or its watchdog is taken out of service (R442). -/
def execTailorCoreFail (core : BitVec 3) (s : State) : Host.Outcome State Fault Refusal :=
  s.on fun t => t.live (tailorCoreFail core)

/-- RESET_DRAIN_TIMEOUT: After 250 A-ticks the reset drain reclaims credits and drops items (R395). -/
def execResetDrainTimeout (part : BitVec 6) (s : State) : Host.Outcome State Fault Refusal :=
  s.on fun t => t.live (resetDrainTimeout part)

/-- PARTITION_RESET_TIMEOUT: A partition reset beyond 100 ms ends with unscrubbed swatches out of service (R396). -/
def execPartitionResetTimeout (part : BitVec 6) (unscrubbed : W64) (s : State) : Host.Outcome State Fault Refusal :=
  s.on fun t => t.live (partitionResetTimeout part unscrubbed)

/-- PLATE_RESET_TIMEOUT: A Plate reset beyond 50 ms takes the plate offline (R394). -/
def execPlateResetTimeout (plate : BitVec 3) (s : State) : Host.Outcome State Fault Refusal :=
  s.on fun t => t.live (plateResetTimeout plate)

/-- TIMEOUT_CHANNEL_EXPIRY: A crossing request without response for 256 A-ticks ends with ST_CLOCK_ABSENT (R390). -/
def execTimeoutChannelExpiry (fn : Fn) (s : State) : Host.Outcome State Fault Refusal :=
  s.on fun t => t.live (timeoutChannelExpiry fn)

/-- REFA_LOSS: REFA stopped for 25 periods holds the package in Cold reset (R414). -/
def execRefaLoss (s : State) : Host.Outcome State Fault Refusal :=
  s.on refaLoss

/-- REFA_RETURN: REFA returning releases the Cold reset hold (R414). -/
def execRefaReturn (s : State) : Host.Outcome State Fault Refusal :=
  s.on refaReturn

/-- PLATE_PLL_UNLOCK: A plate main PLL losing lock triggers a Plate reset (R414). -/
def execPlatePllUnlock (plate : BitVec 3) (s : State) : Host.Outcome State Fault Refusal :=
  s.on fun t => t.live (platePllUnlock plate)

/-- COLLAR_PLL_UNLOCK: The Collar PLL losing lock triggers a Collar warm reset (R414). -/
def execCollarPllUnlock (s : State) : Host.Outcome State Fault Refusal :=
  s.on fun t => t.live collarPllUnlock

/-- DEBUG_PLL_LOCK: A plate's debug PLL locks and a waiting debug install completes (R413). -/
def execDebugPllLock (plate : BitVec 3) (s : State) : Host.Outcome State Fault Refusal :=
  s.on fun t => t.live (debugPllLock plate)

/-- RESET_COMPLETION: A partition, plate or Collar warm reset finishes its last work (scrub, release, retrain, reload) and reports DONE with
EV_RESET_DONE (R395). -/
def execResetCompletion (scope : ResetScope) (s : State) : Host.Outcome State Fault Refusal :=
  s.on fun t => t.live (resetCompletion scope)

/-- ZEROING_DONE: Service-traffic zeroing of a stack or of a plate's Lining completes, clearing ZEROING and making the space allocatable
(R294). -/
def execZeroingDone (lining : Bool) (index : BitVec 3) (s : State) : Host.Outcome State Fault Refusal :=
  s.on fun t => t.live (zeroingDone lining index)

end Sys2Proof.Machine
end

