-- ==== Sys2Proof/Machine/CmdScriber.lean ====
section
/-! DEFINITION. Bundles: the Scriber and Sync slots (R127 to R148, R101, R107, R145, R195). Each command with the conditions under which the
package takes it. -/

namespace Sys2Proof.Machine

/-- NOP: An all-zero slot or bundle issues and does nothing in that slot (R127). -/
def execNop (i : Issuer) (s : State) : Host.Outcome State Fault Refusal :=
  s.on fun t => t.live (scrNop i)

/-- ADD: Scriber adds ra and rb modulo 2^36 into rd (R147). -/
def execAdd (i : Issuer) (rd ra rb : BitVec 5) (s : State) : Host.Outcome State Fault Refusal :=
  s.on fun t => t.live (scrAlu .add i rd ra rb)

/-- SUB: Scriber subtracts rb from ra into rd (R147). -/
def execSub (i : Issuer) (rd ra rb : BitVec 5) (s : State) : Host.Outcome State Fault Refusal :=
  s.on fun t => t.live (scrAlu .sub i rd ra rb)

/-- AND: Scriber bitwise AND of ra and rb into rd (R147). -/
def execAnd (i : Issuer) (rd ra rb : BitVec 5) (s : State) : Host.Outcome State Fault Refusal :=
  s.on fun t => t.live (scrAlu .and i rd ra rb)

/-- OR: Scriber bitwise OR of ra and rb into rd (R147). -/
def execOr (i : Issuer) (rd ra rb : BitVec 5) (s : State) : Host.Outcome State Fault Refusal :=
  s.on fun t => t.live (scrAlu .or i rd ra rb)

/-- XOR: Scriber bitwise XOR of ra and rb into rd (R147). -/
def execXor (i : Issuer) (rd ra rb : BitVec 5) (s : State) : Host.Outcome State Fault Refusal :=
  s.on fun t => t.live (scrAlu .xor i rd ra rb)

/-- SHL: Scriber shifts ra left by rb[5:0] (R147). -/
def execShl (i : Issuer) (rd ra rb : BitVec 5) (s : State) : Host.Outcome State Fault Refusal :=
  s.on fun t => t.live (scrAlu .shl i rd ra rb)

/-- SHR: Scriber shifts ra right logically by rb[5:0] (R147). -/
def execShr (i : Issuer) (rd ra rb : BitVec 5) (s : State) : Host.Outcome State Fault Refusal :=
  s.on fun t => t.live (scrAlu .shr i rd ra rb)

/-- SRA: Scriber shifts ra right arithmetically by rb[5:0] (R147). -/
def execSra (i : Issuer) (rd ra rb : BitVec 5) (s : State) : Host.Outcome State Fault Refusal :=
  s.on fun t => t.live (scrAlu .sra i rd ra rb)

/-- MUL: Scriber writes the low 36 bits of ra times rb (R147). -/
def execMul (i : Issuer) (rd ra rb : BitVec 5) (s : State) : Host.Outcome State Fault Refusal :=
  s.on fun t => t.live (scrAlu .mul i rd ra rb)

/-- MULHU: Scriber writes the high 36 bits of the unsigned product of ra and rb (R147). -/
def execMulhu (i : Issuer) (rd ra rb : BitVec 5) (s : State) : Host.Outcome State Fault Refusal :=
  s.on fun t => t.live (scrAlu .mulhu i rd ra rb)

/-- SLT: Scriber sets rd to 1 when ra is less than rb, signed (R147). -/
def execSlt (i : Issuer) (rd ra rb : BitVec 5) (s : State) : Host.Outcome State Fault Refusal :=
  s.on fun t => t.live (scrAlu .slt i rd ra rb)

/-- SLTU: Scriber sets rd to 1 when ra is less than rb, unsigned (R147). -/
def execSltu (i : Issuer) (rd ra rb : BitVec 5) (s : State) : Host.Outcome State Fault Refusal :=
  s.on fun t => t.live (scrAlu .sltu i rd ra rb)

/-- SEL: Scriber writes rb into rd when ra is nonzero, and propagates poison tags (R133). -/
def execSel (i : Issuer) (rd ra rb : BitVec 5) (s : State) : Host.Outcome State Fault Refusal :=
  s.on fun t => t.live (scrSel i rd ra rb)

/-- ADDI: Scriber adds an immediate to ra (R147). -/
def execAddi (i : Issuer) (rd ra : BitVec 5) (imm : W36) (s : State) : Host.Outcome State Fault Refusal :=
  s.on fun t => t.live (scrAluImm .add i rd ra imm)

/-- ANDI: Scriber ANDs an immediate with ra (R147). -/
def execAndi (i : Issuer) (rd ra : BitVec 5) (imm : W36) (s : State) : Host.Outcome State Fault Refusal :=
  s.on fun t => t.live (scrAluImm .and i rd ra imm)

/-- ORI: Scriber ORs an immediate with ra (R147). -/
def execOri (i : Issuer) (rd ra : BitVec 5) (imm : W36) (s : State) : Host.Outcome State Fault Refusal :=
  s.on fun t => t.live (scrAluImm .or i rd ra imm)

/-- XORI: Scriber XORs an immediate with ra (R147). -/
def execXori (i : Issuer) (rd ra : BitVec 5) (imm : W36) (s : State) : Host.Outcome State Fault Refusal :=
  s.on fun t => t.live (scrAluImm .xor i rd ra imm)

/-- SHLI: Scriber shifts ra left by an immediate amount (R147). -/
def execShli (i : Issuer) (rd ra : BitVec 5) (imm : W36) (s : State) : Host.Outcome State Fault Refusal :=
  s.on fun t => t.live (scrShiftImm .shl i rd ra imm)

/-- SHRI: Scriber shifts ra right by an immediate amount (R147). -/
def execShri (i : Issuer) (rd ra : BitVec 5) (imm : W36) (s : State) : Host.Outcome State Fault Refusal :=
  s.on fun t => t.live (scrShiftImm .shr i rd ra imm)

/-- LI: Scriber loads a 36-bit immediate into rd (R147). -/
def execLi (i : Issuer) (rd : BitVec 5) (imm : W36) (s : State) : Host.Outcome State Fault Refusal :=
  s.on fun t => t.live (scrLi i rd imm)

/-- MODADD: Scriber modular add of ra and rb under an M36 Modulus Table entry (R147). -/
def execModadd (i : Issuer) (rd ra rb : BitVec 5) (entry : BitVec 10) (s : State) : Host.Outcome State Fault Refusal :=
  s.on fun t => t.live (scrMod false i rd ra rb entry)

/-- MODMUL: Scriber modular multiply of ra and rb under an M36 Modulus Table entry (R147). -/
def execModmul (i : Issuer) (rd ra rb : BitVec 5) (entry : BitVec 10) (s : State) : Host.Outcome State Fault Refusal :=
  s.on fun t => t.live (scrMod true i rd ra rb entry)

/-- LDN: Scriber loads one Pad word through the narrow view (R139). -/
def execLdn (i : Issuer) (rd ra : BitVec 5) (off : BitVec 16) (s : State) : Host.Outcome State Fault Refusal :=
  s.on fun t => t.live (scrLdn i rd ra off)

/-- STN: Scriber stores one Pad word as a read-modify-write of its ECC pair (R139). -/
def execStn (i : Issuer) (ra rb : BitVec 5) (off : BitVec 16) (s : State) : Host.Outcome State Fault Refusal :=
  s.on fun t => t.live (scrStn i ra rb off)

/-- MFS: Scriber reads a special register into rd (R148). -/
def execMfs (i : Issuer) (rd : BitVec 5) (sr : BitVec 8) (s : State) : Host.Outcome State Fault Refusal :=
  s.on fun t => t.live (scrMfs i rd sr)

/-- MTS: Scriber writes a special register or a task-slot shadow field (R148). -/
def execMts (i : Issuer) (ra : BitVec 5) (sr : BitVec 8) (s : State) : Host.Outcome State Fault Refusal :=
  s.on fun t => t.live (scrMts i ra sr)

/-- TSEL: Scriber selects the active task slot for later bundles (R137). -/
def execTsel (i : Issuer) (slot : BitVec 2) (s : State) : Host.Outcome State Fault Refusal :=
  s.on fun t => t.live (scrTsel i slot)

/-- BR: Scriber branches unconditionally to TARGET (R140). -/
def execBr (i : Issuer) (target : BitVec 16) (s : State) : Host.Outcome State Fault Refusal :=
  s.on fun t => t.live (scrBranch .always i 0 0 target)

/-- BEQ: Scriber branches when ra equals rb (R140). -/
def execBeq (i : Issuer) (ra rb : BitVec 5) (target : BitVec 16) (s : State) : Host.Outcome State Fault Refusal :=
  s.on fun t => t.live (scrBranch .eq i ra rb target)

/-- BNE: Scriber branches when ra differs from rb (R140). -/
def execBne (i : Issuer) (ra rb : BitVec 5) (target : BitVec 16) (s : State) : Host.Outcome State Fault Refusal :=
  s.on fun t => t.live (scrBranch .ne i ra rb target)

/-- BLT: Scriber branches when ra is less than rb, signed (R140). -/
def execBlt (i : Issuer) (ra rb : BitVec 5) (target : BitVec 16) (s : State) : Host.Outcome State Fault Refusal :=
  s.on fun t => t.live (scrBranch .lt i ra rb target)

/-- BLTU: Scriber branches when ra is less than rb, unsigned (R140). -/
def execBltu (i : Issuer) (ra rb : BitVec 5) (target : BitVec 16) (s : State) : Host.Outcome State Fault Refusal :=
  s.on fun t => t.live (scrBranch .ltu i ra rb target)

/-- CALL: Scriber rotates to the next window and transfers control, trapping on overflow (R134). -/
def execCall (i : Issuer) (target : BitVec 16) (s : State) : Host.Outcome State Fault Refusal :=
  s.on fun t => t.live (scrCall i target)

/-- RET: Scriber returns to the previous window, trapping on underflow (R134). -/
def execRet (i : Issuer) (s : State) : Host.Outcome State Fault Refusal :=
  s.on fun t => t.live (scrRet i)

/-- LOOP: Scriber pushes a loop entry with END and count onto the loop stack (R141). -/
def execLoop (i : Issuer) (ra : BitVec 5) (last : BitVec 16) (s : State) : Host.Outcome State Fault Refusal :=
  s.on fun t => t.live (scrLoop i ra last)

/-- IDLE: Scriber issues nothing for COUNT F-cycles (R147). -/
def execIdle (i : Issuer) (count : BitVec 16) (s : State) : Host.Outcome State Fault Refusal :=
  s.on fun t => t.live (scrIdle i count)

/-- LOOSE: Scriber arms loose execution at TARGET for the next stitch point (R143). -/
def execLoose (i : Issuer) (target : BitVec 16) (s : State) : Host.Outcome State Fault Refusal :=
  s.on fun t => t.live (scrLoose i target)

/-- SCRIBER_WRITEBACK: A Scriber result lands in its destination register at the end of its latency (R132). -/
def execScriberWriteback (i : Issuer) (s : State) : Host.Outcome State Fault Refusal :=
  s.on fun t => t.live (scrWriteback i)

/-- STITCH: Sync stitch mark checks against the timing manifest and counts a miss (R107). -/
def execStitch (i : Issuer) (index : BitVec 12) (s : State) : Host.Outcome State Fault Refusal :=
  s.on fun t => t.live (syncStitch i index)

/-- BARRIER: Sync barrier makes a loose cell wait for every cell in its scope (R145). -/
def execBarrier (i : Issuer) (scope : BitVec 2) (atEnd : Bool) (s : State) : Host.Outcome State Fault Refusal :=
  s.on fun t => t.live (syncBarrier i scope atEnd)

/-- YOKE: Sync starts the Yoke transfer of a slot-table entry (R195). -/
def execYoke (i : Issuer) (entry : BitVec 12) (s : State) : Host.Outcome State Fault Refusal :=
  s.on fun t => t.live (syncYoke i entry)

/-- WEAVE: Sync starts the Weave transfer of a WEAVE section entry (R101). -/
def execWeave (i : Issuer) (entry : BitVec 12) (s : State) : Host.Outcome State Fault Refusal :=
  s.on fun t => t.live (syncWeave i entry)

/-- EVENT: Sync adds 1 to a partition Sync event counter (R145). -/
def execEvent (i : Issuer) (counter : BitVec 3) (s : State) : Host.Outcome State Fault Refusal :=
  s.on fun t => t.live (syncEvent i counter)

end Sys2Proof.Machine
end

