-- ==== Sys2Proof/Machine/Dispatch.lean ====
section
/-! DEFINITION. One arm per command. -/

namespace Sys2Proof.Machine

/-- The effect of a command on everything but the queue. -/
def exec (i : Instr) (s : State) : Host.Outcome State Fault Refusal :=
  match i with
  | .nop iss => Sys2Proof.Machine.execNop iss s
  | .add iss rd ra rb => Sys2Proof.Machine.execAdd iss rd ra rb s
  | .sub iss rd ra rb => Sys2Proof.Machine.execSub iss rd ra rb s
  | .and iss rd ra rb => Sys2Proof.Machine.execAnd iss rd ra rb s
  | .or iss rd ra rb => Sys2Proof.Machine.execOr iss rd ra rb s
  | .xor iss rd ra rb => Sys2Proof.Machine.execXor iss rd ra rb s
  | .shl iss rd ra rb => Sys2Proof.Machine.execShl iss rd ra rb s
  | .shr iss rd ra rb => Sys2Proof.Machine.execShr iss rd ra rb s
  | .sra iss rd ra rb => Sys2Proof.Machine.execSra iss rd ra rb s
  | .mul iss rd ra rb => Sys2Proof.Machine.execMul iss rd ra rb s
  | .mulhu iss rd ra rb => Sys2Proof.Machine.execMulhu iss rd ra rb s
  | .slt iss rd ra rb => Sys2Proof.Machine.execSlt iss rd ra rb s
  | .sltu iss rd ra rb => Sys2Proof.Machine.execSltu iss rd ra rb s
  | .sel iss rd ra rb => Sys2Proof.Machine.execSel iss rd ra rb s
  | .addi iss rd ra imm => Sys2Proof.Machine.execAddi iss rd ra imm s
  | .andi iss rd ra imm => Sys2Proof.Machine.execAndi iss rd ra imm s
  | .ori iss rd ra imm => Sys2Proof.Machine.execOri iss rd ra imm s
  | .xori iss rd ra imm => Sys2Proof.Machine.execXori iss rd ra imm s
  | .shli iss rd ra imm => Sys2Proof.Machine.execShli iss rd ra imm s
  | .shri iss rd ra imm => Sys2Proof.Machine.execShri iss rd ra imm s
  | .li iss rd imm => Sys2Proof.Machine.execLi iss rd imm s
  | .modadd iss rd ra rb entry => Sys2Proof.Machine.execModadd iss rd ra rb entry s
  | .modmul iss rd ra rb entry => Sys2Proof.Machine.execModmul iss rd ra rb entry s
  | .ldn iss rd ra off => Sys2Proof.Machine.execLdn iss rd ra off s
  | .stn iss ra rb off => Sys2Proof.Machine.execStn iss ra rb off s
  | .mfs iss rd sr => Sys2Proof.Machine.execMfs iss rd sr s
  | .mts iss ra sr => Sys2Proof.Machine.execMts iss ra sr s
  | .tsel iss slot => Sys2Proof.Machine.execTsel iss slot s
  | .br iss target => Sys2Proof.Machine.execBr iss target s
  | .beq iss ra rb target => Sys2Proof.Machine.execBeq iss ra rb target s
  | .bne iss ra rb target => Sys2Proof.Machine.execBne iss ra rb target s
  | .blt iss ra rb target => Sys2Proof.Machine.execBlt iss ra rb target s
  | .bltu iss ra rb target => Sys2Proof.Machine.execBltu iss ra rb target s
  | .call iss target => Sys2Proof.Machine.execCall iss target s
  | .ret iss => Sys2Proof.Machine.execRet iss s
  | .loop iss ra last => Sys2Proof.Machine.execLoop iss ra last s
  | .idle iss count => Sys2Proof.Machine.execIdle iss count s
  | .loose iss target => Sys2Proof.Machine.execLoose iss target s
  | .scriberWriteback iss => Sys2Proof.Machine.execScriberWriteback iss s
  | .stitch iss index => Sys2Proof.Machine.execStitch iss index s
  | .barrier iss scope atEnd => Sys2Proof.Machine.execBarrier iss scope atEnd s
  | .yoke iss entry => Sys2Proof.Machine.execYoke iss entry s
  | .weave iss entry => Sys2Proof.Machine.execWeave iss entry s
  | .event iss counter => Sys2Proof.Machine.execEvent iss counter s
  | .mma iss m18 ga gb count => Sys2Proof.Machine.execMma iss m18 ga gb count s
  | .mmaStep iss => Sys2Proof.Machine.execMmaStep iss s
  | .drain iss m18 tap rowmod gd entry => Sys2Proof.Machine.execDrain iss m18 tap rowmod gd entry s
  | .drainWordLand iss => Sys2Proof.Machine.execDrainWordLand iss s
  | .zero iss => Sys2Proof.Machine.execZero iss s
  | .taprel iss => Sys2Proof.Machine.execTaprel iss s
  | .engineStart iss panel engine => Sys2Proof.Machine.execEngineStart iss panel engine s
  | .madd iss f => Sys2Proof.Machine.execMadd iss f s
  | .msub iss f => Sys2Proof.Machine.execMsub iss f s
  | .mneg iss f => Sys2Proof.Machine.execMneg iss f s
  | .mmul iss f => Sys2Proof.Machine.execMmul iss f s
  | .mmad iss f => Sys2Proof.Machine.execMmad iss f s
  | .mmsb iss f => Sys2Proof.Machine.execMmsb iss f s
  | .resc iss f => Sys2Proof.Machine.execResc iss f s
  | .red iss f => Sys2Proof.Machine.execRed iss f s
  | .move iss f => Sys2Proof.Machine.execMove iss f s
  | .digit iss f => Sys2Proof.Machine.execDigit iss f s
  | .stippleGroup iss => Sys2Proof.Machine.execStippleGroup iss s
  | .ntt iss gd gk gp logm sstart => Sys2Proof.Machine.execNtt iss gd gk gp logm sstart s
  | .intt iss gd gk gp logm sstart => Sys2Proof.Machine.execIntt iss gd gk gp logm sstart s
  | .burinRowWrite iss => Sys2Proof.Machine.execBurinRowWrite iss s
  | .auto iss stage span m18 logn gs gd gp => Sys2Proof.Machine.execAuto iss stage span m18 logn gs gd gp s
  | .trans iss beta pos oc gs gd gp => Sys2Proof.Machine.execTrans iss beta pos oc gs gd gp s
  | .brev iss gs gd gp => Sys2Proof.Machine.execBrev iss gs gd gp s
  | .gather iss table gs gd gp => Sys2Proof.Machine.execGather iss table gs gd gp s
  | .hatchRowLand iss panel => Sys2Proof.Machine.execHatchRowLand iss panel s
  | .expand iss slot gd gp => Sys2Proof.Machine.execExpand iss slot gd gp s
  | .sample iss dist gd gp => Sys2Proof.Machine.execSample iss dist gd gp s
  | .weftRowLand iss panel => Sys2Proof.Machine.execWeftRowLand iss panel s
  | .tstart iss thread desc gr => Sys2Proof.Machine.execTstart iss thread desc gr s
  | .advance iss thread segs => Sys2Proof.Machine.execAdvance iss thread segs s
  | .tstop iss thread => Sys2Proof.Machine.execTstop iss thread s
  | .spoolPresent iss resource => Sys2Proof.Machine.execSpoolPresent iss resource s
  | .unitLand iss thread => Sys2Proof.Machine.execUnitLand iss thread s
  | .writeDrainDone run => Sys2Proof.Machine.execWriteDrainDone run s
  | .liningReadBeat iss panel => Sys2Proof.Machine.execLiningReadBeat iss panel s
  | .liningWriteBeat iss panel => Sys2Proof.Machine.execLiningWriteBeat iss panel s
  | .liningLineLand iss panel => Sys2Proof.Machine.execLiningLineLand iss panel s
  | .liningPatrolScrub plate => Sys2Proof.Machine.execLiningPatrolScrub plate s
  | .hbmRequestArrive run stack => Sys2Proof.Machine.execHbmRequestArrive run stack s
  | .hbmSlotServe stack owner cls => Sys2Proof.Machine.execHbmSlotServe stack owner cls s
  | .controlTackReturn iss thread late => Sys2Proof.Machine.execControlTackReturn iss thread late s
  | .weaveFlitLand run entry => Sys2Proof.Machine.execWeaveFlitLand run entry s
  | .yokeWordLand iss panel => Sys2Proof.Machine.execYokeWordLand iss panel s
  | .controlFlitDeliver panel => Sys2Proof.Machine.execControlFlitDeliver panel s
  | .seamFlitDepart run vlink => Sys2Proof.Machine.execSeamFlitDepart run vlink s
  | .seamFlitDeliver run vlink uncorrectable corrected => Sys2Proof.Machine.execSeamFlitDeliver run vlink uncorrectable corrected s
  | .stitchCommit run => Sys2Proof.Machine.execStitchCommit run s
  | .planFinal run => Sys2Proof.Machine.execPlanFinal run s
  | .planStart part => Sys2Proof.Machine.execPlanStart part s
  | .planSplice run => Sys2Proof.Machine.execPlanSplice run s
  | .residencyLoadStart part => Sys2Proof.Machine.execResidencyLoadStart part s
  | .residencyLoadDone part => Sys2Proof.Machine.execResidencyLoadDone part s
  | .sealJobDone => Sys2Proof.Machine.execSealJobDone s
  | .sealYield => Sys2Proof.Machine.execSealYield s
  | .tcModulusSet c part index q logn fmt psi tw => Sys2Proof.Machine.execTcModulusSet c part index q logn fmt psi tw s
  | .tcModulusClear c part index => Sys2Proof.Machine.execTcModulusClear c part index s
  | .tcChainSet c part chain qcount pcount index => Sys2Proof.Machine.execTcChainSet c part chain qcount pcount index s
  | .tcChainClear c part chain => Sys2Proof.Machine.execTcChainClear c part chain s
  | .tcModulusGet c part index isChain => Sys2Proof.Machine.execTcModulusGet c part index isChain s
  | .tcContainerCheck c part handle offset => Sys2Proof.Machine.execTcContainerCheck c part handle offset s
  | .tcContainerSize c header => Sys2Proof.Machine.execTcContainerSize c header s
  | .tcPlanInstall c part image plateMap table debug => Sys2Proof.Machine.execTcPlanInstall c part image plateMap table debug s
  | .tcPlanStart c part target handles => Sys2Proof.Machine.execTcPlanStart c part target handles s
  | .tcPlanRemove c part slot => Sys2Proof.Machine.execTcPlanRemove c part slot s
  | .tcPlanQuery c part slot => Sys2Proof.Machine.execTcPlanQuery c part slot s
  | .tcScriberQuery c part cell => Sys2Proof.Machine.execTcScriberQuery c part cell s
  | .tcPsQuery c part cell => Sys2Proof.Machine.execTcPsQuery c part cell s
  | .tcEngineStore c part mask id item => Sys2Proof.Machine.execTcEngineStore c part mask id item s
  | .tcEngineQuery c part swatch => Sys2Proof.Machine.execTcEngineQuery c part swatch s
  | .tcSpoolQuery c part cell => Sys2Proof.Machine.execTcSpoolQuery c part cell s
  | .tcLiningRetire c plate block => Sys2Proof.Machine.execTcLiningRetire c plate block s
  | .tcMemQuery c part plate => Sys2Proof.Machine.execTcMemQuery c part plate s
  | .tcPageRetire c stack first count => Sys2Proof.Machine.execTcPageRetire c stack first count s
  | .tcHbmQuery c stack => Sys2Proof.Machine.execTcHbmQuery c stack s
  | .tcSeamQuery c plate port => Sys2Proof.Machine.execTcSeamQuery c plate port s
  | .tcSeamTest c plate port phases d => Sys2Proof.Machine.execTcSeamTest c plate port phases d s
  | .seamTestDone plate port failed margins => Sys2Proof.Machine.execSeamTestDone plate port failed margins s
  | .tcSeamLaneRetire c plate port dir lane => Sys2Proof.Machine.execTcSeamLaneRetire c plate port dir lane s
  | .tcPlateRecover c plate => Sys2Proof.Machine.execTcPlateRecover c plate s
  | .tcFabricJoin c id list lock => Sys2Proof.Machine.execTcFabricJoin c id list lock s
  | .tcRouteSet c dest mask => Sys2Proof.Machine.execTcRouteSet c dest mask s
  | .tcSlvQuery c link => Sys2Proof.Machine.execTcSlvQuery c link s
  | .tcSlvTest c link phases d => Sys2Proof.Machine.execTcSlvTest c link phases d s
  | .tcSlvLaneRetire c link dir lane => Sys2Proof.Machine.execTcSlvLaneRetire c link dir lane s
  | .tcOwnerSet c part table block entry => Sys2Proof.Machine.execTcOwnerSet c part table block entry s
  | .tcTokenGate c part slot token value version timeout => Sys2Proof.Machine.execTcTokenGate c part slot token value version timeout s
  | .tcFabricFetch c part table block local_ remote => Sys2Proof.Machine.execTcFabricFetch c part table block local_ remote s
  | .tcPartitionCreate c part mask grow => Sys2Proof.Machine.execTcPartitionCreate c part mask grow s
  | .tcPartitionGrow c part mask => Sys2Proof.Machine.execTcPartitionGrow c part mask s
  | .tcPartitionShrink c part mask => Sys2Proof.Machine.execTcPartitionShrink c part mask s
  | .tcPartitionDestroy c part => Sys2Proof.Machine.execTcPartitionDestroy c part s
  | .tcPartitionQuery c part => Sys2Proof.Machine.execTcPartitionQuery c part s
  | .tcSplitSet c part resource cls units strict => Sys2Proof.Machine.execTcSplitSet c part resource cls units strict s
  | .tcSplitQuery c resource => Sys2Proof.Machine.execTcSplitQuery c resource s
  | .tcPartitionReset c part => Sys2Proof.Machine.execTcPartitionReset c part s
  | .tcPlateReset c plate => Sys2Proof.Machine.execTcPlateReset c plate s
  | .tcCollarReset c => Sys2Proof.Machine.execTcCollarReset c s
  | .tcEventRoute c function ev vector enable => Sys2Proof.Machine.execTcEventRoute c function ev vector enable s
  | .tcPowerPolicy c part floor nap rest => Sys2Proof.Machine.execTcPowerPolicy c part floor nap rest s
  | .tcPlatePower c plate allow delay => Sys2Proof.Machine.execTcPlatePower c plate allow delay s
  | .tcPowerLimit c watts => Sys2Proof.Machine.execTcPowerLimit c watts s
  | .tcPowerQuery c plate index => Sys2Proof.Machine.execTcPowerQuery c plate index s
  | .tcThermalQuery c => Sys2Proof.Machine.execTcThermalQuery c s
  | .tcLedgerGet c item index => Sys2Proof.Machine.execTcLedgerGet c item index s
  | .tcLedgerSet c items => Sys2Proof.Machine.execTcLedgerSet c items s
  | .tcLedgerCommit c => Sys2Proof.Machine.execTcLedgerCommit c s
  | .tcCellRetire c cell force => Sys2Proof.Machine.execTcCellRetire c cell force s
  | .tcBufAlloc c part kind place bolts priv => Sys2Proof.Machine.execTcBufAlloc c part kind place bolts priv s
  | .tcBufFree c handle => Sys2Proof.Machine.execTcBufFree c handle s
  | .tcBufShare c handle fabric package part first bolts read add write token => Sys2Proof.Machine.execTcBufShare c handle fabric package part first bolts read add write token s
  | .tcBufRevoke c handle => Sys2Proof.Machine.execTcBufRevoke c handle s
  | .tcBufQuery c handle => Sys2Proof.Machine.execTcBufQuery c handle s
  | .tcQuotaSet c part hbm keyLines lining control handles maxOpen => Sys2Proof.Machine.execTcQuotaSet c part hbm keyLines lining control handles maxOpen s
  | .tcKeyRegister c part handle bundle => Sys2Proof.Machine.execTcKeyRegister c part handle bundle s
  | .tcKeyEvict c part keyId => Sys2Proof.Machine.execTcKeyEvict c part keyId s
  | .tcKeyQuery c part => Sys2Proof.Machine.execTcKeyQuery c part s
  | .tcServiceDefine c part service slots maxOpen kind policy => Sys2Proof.Machine.execTcServiceDefine c part service slots maxOpen kind policy s
  | .tcServiceRemove c part service => Sys2Proof.Machine.execTcServiceRemove c part service s
  | .tcServiceQuery c part service => Sys2Proof.Machine.execTcServiceQuery c part service s
  | .tcReceiptGet c part request => Sys2Proof.Machine.execTcReceiptGet c part request s
  | .tcTimeSet c time => Sys2Proof.Machine.execTcTimeSet c time s
  | .tcBufAllocAt c part addr bolts => Sys2Proof.Machine.execTcBufAllocAt c part addr bolts s
  | .tcSchedHold c part hold => Sys2Proof.Machine.execTcSchedHold c part hold s
  | .tcKrpPortSet c port addr4 addr6 udp vlan gap persist => Sys2Proof.Machine.execTcKrpPortSet c port addr4 addr6 udp vlan gap persist s
  | .tcKrpClientSet c client => Sys2Proof.Machine.execTcKrpClientSet c client s
  | .tcKrpClientRemove c keyId => Sys2Proof.Machine.execTcKrpClientRemove c keyId s
  | .tcKrpSessionQuery c part => Sys2Proof.Machine.execTcKrpSessionQuery c part s
  | .tcKrpSessionClose c session => Sys2Proof.Machine.execTcKrpSessionClose c session s
  | .tcSealQuery c => Sys2Proof.Machine.execTcSealQuery c s
  | .tcAttest c nonce => Sys2Proof.Machine.execTcAttest c nonce s
  | .tcMeasLog c first count => Sys2Proof.Machine.execTcMeasLog c first count s
  | .tcLifecycleSet c target token => Sys2Proof.Machine.execTcLifecycleSet c target token s
  | .tcPolicySet c value lock token => Sys2Proof.Machine.execTcPolicySet c value lock token s
  | .tcPolicyKeySet c slot key token => Sys2Proof.Machine.execTcPolicyKeySet c slot key token s
  | .tcSignerSet c keyKind slot alg key mask enable token => Sys2Proof.Machine.execTcSignerSet c keyKind slot alg key mask enable token s
  | .tcSvnCommit c => Sys2Proof.Machine.execTcSvnCommit c s
  | .tcSealKat c failed => Sys2Proof.Machine.execTcSealKat c failed s
  | .tcTrngRaw c source count => Sys2Proof.Machine.execTcTrngRaw c source count s
  | .tcRingSet c part ring krp sqBase sqSize cqBase cqSize => Sys2Proof.Machine.execTcRingSet c part ring krp sqBase sqSize cqBase cqSize s
  | .tcRingQuery c part ring => Sys2Proof.Machine.execTcRingQuery c part ring s
  | .tcWindowMap c function aperture handle offset => Sys2Proof.Machine.execTcWindowMap c function aperture handle offset s
  | .tcWindowUnmap c function aperture => Sys2Proof.Machine.execTcWindowUnmap c function aperture s
  | .tcWindowQuery c function => Sys2Proof.Machine.execTcWindowQuery c function s
  | .tcWindowMapPhys c aperture addr => Sys2Proof.Machine.execTcWindowMapPhys c aperture addr s
  | .tcGradeQuery c => Sys2Proof.Machine.execTcGradeQuery c s
  | .tcSelftest c mask => Sys2Proof.Machine.execTcSelftest c mask s
  | .selftestDone swatch failing => Sys2Proof.Machine.execSelftestDone swatch failing s
  | .tcErrorLog c first count flash => Sys2Proof.Machine.execTcErrorLog c first count flash s
  | .tcErrlogClear c => Sys2Proof.Machine.execTcErrlogClear c s
  | .mailboxTailWrite fn tail => Sys2Proof.Machine.execMailboxTailWrite fn tail s
  | .mtCmdWriteEntry => Sys2Proof.Machine.execMtCmdWriteEntry s
  | .mtCmdClearEntry => Sys2Proof.Machine.execMtCmdClearEntry s
  | .mtCmdWriteChain => Sys2Proof.Machine.execMtCmdWriteChain s
  | .mtCmdClearChain => Sys2Proof.Machine.execMtCmdClearChain s
  | .mtCmdReserved op => Sys2Proof.Machine.execMtCmdReserved op s
  | .mtCmdDone => Sys2Proof.Machine.execMtCmdDone s
  | .dbgStitchGo => Sys2Proof.Machine.execDbgStitchGo s
  | .dbgPsAbort swatch engine => Sys2Proof.Machine.execDbgPsAbort swatch engine s
  | .dbgEngSwapNow swatch engine => Sys2Proof.Machine.execDbgEngSwapNow swatch engine s
  | .dbgEngAbort swatch engine => Sys2Proof.Machine.execDbgEngAbort swatch engine s
  | .dbgEngCmdReserved swatch engine op11 => Sys2Proof.Machine.execDbgEngCmdReserved swatch engine op11 s
  | .dbgPadRead cell row => Sys2Proof.Machine.execDbgPadRead cell row s
  | .dbgPadWrite cell row => Sys2Proof.Machine.execDbgPadWrite cell row s
  | .hbmInjectGo stack atom kind => Sys2Proof.Machine.execHbmInjectGo stack atom kind s
  | .seamTestCtrlGo plate port phases d => Sys2Proof.Machine.execSeamTestCtrlGo plate port phases d s
  | .slvTestCtrlGo link phases d => Sys2Proof.Machine.execSlvTestCtrlGo link phases d s
  | .pwrResetPlate plate => Sys2Proof.Machine.execPwrResetPlate plate s
  | .pwrResetCollarWarm => Sys2Proof.Machine.execPwrResetCollarWarm s
  | .dbgEvInject ev function => Sys2Proof.Machine.execDbgEvInject ev function s
  | .pwrForceRun swatch => Sys2Proof.Machine.execPwrForceRun swatch s
  | .pwrForceDoze swatch => Sys2Proof.Machine.execPwrForceDoze swatch s
  | .ldgUserWrite item index value => Sys2Proof.Machine.execLdgUserWrite item index value s
  | .dbgCapOverrideWrite resource cap enable => Sys2Proof.Machine.execDbgCapOverrideWrite resource cap enable s
  | .slvPkgWrite id lock => Sys2Proof.Machine.execSlvPkgWrite id lock s
  | .evAckWrite fn ev value => Sys2Proof.Machine.execEvAckWrite fn ev value s
  | .vecRearmWrite fn mask => Sys2Proof.Machine.execVecRearmWrite fn mask s
  | .evRouteWrite fn index data => Sys2Proof.Machine.execEvRouteWrite fn index data s
  | .registerWrite fn write => Sys2Proof.Machine.execRegisterWrite fn write s
  | .msixSend fn vector => Sys2Proof.Machine.execMsixSend fn vector s
  | .msixUnmask fn vector => Sys2Proof.Machine.execMsixUnmask fn vector s
  | .sqDoorbell fn part ring tail => Sys2Proof.Machine.execSqDoorbell fn part ring tail s
  | .cqDoorbell fn part ring head => Sys2Proof.Machine.execCqDoorbell fn part ring head s
  | .sqStart part ring reservedOk service target tag nhandles indirect handles => Sys2Proof.Machine.execSqStart part ring reservedOk service target tag nhandles indirect handles s
  | .sqFrameTx part ring reservedOk tag len f m => Sys2Proof.Machine.execSqFrameTx part ring reservedOk tag len f m s
  | .sqRxbuf part ring reservedOk tag len => Sys2Proof.Machine.execSqRxbuf part ring reservedOk tag len s
  | .sqNop part ring reservedOk tag => Sys2Proof.Machine.execSqNop part ring reservedOk tag s
  | .ringDmaError part ring write => Sys2Proof.Machine.execRingDmaError part ring write s
  | .windowRead fn aperture offset n => Sys2Proof.Machine.execWindowRead fn aperture offset n s
  | .windowWrite fn aperture offset data => Sys2Proof.Machine.execWindowWrite fn aperture offset data s
  | .atomicOp fn aperture offset bits64 op => Sys2Proof.Machine.execAtomicOp fn aperture offset bits64 op s
  | .pcieConfigRequest fn op => Sys2Proof.Machine.execPcieConfigRequest fn op s
  | .busMasterEnableChange fn on => Sys2Proof.Machine.execBusMasterEnableChange fn on s
  | .pcieHotReset => Sys2Proof.Machine.execPcieHotReset s
  | .pf0Flr => Sys2Proof.Machine.execPf0Flr s
  | .vfFlr vf => Sys2Proof.Machine.execVfFlr vf s
  | .openStage1 f piece count body => Sys2Proof.Machine.execOpenStage1 f piece count body s
  | .openStage3 f piece count body => Sys2Proof.Machine.execOpenStage3 f piece count body s
  | .keys f id bytes header => Sys2Proof.Machine.execKeys f id bytes header s
  | .submit f id service inputs => Sys2Proof.Machine.execSubmit f id service inputs s
  | .chunk f id kind index seq data => Sys2Proof.Machine.execChunk f id kind index seq data s
  | .handoffIn f id round bytes header => Sys2Proof.Machine.execHandoffIn f id round bytes header s
  | .close f => Sys2Proof.Machine.execClose f s
  | .nackMissingReceive f id stream index ranges => Sys2Proof.Machine.execNackMissingReceive f id stream index ranges s
  | .nackResendReceive f id => Sys2Proof.Machine.execNackResendReceive f id s
  | .resultChunkSend session => Sys2Proof.Machine.execResultChunkSend session s
  | .krpGapTimer session id kind index => Sys2Proof.Machine.execKrpGapTimer session id kind index s
  | .openPieceTimeout carrier session => Sys2Proof.Machine.execOpenPieceTimeout carrier session s
  | .halfOpenExpiry session => Sys2Proof.Machine.execHalfOpenExpiry session s
  | .sessionIdleTimeout session => Sys2Proof.Machine.execSessionIdleTimeout session s
  | .krpSessionRekey session => Sys2Proof.Machine.execKrpSessionRekey session s
  | .handoffTimeout request => Sys2Proof.Machine.execHandoffTimeout request s
  | .netHousekeepingFrame port kind => Sys2Proof.Machine.execNetHousekeepingFrame port kind s
  | .receiptExpiry part id => Sys2Proof.Machine.execReceiptExpiry part id s
  | .tokenGateTimeout part slot => Sys2Proof.Machine.execTokenGateTimeout part slot s
  | .slvEgressAccept run => Sys2Proof.Machine.execSlvEgressAccept run s
  | .slvPacketSend link part => Sys2Proof.Machine.execSlvPacketSend link part s
  | .slvWriteReceive h data poison => Sys2Proof.Machine.execSlvWriteReceive h data poison s
  | .slvAddReceive h integer q m18 data poison => Sys2Proof.Machine.execSlvAddReceive h integer q m18 data poison s
  | .slvTokenReceive h err status => Sys2Proof.Machine.execSlvTokenReceive h err status s
  | .slvControlReceive h part table block version entry => Sys2Proof.Machine.execSlvControlReceive h part table block version entry s
  | .slvAckReceive link seq => Sys2Proof.Machine.execSlvAckReceive link seq s
  | .slvNackReceive link seq status pkg => Sys2Proof.Machine.execSlvNackReceive link seq status pkg s
  | .slvPacketError link seq tag => Sys2Proof.Machine.execSlvPacketError link seq tag s
  | .slvRekey link => Sys2Proof.Machine.execSlvRekey link s
  | .slvLaneFail link tx rx => Sys2Proof.Machine.execSlvLaneFail link tx rx s
  | .slvTrainStateDone link tx rx peer => Sys2Proof.Machine.execSlvTrainStateDone link tx rx peer s
  | .slvTrainTimeout link => Sys2Proof.Machine.execSlvTrainTimeout link s
  | .seamLaneFail plate port tx rx => Sys2Proof.Machine.execSeamLaneFail plate port tx rx s
  | .seamRepairDone plate port => Sys2Proof.Machine.execSeamRepairDone plate port s
  | .seamRetrainDone plate port => Sys2Proof.Machine.execSeamRetrainDone plate port s
  | .seamTrainStateDone plate port tx rx => Sys2Proof.Machine.execSeamTrainStateDone plate port tx rx s
  | .seamTrainTimeout plate port => Sys2Proof.Machine.execSeamTrainTimeout plate port s
  | .tapBypass => Sys2Proof.Machine.execTapBypass s
  | .tapIdcode => Sys2Proof.Machine.execTapIdcode s
  | .tapSamplePreload => Sys2Proof.Machine.execTapSamplePreload s
  | .tapExtest => Sys2Proof.Machine.execTapExtest s
  | .tapDieAccess => Sys2Proof.Machine.execTapDieAccess s
  | .tapSeamInterconnectTest plate port phases d => Sys2Proof.Machine.execTapSeamInterconnectTest plate port phases d s
  | .spdmGetVersion => Sys2Proof.Machine.execSpdmGetVersion s
  | .spdmGetCapabilities version => Sys2Proof.Machine.execSpdmGetCapabilities version s
  | .spdmNegotiateAlgorithms asym hash dhe aead => Sys2Proof.Machine.execSpdmNegotiateAlgorithms asym hash dhe aead s
  | .spdmGetDigests => Sys2Proof.Machine.execSpdmGetDigests s
  | .spdmGetCertificate slot offset length => Sys2Proof.Machine.execSpdmGetCertificate slot offset length s
  | .spdmChallenge slot nonce => Sys2Proof.Machine.execSpdmChallenge slot nonce s
  | .spdmGetMeasurements index sign nonce => Sys2Proof.Machine.execSpdmGetMeasurements index sign nonce s
  | .spdmKeyExchange slot session exchange => Sys2Proof.Machine.execSpdmKeyExchange slot session exchange s
  | .spdmFinish macOk => Sys2Proof.Machine.execSpdmFinish macOk s
  | .spdmHeartbeat => Sys2Proof.Machine.execSpdmHeartbeat s
  | .spdmKeyUpdate op => Sys2Proof.Machine.execSpdmKeyUpdate op s
  | .spdmEndSession => Sys2Proof.Machine.execSpdmEndSession s
  | .spdmSetCertificate slot chain => Sys2Proof.Machine.execSpdmSetCertificate slot chain s
  | .spdmUnsupportedRequest => Sys2Proof.Machine.execSpdmUnsupportedRequest s
  | .pldmSensorRead sensor => Sys2Proof.Machine.execPldmSensorRead sensor s
  | .pldmFirmwareUpdate component sigOk svn => Sys2Proof.Machine.execPldmFirmwareUpdate component sigOk svn s
  | .coldReset powerOn sel addr => Sys2Proof.Machine.execColdReset powerOn sel addr s
  | .bringupPhaseDone r => Sys2Proof.Machine.execBringupPhaseDone r s
  | .bringupPhaseTimeout r => Sys2Proof.Machine.execBringupPhaseTimeout r s
  | .collarWarmReset cause => Sys2Proof.Machine.execCollarWarmReset cause s
  | .tailorWatchdogExpiry => Sys2Proof.Machine.execTailorWatchdogExpiry s
  | .tailorCoreFail core => Sys2Proof.Machine.execTailorCoreFail core s
  | .resetDrainTimeout part => Sys2Proof.Machine.execResetDrainTimeout part s
  | .partitionResetTimeout part unscrubbed => Sys2Proof.Machine.execPartitionResetTimeout part unscrubbed s
  | .plateResetTimeout plate => Sys2Proof.Machine.execPlateResetTimeout plate s
  | .timeoutChannelExpiry fn => Sys2Proof.Machine.execTimeoutChannelExpiry fn s
  | .refaLoss => Sys2Proof.Machine.execRefaLoss s
  | .refaReturn => Sys2Proof.Machine.execRefaReturn s
  | .platePllUnlock plate => Sys2Proof.Machine.execPlatePllUnlock plate s
  | .collarPllUnlock => Sys2Proof.Machine.execCollarPllUnlock s
  | .debugPllLock plate => Sys2Proof.Machine.execDebugPllLock plate s
  | .plateRailUndervoltage plate => Sys2Proof.Machine.execPlateRailUndervoltage plate s
  | .railUndervoltage rail => Sys2Proof.Machine.execRailUndervoltage rail s
  | .plateTempTrip plate => Sys2Proof.Machine.execPlateTempTrip plate s
  | .stackTempTrip stack => Sys2Proof.Machine.execStackTempTrip stack s
  | .stackTripRelease stack => Sys2Proof.Machine.execStackTripRelease stack s
  | .collarTempTrip => Sys2Proof.Machine.execCollarTempTrip s
  | .thermalEvaluation plates hs collar watts => Sys2Proof.Machine.execThermalEvaluation plates hs collar watts s
  | .withdrawalTimeout part => Sys2Proof.Machine.execWithdrawalTimeout part s
  | .avsLimitTimeout plate => Sys2Proof.Machine.execAvsLimitTimeout plate s
  | .avsbusTransactionError plate => Sys2Proof.Machine.execAvsbusTransactionError plate s
  | .trngSourceFail source => Sys2Proof.Machine.execTrngSourceFail source s
  | .drbgReseed panel => Sys2Proof.Machine.execDrbgReseed panel s
  | .dozeEntry swatch => Sys2Proof.Machine.execDozeEntry swatch s
  | .napEntry swatch => Sys2Proof.Machine.execNapEntry swatch s
  | .restEntry swatch => Sys2Proof.Machine.execRestEntry swatch s
  | .plateOffEntry plate => Sys2Proof.Machine.execPlateOffEntry plate s
  | .swatchWakeDone swatch => Sys2Proof.Machine.execSwatchWakeDone swatch s
  | .resetCompletion scope => Sys2Proof.Machine.execResetCompletion scope s
  | .zeroingDone lining index => Sys2Proof.Machine.execZeroingDone lining index s
  | .railReturn rail => Sys2Proof.Machine.execRailReturn rail s
  | .avsMarginReturn plate => Sys2Proof.Machine.execAvsMarginReturn plate s
  | .slvTestDone link failed margins => Sys2Proof.Machine.execSlvTestDone link failed margins s
  | .mctpSetEndpointId eid => Sys2Proof.Machine.execMctpSetEndpointId eid s
  | .pcieLinkUp speed width flit => Sys2Proof.Machine.execPcieLinkUp speed width flit s
  | .ethernetLinkChange port up => Sys2Proof.Machine.execEthernetLinkChange port up s

end Sys2Proof.Machine
end

