-- ==== Sys2Proof/Machine/Fetch.lean ====
section
/-! DEFINITION. The bundles that the stores hold, decoded into slot commands: what a running plan issues by itself (R127, R144, R146, R147, R165,
R170, R186, R191, R199, R250). -/

namespace Sys2Proof.Machine

/-! ### Slots -/

/-- Bits of a slot as a bit vector: n bits from bit lo. -/
def fld (w lo n : Nat) : BitVec n := BitVec.ofNat n (bits w lo n)

/-- The command of a Spool slot (Table 9.3); nothing for a no-op. -/
def spoolCommand (i : Issuer) (w : Nat) : List Instr :=
  match bits w 28 4 with
  | 1 => [.tstart i (fld w 24 4) (fld w 16 8) (fld w 12 4)]
  | 2 => [.advance i (fld w 24 4) (fld w 22 2)]
  | 3 => [.tstop i (fld w 24 4)]
  | _ => []

/-- The command of a Press slot (Table 6.1). -/
def pressCommand (i : Issuer) (w : Nat) : List Instr :=
  match bits w 28 4 with
  | 1 => [.mma i (bit w 27) (fld w 23 4) (fld w 19 4) (fld w 10 9)]
  | 2 => [.drain i (bit w 27) (bit w 26) (bit w 25) (fld w 21 4) (fld w 11 10)]
  | 3 => [.zero i]
  | 4 => [.taprel i]
  | _ => []

/-- The command of a Stipple slot (Tables 6.2 and 6.3). -/
def stippleCommand (i : Issuer) (w : Nat) : List Instr :=
  match stipKindOf (bits w 42 6) with
  | some .madd => [.madd i (stipFieldsOf w)]
  | some .msub => [.msub i (stipFieldsOf w)]
  | some .mneg => [.mneg i (stipFieldsOf w)]
  | some .mmul => [.mmul i (stipFieldsOf w)]
  | some .mmad => [.mmad i (stipFieldsOf w)]
  | some .mmsb => [.mmsb i (stipFieldsOf w)]
  | some .resc => [.resc i (stipFieldsOf w)]
  | some .red => [.red i (stipFieldsOf w)]
  | some .move => [.move i (stipFieldsOf w)]
  | some .digit => [.digit i (stipFieldsOf w)]
  | none => []

/-- The command of a Burin slot (Table 7.1). -/
def burinCommand (i : Issuer) (w : Nat) : List Instr :=
  match bits w 21 3 with
  | 1 => [.ntt i (fld w 17 4) (fld w 13 4) (fld w 9 4) (fld w 5 4) (fld w 0 5)]
  | 2 => [.intt i (fld w 17 4) (fld w 13 4) (fld w 9 4) (fld w 5 4) (fld w 0 5)]
  | _ => []

/-- The command of a Hatch slot (Table 7.4). -/
def hatchCommand (i : Issuer) (w : Nat) : List Instr :=
  match bits w 20 4 with
  | 1 => [.auto i (bit w 0) (bit w 1) (bit w 2) (fld w 5 3) (fld w 16 4) (fld w 12 4) (fld w 8 4)]
  | 2 => [.trans i (fld w 0 3) (fld w 3 3) (fld w 6 2) (fld w 16 4) (fld w 12 4) (fld w 8 4)]
  | 3 => [.brev i (fld w 16 4) (fld w 12 4) (fld w 8 4)]
  | 4 => [.gather i (fld w 0 4) (fld w 16 4) (fld w 12 4) (fld w 8 4)]
  | _ => []

/-- The command of a Weft slot (Table 7.6). -/
def weftCommand (i : Issuer) (w : Nat) : List Instr :=
  match bits w 13 3 with
  | 1 => [.expand i (fld w 0 5) (fld w 9 4) (fld w 5 4)]
  | 2 => [.sample i (fld w 0 2) (fld w 9 4) (fld w 5 4)]
  | _ => []

/-- The command of a Sync slot (Table 5.2). -/
def syncCommand (i : Issuer) (w : Nat) : List Instr :=
  match bits w 12 4 with
  | 1 => [.stitch i (fld w 0 12)]
  | 2 => [.barrier i (fld w 10 2) (bit w 9)]
  | 3 => [.yoke i (fld w 0 12)]
  | 4 => [.weave i (fld w 0 12)]
  | 5 => [.event i (fld w 0 3)]
  | _ => []

/-- The command of a Scriber slot (Tables 5.3 and 5.4): RD[55:51], RA[50:46], RB[45:41] and the field of its form. -/
def scriberCommand (i : Issuer) (w : Nat) : Instr :=
  let rd : BitVec 5 := fld w 51 5
  let ra : BitVec 5 := fld w 46 5
  let rb : BitVec 5 := fld w 41 5
  let imm : W36 := fld w 10 36
  let target : BitVec 16 := fld w 25 16
  match bits w 56 8 with
  | 0x01 => .add i rd ra rb
  | 0x02 => .sub i rd ra rb
  | 0x03 => .and i rd ra rb
  | 0x04 => .or i rd ra rb
  | 0x05 => .xor i rd ra rb
  | 0x06 => .shl i rd ra rb
  | 0x07 => .shr i rd ra rb
  | 0x08 => .sra i rd ra rb
  | 0x09 => .mul i rd ra rb
  | 0x0A => .mulhu i rd ra rb
  | 0x0B => .slt i rd ra rb
  | 0x0C => .sltu i rd ra rb
  | 0x0D => .sel i rd ra rb
  | 0x10 => .addi i rd ra imm
  | 0x11 => .andi i rd ra imm
  | 0x12 => .ori i rd ra imm
  | 0x13 => .xori i rd ra imm
  | 0x14 => .shli i rd ra imm
  | 0x15 => .shri i rd ra imm
  | 0x16 => .li i rd imm
  | 0x18 => .modadd i rd ra rb (fld w 31 10)
  | 0x19 => .modmul i rd ra rb (fld w 31 10)
  | 0x20 => .ldn i rd ra target
  | 0x21 => .stn i ra rb target
  | 0x28 => .mfs i rd (fld w 33 8)
  | 0x29 => .mts i ra (fld w 33 8)
  | 0x2C => .tsel i (fld w 39 2)
  | 0x30 => .br i target
  | 0x31 => .beq i ra rb target
  | 0x32 => .bne i ra rb target
  | 0x33 => .blt i ra rb target
  | 0x34 => .bltu i ra rb target
  | 0x35 => .call i target
  | 0x36 => .ret i
  | 0x37 => .loop i ra target
  | 0x38 => .idle i target
  | 0x3A => .loose i target
  | _ => .nop i

/-! ### Bundles -/

/-- The slot commands of a bundle (Table 5.1), that of the Scriber last, which moves the stream on; none where a slot holds a reserved encoding. -/
def bundleCommands (i : Issuer) (b : BitVec 256) : Option (List Instr) :=
  let v := b.toNat
  if bundleOk b i.cell.isSome then
    some (spoolCommand i (bits v 160 32) ++ pressCommand i (bits v 128 32) ++ stippleCommand i (bits v 80 48)
      ++ burinCommand i (bits v 56 24) ++ hatchCommand i (bits v 32 24) ++ weftCommand i (bits v 16 16)
      ++ syncCommand i (bits v 0 16) ++ [scriberCommand i (bits v 192 64)])
  else none

/-- The bundle at an address of a stream: of the swatch's bundle store, or in loose execution of the cell's loose store. A place that nothing was
loaded into holds a bundle of no-ops. -/
def Chip.stored (s : Chip) (i : Issuer) (pc : Nat) : BitVec 256 :=
  match i.cell with
  | none => mget 0 pc (s.swatch i.sw.toNat).bundles
  | some c => mget 0 pc (s.cell (cellNo i.sw.toNat c.toNat)).looseStore

/-- The streams of a run: one of each swatch in ganged execution, one of each cell in loose execution. -/
def Chip.streamsOf (s : Chip) (r : Run) : List (Issuer × Stream) :=
  (r.plan.swatches.flatMap fun sw =>
    let i : Issuer := { run := r.id, sw := BitVec.ofNat 6 sw }
    if r.loose.contains sw then (List.range 512).map fun c => { i with cell := some (BitVec.ofNat 9 c) } else [i]).filterMap fun i =>
      (s.streamFor r i).map fun st => (i, st)

/-- The streams whose next bundle is due: the run stands at its plan cycle and takes plan cycles. -/
def Chip.dueStreams (s : Chip) : List (Issuer × Stream) :=
  s.runs.flatMap fun r =>
    if s.heldWith r || (match s.limitOf r with | some l => decide (l ≤ r.cycle) | none => true) then []
    else (s.streamsOf r).filter fun x => x.2.next.any fun n => decide (n ≤ r.cycle)

/-- What the package does with no command waiting: the first stream that is due issues its bundle, whose slot commands join the queue; with none
due, one F-cycle passes. A reserved encoding in a stored bundle stops the plan with ST_NOT_SUPPORTED (R6, R122). (DESIGN CHOICE, log entries 1
and 90.) -/
def State.idle (s : State) : State :=
  if s.chip.held then { s with chip := s.chip.tick }
  else
    match s.chip.dueStreams with
    | [] => { s with chip := s.chip.tick }
    | (i, st) :: _ =>
      match bundleCommands i (s.chip.stored i st.pc) with
      | some cs => { s with pending := s.pending ++ cs }
      | none => { s with chip := s.chip.issue i fun k => k.reserved }

end Sys2Proof.Machine
end

