-- ==== Sys2Proof/WellFormed.lean ====
section
/-! DEFINITION. Well-formed commands: operands that fit the fields they come in. -/

namespace Sys2Proof

open Sys2Proof.Machine

/-- A number that fits a 64-bit argument field. -/
def fits64 (n : Nat) : Bool := decide (n < 2 ^ 64)

/-- A pair of such numbers. -/
def fitsPair (x : Nat × Nat) : Bool := fits64 x.1 && fits64 x.2

/-- An announced input: its size and its 128 header bytes (Table 17.5). -/
def fitsInput (x : Nat × List Byte) : Bool := fits64 x.1 && x.2.length == 128

/-- A TLP of n bytes at an offset crosses no 4 KiB boundary. -/
def fitsTlp (offset : BitVec 22) (n : Nat) : Bool := decide (offset.toNat % 4096 + n ≤ 4096)

end Sys2Proof

namespace Sys2Proof.Machine

/-- A function that exists: PF0, or the VF of one of 64 partitions (R549). -/
def Fn.wf : Fn → Bool
  | .pf0 => true
  | .vf n => decide (n < 64)

/-- A mailbox entry: its function exists, its tag and its argument length fit their fields (Table 16.1). -/
def Call.wf (c : Call) : Bool := c.fn.wf && decide (c.tag < 2 ^ 32) && decide (c.argLen < 2 ^ 16) && !c.quiet

/-- A binding that exists: a port of two, a ring of eight of a partition (R475, R476). -/
def Carrier.wf : Carrier → Bool
  | .net port addr udp => decide (port < 2) && decide (addr < 2 ^ 128) && decide (udp < 65536)
  | .host part _ ring => decide (part < 64) && decide (ring < 8)

/-- A frame's fields fit (R477). -/
def KrpFrame.wf (f : KrpFrame) : Bool := f.carrier.wf && decide (f.session < 2 ^ 32) && decide (f.pn < 2 ^ 64)

/-- A packet's counters fit: the 64-bit SEQ and key epoch, and those under which a resent packet was first sent (Table 12.2, R339). -/
def PacketHead.wf (h : PacketHead) : Bool :=
  fits64 h.seq && fits64 h.epoch && h.first.all fun f => fits64 f.2.1 && fits64 f.2.2

/-- A target's number fits the 16 bits of TARGET (Table 20.4). -/
def Target.wf : Target → Bool
  | .service n => decide (n < 65536)
  | .slot n => decide (n < 65536)

/-- A client entry's fields fit (R480). -/
def KrpClient.wf (k : KrpClient) : Bool := decide (k.part < 64) && decide (k.owner < 2 ^ 32)

end Sys2Proof.Machine

namespace Sys2Proof

open Sys2Proof.Machine

/-- The mailbox entry of a Tailor call; none for the other commands. -/
def Instr.call? : Instr → Option Call
  | .nop _ => none
  | .add _ _ _ _ => none
  | .sub _ _ _ _ => none
  | .and _ _ _ _ => none
  | .or _ _ _ _ => none
  | .xor _ _ _ _ => none
  | .shl _ _ _ _ => none
  | .shr _ _ _ _ => none
  | .sra _ _ _ _ => none
  | .mul _ _ _ _ => none
  | .mulhu _ _ _ _ => none
  | .slt _ _ _ _ => none
  | .sltu _ _ _ _ => none
  | .sel _ _ _ _ => none
  | .addi _ _ _ _ => none
  | .andi _ _ _ _ => none
  | .ori _ _ _ _ => none
  | .xori _ _ _ _ => none
  | .shli _ _ _ _ => none
  | .shri _ _ _ _ => none
  | .li _ _ _ => none
  | .modadd _ _ _ _ _ => none
  | .modmul _ _ _ _ _ => none
  | .ldn _ _ _ _ => none
  | .stn _ _ _ _ => none
  | .mfs _ _ _ => none
  | .mts _ _ _ => none
  | .tsel _ _ => none
  | .br _ _ => none
  | .beq _ _ _ _ => none
  | .bne _ _ _ _ => none
  | .blt _ _ _ _ => none
  | .bltu _ _ _ _ => none
  | .call _ _ => none
  | .ret _ => none
  | .loop _ _ _ => none
  | .idle _ _ => none
  | .loose _ _ => none
  | .scriberWriteback _ => none
  | .stitch _ _ => none
  | .barrier _ _ _ => none
  | .yoke _ _ => none
  | .weave _ _ => none
  | .event _ _ => none
  | .mma _ _ _ _ _ => none
  | .mmaStep _ => none
  | .drain _ _ _ _ _ _ => none
  | .drainWordLand _ => none
  | .zero _ => none
  | .taprel _ => none
  | .engineStart _ _ _ => none
  | .madd _ _ => none
  | .msub _ _ => none
  | .mneg _ _ => none
  | .mmul _ _ => none
  | .mmad _ _ => none
  | .mmsb _ _ => none
  | .resc _ _ => none
  | .red _ _ => none
  | .move _ _ => none
  | .digit _ _ => none
  | .stippleGroup _ => none
  | .ntt _ _ _ _ _ _ => none
  | .intt _ _ _ _ _ _ => none
  | .burinRowWrite _ => none
  | .auto _ _ _ _ _ _ _ _ => none
  | .trans _ _ _ _ _ _ _ => none
  | .brev _ _ _ _ => none
  | .gather _ _ _ _ _ => none
  | .hatchRowLand _ _ => none
  | .expand _ _ _ _ => none
  | .sample _ _ _ _ => none
  | .weftRowLand _ _ => none
  | .tstart _ _ _ _ => none
  | .advance _ _ _ => none
  | .tstop _ _ => none
  | .spoolPresent _ _ => none
  | .unitLand _ _ => none
  | .writeDrainDone _ => none
  | .liningReadBeat _ _ => none
  | .liningWriteBeat _ _ => none
  | .liningLineLand _ _ => none
  | .liningPatrolScrub _ => none
  | .hbmRequestArrive _ _ => none
  | .hbmSlotServe _ _ _ => none
  | .controlTackReturn _ _ _ => none
  | .weaveFlitLand _ _ => none
  | .yokeWordLand _ _ => none
  | .controlFlitDeliver _ => none
  | .seamFlitDepart _ _ => none
  | .seamFlitDeliver _ _ _ _ => none
  | .stitchCommit _ => none
  | .planFinal _ => none
  | .planStart _ => none
  | .planSplice _ => none
  | .residencyLoadStart _ => none
  | .residencyLoadDone _ => none
  | .sealJobDone => none
  | .sealYield => none
  | .tcModulusSet c _ _ _ _ _ _ _ => some c
  | .tcModulusClear c _ _ => some c
  | .tcChainSet c _ _ _ _ _ => some c
  | .tcChainClear c _ _ => some c
  | .tcModulusGet c _ _ _ => some c
  | .tcContainerCheck c _ _ _ => some c
  | .tcContainerSize c _ => some c
  | .tcPlanInstall c _ _ _ _ _ => some c
  | .tcPlanStart c _ _ _ => some c
  | .tcPlanRemove c _ _ => some c
  | .tcPlanQuery c _ _ => some c
  | .tcScriberQuery c _ _ => some c
  | .tcPsQuery c _ _ => some c
  | .tcEngineStore c _ _ _ _ => some c
  | .tcEngineQuery c _ _ => some c
  | .tcSpoolQuery c _ _ => some c
  | .tcLiningRetire c _ _ => some c
  | .tcMemQuery c _ _ => some c
  | .tcPageRetire c _ _ _ => some c
  | .tcHbmQuery c _ => some c
  | .tcSeamQuery c _ _ => some c
  | .tcSeamTest c _ _ _ _ => some c
  | .seamTestDone _ _ _ _ => none
  | .tcSeamLaneRetire c _ _ _ _ => some c
  | .tcPlateRecover c _ => some c
  | .tcFabricJoin c _ _ _ => some c
  | .tcRouteSet c _ _ => some c
  | .tcSlvQuery c _ => some c
  | .tcSlvTest c _ _ _ => some c
  | .tcSlvLaneRetire c _ _ _ => some c
  | .tcOwnerSet c _ _ _ _ => some c
  | .tcTokenGate c _ _ _ _ _ _ => some c
  | .tcFabricFetch c _ _ _ _ _ => some c
  | .tcPartitionCreate c _ _ _ => some c
  | .tcPartitionGrow c _ _ => some c
  | .tcPartitionShrink c _ _ => some c
  | .tcPartitionDestroy c _ => some c
  | .tcPartitionQuery c _ => some c
  | .tcSplitSet c _ _ _ _ _ => some c
  | .tcSplitQuery c _ => some c
  | .tcPartitionReset c _ => some c
  | .tcPlateReset c _ => some c
  | .tcCollarReset c => some c
  | .tcEventRoute c _ _ _ _ => some c
  | .tcPowerPolicy c _ _ _ _ => some c
  | .tcPlatePower c _ _ _ => some c
  | .tcPowerLimit c _ => some c
  | .tcPowerQuery c _ _ => some c
  | .tcThermalQuery c => some c
  | .tcLedgerGet c _ _ => some c
  | .tcLedgerSet c _ => some c
  | .tcLedgerCommit c => some c
  | .tcCellRetire c _ _ => some c
  | .tcBufAlloc c _ _ _ _ _ => some c
  | .tcBufFree c _ => some c
  | .tcBufShare c _ _ _ _ _ _ _ _ _ _ => some c
  | .tcBufRevoke c _ => some c
  | .tcBufQuery c _ => some c
  | .tcQuotaSet c _ _ _ _ _ _ _ => some c
  | .tcKeyRegister c _ _ _ => some c
  | .tcKeyEvict c _ _ => some c
  | .tcKeyQuery c _ => some c
  | .tcServiceDefine c _ _ _ _ _ _ => some c
  | .tcServiceRemove c _ _ => some c
  | .tcServiceQuery c _ _ => some c
  | .tcReceiptGet c _ _ => some c
  | .tcTimeSet c _ => some c
  | .tcBufAllocAt c _ _ _ => some c
  | .tcSchedHold c _ _ => some c
  | .tcKrpPortSet c _ _ _ _ _ _ _ => some c
  | .tcKrpClientSet c _ => some c
  | .tcKrpClientRemove c _ => some c
  | .tcKrpSessionQuery c _ => some c
  | .tcKrpSessionClose c _ => some c
  | .tcSealQuery c => some c
  | .tcAttest c _ => some c
  | .tcMeasLog c _ _ => some c
  | .tcLifecycleSet c _ _ => some c
  | .tcPolicySet c _ _ _ => some c
  | .tcPolicyKeySet c _ _ _ => some c
  | .tcSignerSet c _ _ _ _ _ _ _ => some c
  | .tcSvnCommit c => some c
  | .tcSealKat c _ => some c
  | .tcTrngRaw c _ _ => some c
  | .tcRingSet c _ _ _ _ _ _ _ => some c
  | .tcRingQuery c _ _ => some c
  | .tcWindowMap c _ _ _ _ => some c
  | .tcWindowUnmap c _ _ => some c
  | .tcWindowQuery c _ => some c
  | .tcWindowMapPhys c _ _ => some c
  | .tcGradeQuery c => some c
  | .tcSelftest c _ => some c
  | .selftestDone _ _ => none
  | .tcErrorLog c _ _ _ => some c
  | .tcErrlogClear c => some c
  | .mailboxTailWrite _ _ => none
  | .mtCmdWriteEntry => none
  | .mtCmdClearEntry => none
  | .mtCmdWriteChain => none
  | .mtCmdClearChain => none
  | .mtCmdReserved _ => none
  | .mtCmdDone => none
  | .dbgStitchGo => none
  | .dbgPsAbort _ _ => none
  | .dbgEngSwapNow _ _ => none
  | .dbgEngAbort _ _ => none
  | .dbgEngCmdReserved _ _ _ => none
  | .dbgPadRead _ _ => none
  | .dbgPadWrite _ _ => none
  | .hbmInjectGo _ _ _ => none
  | .seamTestCtrlGo _ _ _ _ => none
  | .slvTestCtrlGo _ _ _ => none
  | .pwrResetPlate _ => none
  | .pwrResetCollarWarm => none
  | .dbgEvInject _ _ => none
  | .pwrForceRun _ => none
  | .pwrForceDoze _ => none
  | .ldgUserWrite _ _ _ => none
  | .dbgCapOverrideWrite _ _ _ => none
  | .slvPkgWrite _ _ => none
  | .evAckWrite _ _ _ => none
  | .vecRearmWrite _ _ => none
  | .evRouteWrite _ _ _ => none
  | .registerWrite _ _ => none
  | .msixSend _ _ => none
  | .msixUnmask _ _ => none
  | .sqDoorbell _ _ _ _ => none
  | .cqDoorbell _ _ _ _ => none
  | .sqStart _ _ _ _ _ _ _ _ _ => none
  | .sqFrameTx _ _ _ _ _ _ _ => none
  | .sqRxbuf _ _ _ _ _ => none
  | .sqNop _ _ _ _ => none
  | .ringDmaError _ _ _ => none
  | .windowRead _ _ _ _ => none
  | .windowWrite _ _ _ _ => none
  | .atomicOp _ _ _ _ _ => none
  | .pcieConfigRequest _ _ => none
  | .busMasterEnableChange _ _ => none
  | .pcieHotReset => none
  | .pf0Flr => none
  | .vfFlr _ => none
  | .openStage1 _ _ _ _ => none
  | .openStage3 _ _ _ _ => none
  | .keys _ _ _ _ => none
  | .submit _ _ _ _ => none
  | .chunk _ _ _ _ _ _ => none
  | .handoffIn _ _ _ _ _ => none
  | .close _ => none
  | .nackMissingReceive _ _ _ _ _ => none
  | .nackResendReceive _ _ => none
  | .resultChunkSend _ => none
  | .krpGapTimer _ _ _ _ => none
  | .openPieceTimeout _ _ => none
  | .halfOpenExpiry _ => none
  | .sessionIdleTimeout _ => none
  | .krpSessionRekey _ => none
  | .handoffTimeout _ => none
  | .netHousekeepingFrame _ _ => none
  | .receiptExpiry _ _ => none
  | .tokenGateTimeout _ _ => none
  | .slvEgressAccept _ => none
  | .slvPacketSend _ _ => none
  | .slvWriteReceive _ _ _ => none
  | .slvAddReceive _ _ _ _ _ _ => none
  | .slvTokenReceive _ _ _ => none
  | .slvControlReceive _ _ _ _ _ _ => none
  | .slvAckReceive _ _ => none
  | .slvNackReceive _ _ _ _ => none
  | .slvPacketError _ _ _ => none
  | .slvRekey _ => none
  | .slvLaneFail _ _ _ => none
  | .slvTrainStateDone _ _ _ _ => none
  | .slvTrainTimeout _ => none
  | .seamLaneFail _ _ _ _ => none
  | .seamRepairDone _ _ => none
  | .seamRetrainDone _ _ => none
  | .seamTrainStateDone _ _ _ _ => none
  | .seamTrainTimeout _ _ => none
  | .tapBypass => none
  | .tapIdcode => none
  | .tapSamplePreload => none
  | .tapExtest => none
  | .tapDieAccess => none
  | .tapSeamInterconnectTest _ _ _ _ => none
  | .spdmGetVersion => none
  | .spdmGetCapabilities _ => none
  | .spdmNegotiateAlgorithms _ _ _ _ => none
  | .spdmGetDigests => none
  | .spdmGetCertificate _ _ _ => none
  | .spdmChallenge _ _ => none
  | .spdmGetMeasurements _ _ _ => none
  | .spdmKeyExchange _ _ _ => none
  | .spdmFinish _ => none
  | .spdmHeartbeat => none
  | .spdmKeyUpdate _ => none
  | .spdmEndSession => none
  | .spdmSetCertificate _ _ => none
  | .spdmUnsupportedRequest => none
  | .pldmSensorRead _ => none
  | .pldmFirmwareUpdate _ _ _ => none
  | .coldReset _ _ _ => none
  | .bringupPhaseDone _ => none
  | .bringupPhaseTimeout _ => none
  | .collarWarmReset _ => none
  | .tailorWatchdogExpiry => none
  | .tailorCoreFail _ => none
  | .resetDrainTimeout _ => none
  | .partitionResetTimeout _ _ => none
  | .plateResetTimeout _ => none
  | .timeoutChannelExpiry _ => none
  | .refaLoss => none
  | .refaReturn => none
  | .platePllUnlock _ => none
  | .collarPllUnlock => none
  | .debugPllLock _ => none
  | .plateRailUndervoltage _ => none
  | .railUndervoltage _ => none
  | .plateTempTrip _ => none
  | .stackTempTrip _ => none
  | .stackTripRelease _ => none
  | .collarTempTrip => none
  | .thermalEvaluation _ _ _ _ => none
  | .withdrawalTimeout _ => none
  | .avsLimitTimeout _ => none
  | .avsbusTransactionError _ => none
  | .trngSourceFail _ => none
  | .drbgReseed _ => none
  | .dozeEntry _ => none
  | .napEntry _ => none
  | .restEntry _ => none
  | .plateOffEntry _ => none
  | .swatchWakeDone _ => none
  | .resetCompletion _ => none
  | .zeroingDone _ _ => none
  | .railReturn _ => none
  | .avsMarginReturn _ => none
  | .slvTestDone _ _ _ => none
  | .mctpSetEndpointId _ => none
  | .pcieLinkUp _ _ _ => none
  | .ethernetLinkChange _ _ => none

/-- A well-formed command. -/
def Instr.wf : Instr → Bool
  | .nop _ => true
  | .add _ _ _ _ => true
  | .sub _ _ _ _ => true
  | .and _ _ _ _ => true
  | .or _ _ _ _ => true
  | .xor _ _ _ _ => true
  | .shl _ _ _ _ => true
  | .shr _ _ _ _ => true
  | .sra _ _ _ _ => true
  | .mul _ _ _ _ => true
  | .mulhu _ _ _ _ => true
  | .slt _ _ _ _ => true
  | .sltu _ _ _ _ => true
  | .sel _ _ _ _ => true
  | .addi _ _ _ _ => true
  | .andi _ _ _ _ => true
  | .ori _ _ _ _ => true
  | .xori _ _ _ _ => true
  | .shli _ _ _ _ => true
  | .shri _ _ _ _ => true
  | .li _ _ _ => true
  | .modadd _ _ _ _ _ => true
  | .modmul _ _ _ _ _ => true
  | .ldn _ _ _ _ => true
  | .stn _ _ _ _ => true
  | .mfs _ _ _ => true
  | .mts _ _ _ => true
  | .tsel _ _ => true
  | .br _ _ => true
  | .beq _ _ _ _ => true
  | .bne _ _ _ _ => true
  | .blt _ _ _ _ => true
  | .bltu _ _ _ _ => true
  | .call _ _ => true
  | .ret _ => true
  | .loop _ _ _ => true
  | .idle _ _ => true
  | .loose _ _ => true
  | .scriberWriteback _ => true
  | .stitch _ _ => true
  | .barrier _ _ _ => true
  | .yoke _ _ => true
  | .weave _ _ => true
  | .event _ _ => true
  | .mma _ _ _ _ _ => true
  | .mmaStep _ => true
  | .drain _ _ _ _ _ _ => true
  | .drainWordLand _ => true
  | .zero _ => true
  | .taprel _ => true
  | .engineStart _ _ _ => true
  | .madd _ _ => true
  | .msub _ _ => true
  | .mneg _ _ => true
  | .mmul _ _ => true
  | .mmad _ _ => true
  | .mmsb _ _ => true
  | .resc _ _ => true
  | .red _ _ => true
  | .move _ _ => true
  | .digit _ _ => true
  | .stippleGroup _ => true
  | .ntt _ _ _ _ _ _ => true
  | .intt _ _ _ _ _ _ => true
  | .burinRowWrite _ => true
  | .auto _ _ _ _ _ _ _ _ => true
  | .trans _ _ _ _ _ _ _ => true
  | .brev _ _ _ _ => true
  | .gather _ _ _ _ _ => true
  | .hatchRowLand _ _ => true
  | .expand _ _ _ _ => true
  | .sample _ _ _ _ => true
  | .weftRowLand _ _ => true
  | .tstart _ _ _ _ => true
  | .advance _ _ _ => true
  | .tstop _ _ => true
  | .spoolPresent _ _ => true
  | .unitLand _ _ => true
  | .writeDrainDone run => fits64 run
  | .liningReadBeat _ _ => true
  | .liningWriteBeat _ _ => true
  | .liningLineLand _ _ => true
  | .liningPatrolScrub _ => true
  | .hbmRequestArrive run _ => fits64 run
  | .hbmSlotServe _ _ _ => true
  | .controlTackReturn _ _ late => fits64 late
  | .weaveFlitLand run _ => fits64 run
  | .yokeWordLand _ _ => true
  | .controlFlitDeliver _ => true
  | .seamFlitDepart run _ => fits64 run
  | .seamFlitDeliver run _ _ _ => fits64 run
  | .stitchCommit run => fits64 run
  | .planFinal run => fits64 run
  | .planStart _ => true
  | .planSplice run => fits64 run
  | .residencyLoadStart _ => true
  | .residencyLoadDone _ => true
  | .sealJobDone => true
  | .sealYield => true
  | .tcModulusSet c part index q logn fmt psi tw => c.wf && fits64 part && fits64 index && fits64 q && fits64 logn && fits64 fmt && fits64 psi
    && fits64 tw
  | .tcModulusClear c part index => c.wf && fits64 part && fits64 index
  | .tcChainSet c part chain qcount pcount index => c.wf && fits64 part && fits64 chain && fits64 qcount && fits64 pcount && index.all fits64
  | .tcChainClear c part chain => c.wf && fits64 part && fits64 chain
  | .tcModulusGet c part index _ => c.wf && fits64 part && fits64 index
  | .tcContainerCheck c part handle offset => c.wf && fits64 part && fits64 handle && fits64 offset
  | .tcContainerSize c header => c.wf && header.length == 128
  | .tcPlanInstall c part image plateMap table _ => c.wf && fits64 part && fits64 image && plateMap.all fits64 && fits64 table
  | .tcPlanStart c part target handles => c.wf && fits64 part && target.wf && handles.all fits64
  | .tcPlanRemove c part slot => c.wf && fits64 part && fits64 slot
  | .tcPlanQuery c part slot => c.wf && fits64 part && fits64 slot
  | .tcScriberQuery c part cell => c.wf && fits64 part && fits64 cell
  | .tcPsQuery c part cell => c.wf && fits64 part && fits64 cell
  | .tcEngineStore c part mask id _ => c.wf && fits64 part && fits64 mask && fits64 id
  | .tcEngineQuery c part swatch => c.wf && fits64 part && fits64 swatch
  | .tcSpoolQuery c part cell => c.wf && fits64 part && fits64 cell
  | .tcLiningRetire c plate block => c.wf && fits64 plate && fits64 block
  | .tcMemQuery c part plate => c.wf && fits64 part && fits64 plate
  | .tcPageRetire c stack first count => c.wf && fits64 stack && fits64 first && fits64 count
  | .tcHbmQuery c stack => c.wf && fits64 stack
  | .tcSeamQuery c plate port => c.wf && fits64 plate && fits64 port
  | .tcSeamTest c plate port phases d => c.wf && fits64 plate && fits64 port && fits64 phases && fits64 d
  | .seamTestDone _ _ _ margins => margins.all fits64
  | .tcSeamLaneRetire c plate port dir lane => c.wf && fits64 plate && fits64 port && fits64 dir && fits64 lane
  | .tcPlateRecover c plate => c.wf && fits64 plate
  | .tcFabricJoin c id list _ => c.wf && fits64 id && list.all fitsPair
  | .tcRouteSet c dest mask => c.wf && fits64 dest && fits64 mask
  | .tcSlvQuery c link => c.wf && fits64 link
  | .tcSlvTest c link phases d => c.wf && fits64 link && fits64 phases && fits64 d
  | .tcSlvLaneRetire c link dir lane => c.wf && fits64 link && fits64 dir && fits64 lane
  | .tcOwnerSet c part table block _ => c.wf && fits64 part && fits64 table && fits64 block
  | .tcTokenGate c part slot token value version timeout => c.wf && fits64 part && fits64 slot && fits64 token && fits64 value && fits64
    version && fits64 timeout
  | .tcFabricFetch c part table block local_ _ => c.wf && fits64 part && fits64 table && fits64 block && fits64 local_
  | .tcPartitionCreate c part mask _ => c.wf && fits64 part && fits64 mask
  | .tcPartitionGrow c part mask => c.wf && fits64 part && fits64 mask
  | .tcPartitionShrink c part mask => c.wf && fits64 part && fits64 mask
  | .tcPartitionDestroy c part => c.wf && fits64 part
  | .tcPartitionQuery c part => c.wf && fits64 part
  | .tcSplitSet c part resource cls units _ => c.wf && fits64 part && fits64 resource && fits64 cls && fits64 units
  | .tcSplitQuery c resource => c.wf && fits64 resource
  | .tcPartitionReset c part => c.wf && fits64 part
  | .tcPlateReset c plate => c.wf && fits64 plate
  | .tcCollarReset c => c.wf
  | .tcEventRoute c function ev vector _ => c.wf && fits64 function && fits64 ev && fits64 vector
  | .tcPowerPolicy c part floor nap rest => c.wf && fits64 part && fits64 floor && fits64 nap && fits64 rest
  | .tcPlatePower c plate _ delay => c.wf && fits64 plate && fits64 delay
  | .tcPowerLimit c watts => c.wf && fits64 watts
  | .tcPowerQuery c _ index => c.wf && fits64 index
  | .tcThermalQuery c => c.wf
  | .tcLedgerGet c item index => c.wf && fits64 item && fits64 index
  | .tcLedgerSet c _ => c.wf
  | .tcLedgerCommit c => c.wf
  | .tcCellRetire c cell _ => c.wf && fits64 cell
  | .tcBufAlloc c part kind place bolts _ => c.wf && fits64 part && fits64 kind && fits64 place && fits64 bolts
  | .tcBufFree c handle => c.wf && fits64 handle
  | .tcBufShare c handle _ package part first bolts _ _ _ token => c.wf && fits64 handle && fits64 package && fits64 part && fits64 first &&
    fits64 bolts && fits64 token
  | .tcBufRevoke c handle => c.wf && fits64 handle
  | .tcBufQuery c handle => c.wf && fits64 handle
  | .tcQuotaSet c part hbm keyLines lining control handles maxOpen => c.wf && fits64 part && hbm.all fits64 && keyLines.all fits64 &&
    lining.all fits64 && fits64 control && fits64 handles && fits64 maxOpen
  | .tcKeyRegister c part handle bundle => c.wf && fits64 part && fits64 handle && fits64 bundle
  | .tcKeyEvict c part keyId => c.wf && fits64 part && fits64 keyId
  | .tcKeyQuery c part => c.wf && fits64 part
  | .tcServiceDefine c part service slots maxOpen kind _ => c.wf && fits64 part && fits64 service && slots.all fits64 && fits64 maxOpen &&
    fits64 kind
  | .tcServiceRemove c part service => c.wf && fits64 part && fits64 service
  | .tcServiceQuery c part service => c.wf && fits64 part && fits64 service
  | .tcReceiptGet c part request => c.wf && fits64 part && fits64 request
  | .tcTimeSet c time => c.wf && fits64 time
  | .tcBufAllocAt c part addr bolts => c.wf && fits64 part && fits64 addr && fits64 bolts
  | .tcSchedHold c part _ => c.wf && fits64 part
  | .tcKrpPortSet c port addr4 addr6 udp vlan gap _ => c.wf && fits64 port && fits64 addr4 && fits64 addr6 && fits64 udp && fits64 vlan &&
    fits64 gap
  | .tcKrpClientSet c client => c.wf && client.wf
  | .tcKrpClientRemove c keyId => c.wf && fits64 keyId
  | .tcKrpSessionQuery c part => c.wf && fits64 part
  | .tcKrpSessionClose c session => c.wf && fits64 session
  | .tcSealQuery c => c.wf
  | .tcAttest c nonce => c.wf && nonce.length == 64
  | .tcMeasLog c first count => c.wf && fits64 first && fits64 count
  | .tcLifecycleSet c target _ => c.wf && fits64 target
  | .tcPolicySet c value _ _ => c.wf && fits64 value
  | .tcPolicyKeySet c slot _ _ => c.wf && fits64 slot
  | .tcSignerSet c _ slot alg _ mask _ _ => c.wf && fits64 slot && fits64 alg && fits64 mask
  | .tcSvnCommit c => c.wf
  | .tcSealKat c _ => c.wf
  | .tcTrngRaw c source count => c.wf && fits64 source && fits64 count
  | .tcRingSet c part ring _ sqBase sqSize cqBase cqSize => c.wf && fits64 part && fits64 ring && fits64 sqBase && fits64 sqSize && fits64
    cqBase && fits64 cqSize
  | .tcRingQuery c part ring => c.wf && fits64 part && fits64 ring
  | .tcWindowMap c function aperture handle offset => c.wf && fits64 function && fits64 aperture && fits64 handle && fits64 offset
  | .tcWindowUnmap c function aperture => c.wf && fits64 function && fits64 aperture
  | .tcWindowQuery c function => c.wf && fits64 function
  | .tcWindowMapPhys c aperture addr => c.wf && fits64 aperture && fits64 addr
  | .tcGradeQuery c => c.wf
  | .tcSelftest c mask => c.wf && fits64 mask
  | .selftestDone _ failing => failing.all fits64
  | .tcErrorLog c first count _ => c.wf && fits64 first && fits64 count
  | .tcErrlogClear c => c.wf
  | .mailboxTailWrite fn _ => fn.wf
  | .mtCmdWriteEntry => true
  | .mtCmdClearEntry => true
  | .mtCmdWriteChain => true
  | .mtCmdClearChain => true
  | .mtCmdReserved _ => true
  | .mtCmdDone => true
  | .dbgStitchGo => true
  | .dbgPsAbort _ _ => true
  | .dbgEngSwapNow _ _ => true
  | .dbgEngAbort _ _ => true
  | .dbgEngCmdReserved _ _ _ => true
  | .dbgPadRead _ _ => true
  | .dbgPadWrite _ _ => true
  | .hbmInjectGo _ _ _ => true
  | .seamTestCtrlGo _ _ _ _ => true
  | .slvTestCtrlGo _ _ _ => true
  | .pwrResetPlate _ => true
  | .pwrResetCollarWarm => true
  | .dbgEvInject _ _ => true
  | .pwrForceRun _ => true
  | .pwrForceDoze _ => true
  | .ldgUserWrite _ _ _ => true
  | .dbgCapOverrideWrite _ _ _ => true
  | .slvPkgWrite _ _ => true
  | .evAckWrite fn _ _ => fn.wf
  | .vecRearmWrite fn _ => fn.wf
  | .evRouteWrite fn _ _ => fn.wf
  | .registerWrite fn _ => fn.wf
  | .msixSend fn _ => fn.wf
  | .msixUnmask fn _ => fn.wf
  | .sqDoorbell fn _ _ _ => fn.wf
  | .cqDoorbell fn _ _ _ => fn.wf
  | .sqStart _ _ _ _ _ _ _ _ handles => decide (handles.length ≤ 64)
  | .sqFrameTx _ _ _ _ _ f _ => f.wf
  | .sqRxbuf _ _ _ _ _ => true
  | .sqNop _ _ _ _ => true
  | .ringDmaError _ _ _ => true
  | .windowRead fn _ offset n => fn.wf && fitsTlp offset n
  | .windowWrite fn _ offset data => fn.wf && fitsTlp offset data.length
  | .atomicOp fn _ _ _ _ => fn.wf
  | .pcieConfigRequest fn _ => fn.wf
  | .busMasterEnableChange fn _ => fn.wf
  | .pcieHotReset => true
  | .pf0Flr => true
  | .vfFlr _ => true
  | .openStage1 f piece count body => f.wf && fits64 piece && fits64 count && decide (body.length ≤ 8264)
  | .openStage3 f piece count body => f.wf && fits64 piece && fits64 count && decide (body.length ≤ 8264)
  | .keys f id bytes header => f.wf && fits64 id && fits64 bytes && header.length == 128
  | .submit f id service inputs => f.wf && fits64 id && fits64 service && inputs.all fitsInput
  | .chunk f id kind index seq data => f.wf && fits64 id && fits64 kind && fits64 index && fits64 seq && decide (data.length ≤ 8192)
  | .handoffIn f id round bytes header => f.wf && fits64 id && fits64 round && fits64 bytes && header.length == 128
  | .close f => f.wf
  | .nackMissingReceive f id stream index ranges => f.wf && fits64 id && fits64 stream && fits64 index && ranges.all fitsPair
  | .nackResendReceive f id => f.wf && fits64 id
  | .resultChunkSend session => fits64 session
  | .krpGapTimer session id kind index => fits64 session && fits64 id && fits64 kind && fits64 index
  | .openPieceTimeout carrier session => carrier.wf && fits64 session
  | .halfOpenExpiry session => fits64 session
  | .sessionIdleTimeout session => fits64 session
  | .krpSessionRekey session => fits64 session
  | .handoffTimeout request => fits64 request
  | .netHousekeepingFrame _ _ => true
  | .receiptExpiry _ id => fits64 id
  | .tokenGateTimeout _ _ => true
  | .slvEgressAccept run => fits64 run
  | .slvPacketSend _ _ => true
  | .slvWriteReceive h data poison => h.wf && data.length == 16 && poison.length == 16
  | .slvAddReceive h _ _ _ data poison => h.wf && data.length == 16 && poison.length == 16
  | .slvTokenReceive h _ _ => h.wf
  | .slvControlReceive h _ _ _ _ _ => h.wf
  | .slvAckReceive _ seq => fits64 seq
  | .slvNackReceive _ seq status _ => fits64 seq && fits64 status
  | .slvPacketError _ seq _ => fits64 seq
  | .slvRekey _ => true
  | .slvLaneFail _ _ _ => true
  | .slvTrainStateDone _ _ _ _ => true
  | .slvTrainTimeout _ => true
  | .seamLaneFail _ _ _ _ => true
  | .seamRepairDone _ _ => true
  | .seamRetrainDone _ _ => true
  | .seamTrainStateDone _ _ _ _ => true
  | .seamTrainTimeout _ _ => true
  | .tapBypass => true
  | .tapIdcode => true
  | .tapSamplePreload => true
  | .tapExtest => true
  | .tapDieAccess => true
  | .tapSeamInterconnectTest _ _ _ _ => true
  | .spdmGetVersion => true
  | .spdmGetCapabilities _ => true
  | .spdmNegotiateAlgorithms _ _ _ _ => true
  | .spdmGetDigests => true
  | .spdmGetCertificate _ _ _ => true
  | .spdmChallenge _ _ => true
  | .spdmGetMeasurements _ _ _ => true
  | .spdmKeyExchange _ _ _ => true
  | .spdmFinish _ => true
  | .spdmHeartbeat => true
  | .spdmKeyUpdate _ => true
  | .spdmEndSession => true
  | .spdmSetCertificate _ _ => true
  | .spdmUnsupportedRequest => true
  | .pldmSensorRead _ => true
  | .pldmFirmwareUpdate _ _ _ => true
  | .coldReset _ _ _ => true
  | .bringupPhaseDone _ => true
  | .bringupPhaseTimeout _ => true
  | .collarWarmReset _ => true
  | .tailorWatchdogExpiry => true
  | .tailorCoreFail _ => true
  | .resetDrainTimeout _ => true
  | .partitionResetTimeout _ _ => true
  | .plateResetTimeout _ => true
  | .timeoutChannelExpiry fn => fn.wf
  | .refaLoss => true
  | .refaReturn => true
  | .platePllUnlock _ => true
  | .collarPllUnlock => true
  | .debugPllLock _ => true
  | .plateRailUndervoltage _ => true
  | .railUndervoltage _ => true
  | .plateTempTrip _ => true
  | .stackTempTrip _ => true
  | .stackTripRelease _ => true
  | .collarTempTrip => true
  | .thermalEvaluation plates hs collar _ => plates.length == 8 && plates.all (fun p => p.length == 16) && hs.length == 8 && collar.length ==
    4
  | .withdrawalTimeout _ => true
  | .avsLimitTimeout _ => true
  | .avsbusTransactionError _ => true
  | .trngSourceFail _ => true
  | .drbgReseed _ => true
  | .dozeEntry _ => true
  | .napEntry _ => true
  | .restEntry _ => true
  | .plateOffEntry _ => true
  | .swatchWakeDone _ => true
  | .resetCompletion _ => true
  | .zeroingDone _ _ => true
  | .railReturn _ => true
  | .avsMarginReturn _ => true
  | .slvTestDone _ _ margins => margins.all fits64
  | .mctpSetEndpointId _ => true
  | .pcieLinkUp _ _ _ => true
  | .ethernetLinkChange _ _ => true

end Sys2Proof
end

