-- ==== Sys2Proof/Safety.lean ====
section
/-! DEFINITION. The terms in which claims speak of a run: a command that the package takes, a call that passes its common checks, a queue of
well-formed commands, a package whose clocks have stopped for good. -/

namespace Sys2Proof.Machine

/-- The state with another package: the queue stays. -/
def State.put (s : State) (t : Chip) : State := { s with chip := t }

/-- The package takes a call: it is not held, Tailor firmware serves the mailbox of the function, and the call's answer is not
discarded (R443, R513, R552). -/
def Chip.accepts (s : Chip) (c : Call) : Bool := !c.quiet && !s.held && s.serves c.fn

/-- The package takes a call and every common check of Table 16.3 passes, the call's range checks included. -/
abbrev Chip.passes (s : Chip) (c : Call) (k : CallShape) (ranges : List (Bool × Status)) : Prop :=
  s.accepts c = true ∧ s.common c k ranges = none

/-- The package takes a host command to a function: it is not held, its Management-only set is present, the host reaches the function and
the Collar is not in reset (R35, R393, R552, R584). -/
def Chip.admitsHost (s : Chip) (fn : Fn) : Bool := !s.held && !s.boot.mute && s.reach fn && !s.hostHeld

/-- The package presents its interfaces: it is not held and has its Management-only set (R584). -/
def Chip.presents (s : Chip) : Bool := !s.held && !s.boot.mute

/-- A frame of an open session, or of one that awaits stage 3, passes the checks of R478 and the test of R502, its reserved fields zero. -/
abbrev Chip.takesFrame (s : Chip) (f : KrpFrame) (data half : Bool) (x : KrpSession) : Prop :=
  s.carrierUp f.carrier = true ∧ s.session? f.session = some x ∧ x.carrier = f.carrier ∧ x.half = half ∧ x.stage2 = true
    ∧ x.framesIn < 2 ^ 36 ∧ f.tagOk = true ∧ x.seen.contains f.pn = false ∧ x.pnIn ≤ f.pn + 1024 ∧ f.reservedZero = true
    ∧ (data = true → (s.countFrame f).testDrops x = false)

/-- The package after a frame is taken: counted on its port, its packet number recorded. -/
def Chip.frameIn (s : Chip) (f : KrpFrame) (data : Bool) (x : KrpSession) : Chip :=
  ((s.countFrame f).countData data x).recordFrame f x

/-- Every command that waits is well-formed. -/
def State.queueOk (s : State) : Prop := ∀ c ∈ s.pending, c.wf = true

/-- A command that begins a Cold reset: PERST_N, the loss of REFA, a rail out of regulation (R394, R414, R616). -/
def isColdReset : Instr → Bool
  | .coldReset _ _ _ | .refaLoss | .railUndervoltage _ => true
  | _ => false

/-- THERMTRIP_N has stopped every clock, and no Cold reset waits that could end this (R426). -/
def State.stopped (s : State) : Prop := s.chip.boot.dead = true ∧ ∀ c ∈ s.pending, isColdReset c = false

end Sys2Proof.Machine
end

