-- ==== Sys2Proof/Certificates/Slice0/Obligations.lean ====
section
/-! DEFINITION. What is claimed of the model: statements for the provers, each a proposition over every state it names. -/

open Sys2Proof Sys2Proof.Machine

/-- With a command at the front of the queue a step is that command's effect on the state with the queue's rest. With an empty queue, which is the model's choice (log entries 1 and 90), the first due stream of a running plan issues its stored bundle, whose slot commands join the queue; a bundle with a reserved encoding stops its plan; with no stream due, or while the package is held, one F-cycle passes. -/
def Obligations.StepRunsFrontCommand : Prop :=
  ∀ s : State, (∀ (c : Instr) (rest : List Instr), s.pending = c :: rest → step s = exec c { s with pending := rest })
    ∧ (s.pending = [] →
      ((s.chip.held = true ∨ s.chip.dueStreams = []) → step s = .next (s.put s.chip.tick))
      ∧ (∀ (i : Issuer) (st : Stream) (rest : List (Issuer × Stream)), s.chip.held = false → s.chip.dueStreams = (i, st) :: rest →
        (∀ cs : List Instr, bundleCommands i (s.chip.stored i st.pc) = some cs → step s = .next { s with pending := cs })
        ∧ (bundleCommands i (s.chip.stored i st.pc) = none → step s = .next (s.put (s.chip.issue i fun k => k.reserved)))))

/-- No command of the table faults or is refused, whatever its operands and the state: each answers a next state whose queue is the one it was given, and its effect depends on the package alone. -/
def Obligations.EveryCommandCompletes : Prop :=
  ∀ (c : Instr) (s : State), ∃ t : State, exec c s = .next t ∧ t.pending = s.pending
    ∧ ∀ q : List Instr, exec c { s with pending := q } = .next { t with pending := q }

/-- From every state whose queue holds n commands, n steps complete without a fault or a refusal and take exactly those; running the queue in two parts comes to the same as running it at once. -/
def Obligations.QueueRunsOut : Prop :=
  ∀ s : State, (∀ n : Nat, n ≤ s.pending.length → ∃ t : State, Host.Core.run Sys2Proof.core n s = .next t ∧ t.pending = s.pending.drop n)
    ∧ (∀ (front back : List Instr) (t : State), s.pending = front → Host.Core.run Sys2Proof.core front.length s = .next t →
        Host.Core.run Sys2Proof.core front.length { s with pending := front ++ back } = .next { t with pending := back })

/-- While the package is held, every command leaves the whole package as it is but those that begin or end the hold (COLD_RESET, REFA_LOSS, REFA_RETURN, RAIL_UNDERVOLTAGE, RAIL_RETURN) and the TAP's own commands, which change the TAP's register alone. -/
def Obligations.HeldPackageStandsStill : Prop :=
  ∀ (c : Instr) (s : State), s.chip.held = true →
    match c with
    | .coldReset .. | .refaLoss | .refaReturn | .railUndervoltage _ | .railReturn _ => True
    | .tapBypass .. | .tapIdcode .. | .tapSamplePreload .. | .tapExtest .. | .tapDieAccess .. =>
        ∃ t : State, exec c s = .next t ∧ t.chip = { s.chip with mgmt := t.chip.mgmt }
    | _ => exec c s = .next s

/-- Once a Collar trip has stopped every clock, no step of any kind restarts the package while no Cold reset waits in the queue: it stays stopped after any number of steps, and its cells, memory, partitions, runs and buffers keep their values. -/
def Obligations.ThermtripStopsTheClocks : Prop :=
  ∀ (s : State), s.stopped → ∀ (n : Nat) (t : State), Host.Core.run Sys2Proof.core n s = .next t →
    t.stopped ∧ t.chip.cells = s.chip.cells ∧ t.chip.mem = s.chip.mem ∧ t.chip.parts = s.chip.parts
      ∧ t.chip.runs = s.chip.runs ∧ t.chip.bufs = s.chip.bufs

/-- After reset nothing waits, runs, is bound or is admitted; memory lists nothing and is in canonical form; no clock is stopped; the boot chain stands at its first phase and no grade is reported. The lifecycle and the memory's contents there are the model's choice (log entries 6 and 7). -/
def Obligations.ResetState : Prop :=
  State.reset.pending = [] ∧ State.reset.queueOk ∧ ¬ State.reset.stopped ∧ Memory.wf State.reset.chip.mem ∧ State.reset.chip.mem = []
    ∧ State.reset.chip.runs = [] ∧ State.reset.chip.requests = [] ∧ State.reset.chip.bufs = [] ∧ State.reset.chip.held = false
    ∧ State.reset.chip.boot.gradeReported = false ∧ State.reset.chip.boot.phase = 1 ∧ State.reset.chip.life = .manufacturing

/-- Whatever its caller, target and token, TC_LIFECYCLE_SET leaves the lifecycle or moves it from Provisioned to Deployed or to Returned; the end of the Seal job that makes the identity leaves it or moves it from Manufacturing to Provisioned; any other requested transition of a call that passes the common checks answers ST_LIFECYCLE and changes nothing else. -/
def Obligations.LifecycleRunsForward : Prop :=
  ∀ (s : State) (c : Call) (target : Nat) (token : Token),
    (∀ t : State, exec (.tcLifecycleSet c target token) s = .next t →
      t.chip.life = s.chip.life ∨ (s.chip.life = .provisioned ∧ t.chip.life = .deployed) ∨ t.chip.life = .returned)
    ∧ (∀ u : Chip, (u.jobEffect (.identity c)).life = u.life
        ∨ (u.life = .manufacturing ∧ (u.jobEffect (.identity c)).life = .provisioned))
    ∧ (s.chip.passes c { pf0Only := true } [(decide (3 < target), .bound)] →
      (s.chip.life, target) ∉ [(.manufacturing, 1), (.provisioned, 2), (.manufacturing, 3), (.provisioned, 3), (.deployed, 3)] →
      exec (.tcLifecycleSet c target token) s = .next (s.put (s.chip.respond c 0x0D04 .lifecycle 8 [])))

/-- A write of a to the ACK of an assigned event of a function that the host reaches stores a where (COUNT − a) mod 2^32 < 2^31 and COUNT otherwise; the event is then pending exactly while COUNT ≠ ACK; every count and every other event's ACK keeps its value. -/
def Obligations.AcknowledgementRule : Prop :=
  ∀ (s : State) (fn : Fn) (ev : BitVec 7) (a : W32), s.chip.admitsHost fn = true → eventAssigned fn ev.toNat = true →
    (∀ n, fn = .vf n → (s.chip.part n).present = true) →
    ∃ t : State, exec (.evAckWrite fn ev a) s = .next t
      ∧ ((mget 0 ev.toNat (s.chip.eventsOf fn).count - a).toNat < 2 ^ 31 → mget 0 ev.toNat (t.chip.eventsOf fn).ack = a)
      ∧ (2 ^ 31 ≤ (mget 0 ev.toNat (s.chip.eventsOf fn).count - a).toNat →
          mget 0 ev.toNat (t.chip.eventsOf fn).ack = mget 0 ev.toNat (s.chip.eventsOf fn).count)
      ∧ ((t.chip.eventsOf fn).isPending ev.toNat = true
          ↔ mget 0 ev.toNat (t.chip.eventsOf fn).count ≠ mget 0 ev.toNat (t.chip.eventsOf fn).ack)
      ∧ (t.chip.eventsOf fn).count = (s.chip.eventsOf fn).count
      ∧ (∀ e, e ≠ ev.toNat → mget 0 e (t.chip.eventsOf fn).ack = mget 0 e (s.chip.eventsOf fn).ack)
      ∧ t.chip.mem = s.chip.mem ∧ t.chip.cells = s.chip.cells ∧ t.chip.runs = s.chip.runs

/-- Commands of the management port, the link, the doorbells and the event registers leave memory, every cell, every run and every buffer as they were; a window write or atomic, a served HBM slot, a Lining write beat and the scrub keep memory in its canonical form. -/
def Obligations.MemoryFrame : Prop :=
  ∀ (c : Instr) (s t : State), exec c s = .next t →
    match c with
    | .tapBypass .. | .tapIdcode .. | .mctpSetEndpointId .. | .pldmFirmwareUpdate .. | .pldmSensorRead .. | .spdmGetVersion ..
    | .spdmFinish .. | .spdmUnsupportedRequest .. | .spdmEndSession .. | .spdmGetCapabilities .. | .spdmHeartbeat ..
    | .spdmNegotiateAlgorithms .. | .spdmGetCertificate .. | .spdmGetMeasurements .. | .spdmKeyExchange .. | .ethernetLinkChange ..
    | .pcieLinkUp .. | .busMasterEnableChange .. | .sqNop .. | .sqRxbuf .. | .sqDoorbell .. | .cqDoorbell .. | .mailboxTailWrite ..
    | .slvPkgWrite .. | .evAckWrite .. | .evRouteWrite .. | .vecRearmWrite .. | .mtCmdWriteEntry .. | .mtCmdClearEntry ..
    | .avsMarginReturn .. | .ringDmaError .. | .drbgReseed .. =>
        t.chip.mem = s.chip.mem ∧ t.chip.cells = s.chip.cells ∧ t.chip.runs = s.chip.runs ∧ t.chip.bufs = s.chip.bufs
    | .windowWrite .. | .atomicOp .. | .hbmSlotServe _ (.run _) _ | .hbmSlotServe _ .unreserved _ | .liningWriteBeat ..
    | .liningPatrolScrub .. => Memory.wf s.chip.mem → Memory.wf t.chip.mem
    | _ => True

/-- TC_SCRIBER_QUERY and TC_PS_QUERY answer ST_NOT_OWNER to a VF that names another partition, and otherwise, when the common checks pass, ST_BUSY while a plan of the partition runs that no stitch break holds, ST_BOUND for a cell outside the partition, and else ST_OK with a report; nothing but the answer changes. -/
def Obligations.CellQueryOutcomes : Prop :=
  ∀ (s : State) (c : Call) (part cell : Nat) (x : Instr) (code : Nat), s.chip.accepts c = true →
    (x, code) ∈ [(Instr.tcScriberQuery c part cell, 0x0401), (Instr.tcPsQuery c part cell, 0x0402)] →
    (∀ n, c.fn = .vf n → n ≠ part → c.argLen ≤ 112 → c.reservedZero = true →
      exec x s = .next (s.put (s.chip.respond c code .notOwner 3 [])))
    ∧ (s.chip.passes c { part := some part } [] →
      ((∃ r ∈ s.chip.runsOf part, r.broken = false) → exec x s = .next (s.put (s.chip.respond c code .busy 8 [])))
      ∧ ((∀ r ∈ s.chip.runsOf part, r.broken = true) →
        ((32768 ≤ cell ∨ (s.chip.swatch (swatchOf cell)).owner ≠ some part) → exec x s = .next (s.put (s.chip.respond c code .bound 8 [])))
        ∧ (cell < 32768 → (s.chip.swatch (swatchOf cell)).owner = some part →
          ∃ report, exec x s = .next (s.put (s.chip.respond c code .ok 0 report)))))

/-- A served TC_MODULUS_SET whose fields pass the checks writes the shadow entry (bound to a twiddle set when asked) and answers with the set's id; TC_MODULUS_CLEAR, TC_CHAIN_SET, TC_CHAIN_CLEAR and TC_MODULUS_GET complete with their own effect. -/
def Obligations.ModulusCallsComplete : Prop :=
  ∀ (s : State) (c : Call) (part index : Nat) (v : Chip), s.chip.accepts c = true → v = s.chip.mtEarlier part →
    (∀ q logn fmt psi, v.passes c { part := some part } [(decide (1024 ≤ index), .bound)] → fmt < 2 → 12 ≤ logn → logn ≤ 17 →
      q < 2 ^ 36 → psi < 2 ^ 36 → qInRange q logn (fmt == 1) = true → isPrimeMR q = true →
      checkEntryFields fmt logn q (2 ^ (2 * redWidth (fmt == 1)) / q) (powMod q (2 ^ logn % q) 40 (q - 2))
        (if psi = 0 then canonicalPsi q logn else psi) 0 = .ok →
      exec (.tcModulusSet c part index q logn fmt psi 0) s = .next (s.put ((v.writeShadow part fun t => { t with
          entries := mput index (entryWord q (2 ^ (2 * redWidth (fmt == 1)) / q) (powMod q (2 ^ logn % q) 40 (q - 2))
            (if psi = 0 then canonicalPsi q logn else psi) 255 logn fmt true) t.entries }).respond c 0x0101 .ok 0 [255])))
    ∧ (v.passes c { part := some part } [(decide (1024 ≤ index), .bound)] →
        exec (.tcModulusClear c part index) s = .next (s.put ((v.clearEntry part index).respond c 0x0102 .ok 0 [])))
    ∧ (∀ qcount pcount idx,
        v.passes c { part := some part } [(decide (16 ≤ index), .bound), (idx.any fun i => decide (1024 ≤ i), .bound)] →
        (v.part part).shadow.checkChain (chainOf qcount pcount idx) = .ok →
        exec (.tcChainSet c part index qcount pcount idx) s = .next (s.put ((v.writeShadow part fun t => { t with chains := mput index (chainOf qcount pcount idx) t.chains }).respond c
            0x0103 .ok 0 [])))
    ∧ (v.passes c { part := some part } [(decide (16 ≤ index), .bound)] →
        (mfind index (v.part part).shadow.chains).isSome = true →
        exec (.tcChainClear c part index) s = .next (s.put ((v.writeShadow part fun t => { t with chains := mdel index t.chains }).respond c 0x0104 .ok 0 [])))
    ∧ (s.chip.passes c { part := some part } [(decide (1024 ≤ index), .bound)] →
        exec (.tcModulusGet c part index false) s = .next (s.put (s.chip.respond c 0x0105 .ok 0
          [(mget 0 index (s.chip.part part).master.entries).toNat, (mget 0 index (s.chip.part part).shadow.entries).toNat])))

/-- TC_CONTAINER_CHECK on a current handle of the caller counts the check and answers ST_OK when every check of Table 3.8 passes, or the failing status with its step; TC_CONTAINER_SIZE answers the size of a header that passes; neither changes anything else. -/
def Obligations.ContainerCallsComplete : Prop :=
  ∀ (s : State) (c : Call) (part : Nat),
    (∀ handle offset b, s.chip.passes c { part := some part } [(decide (2 ^ 32 ≤ handle), .bound)] →
      s.chip.bufOf handle = some b → b.part = part →
      exec (.tcContainerCheck c part handle offset) s = .next (s.put ((s.chip.noteCheck part (s.chip.headerFail b offset (s.chip.part part).master none)).respond c 0x0201
            (((s.chip.headerFail b offset (s.chip.part part).master none).map fun x => x.1).getD .ok)
            (((s.chip.headerFail b offset (s.chip.part part).master none).map fun x => x.2.1).getD 0)
            (((s.chip.headerFail b offset (s.chip.part part).master none).map fun x => [x.2.1]).getD []))))
    ∧ (∀ header, s.chip.passes c {} [] → header.length = 128 →
        firstFail ((Header.ofBytes header).checks67 ++ (Header.ofBytes header).checks89 (s.chip.part c.fn.part).master) = none →
        exec (.tcContainerSize c header) s = .next (s.put (s.chip.respond c 0x0202 .ok 0 [(Header.ofBytes header).size ((Header.ofBytes header).m18 (s.chip.part c.fn.part).master)])))

/-- TC_PLAN_INSTALL (outside debug mode) answers with what the installation gives, its slot on success, and with plan signing enforced first submits the check of its signatures to the Seal; an admitted TC_PLAN_START queues a request and answers later; TC_PLAN_REMOVE of an installed plan that does not run drops it; the queries read a quiet partition's cell or swatch and change nothing. -/
def Obligations.PlanCallsComplete : Prop :=
  ∀ (s : State) (c : Call) (part : Nat),
    (∀ image plateMap table, s.chip.passes c { part := some part } [] →
      (∀ u n slot, s.chip.toVerify c part image = none →
        s.chip.dropDebugLocks.installPlan c part image plateMap table false none = (u, .ok, n, slot) →
        exec (.tcPlanInstall c part image plateMap table false) s = .next (s.put (u.respond c 0x0301 .ok n slot)))
      ∧ (∀ g es u, s.chip.toVerify c part image = some (g, es) → (∀ e ∈ es, s.chip.checkable e.1 e.2.2.length = true) →
        s.chip.sealSubmit (.install c part image plateMap table false g.hash (s.chip.acceptors g part)) false (blockCycles es) = (u, true) →
        exec (.tcPlanInstall c part image plateMap table false) s = .next (s.put u)))
    ∧ (∀ slot hs u id, s.chip.passes c { part := some part } [(decide (64 ≤ slot), .bound), (decide (64 < hs.length), .badShape)] →
        s.chip.admitRequest (hostAdmission part (.slot slot) (.call c.fn c.tag)
          (match (s.chip.candidates part (.slot slot)).bind fun l => l.head?.bind fun i => mfind i (s.chip.part part).plans with
            | some pl => (s.chip.hostOwner pl hs).getD 0
            | none => 0) hs) = (u, .ok id) →
        exec (.tcPlanStart c part (.slot slot) hs) s = .next (s.put (u)))
    ∧ (∀ slot p, s.chip.passes c { part := some part } [(decide (64 ≤ slot), .bound)] → mfind slot (s.chip.part part).plans = some p →
        p.removing = false → s.chip.runs = [] → s.chip.requests = [] →
        exec (.tcPlanRemove c part slot) s = .next (s.put (((s.chip.planEvent 2 part slot p.hash).dropPlan part slot).respond c 0x0303 .ok 0 [])))
    ∧ (∀ slot p, s.chip.passes c { part := some part } [(decide (64 ≤ slot), .bound)] → mfind slot (s.chip.part part).plans = some p →
        exec (.tcPlanQuery c part slot) s = .next (s.put (s.chip.respond c 0x0304 .ok 0
          ([p.hash.toNat, b2n p.exact, if p.removing then 2 else b2n (s.chip.runs.any fun r => r.part == part && r.slot == slot),
            b2n (!p.exact || p.configId == s.chip.configId), p.lastStatus.code] ++ p.signers))))
    ∧ (∀ cell, s.chip.passes c { part := some part } [] → s.chip.quiet part = true → cell < 32768 →
        (s.chip.swatch (swatchOf cell)).owner = some part →
        (∃ rest, exec (.tcScriberQuery c part cell) s = .next (s.put (s.chip.respond c 0x0401 .ok 0
          ([(s.chip.cell cell).scr.cwp, (s.chip.cell cell).scr.wdepth, (s.chip.cell cell).scr.cdepth, (s.chip.cell cell).scr.atask] ++ rest))))
        ∧ (∃ rest, exec (.tcPsQuery c part cell) s = .next (s.put (s.chip.respond c 0x0402 .ok 0
          ([(s.chip.cell cell).press.queue.length, (s.chip.cell cell).stip.queue.length] ++ rest))))
        ∧ (∃ threads, exec (.tcSpoolQuery c part cell) s = .next (s.put (s.chip.respond c 0x0405 .ok 0
          (threads ++ [((s.chip.cell cell).units.map fun u => u.kind.rows).sum])))))
    ∧ (∀ sw, s.chip.passes c { part := some part } [(decide (64 ≤ sw), .bound)] → s.chip.quiet part = true →
        (s.chip.swatch sw).owner = some part →
        ∃ queues stores, exec (.tcEngineQuery c part sw) s = .next (s.put (s.chip.respond c 0x0404 .ok 0
          (queues ++ [(s.chip.swatch sw).moves.length] ++ stores ++ [(s.chip.part part).cnt.burinBfly.toNat,
            (s.chip.part part).cnt.hatchRows.toNat, (s.chip.part part).cnt.yokeWords.toNat, (s.chip.part part).cnt.yokeDrop.toNat,
            (s.chip.part part).cnt.weftRows.toNat]))))

/-- TC_ENGINE_STORE writes a seed into the shadow stores of the named swatches; TC_LINING_RETIRE and TC_PAGE_RETIRE add the block or pages to the retired list of their plate or stack; TC_MEM_QUERY and TC_HBM_QUERY report counters and change nothing. -/
def Obligations.StoreAndRetireCallsComplete : Prop :=
  ∀ (s : State) (c : Call),
    (∀ part mask id item u, s.chip.passes c { part := some part } [(item == .twiddle, .notSupported),
        (decide ((match item with | .gather _ => 16 | _ => 32) ≤ id), .bound)] →
      (∀ k, item ≠ .seedOfKey k) → (∀ rows, item = .gather rows → rows.length ≤ 256) →
      ((maskSwatches mask).any fun sw => (s.chip.swatch sw).owner != some part) = false →
      (maskSwatches mask).foldl (fun (t : Option Chip) sw => t.bind fun t => t.storeItem part id item sw) (some s.chip) = some u →
      exec (.tcEngineStore c part mask id item) s = .next (s.put (((maskSwatches mask).foldl (fun (t : Chip) sw => t.settleStores sw) u).respond c 0x0403 .ok 0 [])))
    ∧ (∀ plate block, s.chip.passes c { pf0Only := true } [(decide (8 ≤ plate), .bound), (decide (1820 < block), .bound)] →
        (s.chip.lining plate).retired.contains block = false → (s.chip.lining plate).retired.length < 64 →
        ∃ t, exec (.tcLiningRetire c plate block) s = .next t
          ∧ (t.chip.lining plate).retired = (s.chip.lining plate).retired ++ [block]
          ∧ (∀ q, q ≠ plate → t.chip.lining q = s.chip.lining q) ∧ t.chip.mem = s.chip.mem ∧ t.chip.cells = s.chip.cells)
    ∧ (∀ part plate, s.chip.passes c { part := some part } [(decide (8 ≤ plate), .bound)] →
        ∃ keyRoom, exec (.tcMemQuery c part plate) s = .next (s.put (s.chip.respond c 0x0502 .ok 0
          ([(s.chip.part part).cnt.padCe.toNat, (s.chip.part part).cnt.padUe.toNat, (s.chip.part part).cnt.lngCe.toNat,
            (s.chip.part part).cnt.lngUe.toNat, (mget {} plate (s.chip.part part).keyWin).base,
            (mget {} plate (s.chip.part part).keyWin).bound,
            mget 0 plate (s.chip.part part).quotas.lining - s.chip.liningUse part plate, keyRoom] ++ (s.chip.lining plate).retired))))
    ∧ (∀ stack first count, s.chip.passes c { pf0Only := true } [(decide (8 ≤ stack), .bound)] → count ≤ 256 → first < 589824 →
        first + count ≤ 589824 → (s.chip.stack stack).degraded = true →
        (s.chip.stack stack).retired.length + (newRuns (s.chip.stack stack).retired first count).length ≤ 8192 →
        exec (.tcPageRetire c stack first count) s = .next (s.put ((s.chip.updStack stack fun x => Stack.redirectAll
            { x with retired := x.retired ++ newRuns (s.chip.stack stack).retired first count }).respond c 0x0503 .ok 0 [])))
    ∧ (∀ stack, s.chip.passes c {} [(decide (8 ≤ stack), .bound)] →
        ∃ rest, exec (.tcHbmQuery c stack) s = .next (s.put (s.chip.respond c 0x0504 .ok 0
          ((s.chip.stack stack).status ++ [(s.chip.stack stack).ce.toNat, (s.chip.stack stack).ue.toNat] ++ rest))))

/-- TC_SEAM_QUERY reads a port; TC_SEAM_TEST with phases starts the test of an idle port and with none answers at once; SEAM_TEST_DONE of a test no call waits for records its results and trains the port; TC_SEAM_LANE_RETIRE of a lane in the list answers ST_OK; TC_PLATE_RECOVER begins the plate's reset. -/
def Obligations.SeamCallsComplete : Prop :=
  ∀ (s : State) (c : Call) (plate port : Nat),
    (s.chip.passes c {} [(decide (8 ≤ plate) || decide (4 ≤ port) || !seamConnected (portKey plate port), .bound)] →
      ∃ rest, exec (.tcSeamQuery c plate port) s = .next (s.put (s.chip.respond c 0x0601 .ok 0
        ([(s.chip.seam (portKey plate port)).state, (s.chip.seam (portKey plate port)).mode] ++ rest))))
    ∧ (∀ phases d, s.chip.passes c { pf0Only := true } [] → plate < 8 → port < 4 → seamConnected (portKey plate port) = true →
        phases < 16 → d ≤ 30 →
        (phases = 0 → exec (.tcSeamTest c plate port phases d) s = .next (s.put (s.chip.respond c 0x0602 .ok 0 [])))
        ∧ (phases ≠ 0 → s.chip.testBusy (portKey plate port) = false →
          exec (.tcSeamTest c plate port phases d) s = .next (s.put (s.chip.startTest (portKey plate port) phases d (some c.fn) c.tag))))
    ∧ (∀ dir lane, s.chip.passes c { pf0Only := true }
          [(decide (8 ≤ plate) || decide (4 ≤ port) || !seamConnected (portKey plate port) || decide (70 ≤ lane), .bound),
           (decide (1 < dir), .notSupported)] →
        (if dir = 0 then (s.chip.seam (portKey plate port)).retiredTx else (s.chip.seam (portKey plate port)).retiredRx).contains lane
          = false →
        ∃ u : Chip, exec (.tcSeamLaneRetire c plate port dir lane) s = .next (s.put (u.respond c 0x0603 .ok 0 []))
          ∧ u.ledger.lanes = sinsert (portKey plate port * 256 + dir * 128 + lane) s.chip.ledger.lanes)
    ∧ (s.chip.passes c { pf0Only := true } [(decide (8 ≤ plate), .bound)] → (s.chip.plate plate).reset = false →
        (s.chip.plate plate).hot = false → (s.chip.plate plate).railLow = false →
        exec (.tcPlateRecover c plate) s = .next (s.put (s.chip.beginPlateReset plate (some c.fn) c.tag true)))
    ∧ (∀ (pl : BitVec 3) (po : BitVec 2) failed margins, s.chip.held = false → seamConnected (portKey pl.toNat po.toNat) = true →
        (s.chip.seam (portKey pl.toNat po.toNat)).state = 12 → (s.chip.seam (portKey pl.toNat po.toNat)).testDone = false →
        (s.chip.seam (portKey pl.toNat po.toNat)).testFn = none →
        ∃ u : Chip, exec (.seamTestDone pl po failed margins) s = .next (s.put ((u.setPort (portKey pl.toNat po.toNat)
              (SeamPort.fail ((failed.filter fun f => !f.rx).map (·.lane.toNat)) ((failed.filter (·.rx)).map (·.lane.toNat)))).trainPort
                (portKey pl.toNat po.toNat) true))
          ∧ (u.seam (portKey pl.toNat po.toNat)).testDone = true ∧ (u.seam (portKey pl.toNat po.toNat)).testStatus = .ok)

/-- TC_FABRIC_JOIN of an unlocked fabric stores id, list and lock and trains every link; TC_ROUTE_SET stores a route mask; TC_TOKEN_GATE arms a slot's one gate; TC_OWNER_SET writes the entry; TC_FABRIC_FETCH copies a local block; TC_SLV_QUERY, TC_SLV_TEST and TC_SLV_LANE_RETIRE report, test and retire links. -/
def Obligations.FabricCallsComplete : Prop :=
  ∀ (s : State) (c : Call),
    (∀ id list lock, s.chip.passes c { pf0Only := true } [(decide (4096 ≤ id), .bound)] → s.chip.fabric.lock = false →
      list.length ≤ 4096 →
      exec (.tcFabricJoin c id list lock) s = .next (s.put (((List.range 16).foldl (fun (t : Chip) l => t.trainLink l false)
          { s.chip with fabric := { s.chip.fabric with id := id, active := id, flashId := id, list := list, lock := lock } }).respond c 0x0701 .ok 0 [])))
    ∧ (∀ dest mask, s.chip.passes c { pf0Only := true } [(decide (4096 ≤ dest), .bound), (decide (65536 ≤ mask), .bound)] →
        ∃ t, exec (.tcRouteSet c dest mask) s = .next t ∧ t.chip.fabric.routes = mset 0 dest mask s.chip.fabric.routes
          ∧ t.chip.fabric.id = s.chip.fabric.id ∧ t.chip.links = s.chip.links ∧ t.chip.mem = s.chip.mem)
    ∧ (∀ link, s.chip.passes c {} [(decide (16 ≤ link), .bound)] →
        ∃ rest, exec (.tcSlvQuery c link) s = .next (s.put (s.chip.respond c 0x0703 .ok 0
          ([(s.chip.link link).state, (s.chip.link link).mode, (s.chip.link link).peerPkg, b2n (s.chip.link link).auth] ++ rest))))
    ∧ (∀ link phases d, s.chip.passes c {} [] → link < 16 → phases < 16 → d ≤ 30 → 2 ≤ phases → s.chip.linkHeld link = false →
        (s.chip.link link).state ≠ 11 →
        exec (.tcSlvTest c link phases d) s = .next (s.put (s.chip.startLinkTest link (phases / 2 * 2) d (some c.fn) c.tag)))
    ∧ (∀ link dir lane, s.chip.passes c { pf0Only := true } [(decide (16 ≤ link) || decide (9 ≤ lane), .bound),
          (decide (1 < dir), .notSupported)] →
        (if dir = 0 then (s.chip.link link).retiredTx else (s.chip.link link).retiredRx).contains lane = false →
        ∃ u : Chip, exec (.tcSlvLaneRetire c link dir lane) s = .next (s.put (u.respond c 0x0705 .ok 0 []))
          ∧ u.ledger.lanes = sinsert (65536 + link * 256 + dir * 128 + lane)
              (s.chip.linkLanesFail link (if dir = 0 then [lane] else []) (if dir = 0 then [] else [lane])).ledger.lanes)
    ∧ (∀ part table block e b, s.chip.passes c { part := some part } [(decide (2 ^ 24 ≤ block), .bound)] →
        s.chip.bufOf table = some b → (c.fn == .pf0 || b.part == c.fn.part) = true → b.kind = 2 → 32 * (block + 1) ≤ 576 * b.bolts →
        ∃ u : Chip, exec (.tcOwnerSet c part table block e) s = .next (s.put (u.respond c 0x0706 .ok 0 []))
          ∧ u.mem = (s.chip.ownerWrite part table block ((s.chip.part part).ownerVersion + 1) e).mem)
    ∧ (∀ part slot token value version timeout p,
        s.chip.passes c { part := some part } [(decide (64 ≤ slot) || decide (64 ≤ token), .bound)] →
        mfind slot (s.chip.part part).plans = some p →
        ∃ (g : Gate) (t : Chip), exec (.tcTokenGate c part slot token value version timeout) s = .next (s.put (t))
          ∧ g.slot = slot ∧ g.token = token ∧ g.value = value ∧ g.timeout = timeout
          ∧ (t.part part).gates = ((s.chip.part part).gates.filter fun x => x.slot != slot) ++ [g])
    ∧ (∀ part table block local_ remote b d, s.chip.passes c { part := some part } [(decide (2 ^ 24 ≤ block), .bound)] →
        s.chip.bufOf table = some b → (c.fn == .pf0 || b.part == c.fn.part) = true →
        s.chip.bufOf local_ = some d → (c.fn == .pf0 || d.part == c.fn.part) = true → b.kind = 2 → 32 * (block + 1) ≤ 576 * b.bolts →
        bit (leNat ((memReadN s.chip.mem (b.addr + 32 * block) 32).take 2)) 15 = true →
        leNat ((memReadN s.chip.mem (b.addr + 32 * block) 32).take 2) % 4096 = s.chip.fabric.active →
        576 * leNat (((memReadN s.chip.mem (b.addr + 32 * block) 32).drop 12).take 4) ≤ 576 * d.bolts →
        ∃ (bytes : List Byte) (u : Chip), exec (.tcFabricFetch c part table block local_ remote) s = .next (s.put (u.respond c 0x0708 .ok 0 []))
          ∧ u = { s.chip with mem := memWriteN s.chip.mem d.addr bytes }
          ∧ bytes = memReadN s.chip.mem (leNat (((memReadN s.chip.mem (b.addr + 32 * block) 32).drop 4).take 8) % 2 ^ 44)
              (576 * leNat (((memReadN s.chip.mem (b.addr + 32 * block) 32).drop 12).take 4)))

/-- TC_PARTITION_CREATE of a free number and free usable swatches makes the partition and joins each swatch; GROW joins and SHRINK releases swatches; DESTROY of a partition with no plan and no request dissolves it; TC_SPLIT_SET stores an admitted grant and rebalances; the queries change nothing. -/
def Obligations.PartitionCallsComplete : Prop :=
  ∀ (s : State) (c : Call) (part mask : Nat),
    (∀ grow, s.chip.passes c { pf0Only := true, part := some part, creates := true } [] → s.chip.alive = true →
      (s.chip.part part).present = false → (maskSwatches mask).isEmpty = false →
      ((maskSwatches mask).any fun sw => (s.chip.swatch sw).owner.isSome) = false →
      ((maskSwatches mask).any fun sw => !s.chip.usable sw) = false →
      exec (.tcPartitionCreate c part mask grow) s = .next (s.put ((((maskSwatches mask).foldl (fun (t : Chip) sw => t.join part sw) (s.chip.updPart part fun old =>
          { present := true, growOnInstall := grow, vfEnabled := old.vfEnabled, busMaster := old.busMaster, msix := old.msix,
            mbx := old.mbx, lockedWrites := old.lockedWrites, winErr := old.winErr })).noteArrivals part).respond c 0x0801 .ok 0 [])))
    ∧ (s.chip.passes c { pf0Only := true, part := some part } [] → s.chip.alive = true →
        ((maskSwatches mask).any fun sw => (s.chip.swatch sw).owner.isSome) = false →
        ((maskSwatches mask).any fun sw => !s.chip.usable sw) = false →
        exec (.tcPartitionGrow c part mask) s = .next (s.put ((((maskSwatches mask).foldl (fun (t : Chip) sw => t.join part sw) s.chip).noteArrivals part).respond c 0x0802 .ok 0 [])))
    ∧ (s.chip.passes c { pf0Only := true, part := some part } [] → s.chip.alive = true →
        ((maskSwatches mask).any fun sw => (s.chip.swatch sw).owner != some part) = false →
        ((maskSwatches mask).any fun sw => !s.chip.usable sw) = false →
        ((maskSwatches mask).any fun sw => (s.chip.part part).uses sw) = false →
        exec (.tcPartitionShrink c part mask) s = .next (s.put ((((maskSwatches mask).foldl (fun (t : Chip) sw => t.leave sw) s.chip).noteArrivals part).respond c 0x0803 .ok 0 [])))
    ∧ (s.chip.passes c { pf0Only := true, part := some part } [] → s.chip.alive = true → s.chip.runs = [] → s.chip.requests = [] →
        exec (.tcPartitionDestroy c part) s = .next (s.put (((s.chip.releasePart part).dissolve part).respond c 0x0804 .ok 0 [])))
    ∧ (s.chip.passes c { part := some part } [] →
        ∃ grants, exec (.tcPartitionQuery c part) s = .next (s.put (s.chip.respond c 0x0805 .ok 0
          ([swatchMask (s.chip.swatchesOf part), b2n (s.chip.part part).suspended, b2n (s.chip.part part).resetting,
            (s.chip.part part).pace, (s.chip.part part).paceLimit, (s.chip.part part).qosRes] ++ grants))))
    ∧ (∀ r cls units strict, s.chip.passes c { pf0Only := true, part := some part } [] → s.chip.alive = true → r < 40 → cls < resClasses r →
        units ≤ 62 → (mget {} (grantKey r cls) (s.chip.part part).grants).units < units →
        (s.chip.updPart part (Partition.setGrant r cls units strict)).admits r = true →
        exec (.tcSplitSet c part r cls units strict) s = .next (s.put ((((s.chip.updPart part (Partition.setGrant r cls units strict)).noteArrivals part).capacityChange [r] false).respond c 0x0806 .ok 0 [])))
    ∧ (∀ r, s.chip.passes c {} [(decide (40 ≤ r), .bound)] →
        ∃ rest, exec (.tcSplitQuery c r) s = .next (s.put (s.chip.respond c 0x0807 .ok 0
          ([(s.chip.capacity r).getD 0, b2n (s.chip.inFray r)] ++ rest))))

/-- TC_PARTITION_RESET and TC_PLATE_RESET begin the reset and answer at its end; TC_COLLAR_RESET answers ST_OK and then resets; TC_EVENT_ROUTE, TC_POWER_POLICY, TC_PLATE_POWER and TC_POWER_LIMIT store what they set; the queries report. -/
def Obligations.ResetAndPowerCallsComplete : Prop :=
  ∀ (s : State) (c : Call),
    (∀ part, s.chip.passes c { part := some part } [] →
      exec (.tcPartitionReset c part) s = .next (s.put (s.chip.beginReset part 2 (some c.fn) c.tag)))
    ∧ (∀ plate, s.chip.passes c { pf0Only := true } [(decide (8 ≤ plate), .bound)] → (s.chip.plate plate).reset = false →
        exec (.tcPlateReset c plate) s = .next (s.put (s.chip.beginPlateReset plate (some c.fn) c.tag false)))
    ∧ (s.chip.passes c { pf0Only := true } [] →
        exec (.tcCollarReset c) s = .next (s.put (collarWarmReset 1 (s.chip.respond c 0x0903 .ok 0 []))))
    ∧ (∀ ev vector enable, s.chip.passes c { pf0Only := true } [(!eventAssigned .pf0 ev || decide (64 ≤ vector), .bound)] →
        ∃ t, exec (.tcEventRoute c 0 ev vector enable) s = .next t
          ∧ t.chip.tlr.events = s.chip.tlr.events.setRoute ev vector enable ∧ t.chip.cells = s.chip.cells ∧ t.chip.mem = s.chip.mem)
    ∧ (∀ n ev vector enable, s.chip.passes c { part := some n } [(!eventAssigned (.vf n) ev || decide (32 ≤ vector), .bound)] →
        (s.chip.part n).present = true →
        ∃ t, exec (.tcEventRoute c (n + 1) ev vector enable) s = .next t
          ∧ (t.chip.part n).events = (s.chip.part n).events.setRoute ev vector enable ∧ t.chip.cells = s.chip.cells)
    ∧ (∀ part floor nap rest, s.chip.passes c { part := some part }
          [(decide (floor = 0 ∨ 3 < floor), .notSupported), (decide (2 ^ 30 < nap ∨ 2 ^ 30 < rest), .bound)] →
        exec (.tcPowerPolicy c part floor nap rest) s = .next (s.put (((((s.chip.updPart part fun p => { p with floor := floor, napDelay := nap, restDelay := rest }).swatchesOf part).foldl
            (fun (t : Chip) sw => if floor < (s.chip.part part).floor && decide (floor < (t.swatch sw).power) then t.wakeInto sw floor else t)
            (s.chip.updPart part fun p => { p with floor := floor, napDelay := nap, restDelay := rest }))).respond c 0x0A01 .ok 0 [])))
    ∧ (∀ plate allow delay, s.chip.passes c { pf0Only := true } [(decide (8 ≤ plate), .bound), (decide (2 ^ 30 < delay), .bound)] →
        ∃ t, exec (.tcPlatePower c plate allow delay) s = .next t ∧ (t.chip.plate plate).offAllowed = allow
          ∧ (t.chip.plate plate).offDelay = delay ∧ (t.chip.plate plate).off = (s.chip.plate plate).off
          ∧ ∀ q, q ≠ plate → t.chip.plate q = s.chip.plate q)
    ∧ (∀ watts, s.chip.passes c { pf0Only := true } [(decide (watts ≠ 0 ∧ (watts < 300 ∨ 1150 < watts)), .bound)] →
        ∃ t, exec (.tcPowerLimit c watts) s = .next t ∧ t.chip.power.limit = (if watts = 0 then 1150 else watts)
          ∧ t.chip.power.avg = s.chip.power.avg)
    ∧ (∀ index, s.chip.passes c {} [(decide (8 ≤ index), .bound)] →
        exec (.tcPowerQuery c true index) s = .next (s.put (s.chip.respond c 0x0A04 .ok 0
          [b2n (s.chip.plate index).off, b2n (s.chip.plate index).offAllowed, (s.chip.plate index).offDelay,
            b2n (s.chip.plate index).fLock, (s.chip.plate index).theta])))
    ∧ (s.chip.passes c {} [] →
        ∃ readings, exec (.tcThermalQuery c) s = .next (s.put (s.chip.respond c 0x0A05 .ok 0
          (readings ++ [tempField s.chip.power.collarTemp]))))

/-- TC_LEDGER_GET reads an item; with the User Ledger open TC_LEDGER_SET applies every good item, TC_LEDGER_COMMIT stores the image in working flash with the next version, and TC_CELL_RETIRE of a cell already out answers ST_OK and otherwise retires it. -/
def Obligations.LedgerCallsComplete : Prop :=
  ∀ (s : State) (c : Call),
    (∀ item index, s.chip.passes c {} [(decide (ledgerCount item ≤ index), .bound)] → item < 13 →
      exec (.tcLedgerGet c item index) s = .next (s.put (s.chip.respond c 0x0A06 .ok 0
        [(s.chip.ledger.factoryOf item index % 2 ^ 16).toNat, (s.chip.ledger.userOf item index % 2 ^ 16).toNat,
          (s.chip.ledger.effective item index % 2 ^ 16).toNat])))
    ∧ (∀ items, s.chip.passes c { pf0Only := true } [] → s.chip.ledgerOpen = true → items.findSome? s.chip.ledgerBad = none →
        exec (.tcLedgerSet c items) s = .next (s.put ((items.foldl (fun (t : Chip) x => t.ledgerPut x) s.chip).respond c 0x0A07 .ok 0 [])))
    ∧ (s.chip.passes c { pf0Only := true } [] → s.chip.ledgerOpen = true → s.chip.ledger.flash = true →
        ∃ t, exec (.tcLedgerCommit c) s = .next t ∧ t.chip.ledger.imageValid = true
          ∧ t.chip.ledger.image = some (s.chip.ledger.user, s.chip.ledger.userCells, s.chip.ledger.lanes,
              ((s.chip.ledger.image.map fun i => i.2.2.2).getD 0 + 1) % 2 ^ 16)
          ∧ t.chip.ledger.factory = s.chip.ledger.factory)
    ∧ (∀ cell force, s.chip.passes c { pf0Only := true } [(decide (32768 ≤ cell), .bound)] → s.chip.ledgerOpen = true →
        (s.chip.ledger.cellOut (66 * (cell / 64) + cell % 64) = true →
          exec (.tcCellRetire c cell force) s = .next (s.put (s.chip.respond c 0x0A09 .ok 0 [])))
        ∧ (s.chip.ledger.cellOut (66 * (cell / 64) + cell % 64) = false →
            (s.chip.lastCells (66 * (cell / 64) + cell % 64) = false ∨ force = true) →
            exec (.tcCellRetire c cell force) s = .next (s.put ((s.chip.retireCell (66 * (cell / 64) + cell % 64)).respond c 0x0A09 .ok 0 []))))

/-- A call whose checks pass issues a handle over a free place, releases an unused buffer, grants a view, revokes one, or reports the buffer; TC_BUF_ALLOC_AT does so at a named address. -/
def Obligations.BufferCallsComplete : Prop :=
  ∀ (s : State) (c : Call),
    (∀ part kind place bolts priv h u, s.chip.passes c { part := some part }
        [(decide (2 < kind), .notSupported), (decide (kind < 2 && 7 < place && !(kind == 0 && place == 255)), .bound),
          (decide (kind = 2 ∧ place ≠ 0), .bound)] →
      s.chip.allocBuf part kind place bolts priv = .ok (h, u) →
      exec (.tcBufAlloc c part kind place bolts priv) s = .next (s.put (u.respond c 0x0B01 .ok 0 [h, ((u.bufOf h).map (·.addr)).getD 0])))
    ∧ (∀ handle b, s.chip.passes c {} [] → s.chip.bufOf handle = some b → (c.fn == .pf0 || b.part == c.fn.part) = true →
        s.chip.bound handle = false → s.chip.keyInUse b.part handle = false → s.chip.mapped handle = false →
        exec (.tcBufFree c handle) s = .next (s.put ((s.chip.releaseBuf handle).respond c 0x0B02 .ok 0 [])))
    ∧ (∀ handle b part first bolts read add, s.chip.passes c {}
          [(decide (4096 ≤ (0 : Nat)), .bound), (decide (64 ≤ part), .bound), (decide (64 ≤ (0 : Nat)), .bound),
            (!(read || add), .notSupported)] →
        s.chip.bufOf handle = some b → (c.fn == .pf0 || b.part == c.fn.part) = true → b.view = none → first + bolts ≤ b.bolts →
        (s.chip.part part).present = true → b.grants.length < 64 → s.chip.handleRoom part = true →
        ∃ (v : Buf) (g : BufGrant), v.view = some (handle % 2 ^ 24) ∧ v.part = part ∧ v.addr = b.addr + 576 * first ∧ v.bolts = bolts
          ∧ v.canRead = read ∧ v.canAdd = add ∧ v.canWrite = false ∧ g.handle = (s.chip.issueHandle v).1 ∧ g.part = part
          ∧ exec (.tcBufShare c handle false 0 part first bolts read add false 0) s = .next (s.put (({ (s.chip.issueHandle v).2 with
                bufs := mput (handle % 2 ^ 24) { b with grants := b.grants ++ [g] } (s.chip.issueHandle v).2.bufs }).respond c 0x0B03 .ok 0
                  [(s.chip.issueHandle v).1])))
    ∧ (∀ handle v o ob, s.chip.passes c {} [] → s.chip.bufOf handle = some v → v.view = some o → mfind o s.chip.bufs = some ob →
        (c.fn == .pf0 || ob.part == c.fn.part) = true →
        exec (.tcBufRevoke c handle) s = .next (s.put ((({ s.chip with bufs := mput o { ob with grants := ob.grants.filter fun g => g.handle != handle } s.chip.bufs }).killHandle
            (handle % 2 ^ 24)).respond c 0x0B04 .ok 0 [])))
    ∧ (∀ handle b, s.chip.passes c {} [] → s.chip.bufOf handle = some b → (c.fn == .pf0 || b.part == c.fn.part) = true →
        exec (.tcBufQuery c handle) s = .next (s.put (s.chip.respond c 0x0B05 .ok 0 [b.part, b.kind, b.place, b.addr, b.bolts, b2n b.priv, b.grants.length])))
    ∧ (∀ part addr bolts, s.chip.passes c { expert := true, part := some part } [] → addr < 0x8000000000 →
        addr % 0x1000000000 % 576 = 0 → addr % 0x1000000000 + 576 * bolts ≤ 0x8F8000000 →
        (576 * bolts ≠ 0 → s.chip.regionRetired addr (576 * bolts) = false) →
        (s.chip.owned.any fun b => decide (addr < b.addr + 576 * b.bolts) && decide (b.addr < addr + 576 * bolts)) = false →
        ((s.chip.busyStack (stackOf addr)).any fun r => decide (addr % 0x1000000000 < r.2)
          && decide (r.1 < addr % 0x1000000000 + 576 * bolts) && decide (r.1 < r.2)) = false →
        s.chip.handleRoom part = true →
        ∃ b : Buf, b.part = part ∧ b.kind = 0 ∧ b.place = addr / 0x1000000000 ∧ b.addr = addr ∧ b.bolts = bolts
          ∧ exec (.tcBufAllocAt c part addr bolts) s = .next (s.put ((s.chip.issueHandle b).2.respond c 0x8B01 .ok 0 [(s.chip.issueHandle b).1, addr])))

/-- A quota above what is in use is stored; a key container that passes its check is registered; an unnamed key is evicted; services are defined, removed and reported; a ready receipt is read out; TC_TIME_SET stores the time base at the A-tick it is set; TC_SCHED_HOLD holds or frees a partition's queue. -/
def Obligations.KeyAndServiceCallsComplete : Prop :=
  ∀ (s : State) (c : Call) (part : Nat),
    (∀ hbm keyLines lining control handles maxOpen, s.chip.passes c { pf0Only := true, part := some part }
        [(maxOpen = 0 || 16384 < maxOpen, .bound)] →
      ((List.range 8).any fun i => decide ((hbm[i]?).getD 0 < s.chip.hbmUse part i)
        || decide ((lining[i]?).getD 0 < s.chip.liningUse part i)
        || decide ((keyLines[i]?).getD 0 < ((s.chip.keyBufs part i).map (·.2)).foldl max 0)
        || ((s.chip.part part).keyRanges.any fun r => r.plate == i && decide ((keyLines[i]?).getD 0 < r.offset + r.lines))) = false →
      s.chip.controlUse part ≤ control → s.chip.handleUse part ≤ handles → s.chip.openOf part ≤ maxOpen →
      (∀ i, i < 8 → (keyLines[i]?).getD 0 = mget 0 i (s.chip.part part).quotas.keyLines) →
      ∃ u : Chip, exec (.tcQuotaSet c part hbm keyLines lining control handles maxOpen) s
          = .next (s.put ((u.settleKeyWin part).respond c 0x0B06 .ok 0 []))
        ∧ (u.part part).quotas.control = control ∧ (u.part part).quotas.handles = handles ∧ (u.part part).quotas.maxOpen = maxOpen)
    ∧ (∀ handle bundle b u t, s.chip.passes c { part := some part } [] → s.chip.bufOf handle = some b →
        (c.fn == .pf0 || b.part == part) = true → s.chip.checkContainer part handle 0 none = (u, none) → b.kind = 0 →
        (u.headerAt b 0).isKey = true → u.trust.keySigning = false →
        ((mfind (u.headerAt b 0).keyId (u.part part).keys).isSome = true ∨ (u.part part).keys.length < 4096) →
        u.registerKey part (u.headerAt b 0).keyId handle = some t →
        exec (.tcKeyRegister c part handle bundle) s = .next (s.put (t.respond c 0x0B07 .ok 0 [(u.headerAt b 0).keyId])))
    ∧ (∀ keyId k, s.chip.passes c { part := some part } [] → mfind keyId (s.chip.part part).keys = some k →
        s.chip.keyNamed part keyId = false →
        exec (.tcKeyEvict c part keyId) s = .next (s.put (((k.copies.foldl (fun t x => t.releaseBuf x.2) s.chip).updPart part fun p =>
            { p with keys := mdel keyId p.keys, keyRanges := p.keyRanges.filter fun r => r.keyId != keyId }).respond c 0x0B08 .ok 0 [])))
    ∧ (s.chip.passes c { part := some part } [] →
        exec (.tcKeyQuery c part) s = .next (s.put (s.chip.respond c 0x0B09 .ok 0 ((s.chip.part part).keys.flatMap fun k => [k.1, k.2.handle]))))
    ∧ (∀ service slots maxOpen kind policy, s.chip.passes c { part := some part }
          [(decide (256 ≤ service), .bound), (decide (8 < slots.length), .bound), (slots.any (64 ≤ ·), .bound),
            (decide (maxOpen = 0 ∨ 16384 < maxOpen), .badShape), (decide (3 < kind), .notSupported), (!policy.ok, .badShape)] →
        slots.isEmpty = false →
        ∃ t, exec (.tcServiceDefine c part service slots maxOpen kind policy) s = .next t
          ∧ mfind service (t.chip.part part).services = some ⟨slots, maxOpen, kind, policy⟩
          ∧ (t.chip.part part).plans = (s.chip.part part).plans)
    ∧ (∀ service v, s.chip.passes c { part := some part } [(decide (256 ≤ service), .bound)] →
        mfind service (s.chip.part part).services = some v →
        (exec (.tcServiceRemove c part service) s = .next (s.put ((s.chip.updPart part fun p => { p with services := mdel service p.services }).respond c 0x0B0B .ok 0 [])))
        ∧ (exec (.tcServiceQuery c part service) s = .next (s.put (s.chip.respond c 0x0B0C .ok 0 ([v.maxOpen, v.receiptKind, b2n v.handoff.allowed, v.slots.length] ++ v.slots)))))
    ∧ (∀ request e, s.chip.passes c { part := some part } [] →
        ((s.chip.part part).receipts.reverse.find? fun e => e.2.request == request && e.2.sigKind != 0) = some e → e.2.ready = true →
        exec (.tcReceiptGet c part request) s = .next (s.put (s.chip.respond c 0x0B0D .ok 0 ((e.2.body ++ e.2.signatures).map (·.toNat)))))
    ∧ (∀ time, s.chip.passes c { pf0Only := true } [(decide (2 ^ 64 ≤ time), .bound)] →
        ∃ t, exec (.tcTimeSet c time) s = .next t ∧ t.chip.tlr.timeBase = time ∧ t.chip.tlr.timeSetAt = s.chip.aTick
          ∧ t.chip.tlr.timeSet = true ∧ t.chip.mem = s.chip.mem)
    ∧ (∀ hold, s.chip.passes c { expert := true, part := some part } [] →
        ∃ t, exec (.tcSchedHold c part hold) s = .next t ∧ (t.chip.part part).schedHold = hold
          ∧ (t.chip.part part).plans = (s.chip.part part).plans ∧ t.chip.requests = s.chip.requests)

/-- TC_KRP_PORT_SET configures a port, in flash too when persistent; TC_KRP_CLIENT_SET stores a client entry in place of one with its key id; TC_KRP_CLIENT_REMOVE removes it; TC_KRP_SESSION_QUERY lists a partition's sessions; TC_KRP_SESSION_CLOSE closes an open session of an owner. -/
def Obligations.KrpCallsComplete : Prop :=
  ∀ (s : State) (c : Call),
    (∀ port addr4 addr6 udp vlan gap persist, s.chip.passes c { pf0Only := true }
        [(decide (1 < port), .bound), (decide (2 ^ 32 ≤ addr4), .bound), (decide (2 ^ 128 ≤ addr6), .bound),
          (decide (65536 ≤ udp), .bound), (decide (4096 ≤ vlan), .bound), (decide (2 ^ 32 ≤ gap), .bound)] →
      ∃ t, exec (.tcKrpPortSet c port addr4 addr6 udp vlan gap persist) s = .next t
        ∧ (mget {} port t.chip.krp.ports).configured = true ∧ (mget {} port t.chip.krp.ports).addr4 = addr4
        ∧ (mget {} port t.chip.krp.ports).addr6 = addr6 ∧ (mget {} port t.chip.krp.ports).udp = udp
        ∧ (mget {} port t.chip.krp.ports).vlan = vlan ∧ (mget {} port t.chip.krp.ports).gap = gap
        ∧ (mget {} port t.chip.krp.ports).link = (mget {} port s.chip.krp.ports).link
        ∧ (persist = true → (mget {} port t.chip.krp.flashPorts).addr4 = addr4)
        ∧ (persist = false → t.chip.krp.flashPorts = s.chip.krp.flashPorts) ∧ t.chip.krp.sessions = s.chip.krp.sessions)
    ∧ (∀ k, s.chip.passes c { pf0Only := true, part := some k.part }
          [(decide (2 ^ 384 ≤ k.keyId), .bound), (decide (k.alg = 0 ∨ 4 < k.alg), .notSupported), (decide (2 ^ 32 ≤ k.owner), .bound),
            (decide (k.maxOpen = 0 ∨ 16384 < k.maxOpen), .bound), (decide (k.sessions = 0 ∨ 8192 < k.sessions), .bound),
            (decide (k.window = 0 ∨ 65536 ≤ k.window), .bound), (decide (2 ^ 32 ≤ k.idle), .bound)] →
        (s.chip.krp.clients.filter fun x => x.keyId != k.keyId).length < 4096 →
        ∃ t, exec (.tcKrpClientSet c k) s = .next t
          ∧ t.chip.krp.clients = (s.chip.krp.clients.filter fun x => x.keyId != k.keyId) ++ [k]
          ∧ t.chip.krp.sessions = s.chip.krp.sessions)
    ∧ (∀ keyId, s.chip.passes c { pf0Only := true } [] → (s.chip.krp.clients.any fun x => x.keyId == keyId) = true →
        s.chip.krp.sessions = [] →
        ∃ t, exec (.tcKrpClientRemove c keyId) s = .next t
          ∧ t.chip.krp.clients = s.chip.krp.clients.filter fun x => x.keyId != keyId)
    ∧ (∀ part, s.chip.passes c { part := some part } [] →
        exec (.tcKrpSessionQuery c part) s = .next (s.put (s.chip.respond c 0x0C04 .ok 0 ((s.chip.krp.sessions.filter fun x => !x.half && x.part == part).flatMap fun x =>
            x.id :: x.carrier.nums ++ [(s.chip.openOn x.id).length, x.framesIn, x.framesOut]))))
    ∧ (∀ session x, s.chip.passes c {} [] → s.chip.session? session = some x → x.half = false → c.fn.owns x.part = true →
        exec (.tcKrpSessionClose c session) s = .next (s.put ((s.chip.closeSession session (some 0)).respond c 0x0C05 .ok 0 [])))

/-- The queries report; TC_ATTEST submits a LOW job whose end answers with the report signed with the device identity; TC_LIFECYCLE_SET submits the LOW job that makes Manufacturing to Provisioned with the drawn identity, and makes Provisioned to Deployed when enrolled and Manufacturing to Returned; the policy calls submit what a token authorises; TC_SVN_COMMIT raises the counters; TC_SEAL_KAT queues the tests; TC_TRNG_RAW answers raw values. -/
def Obligations.SealCallsComplete : Prop :=
  ∀ (s : State) (c : Call),
    (s.chip.passes c {} [] →
      exec (.tcSealQuery c) s = .next (s.put (s.chip.respond c 0x0D01 .ok 0 ([s.chip.trust.high.length, s.chip.trust.low.length, s.chip.trust.trng.toNat,
          s.chip.enabledMask] ++ (List.range 5).map fun k => mget 0 (k + 2) s.chip.trust.svn))))
    ∧ (∀ nonce, s.chip.passes c {} [] → s.chip.trust.identity = true → s.chip.canSign 1 = true → s.chip.trust.low.length < 1024 →
        (∃ (n : Nat) (u : Chip), exec (.tcAttest c nonce) s = .next (s.put (u.sealSubmit (.attest c (s.chip.reportBody nonce)) false n).1)
          ∧ u.trust = s.chip.trust ∧ (u.sealSubmit (.attest c (s.chip.reportBody nonce)) false n).1.trust.nextJob = s.chip.trust.nextJob + 1)
        ∧ ∀ v : Chip, v.jobEffect (.attest c (s.chip.reportBody nonce)) = v.respond c 0x0D02 .ok 0 ((s.chip.reportBody nonce
            ++ Config.mldsaSign v.trust.identityNo (s.chip.reportBody nonce)
            ++ Config.ecdsaSign v.trust.identityNo (s.chip.reportBody nonce)).map (·.toNat)))
    ∧ (∀ first count, s.chip.passes c {} [] →
        ∃ recs, exec (.tcMeasLog c first count) s = .next (s.put (s.chip.respond c 0x0D03 .ok 0 (recs ++ [s.chip.trust.planDigest.toNat, s.chip.trust.planSeq - 1]))))
    ∧ (∀ token, (s.chip.passes c { pf0Only := true } [(decide (3 < 1), .bound)] → s.chip.life = .manufacturing →
          s.chip.ledger.factoryOk = true → s.chip.trust.hukKilled = false → s.chip.trust.trng ≠ 0 → s.chip.canSign 1 = true →
          s.chip.trust.low.length < 1024 →
          exec (.tcLifecycleSet c 1 token) s = .next (s.put (s.chip.sealSubmit (.identity c) false 96000).1)
            ∧ ∀ (u w : Chip) (k : Nat), u.life = .manufacturing → u.trust.trng ≠ 0 → u.sealDraw = some (k, w) →
              ∃ v : Chip, u.jobEffect (.identity c) = (v.remeasure 8).respond c 0x0D04 .ok 8 ((Config.identityKeys k).map (·.toNat))
                ∧ v.life = .provisioned ∧ v.trust.identity = true ∧ v.trust.identityNo = k)
        ∧ (s.chip.passes c { pf0Only := true } [(decide (3 < 2), .bound)] → s.chip.life = .provisioned → s.chip.trust.enrolled = true →
          exec (.tcLifecycleSet c 2 token) s = .next (s.put ((Chip.remeasure { s.chip with life := .deployed } 8).respond c 0x0D04 .ok 8 [])))
        ∧ (s.chip.passes c { pf0Only := true } [(decide (3 < 3), .bound)] → s.chip.life = .manufacturing →
          exec (.tcLifecycleSet c 3 token) s = .next (s.put (s.chip.erase.respond c 0x0D04 .ok 8 []))))
    ∧ (∀ value lock token, s.chip.passes c { pf0Only := true } [] → s.chip.changeFail (.policy value lock) = none →
        (s.chip.life ≠ .deployed → exec (.tcPolicySet c value lock token) s
          = .next (s.put ((s.chip.applyChange (.policy value lock)).respond c 0x0D05 .ok 0 [])))
        ∧ (∀ u, s.chip.life = .deployed → s.chip.sealSubmit (.token c 0x0D05 (.policy value lock) token) false (blockCycles ((signatureBlock token.block).getD [])) = (u, true) →
            exec (.tcPolicySet c value lock token) s = .next (s.put (u))))
    ∧ (∀ slot key token, s.chip.passes c { pf0Only := true } [] → s.chip.changeFail (.key slot key) = none →
        (s.chip.life ≠ .deployed → exec (.tcPolicyKeySet c slot key token) s
          = .next (s.put ((s.chip.applyChange (.key slot key)).respond c 0x0D06 .ok 0 [])))
        ∧ (∀ u, s.chip.life = .deployed → s.chip.sealSubmit (.token c 0x0D06 (.key slot key) token) false (blockCycles ((signatureBlock token.block).getD [])) = (u, true) →
            exec (.tcPolicyKeySet c slot key token) s = .next (s.put (u))))
    ∧ (∀ keyKind slot alg key mask enable token, s.chip.passes c { pf0Only := true } [] → s.chip.changeFail (.signer keyKind slot alg key mask enable) = none →
        (s.chip.life ≠ .deployed → exec (.tcSignerSet c keyKind slot alg key mask enable token) s
          = .next (s.put ((s.chip.applyChange (.signer keyKind slot alg key mask enable)).respond c 0x0D07 .ok 0 [])))
        ∧ (∀ u, s.chip.life = .deployed → s.chip.sealSubmit (.token c 0x0D07 (.signer keyKind slot alg key mask enable) token) false (blockCycles ((signatureBlock token.block).getD [])) = (u, true) →
            exec (.tcSignerSet c keyKind slot alg key mask enable token) s = .next (s.put (u))))
    ∧ (s.chip.passes c { pf0Only := true } [] →
        ∃ t, exec (.tcSvnCommit c) s = .next t
          ∧ t.chip.trust.svn = s.chip.trust.imageSvn.foldl (fun (m : SMap Nat) e => mput e.1 (max e.2 (mget 0 e.1 m)) m) s.chip.trust.svn)
    ∧ (∀ failed u, s.chip.passes c { expert := true } [] →
        s.chip.takeFree.2.sealSubmit (.kat c (failed.map (·.toNat))) false (Config.freeNat s.chip.free) = (u, true) →
        exec (.tcSealKat c failed) s = .next (s.put (u)))
    ∧ (∀ source count, s.chip.passes c { expert := true } [(decide (3 < source), .bound), (decide (4096 < count), .bound)] →
        exec (.tcTrngRaw c source count) s = .next (s.put ((Chip.respond { s.chip with free := s.chip.free + count } c 0x8D02 .ok 0
            ((List.range count).map fun i => Config.freeNat (s.chip.free + i))))))

/-- TC_RING_SET configures an empty ring; TC_WINDOW_MAP maps a buffer of PF0 or a partition at an aperture, TC_WINDOW_MAP_PHYS an address, TC_WINDOW_UNMAP removes it; TC_SELFTEST starts tests of free swatches and SELFTEST_DONE ends one; the queries and logs answer. -/
def Obligations.HostCallsComplete : Prop :=
  ∀ (s : State) (c : Call),
    (∀ part ring krp sqBase sqSize cqBase cqSize, s.chip.passes c { part := some part } [(decide (8 ≤ ring), .bound)] →
      sqBase ≠ 0 → cqBase ≠ 0 → ringSize sqSize = true → ringSize cqSize = true → sqBase % 4096 = 0 → cqBase % 4096 = 0 →
      (s.chip.ring part ring).taken = 0 →
      ∃ t, exec (.tcRingSet c part ring krp sqBase sqSize cqBase cqSize) s = .next t
        ∧ (t.chip.ring part ring).enabled = true ∧ (t.chip.ring part ring).krp = krp ∧ (t.chip.ring part ring).sqBase = sqBase
        ∧ (t.chip.ring part ring).sqSize = sqSize ∧ (t.chip.ring part ring).cqBase = cqBase ∧ (t.chip.ring part ring).cqSize = cqSize
        ∧ (t.chip.ring part ring).sqHead = 0 ∧ (t.chip.ring part ring).sqTail = 0 ∧ (t.chip.ring part ring).phase = true
        ∧ ((t.chip.ring part ring).ownerPf0 = true ↔ c.fn = .pf0))
    ∧ (∀ part ring, s.chip.passes c { part := some part } [(decide (8 ≤ ring), .bound)] →
        ∃ rest, exec (.tcRingQuery c part ring) s = .next (s.put (s.chip.respond c 0x0E02 .ok 0
          ([b2n (s.chip.ring part ring).ownerPf0, b2n (s.chip.ring part ring).krp, (s.chip.ring part ring).sqSize,
            (s.chip.ring part ring).cqSize, (s.chip.ring part ring).sqHead, (s.chip.ring part ring).sqTail,
            (s.chip.ring part ring).cqHead, (s.chip.ring part ring).cqTail, (s.chip.ring part ring).seq] ++ rest))))
    ∧ (∀ function aperture handle offset b,
        s.chip.passes c (windowShape function) [(decide (64 < function), .bound), (decide (1024 ≤ aperture), .bound)] →
        s.chip.bufOf handle = some b → (c.fn == .pf0 || b.part == c.fn.part) = true →
        (function = 0 ∨ (b.part + 1 = function ∧ b.view = none ∧ b.kind ≠ 1)) → offset ≤ 576 * b.bolts → offset % 4096 = 0 →
        exec (.tcWindowMap c function aperture handle offset) s = .next (s.put ((s.chip.mapAperture function aperture ⟨some handle, offset⟩).respond c 0x0E03 .ok 0 [])))
    ∧ (∀ function aperture,
        s.chip.passes c (windowShape function) [(decide (64 < function), .bound), (decide (1024 ≤ aperture), .bound)] →
        ∃ t, exec (.tcWindowUnmap c function aperture) s = .next t
          ∧ t.chip.pci.windows = mdel (1024 * function + aperture) s.chip.pci.windows ∧ t.chip.bufs = s.chip.bufs)
    ∧ (∀ function, s.chip.passes c (windowShape function) [(decide (64 < function), .bound)] →
        exec (.tcWindowQuery c function) s = .next (s.put (s.chip.respond c 0x0E05 .ok 0 ((s.chip.pci.windows.filter fun w => w.1 / 1024 == function).flatMap fun w =>
            [w.1 % 1024, w.2.handle.getD 0, w.2.offset]))))
    ∧ (∀ aperture addr, s.chip.passes c { expert := true } [(decide (1024 ≤ aperture), .bound)] → addr % 4096 = 0 →
        windowRegion addr 1 = true →
        exec (.tcWindowMapPhys c aperture addr) s = .next (s.put ((s.chip.mapAperture 0 aperture ⟨none, addr⟩).respond c 0x8E01 .ok 0 [])))
    ∧ (s.chip.passes c {} [] →
        ∃ rest, exec (.tcGradeQuery c) s = .next (s.put (s.chip.respond c 0x0F01 .ok 0
          ([s.chip.grade.code, ((List.range 64).filter fun sw => (s.chip.swatch sw).inService).length] ++ rest))))
    ∧ (∀ mask, s.chip.passes c { pf0Only := true } [(decide (2 ^ 64 ≤ mask), .bound)] → s.chip.boot.testFn = none →
        (((List.range 64).filter fun sw => bit mask sw).any fun sw => (s.chip.swatch sw).owner.isSome || (s.chip.swatch sw).testing) = false →
        (((List.range 64).filter fun sw => bit mask sw).any fun sw => (s.chip.swatch sw).resetting) = false →
        (((List.range 64).filter fun sw => bit mask sw).any fun sw => !(s.chip.plate (plateOf sw)).online) = false →
        ((List.range 64).filter fun sw => bit mask sw).isEmpty = false →
        ∃ u v : Chip, exec (.tcSelftest c mask) s
            = .next (s.put (v.updSwatches ((List.range 64).filter fun sw => bit mask sw) fun w => { w with power := 0 }))
          ∧ v = ((((List.range 64).filter fun sw => bit mask sw).map plateOf).eraseDups.foldl (fun (t : Chip) p => t.plateOn p)
              (u.updSwatches ((List.range 64).filter fun sw => bit mask sw) fun w => { w with testing := true, waking := false, power := 0 }))
          ∧ u.boot.testFn = some c.fn ∧ u.boot.testTag = c.tag ∧ u.boot.testMask = mask ∧ u.swatches = s.chip.swatches)
    ∧ (∀ (swatch : BitVec 6) failing, s.chip.held = false → (s.chip.swatch swatch.toNat).testing = true →
        exec (.selftestDone swatch failing) s = .next (s.put (((s.chip.endTest swatch.toNat
            (if (failing.filter fun c => !s.chip.ledger.cellOut c).isEmpty then .ok else .poison) failing).regrade).selfTestAnswer
              swatch.toNat)))
    ∧ (∀ first count flash, s.chip.passes c {} [(decide (64 < count), .bound)] →
        ∃ seq recs, exec (.tcErrorLog c first count flash) s = .next (s.put (s.chip.respond c 0x0F03 .ok 0 (seq :: List.flatMap LogRec.nums recs)))
          ∧ recs.length ≤ count ∧ ∀ r ∈ recs, first ≤ r.seq ∧ r ∈ (if flash then s.chip.tlr.flash else s.chip.tlr.errLog))
    ∧ (s.chip.passes c { expert := true } [] →
        exec (.tcErrlogClear c) s = .next (s.put ((Chip.logRec { s.chip with tlr := { s.chip.tlr with flash := [] } } 0 2 none none none 0).respond c 0x8F01 .ok 0 [])))

/-- With Expert control on and no operation under way, each write of an OP to TLR_MT_CMD latches the staged operands and starts that operation; a reserved OP starts one that ends ST_NOT_SUPPORTED; MT_CMD_DONE applies it and sets DONE with its status. -/
def Obligations.ModulusRegisterCommandsComplete : Prop :=
  ∀ (s : State), (s.chip.admitsHost .pf0 = true → s.chip.expertOn = true → s.chip.tlr.mt.done = true →
    (∀ i op, (i, op) ∈ [(Instr.mtCmdWriteEntry, 1), (Instr.mtCmdClearEntry, 2), (Instr.mtCmdWriteChain, 3), (Instr.mtCmdClearChain, 4)] →
      ∃ t, exec i s = .next t ∧ t.chip.tlr.mt.done = false ∧ t.chip.tlr.mt.running = some op
        ∧ t.chip.tlr.mt.runIndex = s.chip.tlr.mt.index ∧ t.chip.tlr.mt.runPart = s.chip.tlr.mt.part
        ∧ t.chip.tlr.mt.runChain = s.chip.tlr.mt.chain ∧ t.chip.tlr.mt.runEntry = s.chip.tlr.mt.stage ∧ t.chip.parts = s.chip.parts)
    ∧ (∀ op : BitVec 3, 5 ≤ op.toNat →
        ∃ t u, exec (.mtCmdReserved op) s = .next t ∧ t.chip.tlr.mt.running = some op.toNat ∧ exec .mtCmdDone t = .next u
          ∧ u.chip.tlr.mt.done = true ∧ u.chip.tlr.mt.status = .notSupported ∧ u.chip.parts = s.chip.parts))
    ∧ (s.chip.held = false → s.chip.tlr.mt.running = some 2 → s.chip.tlr.mt.applied = none →
    (s.chip.part s.chip.tlr.mt.runPart).present = true → (s.chip.part s.chip.tlr.mt.runPart).resetting = false →
    ∃ t, exec .mtCmdDone s = .next t ∧ t.chip.tlr.mt.done = true ∧ t.chip.tlr.mt.status = .ok ∧ t.chip.tlr.mt.running = none
      ∧ t.chip.parts = (s.chip.clearEntry s.chip.tlr.mt.runPart s.chip.tlr.mt.runIndex).parts)

/-- DBG_STITCH_GO frees every run held at a break and the reserved operations of DBG_ENG_CMD report. Of a swatch that answers, DBG_PS_ABORT reports ST_OK where a break holds it and ST_ENGINE_BUSY elsewhere; DBG_ENG_SWAP_NOW of an idle engine makes its shadow store active; DBG_ENG_ABORT reports; DBG_PAD_READ and DBG_PAD_WRITE of an open Pad move the row through the debug data register. A debug access to a swatch in Plate Off starts its wake and stays in flight. -/
def Obligations.DebugCommandsComplete : Prop :=
  ∀ (s : State), s.chip.admitsHost .pf0 = true → s.chip.expertOn = true →
    (exec .dbgStitchGo s = .next (s.put { s.chip with runs := s.chip.runs.map fun (r : Run) => if r.broken then { r with broken := false } else r }))
    ∧ (∀ (swatch : BitVec 6) (engine : BitVec 2), s.chip.swatchAnswers swatch.toNat = true → ∃ t, exec (.dbgPsAbort swatch engine) s = .next t
        ∧ t.chip.dbg.psResult.done = true ∧ t.chip.dbg.psSwatch = swatch.toNat
        ∧ t.chip.dbg.psResult.status = (if (s.chip.swatch swatch.toNat).owner.any fun p => s.chip.heldAtBreak p then .ok else .engineBusy))
    ∧ (∀ (swatch : BitVec 6) (v : Chip), s.chip.swatchAnswers swatch.toNat = true → s.chip.engineBusy swatch.toNat .burin = false →
        v = Chip.sendControl { s.chip with dbg := s.chip.dbg.selectEng swatch .burin 1 } (8 * swatch.toNat) 0 →
        exec (.dbgEngSwapNow swatch .burin) s
          = .next (s.put ((v.updSwatch swatch.toNat fun w => { w with twiddle := w.twShadow }).engResult swatch.toNat .burin 1 .ok)))
    ∧ (∀ (swatch : BitVec 6) e, s.chip.swatchAnswers swatch.toNat = true →
        ∃ u : Chip, exec (.dbgEngAbort swatch e) s = .next (s.put (u.engResult swatch.toNat e 2 .ok)))
    ∧ (∀ (swatch : BitVec 6) e op11,
        exec (.dbgEngCmdReserved swatch e op11) s
          = .next (s.put (s.chip.engResult swatch.toNat e (if op11 then 3 else 0) .notSupported)))
    ∧ (∀ (cell : BitVec 15) (row : BitVec 12), s.chip.swatchAnswers (swatchOf cell.toNat) = true → s.chip.padOpen cell.toNat = true →
        (s.chip.cell cell.toNat).pad.lands = [] →
        ((s.chip.cell cell.toNat).pad.ue.any fun k => k / 4 == row.toNat) = false →
        ∃ t, exec (.dbgPadRead cell row) s = .next t ∧ t.chip.dbg.padData = mget 0 row.toNat (s.chip.cell cell.toNat).pad.rows
          ∧ t.chip.dbg.padPoison = (s.chip.cell cell.toNat).pad.poison.contains row.toNat ∧ t.chip.dbg.padValid = true)
    ∧ (∀ (cell : BitVec 15) (row : BitVec 12) (now : Nat), s.chip.swatchAnswers (swatchOf cell.toNat) = true →
        s.chip.padOpen cell.toNat = true → now = s.chip.countNow (swatchOf cell.toNat) →
        ∃ t, exec (.dbgPadWrite cell row) s = .next t ∧ t.chip.dbg.padValid = true
          ∧ (t.chip.cell cell.toNat).pad = ((s.chip.cell cell.toNat).pad.settle now).apply
              ({ due := now, order := 0, seq := 0, row := row.toNat, mask := BitVec.allOnes 8, data := s.chip.dbg.padData,
                 poison := s.chip.dbg.padPoison } : PadLand)
          ∧ ∀ n, n ≠ cell.toNat → t.chip.cell n = s.chip.cell n)
    ∧ (∀ (swatch : BitVec 6) (engine : BitVec 2), (s.chip.plate (plateOf swatch.toNat)).reset = false → (s.chip.swatch swatch.toNat).power = 4 →
        ∃ t, exec (.dbgPsAbort swatch engine) s = .next t ∧ (t.chip.swatch swatch.toNat).waking = true ∧ t.chip.cells = s.chip.cells
          ∧ t.chip.tlr.accesses = s.chip.tlr.accesses ++ [⟨.pf0, swatch.toNat, s.chip.aTick, false⟩])

/-- HBM_INJECT of a plate with its clock arms an injection; the test controls start an idle port's or link's test; PWR_RESET_CTRL starts a plate or Collar warm reset; DBG_EV_INJECT counts an assigned event; PWR_FORCE forces a swatch; LDG_USER changes an item; DBG_CAP_OVERRIDE changes a capacity and rebalances. -/
def Obligations.ControlRegisterCommandsComplete : Prop :=
  ∀ (s : State), s.chip.admitsHost .pf0 = true → s.chip.expertOn = true →
    (∀ (stack : BitVec 3) (atom : BitVec 30) (kind : BitVec 2), (s.chip.plate stack.toNat).reset = false →
      (s.chip.plate stack.toNat).fLock = true → ∃ t, exec (.hbmInjectGo stack atom kind) s = .next t
      ∧ (t.chip.stack stack.toNat).injAtom = atom.toNat ∧ (t.chip.stack stack.toNat).injKind = kind.toNat
      ∧ (t.chip.stack stack.toNat).injArmed = (kind == 1 || kind == 2 || (s.chip.stack stack.toNat).injArmed)
      ∧ (t.chip.stack stack.toNat).queue = (s.chip.stack stack.toNat).queue ∧ t.chip.mem = s.chip.mem)
    ∧ (∀ (plate : BitVec 3) (port : BitVec 2) (phases : BitVec 4) (d : BitVec 5), seamConnected (portKey plate.toNat port.toNat) = true →
        (s.chip.plate plate.toNat).reset = false → (s.chip.plate plate.toNat).fLock = true →
        phases ≠ 0 → s.chip.testBusy (portKey plate.toNat port.toNat) = false →
        exec (.seamTestCtrlGo plate port phases d) s
          = .next (s.put (s.chip.startTest (portKey plate.toNat port.toNat) phases.toNat d.toNat none 0)))
    ∧ (∀ (link phases : BitVec 4) (d : BitVec 5), 2 ≤ phases.toNat → s.chip.linkHeld link.toNat = false →
        (s.chip.link link.toNat).state ≠ 11 →
        exec (.slvTestCtrlGo link phases d) s
          = .next (s.put (s.chip.startLinkTest link.toNat (phases.toNat / 2 * 2) d.toNat none 0)))
    ∧ (∀ plate : BitVec 3, (s.chip.plate plate.toNat).reset = false →
        exec (.pwrResetPlate plate) s = .next (s.put
          (Chip.beginPlateReset { s.chip with power := { s.chip.power with resetLevel := 1, resetPlate := plate.toNat } }
            plate.toNat none 0 false)))
    ∧ (exec .pwrResetCollarWarm s = .next (s.put (collarWarmReset 2 { s.chip with power := { s.chip.power with resetLevel := 2 } })))
    ∧ (∀ ev : BitVec 7, eventAssigned .pf0 ev.toNat = true →
        ∃ t, exec (.dbgEvInject ev 0) s = .next t ∧ t.chip.tlr.events = s.chip.tlr.events.bump ev.toNat 1
          ∧ t.chip.dbg.evIndex = ev.toNat ∧ t.chip.dbg.evFunction = 0 ∧ t.chip.parts = s.chip.parts)
    ∧ (∀ swatch : BitVec 6, ∃ t, exec (.pwrForceRun swatch) s = .next t ∧ (t.chip.swatch swatch.toNat).forced = 1
        ∧ (t.chip.swatch swatch.toNat).waking = ((s.chip.swatch swatch.toNat).waking || (s.chip.swatch swatch.toNat).power != 0)
        ∧ t.chip.power.forceSwatch = swatch.toNat ∧ t.chip.power.forceMode = 1 ∧ ∀ n, n ≠ swatch.toNat → t.chip.swatch n = s.chip.swatch n)
    ∧ (∀ swatch : BitVec 6, 1 < (s.chip.swatch swatch.toNat).power →
        ∃ t, exec (.pwrForceDoze swatch) s = .next t ∧ (t.chip.swatch swatch.toNat).forced = 2
          ∧ (t.chip.swatch swatch.toNat).waking = true ∧ t.chip.power.forceMode = 2)
    ∧ (∀ (item : BitVec 4) (index : BitVec 16) (value : Int), s.chip.ledgerOpen = true → item ≠ 13 →
        s.chip.ledgerBad (item.toNat, index.toNat, value) = none →
        exec (.ldgUserWrite item index value) s = .next (s.put (s.chip.ledgerPut (item.toNat, index.toNat, value))))
    ∧ (∀ (resource cap : BitVec 6) (enable : Bool), ∃ (rs : List Nat) (u : Chip), exec (.dbgCapOverrideWrite resource cap enable) s
          = .next (s.put (Chip.capacityChange u rs true))
        ∧ u.dbg.capRes = resource.toNat ∧ u.dbg.capCap = cap.toNat ∧ u.dbg.capEnable = enable ∧ u.parts = s.chip.parts)

/-- A mailbox tail write of a master with a base announces its new entries or flags an overrun; SLV_PKG is written unless locked; EV_ACK stores the acknowledged count and arms the vector; VEC_REARM arms the named vectors; EV_ROUTE sets four routes; a register without behaviour of its own is written under its access code. -/
def Obligations.HostRegisterCommandsComplete : Prop :=
  ∀ (s : State),
    (∀ (fn : Fn) (tail : BitVec 4), s.chip.admitsHost fn = true → (s.chip.mbx fn).base ≠ 0 → s.chip.masterOf fn = true →
      ∃ t, exec (.mailboxTailWrite fn tail) s = .next t
        ∧ (t.chip.mbx fn).responses = (s.chip.mbx fn).responses
        ∧ (if 15 < (s.chip.mbx fn).pending + (tail.toNat + 16 - (s.chip.mbx fn).tail % 16) % 16
          then (t.chip.mbx fn).overrun = true ∧ (t.chip.mbx fn).pending = (s.chip.mbx fn).pending
          else (t.chip.mbx fn).tail = tail.toNat
            ∧ (t.chip.mbx fn).pending = (s.chip.mbx fn).pending + (tail.toNat + 16 - (s.chip.mbx fn).tail % 16) % 16))
    ∧ (∀ (id : BitVec 12) (lock : Bool), s.chip.admitsHost .pf0 = true →
        ∃ t, exec (.slvPkgWrite id lock) s = .next t
          ∧ (s.chip.fabric.lock = true → t.chip.fabric = s.chip.fabric ∧ t.chip.tlr.lockedWrites = s.chip.tlr.lockedWrites + 1)
          ∧ (s.chip.fabric.lock = false → t.chip.fabric.id = id.toNat ∧ t.chip.fabric.lock = lock
            ∧ t.chip.fabric.active = s.chip.fabric.active ∧ t.chip.tlr = s.chip.tlr))
    ∧ (∀ (ev : BitVec 7) (value : W32), s.chip.admitsHost .pf0 = true → eventAssigned .pf0 ev.toNat = true →
        ∃ t, exec (.evAckWrite .pf0 ev value) s = .next t
          ∧ mget 0 ev.toNat t.chip.tlr.events.ack = ackValue (mget 0 ev.toNat s.chip.tlr.events.count) value
          ∧ t.chip.tlr.events.disarmed = sremove (s.chip.tlr.events.vector ev.toNat) s.chip.tlr.events.disarmed
          ∧ t.chip.tlr.events.count = s.chip.tlr.events.count)
    ∧ (∀ (mask : W64), s.chip.admitsHost .pf0 = true →
        ∃ t, exec (.vecRearmWrite .pf0 mask) s = .next t ∧ t.chip.tlr.events.count = s.chip.tlr.events.count
          ∧ ∀ v, v ∈ t.chip.tlr.events.disarmed ↔ v ∈ s.chip.tlr.events.disarmed ∧ ¬(v < 64 ∧ bit mask.toNat v = true))
    ∧ (∀ (index : BitVec 5) (data : W32), s.chip.admitsHost .pf0 = true → index.toNat ≤ 4 →
        ∃ t, exec (.evRouteWrite .pf0 index data) s = .next t
          ∧ (∀ k, k < 4 → mget (0, false) (4 * index.toNat + k) t.chip.tlr.events.route
              = (bits data.toNat (8 * k) 8 % 64, bit (bits data.toNat (8 * k) 8) 7))
          ∧ (∀ e, e / 4 ≠ index.toNat → mget (0, false) e t.chip.tlr.events.route = mget (0, false) e s.chip.tlr.events.route))
    ∧ (∀ w, s.chip.admitsHost .pf0 = true → exec (.registerWrite .pf0 w) s = .next (s.put (s.chip.regWrite .pf0 w)))

/-- By Table 0.4 a write-one-to-clear record keeps everything but VALID and loses VALID only for a 1; a read-write field takes the written bits; an Expert field written while Expert control is off is ignored and counted in GLB_LOCKED_WRITES, and a field of a plate in reset is not written and recorded in TLR_XING; a VF writes only registers of its own partition. -/
def Obligations.RegisterAccessCodes : Prop :=
  ∀ (s : State), s.chip.admitsHost .pf0 = true →
    (∀ (p : BitVec 6) (d : W32), ∃ t, exec (.registerWrite .pf0 (.ptnPlanFault p d)) s = .next t
      ∧ (t.chip.part p.toNat).regs.fault = { (s.chip.part p.toNat).regs.fault with
          valid := (s.chip.part p.toNat).regs.fault.valid && !d.getLsbD 31 }
      ∧ (t.chip.part p.toNat).regs.faultCycle = (s.chip.part p.toNat).regs.faultCycle
      ∧ ∀ n, n ≠ p.toNat → t.chip.part n = s.chip.part n)
    ∧ (∀ (h : BitVec 3) (d : W32), ∃ t, exec (.registerWrite .pf0 (.hbmCeThresh h d)) s = .next t
        ∧ (s.chip.expertOn = true → (s.chip.plate h.toNat).reset = false → (s.chip.plate h.toNat).fLock = true →
            (t.chip.stack h.toNat).threshCount = bits d.toNat 0 8 ∧ (t.chip.stack h.toNat).threshWindow = bits d.toNat 8 8
            ∧ (t.chip.stack h.toNat).ce = (s.chip.stack h.toNat).ce ∧ t.chip.tlr.lockedWrites = s.chip.tlr.lockedWrites)
        ∧ (s.chip.expertOn = true → (s.chip.plate h.toNat).reset = true → t.chip.hbm = s.chip.hbm
            ∧ t.chip.tlr.xing = { status := Status.resetInProgress.code, count := (s.chip.tlr.xing.count + 1) % 2 ^ 15, valid := true })
        ∧ (s.chip.expertOn = false → t.chip.hbm = s.chip.hbm ∧ t.chip.tlr.lockedWrites = s.chip.tlr.lockedWrites + 1))
    ∧ (∀ (p : BitVec 6) (d : W32) n, s.chip.admitsHost (.vf n) = true → n ≠ p.toNat →
        exec (.registerWrite (.vf n) (.ptnHazard p d)) s = .next s)

/-- An asserted, armed vector of an enabled, bus-mastering function sends its message and is disarmed, or, masked, sets its pending bit and stays armed; clearing a vector's mask sends the message that is pending behind it. -/
def Obligations.InterruptCommandsComplete : Prop :=
  ∀ (s : State) (fn : Fn) (v : BitVec 6),
    (s.chip.held = false → v.toNat < vectorsOf fn → (s.chip.eventsOf fn).asserted v.toNat = true →
      v.toNat ∉ (s.chip.eventsOf fn).disarmed → (s.chip.msixOf fn).enabled = true → s.chip.masterOf fn = true →
      (∀ n, fn = .vf n → (s.chip.part n).present = true) →
      ∃ t, exec (.msixSend fn v) s = .next t
        ∧ if (s.chip.msixOf fn).fnMask = true ∨ v.toNat ∈ (s.chip.msixOf fn).masked then
            v.toNat ∈ (t.chip.msixOf fn).pba ∧ (t.chip.msixOf fn).sent = (s.chip.msixOf fn).sent
              ∧ v.toNat ∉ (t.chip.eventsOf fn).disarmed
          else
            mget 0 v.toNat (t.chip.msixOf fn).sent = mget 0 v.toNat (s.chip.msixOf fn).sent + 1
              ∧ v.toNat ∉ (t.chip.msixOf fn).pba ∧ v.toNat ∈ (t.chip.eventsOf fn).disarmed)
    ∧ (s.chip.admitsHost fn = true →
      ∃ t, exec (.msixUnmask fn v) s = .next t ∧ v.toNat ∉ (t.chip.msixOf fn).masked
        ∧ if v.toNat ∈ (s.chip.msixOf fn).pba ∧ (s.chip.msixOf fn).enabled = true ∧ (s.chip.msixOf fn).fnMask = false
              ∧ s.chip.masterOf fn = true then
            mget 0 v.toNat (t.chip.msixOf fn).sent = mget 0 v.toNat (s.chip.msixOf fn).sent + 1 ∧ v.toNat ∉ (t.chip.msixOf fn).pba
          else (t.chip.msixOf fn).sent = (s.chip.msixOf fn).sent ∧ (t.chip.msixOf fn).pba = (s.chip.msixOf fn).pba)

/-- An owner's tail write moves the tail or, past the space left, flags an overrun; its head write releases completions it has read; a failed DMA halts the ring at its head. -/
def Obligations.DoorbellCommandsComplete : Prop :=
  ∀ (s : State) (fn : Fn) (p : BitVec 6) (n : BitVec 3),
    (∀ (tail : BitVec 12) (r : Ring), s.chip.admitsHost fn = true → fn.owns p.toNat = true → s.chip.ring p.toNat n.toNat = r →
      r.enabled = true → r.ownedBy fn = true → 0 < r.sqSize →
      ∃ t, exec (.sqDoorbell fn p n tail) s = .next t
        ∧ t.chip.ring p.toNat n.toNat
          = (if r.sqSize - 1 < (r.sqTail + r.sqSize - r.sqHead) % r.sqSize + (tail.toNat % r.sqSize + r.sqSize - r.sqTail) % r.sqSize
            then { r with overrun := true }
            else { r with sqTail := tail.toNat % r.sqSize, marks := r.marks ++ [(tail.toNat % r.sqSize, s.chip.time / 165)] })
        ∧ (∀ k, k ≠ n.toNat → t.chip.ring p.toNat k = s.chip.ring p.toNat k) ∧ (∀ q, q ≠ p.toNat → t.chip.part q = s.chip.part q)
        ∧ t.chip.mem = s.chip.mem ∧ t.chip.requests = s.chip.requests)
    ∧ (∀ (head : BitVec 12) (r : Ring), s.chip.admitsHost fn = true → fn.owns p.toNat = true → s.chip.ring p.toNat n.toNat = r →
      r.enabled = true → r.ownedBy fn = true → 0 < r.cqSize → (head.toNat % r.cqSize + r.cqSize - r.cqHead) % r.cqSize ≤ r.written.length →
      ∃ t, exec (.cqDoorbell fn p n head) s = .next t
        ∧ t.chip.ring p.toNat n.toNat = { r with
            cqHead := head.toNat % r.cqSize
            written := r.written.drop ((head.toNat % r.cqSize + r.cqSize - r.cqHead) % r.cqSize) }
        ∧ (∀ q, q ≠ p.toNat → t.chip.part q = s.chip.part q) ∧ t.chip.mem = s.chip.mem)
    ∧ (∀ (write : Bool) (r : Ring), s.chip.presents = true → s.chip.ring p.toNat n.toNat = r → r.enabled = true →
      s.chip.ringOpen p.toNat r = true → (write = false → r.sqHead ≠ r.sqTail) →
      ∃ t, exec (.ringDmaError p n write) s = .next t ∧ (t.chip.ring p.toNat n.toNat).err = true
        ∧ (t.chip.ring p.toNat n.toNat).errIndex = (if r.err then r.errIndex else r.sqHead)
        ∧ (t.chip.ring p.toNat n.toNat).written = (if write then r.written.dropLast else r.written)
        ∧ (t.chip.ring p.toNat n.toNat).sqHead = r.sqHead)

/-- SQ_NOP writes its completion; SQ_RXBUF posts its buffer where no frame is held; SQ_FRAME_TX completes and its frame is received; SQ_START whose admission succeeds is bound as a request, with the C-cycle in which its tail write reached the Collar. Each takes one entry of the ring. While the partition is in reset an entry completes with ST_RESET_IN_PROGRESS instead. -/
def Obligations.RingEntriesComplete : Prop :=
  ∀ (s : State) (p : BitVec 6) (n : BitVec 3) (tag len : W32), s.chip.presents = true → s.chip.mayTake p.toNat n.toNat = true →
    ((s.chip.part p.toNat).resetting = true → ∀ x, x ∈ [Instr.sqNop p n true tag, Instr.sqRxbuf p n true tag len] →
      exec x s = .next (s.put ((s.chip.took p.toNat n.toNat).complete p.toNat n.toNat
        { status := .resetInProgress, kind := 1, tag := tag.toNat, requestId := (s.chip.ring p.toNat n.toNat).requestId n.toNat })))
    ∧ ((s.chip.part p.toNat).resetting = false →
    (∃ t, exec (.sqNop p n true tag) s = .next t
      ∧ (t.chip.ring p.toNat n.toNat).sqHead = ((s.chip.ring p.toNat n.toNat).sqHead + 1) % max 1 (s.chip.ring p.toNat n.toNat).sqSize
      ∧ ∃ c : Completion, (t.chip.ring p.toNat n.toNat).written = (s.chip.ring p.toNat n.toNat).written ++ [c]
        ∧ c.status = .ok ∧ c.kind = 4 ∧ c.tag = tag.toNat ∧ c.phase = (s.chip.ring p.toNat n.toNat).phase)
    ∧ ((s.chip.ring p.toNat n.toNat).krp = true → 8264 ≤ len.toNat → (s.chip.ring p.toNat n.toNat).rxHeld = [] →
      ∃ t, exec (.sqRxbuf p n true tag len) s = .next t
        ∧ (t.chip.ring p.toNat n.toNat).rx = (s.chip.ring p.toNat n.toNat).rx ++ [tag.toNat]
        ∧ (t.chip.ring p.toNat n.toNat).written = (s.chip.ring p.toNat n.toNat).written)
    ∧ (∀ (f : KrpFrame) (m : KrpMsg), (s.chip.ring p.toNat n.toNat).krp = true → 24 ≤ len.toNat → len.toNat ≤ 8264 →
      exec (.sqFrameTx p n true tag len f m) s = .next (s.put (krpReceive
          { f with carrier := .host p.toNat (s.chip.ring p.toNat n.toNat).ownerPf0 n.toNat } m
          ((s.chip.took p.toNat n.toNat).complete p.toNat n.toNat { status := .ok, kind := 3, tag := tag.toNat }))))
    ∧ (∀ (service : Bool) (target : BitVec 16) (k : Byte) (indirect : Bool) (handles : List W32) (u : Chip) (id : Nat),
      (s.chip.ring p.toNat n.toNat).krp = false → k.toNat ≤ (if indirect then 64 else 10) → target.toNat < (if service then 256 else 64) →
      (let goal := if service then Target.service target.toNat else Target.slot target.toNat
       let hs := (handles.take k.toNat).map (·.toNat)
       let v := s.chip.took p.toNat n.toNat
       v.admitRequest { hostAdmission p.toNat goal (.ring n.toNat tag.toNat (s.chip.ring p.toNat n.toNat).seq) (v.targetOwner p.toNat goal hs) hs
          with came := some (s.chip.ring p.toNat n.toNat).stamp } = (u, .ok id)) →
      exec (.sqStart p n true service target tag k indirect handles) s = .next (s.put u)))

/-- An admission succeeds only while the package serves, the partition is neither in reset nor suspended, and neither the package nor the partition holds its limit of open requests. -/
def Obligations.AdmissionNeedsAServingPartition : Prop :=
  ∀ (s u : Chip) (a : Admission) (id : Nat), s.admitRequest a = (u, .ok id) →
    s.serving = true ∧ (s.part a.part).resetting = false ∧ (s.part a.part).suspended = false ∧ s.requests.length < 16384
      ∧ s.openOf a.part < (s.part a.part).quotas.maxOpen

/-- A read returns the bytes of the region, poisoned where the region is; a write to HBM or control memory stores exactly its bytes; a 64-bit AtomicOp on an unpoisoned word of control memory stores its result and returns the old word. -/
def Obligations.WindowCommandsComplete : Prop :=
  ∀ (s : State) (fn : Fn) (ap : BitVec 10) (off : BitVec 22) (a : Nat), s.chip.admitsHost fn = true → s.chip.boot.gradeReported = true →
    (∀ n : Nat, off.toNat % 4096 + n ≤ 4096 → s.chip.winAddr fn ap.toNat off.toNat (max 1 n) .read = .ok a →
      ∃ u : Chip, u = s.chip.senseMem a n ∧ exec (.windowRead fn ap off n) s = .next (s.put
        (u.ends (if 0 < n ∧ u.regionPoisoned a n = true then endPoisoned else endData) (leNat (memReadN u.mem a n)))))
    ∧ (∀ data : List Byte, off.toNat % 4096 + data.length ≤ 4096 →
      s.chip.winAddr fn ap.toNat off.toNat (max 1 data.length) .write = .ok a → (a < 0x8000000000 ∨ controlBase ≤ a) →
      ∃ t, exec (.windowWrite fn ap off data) s = .next t ∧ t.chip.mem = memWriteN s.chip.mem a data ∧ t.chip.pci.lastKind = endData
        ∧ (∀ c, c < a ∨ a + data.length ≤ c → memRead t.chip.mem c = memRead s.chip.mem c))
    ∧ (∀ op : AtomicOp, s.chip.winAddr fn ap.toNat off.toNat 8 .atomic = .ok a → a % 8 = 0 → controlBase ≤ a →
      (s.chip.touchControl a 8).regionPoisoned a 8 = false →
      ∃ t, exec (.atomicOp fn ap off true op) s = .next t ∧ t.chip.pci.lastRead = leNat (memReadN s.chip.mem a 8)
        ∧ t.chip.mem = memWriteN s.chip.mem a (natLE 8 (op.result (BitVec.ofNat 64 (leNat (memReadN s.chip.mem a 8)))).toNat)
        ∧ (∀ c, c < a ∨ a + 8 ≤ c → memRead t.chip.mem c = memRead s.chip.mem c))

/-- A configuration request is retried or takes effect; Bus Master Enable is set; Hot Reset clears every function's configuration state; PF0's FLR stops its rings and disables the VFs; a VF's FLR begins its partition's reset; the link comes up. -/
def Obligations.PcieCommandsComplete : Prop :=
  ∀ (s : State), s.chip.held = false →
    (∀ (fn : Fn) op, s.chip.reach fn = true → s.chip.retriesConfig = true →
      exec (.pcieConfigRequest fn op) s = .next (s.put ({ s.chip with pci := { s.chip.pci with retries := s.chip.pci.retries + 1 } })))
    ∧ (∀ (fn : Fn) (on mask : Bool), s.chip.reach fn = true → s.chip.retriesConfig = false →
      ∃ t, exec (.pcieConfigRequest fn (.msixEnable on mask)) s = .next t ∧ (t.chip.msixOf fn).enabled = on
        ∧ (t.chip.msixOf fn).fnMask = mask ∧ (t.chip.msixOf fn).masked = (s.chip.msixOf fn).masked)
    ∧ (∀ count : BitVec 7, s.chip.pci.up = true → s.chip.retriesConfig = false → count.toNat ≤ 64 →
      ∃ t, exec (.pcieConfigRequest .pf0 (.vfEnable count)) s = .next t
        ∧ ∀ n, n < 64 → (t.chip.part n).vfEnabled = decide (n < count.toNat))
    ∧ (∀ (fn : Fn) (on : Bool), s.chip.reach fn = true → ∃ t, exec (.busMasterEnableChange fn on) s = .next t ∧ t.chip.masterOf fn = on)
    ∧ (∃ t, exec .pcieHotReset s = .next t ∧ t.chip.pci.up = false ∧ t.chip.pci.busMaster = false ∧ t.chip.tlr.msix.enabled = false
      ∧ t.chip.requests = s.chip.requests ∧ t.chip.mem = s.chip.mem ∧ t.chip.tlr.events = s.chip.tlr.events
      ∧ t.chip.pci.windows = s.chip.pci.windows
      ∧ ∀ n, (t.chip.part n).vfEnabled = false ∧ (t.chip.part n).busMaster = false ∧ (t.chip.part n).plans = (s.chip.part n).plans)
    ∧ (s.chip.pci.up = true → ∃ t, exec .pf0Flr s = .next t ∧ t.chip.pci.busMaster = false ∧ t.chip.tlr.msix.enabled = false
      ∧ t.chip.tlr.mbx.pending = 0 ∧ (∀ n, n < 64 → (t.chip.part n).vfEnabled = false)
      ∧ ∀ p n, (s.chip.ring p n).ownerPf0 = true → (t.chip.ring p n).flr = true)
    ∧ (∀ vf : BitVec 6, s.chip.reach (.vf vf.toNat) = true → (s.chip.part vf.toNat).present = true →
      (s.chip.part vf.toNat).resetting = false →
      ∃ t, exec (.vfFlr vf) s = .next t ∧ (t.chip.part vf.toNat).resetting = true ∧ (t.chip.part vf.toNat).resetSt.step = 2
        ∧ (t.chip.part vf.toNat).resetSt.cause = 1 ∧ (t.chip.part vf.toNat).resetSt.fn = none)
    ∧ (∀ (speed : BitVec 3) (width : BitVec 5) (flit : Bool), s.chip.boot.phase ≠ 1 →
      exec (.pcieLinkUp speed width flit) s = .next (s.put ({ s.chip with
        pci := { s.chip.pci with up := true, speed := speed.toNat, width := width.toNat, flit := flit } })))

/-- A piece of stage 1 is kept until all have come, and then a half session waits for the Seal with its keys drawn; a good stage 3 of it records the client whose signature the Seal checks; CLOSE and the session timers end their session. -/
def Obligations.SessionCommandsComplete : Prop :=
  ∀ (s : State) (f : KrpFrame),
    (∀ (piece count : Nat) (body : List Byte) (u : Chip) (whole : Option (List Byte)), s.chip.presents = true →
      s.chip.carrierUp f.carrier = true → s.chip.booted = true → f.reservedZero = true → f.session = 0 → pieceFits 0 piece count body = true →
      (s.chip.countFrame f).gather f.carrier 0 piece count body = (u, whole) →
      exec (.openStage1 f piece count body) s = .next (s.put (match whole with
        | some b => u.takeStage1 f.carrier b
        | none => u)))
    ∧ (∀ (x : KrpSession) (piece count : Nat) (body : List Byte) (u : Chip) (whole : Option (List Byte)), s.chip.presents = true →
      s.chip.takesFrame f false true x → x.stage3 = false → pieceFits x.id piece count body = true →
      (s.chip.frameIn f false x).gather f.carrier x.id piece count body = (u, whole) →
      exec (.openStage3 f piece count body) s = .next (s.put (match whole with
        | some b => u.takeStage3 x b
        | none => u)))
    ∧ (∀ x : KrpSession, s.chip.presents = true → s.chip.takesFrame f false false x →
      ∃ t, exec (.close f) s = .next t ∧ t.chip.session? f.session = none)
    ∧ (∀ (session : Nat) (x : KrpSession), s.chip.presents = true → s.chip.session? session = some x → x.half = true →
      ∃ t, exec (.halfOpenExpiry session) s = .next t ∧ t.chip.session? session = none)
    ∧ (∀ (session : Nat) (x : KrpSession), s.chip.presents = true → s.chip.session? session = some x → x.half = false →
      s.chip.openOn session = [] → ∃ t, exec (.sessionIdleTimeout session) s = .next t ∧ t.chip.session? session = none)
    ∧ (∀ (session : Nat) (x : KrpSession), s.chip.presents = true → s.chip.session? session = some x →
      (2 ^ 36 ≤ x.framesIn ∨ 2 ^ 36 ≤ x.framesOut) → ∃ t, exec (.krpSessionRekey session) s = .next t ∧ t.chip.session? session = none)
    ∧ (∀ (c : Carrier) (session : Nat), s.chip.presents = true →
      ∃ t, exec (.openPieceTimeout c session) s = .next t
        ∧ ∀ p ∈ t.chip.krp.pieces, ¬(p.carrier = c ∧ p.session = session))

/-- A stage 1 of 1 256 bytes with its fields right, sessions and Seal queue below their limits, the algorithms in order and a TRNG conditioner passing, adds one half session under the next session id, and a HIGH Seal job for its stage 2. -/
def Obligations.StageOneOpensAHalfSession : Prop :=
  ∀ (s : Chip) (c : Carrier) (body : List Byte), body.length = 1256 → leAt body 0 1 = 1 → 1 ≤ leAt body 2 1 → leAt body 2 1 ≤ 3 →
    zeroAt body 3 5 = true → 10 ≤ leAt body 1 1 → (∀ h ∈ s.krp.holdoff, h.1 = c → h.2 ≤ s.aTick) →
    (s.krp.sessions.filter fun x => !x.half).length < 8192 → (s.krp.sessions.filter fun x => x.half).length < 512 →
    s.trust.katFailed = [] → s.trust.identity = true → s.trust.drbg.ready = true → s.trust.trng ≠ 0 → s.trust.high.length < 256 →
    ∃ x, (s.takeStage1 c body).krp.sessions = s.krp.sessions ++ [x] ∧ x.id = s.krp.nextSession ∧ x.half = true ∧ x.stage2 = false
      ∧ x.carrier = c ∧ x.sigKind = leAt body 2 1 ∧ x.chunkLog2 = min (leAt body 1 1) 13
      ∧ (s.takeStage1 c body).krp.nextSession = s.krp.nextSession + 1 ∧ (s.takeStage1 c body).trust.nextJob = s.trust.nextJob + 1

/-- KEYS and HANDOFF_IN allocate a buffer and start a transfer; SUBMIT whose admission succeeds queues the request; a CHUNK lands its bytes; NACK MISSING lists chunks of a download to send again; NACK RESEND sends a held receipt. -/
def Obligations.TransferCommandsComplete : Prop :=
  ∀ (s : State) (f : KrpFrame) (x : KrpSession) (v : Chip), s.chip.presents = true →
    (∀ (id bytes h : Nat) (header : List Byte) (u : Chip), s.chip.takesFrame f false false x → v = s.chip.frameIn f false x →
      x.repeats 2 id (natLE 8 id ++ natLE 8 bytes ++ header) = none → bytes ≠ 0 → s.chip.serving = true →
      (s.chip.part x.part).resetting = false → v.allocBuf x.part 0 255 (cdiv bytes 576) false = .ok (h, u) →
      exec (.keys f id bytes header) s = .next (s.put ((u.announce x.id 2 id (natLE 8 id ++ natLE 8 bytes ++ header)).addTransfer x.id
        { id := id, kind := .key, bytes := bytes, header := header, handle := h })))
    ∧ (∀ (id service rid : Nat) (inputs : List (Nat × List Byte)) (u : Chip), s.chip.takesFrame f false false x →
      v = s.chip.frameIn f false x →
      x.repeats 3 id (natLE 8 id ++ natLE 1 service ++ inputs.flatMap fun i => natLE 8 i.1 ++ i.2) = none →
      (∀ r ∈ x.refusals, r.1 = id → r.2.1 ≤ s.chip.aTick) → inputs.length ≤ 16 → (∀ i ∈ inputs, i.1 ≠ 0) →
      (v.openOn x.id).length < x.maxOpen → v.admitRequest (krpAdmission x id service inputs) = (u, .ok rid) →
      ∃ t, exec (.submit f id service inputs) s = .next t ∧ t.chip.requests = u.requests ∧ t.chip.nextReq = u.nextReq)
    ∧ (∀ (id kind index seq : Nat) (data : List Byte) (k : TransferKind) (r : Transfer) (b : Buf), s.chip.takesFrame f true false x →
      v = s.chip.frameIn f true x → chunkKind kind index = some k → (x.transfers.find? fun r => r.id == id && r.kind == k) = some r →
      data ≠ [] → seq < x.chunks r.bytes → data.length = x.chunkSize r.bytes seq → seq < r.reported + x.window → seq ∉ r.got →
      s.chip.bufOf r.handle = some b → (r.landed s.chip.aTick (x.chunks r.bytes) seq).got.length ≠ x.chunks r.bytes →
      ∃ t, exec (.chunk f id kind index seq data) s = .next t
        ∧ t.chip.mem = memWriteN s.chip.mem (b.addr + seq * 2 ^ x.chunkLog2) data)
    ∧ (∀ (id round bytes h : Nat) (header : List Byte) (q : Request) (u : Chip), s.chip.takesFrame f false false x →
      v = s.chip.frameIn f false x → v.roundOf x.id id = some q → q.round = round → (∀ d, q.timer = some d → s.chip.aTick < d) →
      bytes ≠ 0 → (∀ r ∈ x.transfers, ¬(r.id = id ∧ r.kind = .handoff)) →
      v.allocBuf q.part 0 255 (cdiv bytes 576) false = .ok (h, u) →
      exec (.handoffIn f id round bytes header) s = .next (s.put (u.addTransfer x.id
        { id := id, kind := .handoff, bytes := bytes, header := header, handle := h })))
    ∧ (∀ (id stream index : Nat) (ranges : List (Nat × Nat)) (d : Download), s.chip.takesFrame f false false x →
      v = s.chip.frameIn f false x → (stream = 3 ∨ stream = 4) → ranges.length ≤ 64 →
      (x.downloads.find? fun d => d.requestId == id && d.index == index && d.handoff == (stream == 4)) = some d →
      exec (.nackMissingReceive f id stream index ranges) s = .next (s.put (v.updSession x.id fun y => { y with
        downloads := y.downloads.map fun z => if z.requestId == id && z.index == index && z.handoff == (stream == 4)
          then { z with again := z.again ++ listed ranges (d.chunks x) } else z })))
    ∧ (∀ (id : Nat) (e : Nat × Receipt), s.chip.takesFrame f false false x → v = s.chip.frameIn f false x →
      ((s.chip.part x.part).receipts.find? fun e => e.2.request == id && e.2.session == some x.id && e.2.ready) = some e →
      (∀ q ∈ s.chip.requests, q.id ≠ e.1) →
      exec (.nackResendReceive f id) s = .next (s.put (v.receiptOut x.part e.1 x.id id e.2.status)))

/-- The next chunk of a download leaves at the session's pace; a gap report is sent; a round's timer, a receipt's retention and a token gate's timeout expire when their time has come; housekeeping frames are answered or, a fragment, counted; a port's link changes. -/
def Obligations.KrpTimerCommandsComplete : Prop :=
  ∀ (s : State), s.chip.held = false →
    (∀ (session seq : Nat) (x y : KrpSession) (d : Download) (again : Bool) (v : Chip), s.chip.boot.mute = false →
      s.chip.session? session = some x → (x.downloads.findSome? fun d => (d.nextSeq x).map fun k => (d, k)) = some (d, seq, again) →
      d.handoff = false → ((d.sent again).nextSeq x).isSome = true →
      v = (if s.chip.time < x.sendAt then s.chip.advance (x.sendAt - s.chip.time) else s.chip) → v.session? session = some y →
      ∃ t z, exec (.resultChunkSend session) s = .next t ∧ t.chip.session? session = some z ∧ z.framesOut = y.framesOut + 1
        ∧ z.sent = y.sent ++ [{ type := 5, id := d.requestId, status := .ok, index := d.index, seq := seq }])
    ∧ (∀ (session id kind index : Nat) (x y : KrpSession) (k : TransferKind) (r : Transfer) (v : Chip), s.chip.boot.mute = false →
      s.chip.session? session = some x → chunkKind kind index = some k →
      (x.transfers.find? fun r => r.id == id && r.kind == k) = some r → r.nacks < 8 →
      v = s.chip.waitTick (r.due (s.chip.gapTicks x.carrier)) → v.session? session = some y →
      ∃ t z, exec (.krpGapTimer session id kind index) s = .next t ∧ t.chip.session? session = some z ∧ z.framesOut = y.framesOut + 1
        ∧ z.sent = y.sent ++ [⟨0x0A, id, .ok, 2, index, kind, 0, missingRanges r.got (x.chunks r.bytes)⟩])
    ∧ (∀ (request deadline : Nat) (q : Request), s.chip.boot.mute = false →
      (s.chip.requests.find? fun q => q.id == request && q.phase == .handoff) = some q → q.timer = some deadline →
      exec (.handoffTimeout request) s = .next (s.put ((s.chip.waitTick deadline).failRound request)))
    ∧ (∀ (port : BitVec 1), s.chip.boot.mute = false → s.chip.carrierUp (.net port.toNat 0 0) = true →
      (∀ kind : HouseFrame, kind ≠ .fragment → (mget {} port.toNat s.chip.krp.ports).configured = true →
        ∃ t, exec (.netHousekeepingFrame port kind) s = .next t
          ∧ (mget {} port.toNat t.chip.krp.ports).answers = (mget {} port.toNat s.chip.krp.ports).answers + 1
          ∧ t.chip.krp.sessions = s.chip.krp.sessions)
      ∧ ∃ t, exec (.netHousekeepingFrame port .fragment) s = .next t
          ∧ (mget {} port.toNat t.chip.krp.ports).frag = ((mget {} port.toNat s.chip.krp.ports).frag + 1) % 256)
    ∧ (∀ (p : BitVec 6) (id : Nat) (r : Receipt), mfind id (s.chip.part p.toNat).receipts = some r →
      exec (.receiptExpiry p id) s = .next (s.put ((s.chip.waitTick (r.doneAt + 2 ^ 26)).dropReceipt p.toNat id)))
    ∧ (∀ (p slot : BitVec 6) (g : Gate) (v : Chip),
      ((s.chip.part p.toNat).gates.find? fun g => g.slot == slot.toNat && !g.expired) = some g →
      v = s.chip.waitTick (g.armedAt + g.timeout) → (v.part p.toNat).gateOpen g = false →
      ∃ t, exec (.tokenGateTimeout p slot) s = .next t ∧ ∀ h ∈ (t.chip.part p.toNat).gates, h.slot = g.slot → h.token = g.token →
        h.expired = true)
    ∧ (∀ (port : BitVec 1) (up : Bool), ∃ t, exec (.ethernetLinkChange port up) s = .next t
      ∧ (mget {} port.toNat t.chip.krp.ports).link = up ∧ t.chip.krp.sessions = s.chip.krp.sessions ∧ t.chip.parts = s.chip.parts)

/-- A unit accepted at egress joins the link's packets; a waiting packet departs under the next SEQ, or again under its own; a WRITE or ADD that passes Table 12.6 joins the stack's queue with its row and awaits acknowledgement; ACK and NACK retire their packet; a packet error sends again from its SEQ; 2^32 packets rekey. -/
def Obligations.SelvagePacketCommandsComplete : Prop :=
  ∀ (s : State), s.chip.held = false →
    (∀ (run cn l full : Nat) (u : SpoolUnit) (v : Chip) (r : Run) (p : SlvPacket), earliest (s.chip.fabricUnits run) = some (cn, u) →
      s.chip.waitRun run u.due = some v → v.run? run = some r → v.packetOf r cn u = some (full, p) → mfind p.dest r.slvTo = some l →
      v.posted r.part l < v.egressShare r.part l →
      ((v.link l).packets.filter fun x => x.kind != .control).length < 512 →
      ∃ t, exec (.slvEgressAccept run) s = .next t ∧ (t.chip.link l).packets = (v.link l).packets ++ [p])
    ∧ (∀ (link : BitVec 4) (part : BitVec 6) (p : SlvPacket) (v : Chip) (y : SlvLink),
      (s.chip.link link.toNat).packets.find? (SlvPacket.waitsOf part.toNat) = some p → (s.chip.link link.toNat).up = true →
      (s.chip.part part.toNat).resetting = false → ((s.chip.link link.toNat).packets.filter (·.sent)).length < 512 →
      v = s.chip.waitSlot link.toNat (s.chip.packetSlot link.toNat part.toNat p) → y = v.link link.toNat →
      ∃ t, exec (.slvPacketSend link part) s = .next t ∧ t.chip.time = v.time
        ∧ (∀ i q, (y.packets.findIdx? (SlvPacket.waitsOf part.toNat)) = some i → y.packets[i]? = some q →
          (q.numbered = false → (t.chip.link link.toNat).seqTx = y.seqTx + 1 ∧ (t.chip.link link.toNat).replay = y.replay
            ∧ ∃ z, (t.chip.link link.toNat).packets = lset y.packets i z ∧ z.sent = true ∧ z.seq = y.seqTx ∧ z.data = q.data)
          ∧ (q.numbered = true → (t.chip.link link.toNat).seqTx = y.seqTx ∧ (t.chip.link link.toNat).replay = (y.replay + 1) % 2 ^ 24
            ∧ ∃ z, (t.chip.link link.toNat).packets = lset y.packets i z ∧ z.sent = true ∧ z.seq = q.seq ∧ z.data = q.data)))
    ∧ (∀ (h : PacketHead) (b : Buf) (g : BufGrant) (data : List Row) (poison : List Bool) (v : Chip),
      v = h.corrected.foldl (fun (t : Chip) lane => t.slvCorrection h.link.toNat lane.toNat) s.chip → h.dest.toNat = v.fabric.active →
      h.wellFormed = true → v.fabricGrant h.handle.toNat = some (b, g) → g.package = h.src.toNat → g.part = h.srcPart.toNat →
      h.bolt.toNat < b.bolts → v.regionRetired (b.addr + 576 * h.bolt.toNat) 576 = false → (v.part b.part).resetting = false →
      v.slvTaken h = false →
      (g.write = true → ∃ t r, exec (.slvWriteReceive h data poison) s = .next t
        ∧ (t.chip.stack (stackOf (b.addr + 576 * h.bolt.toNat))).queue
          = (v.stack (stackOf (b.addr + 576 * h.bolt.toNat))).queue ++ [r]
        ∧ r.op = .write ∧ r.addr = b.addr + 576 * h.bolt.toNat ∧ r.data = data ∧ r.part = b.part ∧ r.origin = some h.id
        ∧ t.chip.mem = v.mem)
      ∧ (∀ (q : W36) (m18 : Bool), g.add = true → ∃ t r, exec (.slvAddReceive h true q m18 data poison) s = .next t
        ∧ (t.chip.stack (stackOf (b.addr + 576 * h.bolt.toNat))).queue
          = (v.stack (stackOf (b.addr + 576 * h.bolt.toNat))).queue ++ [r]
        ∧ r.op = .add ∧ r.integer = true ∧ r.addr = b.addr + 576 * h.bolt.toNat ∧ r.data = data ∧ t.chip.mem = v.mem)
      ∧ (∀ (err : Bool) (status : BitVec 16), exec (.slvTokenReceive h err status) s = .next (s.put (Chip.settleArrivals
          (v.updLink h.link.toNat fun x => { x with
            arrivals := arrivalInsert ⟨h.seq, h.id, some (b.part, err, status.toNat, g.token.getD 0)⟩ x.arrivals
            accepted := (h.id :: x.accepted).take 512 })))))
    ∧ (∀ (h : PacketHead) (part : BitVec 6) (table block version : W32) (e : OwnerEntry) (b : Buf) (v : Chip),
      v = h.corrected.foldl (fun (t : Chip) lane => t.slvCorrection h.link.toNat lane.toNat) s.chip → h.dest.toNat = v.fabric.active →
      h.wellFormed = true → v.bufOf table.toNat = some b → b.part = part.toNat → b.kind = 2 → 32 * (block.toNat + 1) ≤ 576 * b.bolts →
      exec (.slvControlReceive h part table block version e) s
        = .next (s.put (v.ownerWrite part.toNat table.toNat block.toNat version.toNat e)))
    ∧ (∀ (link : BitVec 4) (seq : Nat) (p : SlvPacket), ((s.chip.link link.toNat).packets.find? fun p => p.numbered && p.seq == seq) = some p →
      (∃ t, exec (.slvAckReceive link seq) s = .next t ∧ (t.chip.link link.toNat).packets = (s.chip.link link.toNat).packets.erase p
        ∧ (t.chip.link link.toNat).acks = (s.chip.link link.toNat).acks + 1)
      ∧ (∀ (status id : Nat) (pkg : BitVec 12) (r : Run) (v : Chip), p.run = some id → v = s.chip.answered link.toNat p → v.run? id = some r →
        ∃ t, exec (.slvNackReceive link seq status pkg) s = .next t
          ∧ (t.chip.link link.toNat).packets = (s.chip.link link.toNat).packets.erase p
          ∧ (t.chip.part r.part).cnt.slvFault = (if (v.part r.part).cnt.slvFault.valid then (v.part r.part).cnt.slvFault
            else { valid := true, a := status, b := pkg.toNat })))
    ∧ (∀ (link : BitVec 4) (seq : Nat) (tag : Bool), (s.chip.link link.toNat).up = true →
      (tag = true → (s.chip.link link.toNat).tagFails = false) →
      ∃ t, exec (.slvPacketError link seq tag) s = .next t
        ∧ (t.chip.link link.toNat).packets = (s.chip.link link.toNat).packets.map (fun p =>
          if p.sent && decide (seq ≤ p.seq) then { p with sent := false } else p)
        ∧ (t.chip.link link.toNat).seqTx = (s.chip.link link.toNat).seqTx
        ∧ (¬((s.chip.link link.toNat).failSeq = some seq ∧ 7 ≤ (s.chip.link link.toNat).failsInRow) →
          (t.chip.link link.toNat).state = (s.chip.link link.toNat).state)
        ∧ ((s.chip.link link.toNat).failSeq = some seq ∧ 7 ≤ (s.chip.link link.toNat).failsInRow → (t.chip.link link.toNat).state = 9))
    ∧ (∀ link : BitVec 4, (s.chip.link link.toNat).up = true → 2 ^ 32 ≤ (s.chip.link link.toNat).seqTx →
      exec (.slvRekey link) s = .next (s.put (s.chip.updLink link.toNat fun x => { x with epoch := x.epoch + 1, seqTx := 0 })))

/-- Training states complete in their order and are tried once more at their limit; a failed lane within the spare begins a repair, a repaired or retrained port carries traffic again; a finished Selvage test trains the link. -/
def Obligations.LinkTrainingCommandsComplete : Prop :=
  ∀ (s : State), s.chip.held = false →
    (∀ (link : BitVec 4) (tx rx : List (BitVec 4)) (peer : Option PeerInfo),
      ((s.chip.link link.toNat).state = 1 → ∃ t, exec (.slvTrainStateDone link tx rx peer) s = .next t
        ∧ (t.chip.link link.toNat).state = 2 ∧ t.chip.fabric.active = s.chip.fabric.id)
      ∧ ((s.chip.link link.toNat).state = 2 → ∃ t, exec (.slvTrainStateDone link tx rx peer) s = .next t
        ∧ (t.chip.link link.toNat).state = 3)
      ∧ (∀ p : PeerInfo, (s.chip.link link.toNat).state = 5 → s.chip.trust.identity = true → s.chip.peerOk link.toNat p = true →
        exec (.slvTrainStateDone link tx rx (some p)) s = .next (s.put (Chip.linkUp
          (s.chip.updLink link.toNat fun y => { y with peerPkg := p.pkg.toNat, peerKey := p.key, auth := true, lat := p.latency.toNat })
          link.toNat))))
    ∧ (∀ link : BitVec 4, slvLimit (s.chip.link link.toNat).state ≠ 0 → (s.chip.link link.toNat).retried = false →
      ∃ t, exec (.slvTrainTimeout link) s = .next t ∧ (t.chip.link link.toNat).retried = true
        ∧ (t.chip.link link.toNat).stateAt = t.chip.aTick
        ∧ (s.chip.link link.toNat).stateAt + slvLimit (s.chip.link link.toNat).state ≤ t.chip.aTick)
    ∧ (∀ link lane : BitVec 4, (s.chip.link link.toNat).state = 6 → (s.chip.link link.toNat).mode = 0 → lane.toNat < 9 →
      (s.chip.link link.toNat).bad false = [] → ((s.chip.link link.toNat).bad true).length ≤ 1 →
      ∃ t, exec (.slvLaneFail link [lane] []) s = .next t ∧ (t.chip.link link.toNat).state = 8
        ∧ (t.chip.link link.toNat).mode = 0 ∧ lane.toNat ∈ (t.chip.link link.toNat).tx)
    ∧ (∀ (link : BitVec 4) (failed : List LaneResult) (margins : List Nat), (s.chip.link link.toNat).state = 11 →
      (s.chip.link link.toNat).testDone = false →
      ∃ t, exec (.slvTestDone link failed margins) s = .next t ∧ (t.chip.link link.toNat).testDone = true
        ∧ (t.chip.link link.toNat).testStatus = .ok ∧ (t.chip.link link.toNat).state = 1)
    ∧ (∀ (plate : BitVec 3) (port : BitVec 2) (key : Nat), key = portKey plate.toNat port.toNat → seamConnected key = true →
      (∀ (tx rx : List (BitVec 7)) (k : Nat), k ∈ [1, 2, 3, 5] → (s.chip.seam key).state = k →
        ∃ t, exec (.seamTrainStateDone plate port tx rx) s = .next t ∧ (t.chip.seam key).state = k + 1 ∧ (t.chip.seam key).stateAt = s.chip.aTick)
      ∧ ((s.chip.seam key).state = 6 → exec (.seamTrainStateDone plate port [] []) s = .next (s.put (s.chip.portUp key)))
      ∧ (1 ≤ (s.chip.seam key).state → (s.chip.seam key).state ≤ 6 → (s.chip.seam key).retried = false →
        ∃ t, exec (.seamTrainTimeout plate port) s = .next t ∧ (t.chip.seam key).retried = true
          ∧ (s.chip.seam key).stateAt + trainLimit (s.chip.seam key).state ≤ t.chip.aTick)
      ∧ (∀ lane : BitVec 7, (s.chip.seam key).state = 7 → (s.chip.seam key).mode = 0 → lane.toNat < 68 →
        lane.toNat ∉ (s.chip.seam key).tx.failed → lane.toNat ∉ (s.chip.seam key).retiredTx →
        (s.chip.setPort key (SeamPort.fail [lane.toNat] [])).portSettle key = none →
        ∃ t, exec (.seamLaneFail plate port [lane] []) s = .next t ∧ (t.chip.seam key).state = 9
          ∧ (t.chip.seam key).repairs = ((s.chip.seam key).repairs + 1) % 65536)
      ∧ (∀ v : Chip, (s.chip.seam key).state = 9 → v = (s.chip.waitTick ((s.chip.seam key).stateAt + 64)).releasePort key →
        v.portSettle key = none →
        ∃ t, exec (.seamRepairDone plate port) s = .next t
          ∧ (t.chip.seam key).state = (if (v.seam key).mode = 1 then 8 else 7))
      ∧ (∀ v : Chip, (s.chip.seam key).state = 10 →
        v = (s.chip.waitTick ((s.chip.seam key).stateAt + 1000)).setPort key (SeamPort.pickHalves (s.chip.seam key).entering) →
        clocksGone (v.seam key).tx (v.seam key).retiredTx = false → clocksGone (v.seam key).rx (v.seam key).retiredRx = false →
        (v.seam key).halvesOk = true →
        ∃ t, exec (.seamRetrainDone plate port) s = .next t ∧ (t.chip.seam key).state = 8))

/-- The port decodes its public instructions in every state and a gated one only where Table 11.4 opens it; sensors are read; an endpoint id is set; a firmware update is kept only when its signatures verify and its security version is not below the one held. -/
def Obligations.TestPortAndManagementCommandsComplete : Prop :=
  ∀ (s : State),
    (∃ t, exec .tapBypass s = .next t ∧ t.chip.mgmt.tapInstr = 0 ∧ t.chip.mgmt.tapOut = 0)
    ∧ (∃ t, exec .tapIdcode s = .next t ∧ t.chip.mgmt.tapInstr = 1 ∧ t.chip.mgmt.tapOut = idcode)
    ∧ (∃ t, exec .tapSamplePreload s = .next t ∧ t.chip.mgmt.tapInstr = 2)
    ∧ (∃ t, exec .tapExtest s = .next t ∧ (t.chip.mgmt.tapInstr = 3 ↔ s.chip.life = .manufacturing ∨ s.chip.life = .returned
        ∨ s.chip.grade = .mgmt ∧ s.chip.expertOn = true))
    ∧ (∃ t, exec .tapDieAccess s = .next t ∧ (t.chip.mgmt.tapInstr = 4 ↔ s.chip.life = .manufacturing ∨ s.chip.life = .returned))
    ∧ (∀ (plate : BitVec 3) (port : BitVec 2) (phases : BitVec 4) (d : BitVec 5), s.chip.held = false → s.chip.tapOpen = true →
        seamConnected (portKey plate.toNat port.toNat) = true → phases ≠ 0 → s.chip.testBusy (portKey plate.toNat port.toNat) = false →
        exec (.tapSeamInterconnectTest plate port phases d) s
          = .next (s.put ((s.chip.tap true 5 0).startTest (portKey plate.toNat port.toNat) phases.toNat d.toNat none 0)))
    ∧ (s.chip.presents = true →
      (∀ sensor : Sensor, exec (.pldmSensorRead sensor) s
          = .next (s.put ({ s.chip with mgmt := { s.chip.mgmt with reading := some (s.chip.sense sensor) } })))
      ∧ (∀ eid : Byte, exec (.mctpSetEndpointId eid) s
          = .next (s.put ({ s.chip with mgmt := { s.chip.mgmt with eid := eid.toNat } })))
      ∧ (∀ (k : BitVec 3) (ok : Bool) (svn : BitVec 6), ∃ t, exec (.pldmFirmwareUpdate k ok svn) s = .next t
          ∧ t.chip.mgmt.update = (if 2 ≤ k.toNat ∧ k.toNat ≤ 6 ∧ ok = true ∧ mget 0 k.toNat s.chip.trust.svn ≤ svn.toNat
            then mput k.toNat svn.toNat s.chip.mgmt.update else s.chip.mgmt.update)
          ∧ t.chip.trust = s.chip.trust))

/-- Versions 1.2 and 1.3 are offered, capabilities and algorithms are settled in their order; digests, certificates and unsigned measurements are returned; a certificate slot from 1 is written in Provisioned; any other request draws UnsupportedRequest. With the negotiation done, an identity and room in the Seal's queue (and, for KEY_EXCHANGE, a DRBG that serves a request), CHALLENGE, signed measurements and KEY_EXCHANGE submit a HIGH job; FINISH establishes the session, in which HEARTBEAT, KEY_UPDATE and END_SESSION are answered. -/
def Obligations.SpdmCommandsComplete : Prop :=
  ∀ (s : State), s.chip.presents = true → s.chip.booted = true →
    ((∃ t, exec .spdmGetVersion s = .next t ∧ t.chip.trust.spdm.version = 1 ∧ t.chip.trust.spdm.capable = false
      ∧ t.chip.trust.spdm.algorithms = false ∧ t.chip.trust.spdm.session = none ∧ t.chip.trust.spdm.certs = s.chip.trust.spdm.certs
      ∧ t.chip.trust.spdm.response = some ⟨.version, [0x12, 0x13]⟩)
    ∧ (∀ v : Byte, (v = 0x12 ∨ v = 0x13) → s.chip.trust.spdm.version ≠ 0 → ∃ t, exec (.spdmGetCapabilities v) s = .next t
      ∧ t.chip.trust.spdm.version = v.toNat ∧ t.chip.trust.spdm.capable = true
      ∧ t.chip.trust.spdm.response = some ⟨.capabilities, [v.toNat]⟩)
    ∧ (∀ dhe aead : Bool, s.chip.trust.spdm.capable = true → ∃ t, exec (.spdmNegotiateAlgorithms true true dhe aead) s = .next t
      ∧ t.chip.trust.spdm.algorithms = true ∧ t.chip.trust.spdm.response = some ⟨.algorithms, [1, 1, b2n dhe, b2n aead]⟩)
    ∧ (exec .spdmUnsupportedRequest s = .next (s.put (s.chip.spdmSay .unsupportedRequest [])))
    ∧ (s.chip.trust.spdm.algorithms = true →
      (exec .spdmGetDigests s = .next (s.put (s.chip.spdmSay .digests
        (s.chip.trust.spdm.certs.flatMap fun e => [e.1, (sha384Num e.2).toNat]))))
      ∧ (∀ (slot : BitVec 3) (off len : BitVec 16) (c : List Byte), mfind slot.toNat s.chip.trust.spdm.certs = some c →
        ∃ (t : State) (part : List Byte), exec (.spdmGetCertificate slot off len) s = .next t
          ∧ part = (c.drop off.toNat).take (min len.toNat 4096) ∧ t.chip.trust.spdm.certs = s.chip.trust.spdm.certs
          ∧ t.chip.trust.spdm.response
            = some ⟨.certificate, [slot.toNat, part.length, c.length - off.toNat - part.length] ++ part.map (·.toNat)⟩)
      ∧ (∀ nonce : BitVec 256, exec (.spdmGetMeasurements 0 false nonce) s = .next (s.put (s.chip.spdmSay .measurements [17])))
      ∧ (∀ (i : Byte) (nonce : BitVec 256), 1 ≤ i.toNat → i.toNat ≤ 17 → exec (.spdmGetMeasurements i false nonce) s
        = .next (s.put (s.chip.spdmSay .measurements
          [i.toNat, (s.chip.measurement (i.toNat - 1)).toNat, s.chip.trust.planSeq - 1])))
      ∧ (∀ (slot : BitVec 3) (chain : List Byte), slot ≠ 0 → s.chip.life = .provisioned →
        ∃ t, exec (.spdmSetCertificate slot chain) s = .next t ∧ mfind slot.toNat t.chip.trust.spdm.certs = some chain
          ∧ t.chip.trust.spdm.response = some ⟨.setCertificate, [slot.toNat]⟩)))
    ∧ (s.chip.trust.spdm.algorithms = true →
    (∀ (slot : BitVec 3) (c : List Byte), mfind slot.toNat s.chip.trust.spdm.certs = some c → s.chip.trust.identity = true →
      s.chip.algorithm 4 = true → s.chip.trust.high.length < 256 →
      (∀ nonce, ∃ t, exec (.spdmChallenge slot nonce) s = .next t ∧ t.chip.trust.nextJob = s.chip.trust.nextJob + 1
        ∧ t.chip.trust.spdm = s.chip.trust.spdm)
      ∧ (∀ (i : Byte) nonce, i.toNat ≤ 17 → ∃ t, exec (.spdmGetMeasurements i true nonce) s = .next t
        ∧ t.chip.trust.nextJob = s.chip.trust.nextJob + 1 ∧ t.chip.trust.spdm = s.chip.trust.spdm)
      ∧ (∀ (session : BitVec 16) (exchange : List Byte), s.chip.trust.drbg.ready = true → s.chip.trust.trng ≠ 0 →
        ∃ t, exec (.spdmKeyExchange slot session exchange) s = .next t ∧ t.chip.trust.nextJob = s.chip.trust.nextJob + 1
          ∧ t.chip.trust.spdm.session = some session.toNat ∧ t.chip.trust.spdm.finished = false
          ∧ t.chip.trust.drbg = s.chip.trust.drbg.draw 4096 (DrbgKey.instantiate s.chip.seeds)))
    ∧ (s.chip.trust.spdm.session.isSome = true → s.chip.trust.spdm.finished = false →
      ∃ t, exec (.spdmFinish true) s = .next t ∧ t.chip.trust.spdm.finished = true
        ∧ t.chip.trust.spdm.session = s.chip.trust.spdm.session ∧ t.chip.trust.spdm.response = some ⟨.finish, []⟩)
    ∧ (s.chip.trust.spdm.session.isSome = true → s.chip.trust.spdm.finished = true →
      (exec .spdmHeartbeat s = .next (s.put (s.chip.spdmSay .heartbeatAck [])))
      ∧ (∀ op : BitVec 2, op ≠ 0 → ∃ t, exec (.spdmKeyUpdate op) s = .next t
        ∧ t.chip.trust.spdm.phase = s.chip.trust.spdm.phase + (if op = 3 then 0 else 1)
        ∧ t.chip.trust.spdm.response = some ⟨.keyUpdateAck, [op.toNat]⟩)
      ∧ (∃ t, exec .spdmEndSession s = .next t ∧ t.chip.trust.spdm.session = none ∧ t.chip.trust.spdm.finished = false
        ∧ t.chip.trust.spdm.response = some ⟨.endSessionAck, []⟩)))

/-- A Cold reset or the loss of REFA leaves the package before bring-up with no request, buffer or plan; a Collar warm reset restarts the boot chain and keeps the error log; a partition's, plate's or Collar's reset completes, and past its bound a plate stays offline and unscrubbed swatches leave service; an access without a response for 256 A-ticks ends with ST_CLOCK_ABSENT in its function's crossing status, while the Collar is in reset with ST_RESET_IN_PROGRESS. -/
def Obligations.ResetCommandsComplete : Prop :=
  ∀ (s : State),
    (∀ (powerOn sel : Bool) (addr : BitVec 2), ∃ t, exec (.coldReset powerOn sel addr) s = .next t ∧ t.chip.boot.dead = false
      ∧ t.chip.boot.phase = 1 ∧ t.chip.requests = [] ∧ t.chip.runs = [] ∧ t.chip.bufs = [] ∧ t.chip.mem = [] ∧ t.chip.parts = []
      ∧ t.chip.cells = [] ∧ t.chip.grade = .mgmt ∧ t.chip.boot.cold = (s.chip.boot.cold.filter fun c => c != 2)
      ∧ t.chip.life = s.chip.life ∧ t.chip.ledger.flash = s.chip.ledger.flash ∧ t.chip.mgmt.addr = addr.toNat)
    ∧ (∃ t, exec .refaLoss s = .next t ∧ t.chip.boot.refLost = true ∧ 1 ∈ t.chip.boot.cold ∧ t.chip.requests = [] ∧ t.chip.parts = [])
    ∧ (∃ t, exec .refaReturn s = .next t ∧ t.chip.boot.refLost = false ∧ 1 ∉ t.chip.boot.cold ∧ t.chip.time = s.chip.time)
    ∧ (s.chip.held = false →
      (∀ cause : BitVec 3, ∃ t, exec (.collarWarmReset cause) s = .next t ∧ t.chip.boot.phase = 4 ∧ t.chip.boot.collarReset = true
        ∧ t.chip.boot.cause = cause.toNat ∧ t.chip.requests = [] ∧ t.chip.runs = [] ∧ t.chip.cells = [] ∧ t.chip.grade = .mgmt)
      ∧ (∃ t, exec .tailorWatchdogExpiry s = .next t ∧ t.chip.boot.phase = 4 ∧ t.chip.boot.collarReset = true ∧ t.chip.boot.cause = 3
        ∧ t.chip.requests = [])
      ∧ (∃ t, exec .collarPllUnlock s = .next t ∧ t.chip.boot.phase = 4 ∧ t.chip.boot.collarReset = true ∧ t.chip.boot.cause = 4
        ∧ t.chip.requests = [])
      ∧ (∀ core : BitVec 3, ∃ t, exec (.tailorCoreFail core) s = .next t ∧ t.chip.tlr.cores.getLsbD core.toNat = false
        ∧ ∀ k, k < 8 → k ≠ core.toNat → t.chip.tlr.cores.getLsbD k = s.chip.tlr.cores.getLsbD k)
      ∧ (∀ p : BitVec 6, (s.chip.part p.toNat).resetting = true → (s.chip.part p.toNat).resetSt.step = 2 →
        ∃ t, exec (.resetDrainTimeout p) s = .next t ∧ (t.chip.part p.toNat).resetSt.step = 3
          ∧ (t.chip.part p.toNat).resetSt.lost = min 1023 ((s.chip.part p.toNat).resetSt.lost + s.chip.undrained p.toNat)
          ∧ t.chip.undrained p.toNat = 0 ∧ (s.chip.part p.toNat).resetSt.startedAt + 250 ≤ t.chip.aTick)
      ∧ (∀ p : BitVec 6, (s.chip.part p.toNat).resetting = true → s.chip.takenOver p.toNat = false → s.chip.undrained p.toNat = 0 →
        exec (.resetCompletion (.partition p)) s = .next (s.put (s.chip.finishReset p.toNat .ok)))
      ∧ (∀ (p : BitVec 6) (bad : W64), (s.chip.part p.toNat).resetting = true →
        exec (.partitionResetTimeout p bad) s = .next (s.put (Chip.regrade (Chip.finishReset
          ((s.chip.waitTick ((s.chip.part p.toNat).resetSt.startedAt + 2500000)).updSwatches
            ((s.chip.swatchesOf p.toNat).filter fun sw => bit bad.toNat sw) fun w => { w with inService := false, selfTest := .timeout })
          p.toNat .timeout))))
      ∧ (∀ p : BitVec 3, (s.chip.plate p.toNat).reset = true → ∃ t, exec (.plateResetTimeout p) s = .next t
        ∧ (t.chip.plate p.toNat).reset = false ∧ (t.chip.plate p.toNat).online = false
        ∧ (s.chip.plate p.toNat).resetAt + 1250000 ≤ t.chip.aTick)
      ∧ (s.chip.boot.collarReset = true → s.chip.booted = true →
        ∃ t, exec (.resetCompletion .collar) s = .next t ∧ t.chip.boot.collarReset = false)
      ∧ (∀ fn : Fn,
        (s.chip.boot.collarReset = true → exec (.timeoutChannelExpiry fn) s = .next (s.put (s.chip.xingFail fn .resetInProgress)))
        ∧ (s.chip.boot.collarReset = false → (∀ a ∈ s.chip.tlr.accesses, a.fn ≠ fn) →
          ∃ t, exec (.timeoutChannelExpiry fn) s = .next t ∧ t.chip.aTick = s.chip.aTick + 256
            ∧ (match fn with | .pf0 => t.chip.tlr.xing | .vf n => (t.chip.part n).xing).status = Status.clockAbsent.code)
        ∧ (∀ a : Access, s.chip.boot.collarReset = false → (s.chip.tlr.accesses.find? fun a => a.fn == fn) = some a →
          ∃ t, exec (.timeoutChannelExpiry fn) s = .next t ∧ a.since + 256 ≤ t.chip.aTick
            ∧ t.chip.tlr.accesses = s.chip.tlr.accesses.erase a
            ∧ (match fn with | .pf0 => t.chip.tlr.xing | .vf n => (t.chip.part n).xing).status = Status.clockAbsent.code)))

/-- A start-up phase completes and the next begins, or at its bound takes its outcome; a plate PLL's unlock begins a plate reset; a debug PLL's lock lets waiting installs answer; a zeroed Lining or stack reads zero and is ready. -/
def Obligations.BringupAndClockCommandsComplete : Prop :=
  ∀ (s : State), s.chip.held = false →
    (∀ r : BootReport, s.chip.boot.recovery = false → s.chip.boot.phase = 1 →
      ∃ t, exec (.bringupPhaseDone r) s = .next t ∧ t.chip.boot.phase = 2 ∧ t.chip.boot.cLock = true ∧ t.chip.boot.phaseAt = s.chip.aTick)
    ∧ (∀ r : BootReport, s.chip.boot.recovery = false → s.chip.boot.phase = 2 → r.factoryOk = true →
      ∃ t, exec (.bringupPhaseDone r) s = .next t ∧ t.chip.boot.phase = 3 ∧ t.chip.ledger.factoryOk = true)
    ∧ (∀ r : BootReport, s.chip.boot.recovery = false → s.chip.boot.phase = 1 →
      ∃ t, exec (.bringupPhaseTimeout r) s = .next t ∧ 2 ∈ t.chip.boot.cold ∧ t.chip.held = true
        ∧ s.chip.boot.phaseAt + 500 ≤ t.chip.aTick)
    ∧ (∀ plate : BitVec 3, (s.chip.plate plate.toNat).reset = false → (s.chip.plate plate.toNat).off = false →
      exec (.platePllUnlock plate) s = .next (s.put (s.chip.beginPlateReset plate.toNat none 0 false)))
    ∧ (∀ plate : BitVec 3, (s.chip.plate plate.toNat).dbgWait = true → ∃ t, exec (.debugPllLock plate) s = .next t
      ∧ (t.chip.plate plate.toNat).dbgLock = true ∧ (t.chip.plate plate.toNat).dbgWait = false
      ∧ ∀ d ∈ t.chip.tlr.dbgInstalls, plate.toNat ∉ d.plates)
    ∧ (∀ i : BitVec 3, (s.chip.lining i.toNat).zeroing = true → (s.chip.plate i.toNat).reset = false →
      ∃ t, exec (.zeroingDone true i) s = .next t ∧ (t.chip.lining i.toNat).ready = true ∧ (t.chip.lining i.toNat).zeroing = false
        ∧ t.chip.mem = memClear s.chip.mem (liningBase i.toNat) (144 * liningLines))
    ∧ (∀ i : BitVec 3, (s.chip.stack i.toNat).zeroing = true →
      ∃ t, exec (.zeroingDone false i) s = .next t ∧ (t.chip.stack i.toNat).zeroing = false
        ∧ t.chip.mem = memClear s.chip.mem (i.toNat * 0x1000000000) 0x8F8000000)

/-- An idle swatch of Run enters Doze, one of Doze enters Nap and one of Nap enters Rest under its policy and after its delays; a plate whose swatches rest is switched off; a waking swatch reaches Run, or Doze where forced there. -/
def Obligations.PowerCommandsComplete : Prop :=
  ∀ (s : State), s.chip.held = false →
    (∀ sw : BitVec 6, (s.chip.swatch sw.toNat).power = 0 → s.chip.mayEnter sw.toNat 1 = true →
      ∃ t, exec (.dozeEntry sw) s = .next t ∧ (t.chip.swatch sw.toNat).power = 1 ∧ t.chip.cells = s.chip.cells)
    ∧ (∀ sw : BitVec 6, (s.chip.swatch sw.toNat).power = 1 → s.chip.mayEnter sw.toNat 2 = true →
      ∃ t, exec (.napEntry sw) s = .next t ∧ (t.chip.swatch sw.toNat).power = 2
        ∧ (s.chip.swatch sw.toNat).idleSince + (s.chip.policyOf sw.toNat).2.1 ≤ t.chip.aTick)
    ∧ (∀ sw : BitVec 6, (s.chip.swatch sw.toNat).owner.isSome = true → (s.chip.swatch sw.toNat).power = 2 →
      s.chip.mayEnter sw.toNat 3 = true →
      ∃ t, exec (.restEntry sw) s = .next t ∧ (t.chip.swatch sw.toNat).power = 3
        ∧ (s.chip.swatch sw.toNat).idleSince + (s.chip.policyOf sw.toNat).2.2 ≤ t.chip.aTick)
    ∧ (∀ p : BitVec 3, (s.chip.plate p.toNat).offAllowed = true → (s.chip.plate p.toNat).off = false →
      (s.chip.plate p.toNat).reset = false → (∀ sw ∈ plateSwatches p.toNat, (s.chip.swatch sw).power = 3 ∧ (s.chip.swatch sw).waking = false) →
      (∀ e ∈ s.chip.parts, e.2.plans = []) → (∀ q path, q < 8 → q ≠ p.toNat → s.chip.controlRoute q = some path → p.toNat ∉ path) →
      ∃ t, exec (.plateOffEntry p) s = .next t ∧ (t.chip.plate p.toNat).off = true ∧ (t.chip.plate p.toNat).fLock = false
        ∧ ∀ sw ∈ plateSwatches p.toNat, (t.chip.swatch sw).power = 4)
    ∧ (∀ sw : BitVec 6, (s.chip.swatch sw.toNat).waking = true → (s.chip.swatch sw.toNat).forced ≠ 2 →
      ∃ t, exec (.swatchWakeDone sw) s = .next t ∧ (t.chip.swatch sw.toNat).power = 0 ∧ (t.chip.swatch sw.toNat).waking = false)

/-- Plate and stack trips and rail losses take their unit out with a fatal record; a rail out of regulation holds the package in Cold reset until it returns; the Collar's trip stops every clock; each evaluation falls on a multiple of 2^14 A-ticks; the AVS events mark their plate; a failing noise source is disabled and a DRBG reseeded. -/
def Obligations.ThermalAndRailCommandsComplete : Prop :=
  ∀ (s : State),
    (∀ rail : BitVec 5, 8 ≤ rail.toNat → rail.toNat ≤ 19 →
      (∃ t, exec (.railUndervoltage rail) s = .next t ∧ rail.toNat ∈ t.chip.boot.cold ∧ t.chip.held = true ∧ t.chip.requests = []
        ∧ t.chip.parts = [])
      ∧ (∃ t, exec (.railReturn rail) s = .next t ∧ rail.toNat ∉ t.chip.boot.cold ∧ t.chip.time = s.chip.time))
    ∧ (s.chip.held = false →
      (∀ plate : BitVec 3, (s.chip.plate plate.toNat).railLow = false → exec (.plateRailUndervoltage plate) s = .next (s.put (Chip.tripPlate
          ((s.chip.updPlate plate.toNat fun x => { x with railLow := true }).logRec Status.clockAbsent.code 3 none (some plate.toNat) none 0)
          plate.toNat)))
      ∧ (∀ plate : BitVec 3, (s.chip.plate plate.toNat).tripped = false → exec (.plateTempTrip plate) s = .next (s.put (Chip.tripPlate
          ((s.chip.updPlate plate.toNat fun x => { x with tripped := true, hot := true }).logRec Status.clockAbsent.code 3 none
            (some plate.toNat) none 0) plate.toNat)))
      ∧ (∀ h : BitVec 3, (mget {} h.toNat s.chip.heat).tripped = false → (s.chip.stack h.toNat).ready = true →
        ∃ t, exec (.stackTempTrip h) s = .next t ∧ (mget {} h.toNat t.chip.heat).tripped = true ∧ (t.chip.stack h.toNat).ready = false)
      ∧ (∀ h : BitVec 3, (mget {} h.toNat s.chip.heat).tripped = true →
        ∃ t, exec (.stackTripRelease h) s = .next t ∧ (mget {} h.toNat t.chip.heat).tripped = false
          ∧ (t.chip.stack h.toNat).ready = true)
      ∧ (∃ t, exec .collarTempTrip s = .next t ∧ t.chip.power.thermtrip = true ∧ t.chip.boot.dead = true ∧ t.chip.held = true
        ∧ t.chip.parts = s.chip.parts ∧ t.chip.mem = s.chip.mem)
      ∧ (∀ (plates : List (List Int)) (hs collar : List Int) (watts : BitVec 11),
        ∃ t, exec (.thermalEvaluation plates hs collar watts) s = .next t ∧ t.chip.power.avg = watts.toNat
          ∧ t.chip.power.overLimit = decide (s.chip.power.limit < watts.toNat) ∧ t.chip.aTick % 2 ^ 14 = 0 ∧ s.chip.aTick < t.chip.aTick)
      ∧ (∀ (p : BitVec 6) (w : Withdrawal), (s.chip.power.withdrawals.find? fun w => w.part == p.toNat) = some w →
        ∃ t, exec (.withdrawalTimeout p) s = .next t ∧ (∀ x ∈ t.chip.power.withdrawals, x.part ≠ p.toNat) ∧ w.since + 2 ^ 18 ≤ t.chip.aTick)
      ∧ (∀ plate : BitVec 3,
        (∃ t, exec (.avsLimitTimeout plate) s = .next t ∧ (t.chip.plate plate.toNat).atLimit = true)
        ∧ (∃ t, exec (.avsMarginReturn plate) s = .next t ∧ (t.chip.plate plate.toNat).atLimit = false
          ∧ (t.chip.plate plate.toNat).avsErrors = 0)
        ∧ (∃ t, exec (.avsbusTransactionError plate) s = .next t
          ∧ (t.chip.plate plate.toNat).avsErrors = min 3 ((s.chip.plate plate.toNat).avsErrors + 1)))
      ∧ (∀ source : BitVec 2, ∃ t, exec (.trngSourceFail source) s = .next t ∧ t.chip.trust.trng.getLsbD source.toNat = false
        ∧ t.chip.trust.drbg = s.chip.trust.drbg)
      ∧ (s.chip.trust.trng ≠ 0 →
        (∃ t, exec (.drbgReseed none) s = .next t ∧ t.chip.trust.drbg.ready = true ∧ t.chip.seeds = s.chip.seeds + 1
          ∧ (s.chip.trust.drbg.ready = false → t.chip.trust.drbg.cur = DrbgKey.instantiate s.chip.seeds)
          ∧ (s.chip.trust.drbg.ready = true → t.chip.trust.drbg.next = some (DrbgKey.instantiate s.chip.seeds)
            ∧ t.chip.trust.drbg.cur = s.chip.trust.drbg.cur))
        ∧ (∀ panel : BitVec 9, (s.chip.panel panel.toNat).drbg.ready = true → ∃ t, exec (.drbgReseed (some panel)) s = .next t
          ∧ (t.chip.panel panel.toNat).drbg.next = some (DrbgKey.instantiate s.chip.seeds) ∧ t.chip.seeds = s.chip.seeds + 1)))

/-- A startable request's plan starts as the next run; a spliced one starts beside its predecessor; a stitch point with nothing to stop the plan advances the run to the next; the FINAL stitch point ends issuing. -/
def Obligations.PlanEventsComplete : Prop :=
  ∀ (s : State), s.chip.held = false →
    (∀ (run : Nat) (r y : Run) (rec_ : StitchRec) (v : Chip), s.chip.run? run = some r → r.state = .issuing →
      r.plan.stitches[r.nextStitch]? = some rec_ → rec_.kind ≠ 2 → s.chip.waitFree run (r.at rec_.cycle) = some v → v.run? run = some y →
      y.broken = false → (v.missedMark y).commitFault y y.nextStitch = none → ((v.missedMark y).chooseLinks y).2 = none →
      y.dueStop none = none →
      ∃ (t : State) (z : Run), exec (.stitchCommit run) s = .next t ∧ t.chip.run? run = some z ∧ z.nextStitch = y.nextStitch + 1
        ∧ z.part = y.part ∧ t.chip.time = v.time)
    ∧ (∀ (run : Nat) (r y : Run) (rec_ : StitchRec) (v : Chip), s.chip.run? run = some r → r.state = .issuing →
      r.plan.stitches[r.nextStitch]? = some rec_ → rec_.kind = 2 → s.chip.waitFree run (r.at rec_.cycle) = some v → v.run? run = some y →
      y.broken = false → (v.breaksAt y.part y.nextStitch = true → y.breakDone = true) → y.dueStop ((v.missedMark y).commitFault y y.nextStitch) = none →
      ∃ t, exec (.planFinal run) s = .next t ∧ t.chip.time = v.time ∧ ∀ z, t.chip.run? run = some z → z.state = .draining)
    ∧ (∀ (part : BitVec 6) (q : Request) (p p' : Plan) (u v w : Chip),
      (s.chip.requests.find? fun q => q.part == part.toNat && s.chip.startable q) = some q → s.chip.planOf q = some p →
      s.chip.startFails q p = none → s.chip.prepareStart q p = (u, p') →
      (u.commitShadow q.part p'.swatches).commitOwner q.part q.handles = v → v.recheck q p' = (w, none) →
      exec (.planStart part) s = .next (s.put (Chip.beginRun
        (p'.swatches.foldl (fun t sw => (t.startCells p' true sw).idlePanels sw) w) q p' none)))
    ∧ (∀ (run : Nat) (r : Run) (out : StitchRec) (q : Request) (p p' : Plan) (u v w : Chip), s.chip.run? run = some r →
      r.spliceOut = some out → (s.chip.requests.find? fun q => q.part == r.part && q.phase == .queued) = some q →
      s.chip.planOf q = some p → (∀ x ∈ s.chip.runs, x.spliced ≠ some r.id) → s.chip.readyButSwatches q p = true →
      s.chip.spliceOk r out q p = true → s.chip.startFails q p = none → s.chip.prepareStart q p = (u, p') →
      (u.commitShadow q.part p'.swatches).commitOwner q.part q.handles = v → v.recheck q p' = (w, none) →
      ∃ x : Chip, exec (.planSplice run) s = .next (s.put (x.beginRun q p' (some r)))
        ∧ (x.part q.part).cnt.splices = (w.part q.part).cnt.splices + 1)

/-- The next key to load takes its range of the key window; a finished load is marked so with its bytes, which land at the range when the key window commits, at once while no plan of the partition runs; a finished Seal job has its effect and the next job runs; a LOW job yields at a window boundary to the HIGH job that waits. -/
def Obligations.ResidencyAndSealCommandsComplete : Prop :=
  ∀ (s : State), s.chip.held = false →
    (∀ (part : BitVec 6) (pl : Plan) (k : KeyEntry) (h : Nat), s.chip.nextLoad part.toNat = some (pl, k, h) →
      s.chip.rangeHeld part.toNat (pl.plate k.vplate) k.offset (k.offset + s.chip.keyLines part.toNat h) h = false →
      ∃ t, exec (.residencyLoadStart part) s = .next t
        ∧ { keyId := k.keyId, plate := pl.plate k.vplate, offset := k.offset, lines := s.chip.keyLines part.toNat h,
            handle := h, loaded := false } ∈ (t.chip.part part.toNat).keyRanges
        ∧ t.chip.mem = s.chip.mem)
    ∧ (∀ (part : BitVec 6) (r : KeyRange) (b : Buf) (v : Chip), ((s.chip.part part.toNat).keyRanges.find? fun r => !r.loaded) = some r →
      s.chip.bufOf r.handle = some b →
      v = ((s.chip.keepShadow part.toNat).updPart part.toNat fun x => { x with keyRanges := x.keyRanges.map fun (g : KeyRange) =>
        if g == r then { g with loaded := true, staged := some (memReadN s.chip.mem b.addr (min (144 * r.lines) (576 * b.bolts))) } else g }) →
      exec (.residencyLoadDone part) s
        = .next (s.put (Chip.dropOldKeys ((v.bindSeed part.toNat r.keyId r.handle).settleKeyWin part.toNat) part.toNat)))
    ∧ (∀ (v : Chip) (p : Nat) (r : KeyRange) (bytes : List Byte), v.runsOf p = [] → (v.part p).keyRanges = [r] → r.staged = some bytes →
      (v.settleKeyWin p).mem
          = memWriteN v.mem (liningBase r.plate + 144 * ((mget {} r.plate (v.part p).keyWinShadow).base + r.offset)) bytes
        ∧ ((v.settleKeyWin p).part p).keyRanges = [{ r with staged := none }]
        ∧ ((v.settleKeyWin p).part p).keyWin = (v.part p).keyWinShadow)
    ∧ (∀ (j : SealJob) (v : Chip), s.chip.trust.running = some j → s.chip.yieldMark = none →
      v = s.chip.advance (j.since + (j.length - j.done) * 165 - s.chip.time) →
      exec .sealJobDone s = .next (s.put (Chip.resubmit (Chip.jobEffect
        { v with trust := Seal.next v.time { v.trust with running := none } } j.use))))
    ∧ (∀ (j first : SealJob) (rest : List SealJob) (m : Nat) (v : Chip), s.chip.yieldMark = some (j, m) →
      v = s.chip.advance (j.since + (m - j.done) * 165 - s.chip.time) → v.trust.high = first :: rest →
      ∃ t next, exec .sealYield s = .next t ∧ t.chip.trust.running = some next ∧ next.id = first.id ∧ t.chip.trust.high = rest
        ∧ t.chip.trust.low = { j with done := m, yielded := true } :: v.trust.low)

/-- When the stream's next bundle issues, each arithmetic, logic, shift, compare, select and immediate instruction schedules its value of Table 5.4, modulo 2^36, with its poison tag and latency, in every issuing cell, and the next bundle follows. -/
def Obligations.ScriberArithmeticCompletes : Prop :=
  ∀ (s : State) (i : Issuer) (k : Slot) (t : Chip) (rd ra rb : BitVec 5) (imm : W36), s.chip.held = false → s.chip.slotOf i = (t, some k) →
    (∀ op lat (f : W36 → W36 → W36), (op, lat, f) ∈ ([
        (Instr.add, 1, fun a b => a + b), (Instr.sub, 1, fun a b => a - b), (Instr.and, 1, fun a b => a &&& b),
        (Instr.or, 1, fun a b => a ||| b), (Instr.xor, 1, fun a b => a ^^^ b), (Instr.sra, 1, fun a b => a.sshiftRight (b.toNat % 64)),
        (Instr.mul, 3, fun a b => a * b), (Instr.mulhu, 3, fun a b => BitVec.ofNat 36 (a.toNat * b.toNat / 2 ^ 36)),
        (Instr.slt, 1, fun a b => if a.toInt < b.toInt then 1 else 0), (Instr.sltu, 1, fun a b => if a.toNat < b.toNat then 1 else 0)]
        : List ((Issuer → BitVec 5 → BitVec 5 → BitVec 5 → Instr) × Nat × (W36 → W36 → W36))) →
      exec (op i rd ra rb) s = .next (s.put (k.compute lat rd.toNat (fun c =>
        ⟨f (c.reg k.now ra.toNat).val (c.reg k.now rb.toNat).val, (c.reg k.now ra.toNat).poison || (c.reg k.now rb.toNat).poison⟩) t)))
    ∧ (∀ op (f : W36 → Nat → W36), (op, f) ∈ ([(Instr.shl, fun a n => a <<< n), (Instr.shr, fun a n => a >>> n)]
        : List ((Issuer → BitVec 5 → BitVec 5 → BitVec 5 → Instr) × (W36 → Nat → W36))) →
      exec (op i rd ra rb) s = .next (s.put (k.compute 1 rd.toNat (fun c =>
        let n := (c.reg k.now rb.toNat).val.toNat % 64
        ⟨if n < 36 then f (c.reg k.now ra.toNat).val n else 0,
          (c.reg k.now rb.toNat).poison || ((c.reg k.now ra.toNat).poison && decide (n < 36))⟩) t)))
    ∧ (exec (Instr.sel i rd ra rb) s = .next (s.put (k.compute 1 rd.toNat (fun c =>
        let v := if (c.reg k.now ra.toNat).val = 0 then c.reg k.now rd.toNat else c.reg k.now rb.toNat
        ⟨v.val, (c.reg k.now ra.toNat).poison || v.poison⟩) t)))
    ∧ (∀ op (f : W36 → W36 → W36), (op, f) ∈ ([(Instr.addi, fun a b => a + b), (Instr.andi, fun a b => a &&& b),
        (Instr.ori, fun a b => a ||| b), (Instr.xori, fun a b => a ^^^ b)]
        : List ((Issuer → BitVec 5 → BitVec 5 → W36 → Instr) × (W36 → W36 → W36))) →
      exec (op i rd ra imm) s = .next (s.put (k.compute 1 rd.toNat (fun c =>
        ⟨f (c.reg k.now ra.toNat).val imm, (c.reg k.now ra.toNat).poison⟩) t)))
    ∧ (∀ op (f : W36 → Nat → W36), (op, f) ∈ ([(Instr.shli, fun a n => a <<< n), (Instr.shri, fun a n => a >>> n)]
        : List ((Issuer → BitVec 5 → BitVec 5 → W36 → Instr) × (W36 → Nat → W36))) → imm.toNat < 64 →
      exec (op i rd ra imm) s = .next (s.put (k.compute 1 rd.toNat (fun c =>
        ⟨if imm.toNat < 36 then f (c.reg k.now ra.toNat).val imm.toNat else 0, (c.reg k.now ra.toNat).poison && decide (imm.toNat < 36)⟩) t)))
    ∧ (exec (Instr.li i rd imm) s = .next (s.put (k.compute 1 rd.toNat (fun _ => ⟨imm, false⟩) t)))
    ∧ (∀ (entry : BitVec 10) (m : Modulus), (k.table t).use entry.toNat false false = some m →
      (exec (Instr.modadd i rd ra rb entry) s = .next (s.put (k.compute 2 rd.toNat (fun c =>
        ⟨BitVec.ofNat 36 (m.add (c.reg k.now ra.toNat).val.toNat (c.reg k.now rb.toNat).val.toNat),
          (c.reg k.now ra.toNat).poison || (c.reg k.now rb.toNat).poison⟩) t)))
      ∧ (exec (Instr.modmul i rd ra rb entry) s = .next (s.put (k.compute 5 rd.toNat (fun c =>
        ⟨BitVec.ofNat 36 (m.mul (c.reg k.now ra.toNat).val.toNat (c.reg k.now rb.toNat).val.toNat),
          (c.reg k.now ra.toNat).poison || (c.reg k.now rb.toNat).poison⟩) t))))

/-- A branch whose condition local cell 0 finds true issues its target 3 F-cycles later, else the next bundle follows; CALL and RET without a trap rotate the windows; LOOP pushes its entry or skips its body; IDLE issues nothing for COUNT F-cycles; LOOSE arms its target; a due result lands. -/
def Obligations.ScriberControlCompletes : Prop :=
  ∀ (s : State) (i : Issuer) (k : Slot) (t : Chip) (ra rb : BitVec 5) (target : BitVec 16), s.chip.held = false →
    s.chip.slotOf i = (t, some k) →
    (exec (.nop i) s = .next (s.put (k.follow 1 t)))
    ∧ (exec (.br i target) s = .next (s.put (k.goto target.toNat 3 t)))
    ∧ (∀ op (f : W36 → W36 → Bool), (op, f) ∈ ([(Instr.beq, fun a b => a == b), (Instr.bne, fun a b => a != b),
        (Instr.blt, fun a b => decide (a.toInt < b.toInt)), (Instr.bltu, fun a b => decide (a.toNat < b.toNat))]
        : List ((Issuer → BitVec 5 → BitVec 5 → BitVec 16 → Instr) × (W36 → W36 → Bool))) → k.tagged t [ra.toNat, rb.toNat] = none →
      exec (op i ra rb target) s = .next (s.put (if f ((t.cell k.lead).reg k.now ra.toNat).val ((t.cell k.lead).reg k.now rb.toNat).val
        then k.goto target.toNat 3 t else k.follow 1 t)))
    ∧ ((t.cell k.lead).scr.wdepth ≠ 7 → k.farTarget target.toNat = false → k.cells.Nodup →
      ∃ u : Chip, exec (.call i target) s = .next (s.put (k.goto target.toNat 3 u))
        ∧ (∀ cn ∈ k.cells, (u.cell cn).scr.cwp = ((t.cell k.lead).scr.cwp + 1) % 7
          ∧ (u.cell cn).scr.wdepth = (t.cell k.lead).scr.wdepth + 1 ∧ (u.cell cn).scr.cdepth = (t.cell k.lead).scr.cdepth + 1
          ∧ (u.cell cn).scr.rets = (k.st.pc + 1) % 65536 :: (t.cell k.lead).scr.rets
          ∧ ((t.cell cn).scr.differs (t.cell k.lead).scr = false → (u.cell cn).scr.regs = (t.cell cn).scr.regs))
        ∧ u.mem = t.mem ∧ u.parts = t.parts)
    ∧ ((t.cell k.lead).scr.wdepth ≠ 1 → (t.cell k.lead).scr.cdepth ≠ 0 → k.cells.Nodup →
      ∃ u : Chip, exec (.ret i) s = .next (s.put (k.goto ((t.cell k.lead).scr.rets.headD 0) 3 u))
        ∧ (∀ cn ∈ k.cells, (u.cell cn).scr.cwp = ((t.cell k.lead).scr.cwp + 6) % 7
          ∧ (u.cell cn).scr.wdepth = (t.cell k.lead).scr.wdepth - 1 ∧ (u.cell cn).scr.cdepth = (t.cell k.lead).scr.cdepth - 1
          ∧ (u.cell cn).scr.rets = (t.cell k.lead).scr.rets.tail
          ∧ ((t.cell cn).scr.differs (t.cell k.lead).scr = false → (u.cell cn).scr.regs = (t.cell cn).scr.regs))
        ∧ u.mem = t.mem ∧ u.parts = t.parts)
    ∧ (k.tagged t [ra.toNat] = none → ((t.cell k.lead).reg k.now ra.toNat).val = 0 → k.farTarget target.toNat = false →
      exec (.loop i ra target) s = .next (s.put (k.goto (target.toNat + 1) 3 t)))
    ∧ (k.tagged t [ra.toNat] = none → ((t.cell k.lead).reg k.now ra.toNat).val ≠ 0 →
      (t.cell k.lead).scr.loops.length < 4 →
      exec (.loop i ra target) s = .next (s.put ((k.follow 1 t).updCells k.cells fun _ c => { c with scr := { c.scr with
        loops := ⟨(k.st.pc + 1) % 65536, target.toNat, ((t.cell k.lead).reg k.now ra.toNat).val.toNat⟩ :: c.scr.loops } })))
    ∧ (exec (.idle i target) s = .next (s.put (k.follow (1 + target.toNat) t true)))
    ∧ (i.cell = none → target.toNat < 8192 → exec (.loose i target) s = .next (s.put (k.follow 1
        (t.updRun k.r.id fun r => { r with armed := mput i.sw.toNat target.toNat r.armed }))))

/-- LDN and STN of words inside the task slot access them in every issuing cell; MFS schedules a readable special register's value; MTS writes SPILLP or a shadow task-slot field; TSEL selects the task slot; SCRIBER_WRITEBACK lands what is due. -/
def Obligations.ScriberMovesComplete : Prop :=
  ∀ (s : State) (i : Issuer), s.chip.held = false →
    (∀ (k : Slot) (t : Chip) (rd ra rb : BitVec 5) (off : BitVec 16) (sr : BitVec 8), s.chip.slotOf i = (t, some k) →
      (k.tagged t [ra.toNat] = none → (∀ cn ∈ k.cells, ((t.cell cn).narrow k.now ra.toNat off).isSome = true) →
        (exec (.ldn i rd ra off) s = .next (s.put (k.follow 1 (k.cells.foldl (fun u cn => k.loadOne rd.toNat ra.toNat off cn u) t))))
        ∧ (exec (.stn i ra rb off) s = .next (s.put (k.follow 1 (k.cells.foldl (fun u cn => k.storeOne ra.toNat rb.toNat off cn u) t)))))
      ∧ (srReadable sr.toNat = true → exec (.mfs i rd sr) s = .next (s.put (k.follow 1 (t.updCells k.cells fun cn c =>
          c.land k.now 2 rd.toNat ⟨BitVec.ofNat 36 ((c.special k.r.plan cn k.now k.r.planCycle sr.toNat k.isLoose).getD 0), false⟩))))
      ∧ (k.tagged t [ra.toNat] = none → exec (.mts i ra 0x08) s = .next (s.put (k.follow 1 (t.updCells k.cells fun _ c =>
          { c with scr := { c.scr with spillp := lset c.scr.spillp c.scr.atask (c.reg k.now ra.toNat).val.toNat } }))))
      ∧ (∀ slot field : Nat, k.tagged t [ra.toNat] = none → srTask sr.toNat = some (slot, field) → sr ≠ 0x08 →
        exec (.mts i ra sr) s = .next (s.put (k.follow 1 (t.updCells k.cells fun _ c => { c with scr := { c.scr with
          shadowTasks := lupd c.scr.shadowTasks slot fun x => x.setField field (c.reg k.now ra.toNat).val.toNat } }))))
      ∧ (∀ slot : BitVec 2, exec (.tsel i slot) s = .next (s.put (k.follow 1 (t.updCells k.cells fun _ c =>
          { c with scr := { c.scr with atask := slot.toNat } })))))
    ∧ (∀ (r : Run) (d : Nat) (t : Chip), s.chip.run? i.run = some r → i.sw.toNat ∈ r.plan.swatches →
      (i.cells.filterMap fun cn => ((s.chip.cell cn).scr.lands.head?).map (·.due)).min? = some d →
      s.chip.waitRun i.run (d + 1) = some t →
      exec (.scriberWriteback i) s = .next (s.put (t.updCells i.cells fun _ c => { c with scr := c.scr.settle (d + 1) })))

/-- In a cell with no other result in flight, a value landed in register field rd with latency at least 1 is what the register reads latency F-cycles after issue, and until then the register reads as before; g0 reads zero throughout; every other register of the window keeps its value. -/
def Obligations.ResultLandsAfterItsLatency : Prop :=
  ∀ (c : Cell) (now lat rd x r : Nat) (v : Tagged), c.scr.lands = [] → 1 ≤ lat → rd < 32 → r < 32 → c.scr.getKey 0 = ⟨0, false⟩ →
    (now + lat ≤ x → (c.land now lat rd v).reg x rd = (if rd = 0 then ⟨0, false⟩ else v))
    ∧ (x < now + lat → (c.land now lat rd v).reg x rd = c.reg now rd)
    ∧ (r ≠ rd → (c.land now lat rd v).reg x r = c.reg now r)
    ∧ (c.land now lat rd v).reg x 0 = ⟨0, false⟩

/-- Where every issuing cell is named once, a computation leaves device memory, partitions, buffers, engines and every cell it does not issue in as they were, schedules one result in each cell it issues in, and leaves that cell's Pad, Press and Spool state alone. -/
def Obligations.ComputationFrame : Prop :=
  ∀ (k : Slot) (t : Chip) (lat rd : Nat) (v : Cell → Tagged), k.cells.Nodup → (k.isLoose = true → k.lead ∈ k.cells) →
    ∃ u : Chip, u = k.compute lat rd v t ∧ u.mem = t.mem ∧ u.parts = t.parts ∧ u.bufs = t.bufs ∧ u.panels = t.panels ∧ u.swatches = t.swatches
      ∧ u.hbm = t.hbm ∧ u.linings = t.linings ∧ u.tlr = t.tlr ∧ u.time = t.time ∧ (∀ cn, cn ∉ k.cells → u.cell cn = t.cell cn)
      ∧ ∀ cn ∈ k.cells, (u.cell cn).pad = (t.cell cn).pad ∧ (u.cell cn).press = (t.cell cn).press ∧ (u.cell cn).threads = (t.cell cn).threads
        ∧ (u.cell cn).scr.cwp = ((t.cell cn).scr.settle k.now).cwp
        ∧ (u.cell cn).scr.lands = regInsert ⟨regKey ((t.cell cn).scr.settle k.now).cwp rd, v (t.cell cn), k.now + lat - 1, (t.cell cn).seq, none⟩
            ((t.cell cn).scr.settle k.now).lands

/-- A stitch mark at its plan cycle is noted, another counts a miss; a ganged BARRIER does nothing and a loose one waits until every cell of its scope has arrived; YOKE starts the transfer of every enabled lane of its entry, in loose execution those of the panel whose local cell 0 issues; WEAVE starts its entry's transfer where its source issues; EVENT is to land once for the issuing swatch or cell 3 F-cycles later; a reserved form stops the plan. -/
def Obligations.SyncCommandsComplete : Prop :=
  ∀ (s : State) (i : Issuer) (k : Slot) (t : Chip), s.chip.held = false → s.chip.slotOf i = (t, some k) →
    (∀ (index : BitVec 12) (x : StitchRec), k.r.plan.stitches[index.toNat]? = some x → x.cycle = k.r.planCycle →
      exec (.stitch i index) s = .next (s.put (t.updRun k.r.id fun r => { r with marks := sinsert index.toNat r.marks })))
    ∧ (∀ index : BitVec 12, (∀ x, k.r.plan.stitches[index.toNat]? = some x → x.cycle ≠ k.r.planCycle) →
      exec (.stitch i index) s = .next (s.put ((t.updRegs k.r.part fun g => { g with stitchMiss := g.stitchMiss + 1 }).hazard
        k.r 3 k.lead k.bundle)))
    ∧ (∀ scope : BitVec 2, scope.toNat < 2 → i.cell = none → exec (.barrier i scope false) s = .next (s.put t))
    ∧ (∀ (scope : BitVec 2) (atEnd : Bool) (u : Chip), scope.toNat < 2 → i.cell.isSome = true →
      u = (t.updCell k.lead fun c => { c with mode := .waiting (scope.toNat == 1) atEnd }) →
      exec (.barrier i scope atEnd) s = .next (s.put (
        if (barrierScope k.lead (scope.toNat == 1)).all fun c => (u.cell c).arrived (scope.toNat == 1)
        then u.updCells (barrierScope k.lead (scope.toNat == 1)) fun _ c => c.release (k.now + if scope.toNat == 1 then 10 else 6)
        else u)))
    ∧ (∀ (scope : BitVec 2) (atEnd : Bool), (2 ≤ scope.toNat ∨ i.cell = none ∧ atEnd = true) →
      exec (.barrier i scope atEnd) s = .next (s.put (k.reserved t)))
    ∧ (∀ (entry : BitVec 12) (lanes : List (YokeLane × Nat)),
      lanes = ((mget [] entry.toNat (t.swatch i.sw.toNat).yoke).zipIdx.filter fun l => l.1.enabled && l.1.words != 0
        && i.cell.all fun c => c.toNat % 64 == 0 && l.2 == c.toNat / 64) →
      ∃ u : State, exec (.yoke i entry) s = .next u ∧ u.chip.mem = t.mem ∧ u.chip.cells = t.cells
        ∧ (u.chip.swatch i.sw.toNat).moves = ((t.swatch i.sw.toNat).moves.filter fun m => m.live k.now)
          ++ lanes.map fun l => k.yokeMove t i.sw.toNat l.2 l.1)
    ∧ (∀ (entry : BitVec 12) (e : WeaveEntry), k.r.weaveEntry entry.toNat = some e →
      swatchOf (k.r.plan.cellOf e.src) = i.sw.toNat → (∀ c, i.cell = some c → c.toNat = k.r.plan.cellOf e.src % 512) → e.words ≠ 0 →
      ∃ (u : State) (z : Run) (m : WeaveMove), exec (.weave i entry) s = .next u ∧ u.chip.run? k.r.id = some z
        ∧ z.weaves = k.r.weaves.filter (k.r.keepsMove k.now) ++ [m] ∧ m.entry = entry.toNat ∧ m.bundle = k.bundle ∧ m.issued = k.now
        ∧ m.landed = 0 ∧ (m.src, m.srcRoom) = t.weaveRows (k.r.plan.cellOf e.src) e.srow
        ∧ (m.dst, m.dstRoom) = t.weaveRows (k.r.plan.cellOf e.dst) e.drow ∧ u.chip.cells = t.cells ∧ u.chip.mem = t.mem)
    ∧ (∀ entry : BitVec 12, (∀ e, k.r.weaveEntry entry.toNat = some e → swatchOf (k.r.plan.cellOf e.src) ≠ i.sw.toNat ∨ e.words = 0) →
      exec (.weave i entry) s = .next (s.put t))
    ∧ (∀ counter : BitVec 3, k.cells ≠ [] → exec (.event i counter) s
      = .next (s.put (t.updRun k.r.id fun r => { r with evs := r.evs ++ [(k.now + 3, counter.toNat)] })))
    ∧ (∀ counter : BitVec 3, k.cells = [] → exec (.event i counter) s = .next (s.put t))

/-- MMA, DRAIN, ZERO, TAPREL, the ten Stipple operations, NTT and INTT join the queue of the engine of every issuing cell, AUTO, TRANS, BREV, GATHER, EXPAND and SAMPLE that of every panel of the swatch, each to start when the engine is free. -/
def Obligations.EngineCommandsIssue : Prop :=
  ∀ (s : State) (i : Issuer) (k : Slot) (t : Chip), s.chip.held = false → s.chip.slotOf i = (t, some k) → k.cells.Nodup →
    (∀ (m18 : Bool) (ga gb : BitVec 4) (n : BitVec 9), mmaOk n = true → k.tagged t [ga.toNat, gb.toNat] = none →
      (∀ cn ∈ k.cells, k.g t cn ga.toNat % 4 = 0 ∧ k.g t cn gb.toNat % 4 = 0
        ∧ (n ≠ 0 → ((t.cell cn).scr.task.row (k.g t cn ga.toNat) (mmaRowsA n.toNat)).isSome = true
          ∧ ((t.cell cn).scr.task.row (k.g t cn gb.toNat) (mmaRowsB m18 n.toNat)).isSome = true)) →
      exec (.mma i m18 ga gb n) s = .next (s.put (k.pressPut (fun cn c => { k.pressOp .mma (max n.toNat 1) with
        m18 := m18, rowA := c.scr.task.padBase + k.g t cn ga.toNat, rowB := c.scr.task.padBase + k.g t cn gb.toNat, count := n.toNat }) t)))
    ∧ (∀ (m18 tap rowmod : Bool) (gd : BitVec 4) (entry : BitVec 10) (ms : List Modulus), drainOk tap gd = true →
      ((if rowmod then (List.range 12).map fun r => (entry.toNat + r) % 1024 else List.replicate 12 entry.toNat).map
        fun e => (k.table t).use e m18 false) = ms.map some → k.tagged t [gd.toNat] = none →
      (tap = false → ∀ cn ∈ k.cells, k.g t cn gd.toNat % 4 = 0 ∧ ((t.cell cn).scr.task.row (k.g t cn gd.toNat) 12).isSome = true) →
      exec (.drain i m18 tap rowmod gd entry) s = .next (s.put (k.pressPut (fun cn c => { k.pressOp .drain 3 with
        m18 := m18, tap := tap, rowD := c.scr.task.padBase + k.g t cn gd.toNat, mods := ms }) t)))
    ∧ (exec (.zero i) s = .next (s.put (k.pressPut (fun _ _ => k.pressOp .zero 1) t)))
    ∧ (exec (.taprel i) s = .next (s.put (k.pressPut (fun _ _ => k.pressOp .tapRel 1) t)))
    ∧ (∀ op kind (f : StipFields), (op, kind) ∈ ([(Instr.madd, .madd), (Instr.msub, .msub), (Instr.mneg, .mneg), (Instr.mmul, .mmul),
        (Instr.mmad, .mmad), (Instr.mmsb, .mmsb), (Instr.resc, .resc), (Instr.red, .red), (Instr.move, .move), (Instr.digit, .digit)]
        : List ((Issuer → StipFields → Instr) × StipKind)) → stipOk kind f = true →
      (∀ cn ∈ k.cells, stipBeyond ((t.cell cn).scr.task.padBound - (t.cell cn).scr.task.padBase) f.count.toNat
        (stipBases k t kind f cn) = []) →
      (f.tap = true → f.count ≠ 0 → f.ga.toNat + f.count.toNat ≤ 3
        ∧ ∀ cn ∈ k.cells, ∃ l, (t.cell cn).press.lockAt k.now = some l ∧ l.m18 = f.m18) →
      (kind.modular = true → f.count ≠ 0 → ((k.table t).use f.entry.toNat f.m18 false).isSome = true) → k.tagged t (stipRegs kind f) = none →
      ∃ u, exec (op i f) s = .next u
        ∧ ∀ cn ∈ k.cells, ∃ o, (u.chip.cell cn).stip.queue = ((t.cell cn).stip.quick k.now).queue ++ [o] ∧ o.kind = kind
        ∧ o.count = f.count.toNat ∧ o.start = max k.now (t.cell cn).stip.freeAt
        ∧ o.rowD = (t.cell cn).scr.task.padBase + k.g t cn f.gd.toNat ∧ (u.chip.cell cn).pad = (t.cell cn).pad)
    ∧ (∀ op inverse (gd gk gp logm : BitVec 4) (ss : BitVec 5) (gpv entry count bpl : Nat) (m18 : Bool) (ms : List Modulus),
      (op, inverse) ∈ ([(Instr.ntt, false), (Instr.intt, true)]
        : List ((Issuer → BitVec 4 → BitVec 4 → BitVec 4 → BitVec 4 → BitVec 5 → Instr) × Bool)) →
      burinOk logm ss = true → k.tagged t [gd.toNat, gk.toNat, gp.toNat] = none → gpv = k.g t k.lead gp.toNat → entry = bits gpv 0 10 →
      count = bits gpv 10 12 → bpl = bits gpv 29 4 → m18 = (Modulus.ofEntry (mget 0 entry (k.table t).entries)).m18 → logm ≠ 0 →
      (bit gpv 28 = true → inverse = true) →
      ((List.range (if count = 0 then 0 else (count - 1) / 2 ^ bpl + 1)).map fun l => (k.table t).use ((entry + l) % 1024) m18 true) = ms.map some →
      (∀ m ∈ ms, ss.toNat + logm.toNat ≤ m.logn) →
      (∀ cn ∈ k.cells, ∀ b, b < min count (2 ^ bpl) → k.g t cn gk.toNat + b * bits gpv 22 6 < 2 ^ ss.toNat) →
      count * 2 ^ logm.toNat % (if m18 then 16 else 8) = 0 →
      (count ≠ 0 → ∀ cn ∈ k.cells,
        ((t.cell cn).scr.task.row (k.g t cn gd.toNat) (count * 2 ^ logm.toNat / (if m18 then 16 else 8))).isSome = true) →
      ∃ u, exec (op i gd gk gp logm ss) s = .next u ∧ ∀ cn ∈ k.cells, ∃ o,
        (u.chip.cell cn).burin.queue = ((t.cell cn).burin.queue.dropWhile (BurinOp.left k.now)) ++ [o]
        ∧ o.inverse = inverse ∧ o.count = count ∧ o.m = logm.toNat ∧ o.s = ss.toNat ∧ o.start = max k.now (t.cell cn).burin.freeAt)
    ∧ (∀ (x : Instr) (form : HatchForm) (gs gd gp : BitVec 4),
      ((∃ stage span m18 logn, x = Instr.auto i stage span m18 logn gs gd gp ∧ form = .auto stage span m18 logn)
        ∨ (∃ beta pos oc, x = Instr.trans i beta pos oc gs gd gp ∧ form = .trans beta pos oc)
        ∨ (x = Instr.brev i gs gd gp ∧ form = .brev) ∨ (∃ table, x = Instr.gather i table gs gd gp ∧ form = .gather table)) →
      i.cell = none → form.ok = true → k.tagged t [gs.toNat, gd.toNat, gp.toNat] = none →
      (∀ q, q < 8 → form.shapeOk (bits (k.g t ((i.sw.toNat * 8 + q) * 64) gp.toNat) 0 12)
        (bits (k.g t ((i.sw.toNat * 8 + q) * 64) gp.toNat) 12 18) (t.panel (i.sw.toNat * 8 + q)).active = true) →
      (∀ cn ∈ k.cells, ∀ n, n = bits (k.g t (panelOf cn * 64) gp.toNat) 0 12 → n ≠ 0 →
        ((t.cell cn).scr.task.row (k.g t cn gs.toNat) n).isSome = true ∧ ((t.cell cn).scr.task.row (k.g t cn gd.toNat) n).isSome = true) →
      ∃ u, exec x s = .next u ∧ ∀ q, q < 8 → ∃ o,
        (u.chip.panel (i.sw.toNat * 8 + q)).hatch = ((t.panel (i.sw.toNat * 8 + q)).hatch.filter fun x => !x.left k.now) ++ [o]
        ∧ o.rows = bits (k.g t ((i.sw.toNat * 8 + q) * 64) gp.toNat) 0 12
        ∧ o.start = max k.now (t.panel (i.sw.toNat * 8 + q)).hatchFree)
    ∧ (∀ (x : Instr) (form : WeftForm) (gd gp : BitVec 4),
      ((∃ slot, x = Instr.expand i slot gd gp ∧ form = .expand slot
          ∧ ∀ q, q < 8 → (weftPlan t k (i.sw.toNat * 8 + q) gd gp).count ≠ 0 →
            (mfind slot.toNat (t.panel (i.sw.toNat * 8 + q)).active.seeds).isSome = true)
        ∨ (∃ dist, x = Instr.sample i dist gd gp ∧ form = .sample dist ∧ t.trust.trng ≠ 0
          ∧ ∀ q, q < 8 → (t.panel (i.sw.toNat * 8 + q)).drbg.ready = true)) →
      i.cell = none → form.ok = true →
      (∀ q, q < 8 → let w := weftPlan t k (i.sw.toNat * 8 + q) gd gp
        ((t.cell ((i.sw.toNat * 8 + q) * 64)).global k.now gd.toNat).poison = false
        ∧ ((t.cell ((i.sw.toNat * 8 + q) * 64)).global k.now gp.toNat).poison = false
        ∧ w.count ≤ 64 ∧ (w.count ≠ 0 → w.chainOk = true ∧ w.shapeOk = true
        ∧ ∀ cn ∈ panelCells (i.sw.toNat * 8 + q), ((t.cell cn).scr.task.row w.gd (w.count * w.rowsPerLimb)).isSome = true)) →
      ∃ u, exec x s = .next u ∧ ∀ q, q < 8 → ∃ o,
        (u.chip.panel (i.sw.toNat * 8 + q)).weft = ((t.panel (i.sw.toNat * 8 + q)).weft.filter fun x => !x.left k.now) ++ [o]
        ∧ o.count = (weftPlan t k (i.sw.toNat * 8 + q) gd gp).count ∧ o.start = max k.now (t.panel (i.sw.toNat * 8 + q)).weftFree)

/-- Each event of the operation that comes next acts at its plan cycle: an MMA step, a drained word, a Stipple group, a Burin row in every cell where it is due, an F-cycle of a panel's Hatch, a Weft row; ENGINE_START lets time run to the next start. Each is counted once for the partition. -/
def Obligations.EngineEventsComplete : Prop :=
  ∀ (s : State) (i : Issuer) (t : Chip) (r : Run), s.chip.held = false → t.run? i.run = some r →
    (∀ (o : PressOp) (r0 : Run) (v w u : Chip), s.chip.run? i.run = some r0 → v = s.chip.pressQuick i.cells r0.cycle →
      v.pressHead i .mma = some o → v.waitRun i.run o.dueAt = some t → w = t.pressQuick i.cells o.dueAt → w.pressLocked i o.dueAt = none →
      w.mmaStepAll i r o.dueAt = (u, []) →
      exec (.mmaStep i) s = .next (s.put (u.updCnt r.part fun c => { c with pressSteps := c.pressSteps + 1 })))
    ∧ (∀ (o : PressOp) (r0 : Run) (v w : Chip), (mmaStepsLeft i 4096 s.chip).run? i.run = some r0 →
      v = (mmaStepsLeft i 4096 s.chip).pressQuick i.cells r0.cycle → v.pressHead i .drain = some o → v.waitRun i.run o.start = some w →
      w.pressLocked i o.start = none → w.waitRun i.run o.dueAt = some t →
      exec (.drainWordLand i) s = .next (s.put (Chip.drainAll (if o.done = 0 then
        t.updCnt r.part fun c => { c with pressDrains := c.pressDrains + 1 } else t) i r o.dueAt)))
    ∧ (∀ (o : StipOp) (u : Chip) (out : List (Nat × StipOp × List (Option Row))) (sup : List Nat), s.chip.stipHead i = some o →
      s.chip.waitRun i.run o.dueAt = some t →
      (t.updCells i.cells fun _ c => { c with stip := c.stip.quick o.dueAt }).stipReadAll i r o.dueAt = (u, out, [], sup) →
      exec (.stippleGroup i) s = .next (s.put ((out.foldl (fun (t : Chip) x => t.stipWrite r o.dueAt x) u).updCnt r.part fun c =>
        { c with stpGroups := c.stpGroups + 1, stpSuppressed := c.stpSuppressed + BitVec.ofNat 32 (8 * sup.length) })))
    ∧ (∀ (o : BurinOp) (u : Chip), s.chip.burinHead i = some o → s.chip.waitRun i.run o.dueAt = some t →
      (t.burinQuick i.cells o.dueAt).burinRowAll i r o.dueAt = (u, []) →
      exec (.burinRowWrite i) s = .next (s.put (if o.rows ≤ o.done + 1 then u.updCnt r.part fun c =>
        { c with burinBfly := c.burinBfly + BitVec.ofNat 64 (o.count * o.m * 2 ^ (o.m - 1)) } else u)))
    ∧ (∀ (panel : BitVec 3) (idx p : Nat) (o o' : HatchOp) (u : Chip) (vals : List (Option Row)), p = i.sw.toNat * 8 + panel.toNat →
      (s.chip.panel p).hatchNext i.run = some (idx, o) → s.chip.waitRun i.run (o.start + o.done) = some t →
      t.hatchReads r p (o.start + o.done) o = (u, vals, none) →
      o' = (if o.byColumn && o.done < o.rows then { o with reads := o.reads ++ [vals] } else o) →
      ∃ w : Chip, exec (.hatchRowLand i panel) s = .next (s.put (w.hatchLand p (o.start + o.done) r o' vals))
        ∧ (w.panel p).hatch = lset (u.panel p).hatch idx { o' with done := o'.done + 1 } ∧ w.cells = u.cells
        ∧ (w.part r.part).cnt.hatchRows = (u.part r.part).cnt.hatchRows
          + (if o'.done + 1 = o'.cycles ∧ o'.counts = true then BitVec.ofNat 64 o'.rows else 0))
    ∧ (∀ (panel : BitVec 3) (p : Nat) (o : WeftOp) (rest : List WeftOp), p = i.sw.toNat * 8 + panel.toNat →
      ((s.chip.panel p).weft.dropWhile fun o => decide (o.total ≤ o.done)) = o :: rest → o.run = i.run →
      s.chip.waitRun i.run (o.start + 2 * o.done) = some t →
      ∃ w : Chip, exec (.weftRowLand i panel) s = .next (s.put (w.weftLand p r o))
        ∧ (w.panel p).weft = { o with done := o.done + 1 } :: rest ∧ w.cells = t.cells
        ∧ (w.part r.part).cnt.weftRows = (t.part r.part).cnt.weftRows + (if o.counts = true then 1 else 0))
    ∧ (∀ (panel : BitVec 3) (e : EngineName) (r0 : Run) (x : Nat) (rest : List Nat), s.chip.run? i.run = some r0 →
      ((s.chip.starts i panel e).filter fun x => decide (r0.cycle ≤ x)) = x :: rest → s.chip.waitRun i.run (rest.foldl min x) = some t →
      (e ≠ .press → exec (.engineStart i panel e) s = .next (s.put t))
      ∧ (e = .press → (t.pressQuick i.cells (rest.foldl min x)).pressLocked i (rest.foldl min x) = none →
        exec (.engineStart i panel e) s = .next (s.put (t.pressQuick i.cells (rest.foldl min x)))))

/-- TSTART of a sound descriptor starts the thread in every issuing cell 4 F-cycles later; ADVANCE and TSTOP move or stop a live thread; a presentation takes each cell's chosen thread; a returned unit lands; the last drained write ends the run. -/
def Obligations.SpoolCommandsComplete : Prop :=
  ∀ (s : State) (i : Issuer), s.chip.held = false →
    (∀ (k : Slot) (t : Chip) (th : BitVec 4) (desc : BitVec 8) (gr : BitVec 4) (d : ThreadDesc) (kind : ThreadKind),
      s.chip.slotOf i = (t, some k) → k.cells.Nodup → k.r.plan.threads[desc.toNat]? = some d → threadKind d.kind = some kind →
      d.shapeOk kind = true →
      (kind.bound = true → ∃ (e : IoEntry) (h : Nat), k.r.ioEntry d.binding = some (e, h)
        ∧ (kind = .tackRead ∨ e.dir = 3 ∨ ∀ b, t.bufOf h = some b → isControl b.kind = false)) →
      (∀ cn ∈ k.cells, ((t.cell cn).scr.task.row d.ringBase d.ring).isSome = true
        ∧ (kind = .tackRead → d.count ≠ 0 → ((t.cell cn).scr.task.row d.idxRow (cdiv d.count 8)).isSome = true)
        ∧ (kind ≠ .tackRead → d.count ≠ 0 →
          ∃ x, t.unitCheck k.r cn kind d (t.cell cn).scr.atask (unitNo d (if gr = 0 then 0 else k.g t cn gr.toNat) cn 0) = .ok x)
        ∧ ∀ x, mfind th.toNat (t.cell cn).threads = some x → x.idle k.now = true) →
      k.tagged t (if gr = 0 then [] else [gr.toNat]) = none →
      ∃ u, exec (.tstart i th desc gr) s = .next u ∧ ∀ cn ∈ k.cells, ∃ x, mfind th.toNat (u.chip.cell cn).threads = some x ∧ x.run = k.r.id
        ∧ x.d = d ∧ x.startAt = k.now + 4 ∧ x.moved = 0 ∧ (u.chip.cell cn).pad = (t.cell cn).pad)
    ∧ (∀ (k : Slot) (t : Chip) (th : BitVec 4) (segs : BitVec 2), s.chip.slotOf i = (t, some k) → k.cells.Nodup →
      ∃ u, exec (.advance i th segs) s = .next u ∧ u.chip.mem = t.mem ∧ ∀ cn ∈ k.cells, ∀ x, mfind th.toNat (t.cell cn).threads = some x →
        x.idle k.now = false → mfind th.toNat (u.chip.cell cn).threads
          = some ((x.settle k.now).advance k.now segs.toNat ((t.cell cn).reading th.toNat k.now)).1)
    ∧ (∀ (k : Slot) (t : Chip) (th : BitVec 4), s.chip.slotOf i = (t, some k) → k.cells.Nodup →
      ∃ u, exec (.tstop i th) s = .next u ∧ u.chip.mem = t.mem ∧ ∀ cn ∈ k.cells, ∀ x, mfind th.toNat (t.cell cn).threads = some x →
        x.idle k.now = false → mfind th.toNat (u.chip.cell cn).threads = some (({ x with stopping := true }).stopNow k.now))
    ∧ (∀ (x : Resource) (r r' : Run) (m : Nat) (t u : Chip), s.chip.run? i.run = some r → s.chip.presentNext r i x = some m →
      s.chip.waitRun i.run m = some t → t.run? i.run = some r' → t.presentAll r' i m x = (u, none) →
      (∀ cn ∈ i.cells, (u.cell cn).outstanding ≤ 32) → exec (.spoolPresent i x) s = .next (s.put u))
    ∧ (∀ (th : BitVec 4) (d : Nat), (i.cells.filterMap fun cn => (s.chip.nextBack i th.toNat cn).map (·.due)).min? = some d →
      exec (.unitLand i th) s = .next (s.put ((i.cells.filter fun cn => (s.chip.nextBack i th.toNat cn).map (·.due) == some d).foldl
        (fun (t : Chip) cn => t.landUnit i th.toNat cn) s.chip)))
    ∧ (∀ (v t : Chip) (th cn : Nat) (u : SpoolUnit) (r : Run) (x : Thread), v.nextBack i th cn = some u → v.waitRun i.run u.due = some t →
      t.run? i.run = some r → mfind u.thread (t.cell cn).threads = some x →
      v.landUnit i th cn = ((x.rowsOf u.k).zipIdx.foldl (fun t rj =>
        t.writePad r cn rj.1 (u.due + 1 + rj.2) 8 (BitVec.allOnes 8) ((u.data[rj.2]?).getD 0) ((u.poison[rj.2]?).getD false) x.bundle) t).settleUnit
          r cn u (u.due + 1 + u.kind.rows))
    ∧ (∀ (run : Nat) (r : Run), s.chip.run? run = some r → r.state = .draining → s.chip.drains r = false →
      exec (.writeDrainDone run) s = .next (s.put (s.chip.finishRun r)))

/-- A port beat takes its units' lines or rows and a read line lands; the patrol scrub visits every Lining line with an error; a presented HBM request joins its stack's queue and its slot serves it; a control read returns and lands. -/
def Obligations.MemoryPortCommandsComplete : Prop :=
  ∀ (s : State), s.chip.held = false →
    (∀ (i : Issuer) (panel : BitVec 3) (cn : Nat) (u : SpoolUnit) (rest : List (Nat × SpoolUnit)) (t v : Chip) (r : Run),
      s.chip.waitRun i.run u.due = some t → t.run? i.run = some r →
      (∀ held : Bool, s.chip.beatUnits i panel (fun u => u.kind.isRead && u.stage == .going) = (cn, u) :: rest →
        t.readBeats (plateOf i.sw.toNat) u.due ((cn, u) :: rest) = (v, held) →
        ∃ w : Chip, w = v.noteBeat r (panelOf cn) u.due (u.due + 22) false (v.unitBundle cn u)
          ∧ exec (.liningReadBeat i panel) s = .next (s.put (if held then w.stall r.id 6 cn (w.unitBundle cn u) else w)))
      ∧ (s.chip.beatUnits i panel (fun u => !u.kind.isRead && u.stage == .going) = (cn, u) :: rest →
        v = (t.settleLining (plateOf i.sw.toNat)).writeBeats (plateOf i.sw.toNat) r u.due ((cn, u) :: rest) →
        exec (.liningWriteBeat i panel) s = .next (s.put (v.noteBeat r (panelOf cn) u.due (u.due + 16) true (v.unitBundle cn u))))
      ∧ (s.chip.beatUnits i panel (fun u => u.kind.isRead && u.stage == .returning) = (cn, u) :: rest →
        exec (.liningLineLand i panel) s = .next (s.put (t.landLines r ((cn, u) :: rest)))))
    ∧ (∀ plate : BitVec 3, ∃ t, exec (.liningPatrolScrub plate) s = .next t ∧ (t.chip.lining plate.toNat).scrubbedAt = s.chip.aTick
      ∧ t.chip.requests = s.chip.requests ∧ t.chip.bufs = s.chip.bufs)
    ∧ (∀ (run cn : Nat) (h : BitVec 3) (u : SpoolUnit) (t : Chip) (r : Run) (q : HbmReq), earliest (s.chip.arrivals run h.toNat) = some (cn, u) →
      s.chip.waitRun run u.due = some t → t.run? run = some r → q = t.requestOf r cn u →
      ∃ v, exec (.hbmRequestArrive run h) s = .next v ∧ (v.chip.stack h.toNat).queue = (t.stack h.toNat).queue ++ [q]
        ∧ v.chip.mem = t.mem)
    ∧ (∀ (h : BitVec 3) (cls : SlotClass) (idx : Nat),
      ((s.chip.stack h.toNat).queue.findIdx? fun q => q.run.isNone && q.origin.isNone) = some idx →
      exec (.hbmSlotServe h .unreserved cls) s = .next (s.put (s.chip.serveAt h.toNat idx 0)))
    ∧ (∀ (h : BitVec 3) (cls : SlotClass) (run idx idx' c : Nat) (r r' : Run) (q : HbmReq) (t u : Chip) (mine : HbmReq → Bool),
      s.chip.run? run = some r → mine = (fun q => q.run == some run && q.cls == cls) →
      (s.chip.stack h.toNat).queue.findIdx? mine = some idx → (s.chip.stack h.toNat).queue[idx]? = some q →
      r.takeSlot (resKey cls.code h.toNat) (11 * r.plan.stackUnits cls.code h.toNat) 512 (max q.arrived (q.first.getD 0)) = some (r', c) →
      s.chip.waitRun run c = some t → u = (t.updRun run fun r => { r with slots := r'.slots }) →
      (q.op = .tack → exec (.hbmSlotServe h (.run run) cls) s = .next (s.put (u.serveTacks h.toNat c mine 5)))
      ∧ (q.op ≠ .tack → (u.stack h.toNat).queue.findIdx? mine = some idx' →
        exec (.hbmSlotServe h (.run run) cls) s = .next (s.put (u.serveAt h.toNat idx' c))))
    ∧ (∀ (i : Issuer) (th : BitVec 4) (late d cn : Nat) (t v : Chip) (u : SpoolUnit),
      (i.cells.filterMap fun cn => (s.chip.nextTack i th.toNat cn).map (·.due)).min? = some d → s.chip.waitRun i.run d = some t →
      v = i.cells.foldl (fun (t : Chip) cn => match s.chip.nextTack i th.toNat cn with
        | some u => if u.due = d then t.backTack cn u else t
        | none => t) t →
      (i.cells.findSome? fun cn => (s.chip.nextTack i th.toNat cn).bind fun u => if u.due = d then some (cn, u) else none) = some (cn, u) →
      exec (.controlTackReturn i th late) s = .next (s.put (unitLand i th (v.stall i.run late cn (v.unitBundle cn u)))))

/-- The next Yoke word of a source panel that wins its ports is read and is on its way to its destinations, and one that does not is dropped and counted; a Weave word lands, or is dropped; a Seam flit departs in its plan's slot and is delivered λ plan cycles later, to land 8 after that; a control flit that reaches its panel is answered by one that leaves it. -/
def Obligations.FlitCommandsComplete : Prop :=
  ∀ (s : State), s.chip.held = false →
    (∀ panel : BitVec 9, ∃ t, exec (.controlFlitDeliver panel) s = .next t ∧ t.chip.cells = s.chip.cells ∧ t.chip.runs = s.chip.runs
      ∧ t.chip.mem = s.chip.mem ∧ t.chip.time = s.chip.time
      ∧ (mget 0 0 (s.chip.panel panel.toNat).control ≠ 0 →
        mget 0 0 (t.chip.panel panel.toNat).control = mget 0 0 (s.chip.panel panel.toNat).control - 1
          ∧ mget 0 1 (t.chip.panel panel.toNat).control = mget 0 1 (s.chip.panel panel.toNat).control + 1)
      ∧ (mget 0 0 (s.chip.panel panel.toNat).control = 0 →
        mget 0 1 (t.chip.panel panel.toNat).control = mget 0 1 (s.chip.panel panel.toNat).control - 1))
    ∧ (∀ (i : Issuer) (panel : BitVec 3) (idx src : Nat) (m : YokeMove) (t : Chip) (r : Run),
      yokeNext (s.chip.swatch i.sw.toNat).moves i.run panel.toNat = some (idx, m) →
      s.chip.waitRun i.run (m.issued + 1 + m.done) = some t → t.run? i.run = some r → src = i.sw.toNat * 512 + panel.toNat * 64 + m.lane.scell →
      (m.wins ((t.swatch i.sw.toNat).moves.take idx) m.done = false → ∃ w : Chip,
        exec (.yokeWordLand i panel) s = .next (s.put (w.hazard r 4 src m.bundle)) ∧ w.cells = t.cells
          ∧ (w.part r.part).cnt.yokeDrop = (t.part r.part).cnt.yokeDrop + 1
          ∧ (w.swatch i.sw.toNat).moves = lset (t.swatch i.sw.toNat).moves idx { m with done := m.done + 1 })
      ∧ (∀ (v : Chip) (rows : List Row) (origin : Option AutoTag), m.wins ((t.swatch i.sw.toNat).moves.take idx) m.done = true →
        4 * m.done + 4 ≤ m.srcRoom → (∀ d ∈ m.dst, 4 * m.done + 4 ≤ d.2.2) →
        t.yokeRead r src (m.issued + 1 + m.done) m.done m = (v, rows, false, origin) →
        ∃ w : Chip, exec (.yokeWordLand i panel) s = .next (s.put (w.yokeWrite r m m.done rows origin)) ∧ w.cells = v.cells
          ∧ (w.part r.part).cnt.yokeWords = (v.part r.part).cnt.yokeWords + 1
          ∧ (w.swatch i.sw.toNat).moves = lset (v.swatch i.sw.toNat).moves idx { m with done := m.done + 1 }))
    ∧ (∀ (run idx : Nat) (entry : BitVec 12) (r0 r : Run) (e : WeaveEntry) (m : WeaveMove) (t : Chip),
      s.chip.run? run = some r0 → r0.weaveEntry entry.toNat = some e → e.route ≠ 2 →
      (r0.weaves.findIdx? fun m => m.entry == entry.toNat && m.landed < r0.words m) = some idx → r0.weaves[idx]? = some m →
      s.chip.waitRun run (m.issued + 1 + m.landed) = some t → t.run? run = some r →
      exec (.weaveFlitLand run entry) s = .next (s.put (t.landWord r idx e m)))
    ∧ (∀ (run : Nat) (entry : BitVec 12) (r0 r : Run) (e : WeaveEntry) (f : WeaveFlit) (t : Chip),
      s.chip.run? run = some r0 → r0.weaveEntry entry.toNat = some e → e.route = 2 →
      (r0.flits.find? fun f => f.entry == entry.toNat && f.due.isSome) = some f → s.chip.waitRun run (f.due.getD 0) = some t →
      t.run? run = some r → exec (.weaveFlitLand run entry) s = .next (s.put (t.landFlit r e f)))
    ∧ (∀ (t : Chip) (r : Run) (idx : Nat) (e : WeaveEntry) (m : WeaveMove) (u : Chip) (rows : List Row) (ps : List Bool),
      m.outside (r.plan.cellOf e.src) (r.plan.cellOf e.dst) m.landed = none →
      (e.route = 1 → t.seamMeets r (r.plan.cellOf e.dst) (m.issued + 11 + m.landed) (t.startKey r r m.entry m.issued) = false) →
      t.weaveWins r idx m.landed = true →
      (t.updMove r.id idx fun x => { x with landed := m.landed + 1, sent := m.landed + 1, read := m.landed + 1 }).weaveRead r e m m.landed
        = (u, rows, ps) →
      t.landWord r idx e m = u.weaveWrite r e m m.landed (m.issued + 1 + m.landed
        + if e.route = 0 then meshLatency (r.plan.cellOf e.src) (r.plan.cellOf e.dst) else 18) rows ps)
    ∧ (∀ (run c : Nat) (vlink : BitVec 5) (r0 r r1 r2 : Run) (f : WeaveFlit) (t u : Chip), s.chip.run? run = some r0 →
      r0.departing vlink.toNat = some f →
      r0.takeSlot (resKey 4 vlink.toNat) (s.chip.linkFrame r0 vlink.toNat).1 (s.chip.linkFrame r0 vlink.toNat).2
        (f.issued + 9 + f.word) = some (r1, c) →
      s.chip.waitRun run c = some t → t.run? run = some r →
      r.takeSlot (resKey 4 vlink.toNat) (s.chip.linkFrame r0 vlink.toNat).1 (s.chip.linkFrame r0 vlink.toNat).2
        (f.issued + 9 + f.word) = some (r2, c) →
      u = (t.updRun run fun r => { r with
        slots := r2.slots, flits := r.flits.map fun x => if x == f then { x with departed := some c } else x }) →
      exec (.seamFlitDepart run vlink) s = .next (s.put (u.watch run (.credits vlink.toNat) r0.markAt.1 r0.markAt.2)))
    ∧ (∀ (run lam : Nat) (vlink : BitVec 5) (r0 r : Run) (f : WeaveFlit) (e : WeaveEntry) (t : Chip), s.chip.run? run = some r0 →
      (r0.flits.find? fun f => f.vlink == vlink.toNat && f.departed.isSome && f.due.isNone) = some f → r0.weaveEntry f.entry = some e →
      lam = s.chip.lambda r0 e → s.chip.waitRun run (f.departed.getD 0 + lam) = some t → t.run? run = some r →
      ((t.seam (Chip.flitPort r0 e)).mode = 0
        ∨ (t.seam (Chip.flitPort r0 e)).mode = 1 ∧ ((r0.plan.seam[vlink.toNat]?).map (·.assumed)).getD 0 ≠ 0) →
      t.seamMeets r (r.plan.cellOf e.dst) (f.departed.getD 0 + lam) (t.startKey r r f.entry f.issued) = false →
      t.expressMeets r (r.plan.cellOf e.dst) (f.departed.getD 0 + lam) (t.startKey r r f.entry f.issued) = false →
      exec (.seamFlitDeliver run vlink false []) s = .next (s.put (t.updRun run fun r => { r with
        flits := r.flits.map fun x => if x == f then { x with due := some (f.departed.getD 0 + lam + 8) } else x })))
end

