-- ==== Sys2Proof/Laws/Maps.lean ====
section
/-! SUPPORT. Laws of the sparse maps and of the byte memory: read after write, other keys untouched, the canonical form kept. -/

namespace Sys2Proof.Machine

variable {α : Type}

/-! ### Sparse maps -/

@[simp] theorem mfind_mput_self (k : Nat) (v : α) (m : SMap α) : mfind k (mput k v m) = some v := by
  induction m with
  | nil => simp [mput, mfind]
  | cons e rest ih =>
    simp only [mput]
    split
    · simp [mfind]
    · split
      · simp [mfind]
      · simp [mfind, Ne.symm ‹_›, ih]

theorem mfind_mput_other {j k : Nat} (h : j ≠ k) (v : α) (m : SMap α) : mfind j (mput k v m) = mfind j m := by
  induction m with
  | nil => simp [mput, mfind, h.symm]
  | cons e rest ih =>
    simp only [mput]
    split
    · simp [mfind, h.symm]
    · split
      · subst k; simp [mfind, h.symm]
      · simp [mfind, ih]

theorem mfind_filter (k : Nat) (p : Nat → Bool) (m : SMap α) :
    mfind k (m.filter fun e => p e.1) = if p k then mfind k m else none := by
  induction m with
  | nil => simp [mfind]
  | cons x rest ih =>
    simp only [List.filter]
    by_cases hj : x.1 = k <;> cases hp : p x.1 <;> simp_all [mfind]

@[simp] theorem mfind_mdel_self (k : Nat) (m : SMap α) : mfind k (mdel k m) = none := by
  simpa [mdel] using mfind_filter k (fun j => j != k) m

theorem mfind_mdel_other {j k : Nat} (hj : j ≠ k) (m : SMap α) : mfind j (mdel k m) = mfind j m := by
  simpa [mdel, hj] using mfind_filter j (fun i => i != k) m

@[simp] theorem mget_mput_self (d : α) (k : Nat) (v : α) (m : SMap α) : mget d k (mput k v m) = v := by simp [mget]

theorem mget_mput_other (d : α) {j k : Nat} (h : j ≠ k) (v : α) (m : SMap α) : mget d j (mput k v m) = mget d j m := by
  simp [mget, mfind_mput_other h]

@[simp] theorem mget_mset_self [DecidableEq α] (d : α) (k : Nat) (v : α) (m : SMap α) : mget d k (mset d k v m) = v := by
  unfold mset; split <;> simp_all [mget]

theorem mget_mset_other [DecidableEq α] (d : α) {j k : Nat} (h : j ≠ k) (v : α) (m : SMap α) :
    mget d j (mset d k v m) = mget d j m := by
  unfold mset; split <;> simp [mget, mfind_mdel_other h, mfind_mput_other h]

@[simp] theorem mget_nil (d : α) (k : Nat) : mget d k [] = d := rfl

@[simp] theorem mget_mupd_self (d : α) (k : Nat) (f : α → α) (m : SMap α) : mget d k (mupd d k f m) = f (mget d k m) := by
  simp [mupd]

theorem mget_mupd_other (d : α) {j k : Nat} (h : j ≠ k) (f : α → α) (m : SMap α) :
    mget d j (mupd d k f m) = mget d j m := by simp [mupd, mget_mput_other _ h]

/-! ### Rising keys -/

/-- Every key of a map lies above a bound. -/
def keysAbove (b : Nat) (m : SMap α) : Prop := ∀ e ∈ m, b < e.1

theorem keysRising_cons {j : Nat} {w : α} {rest : SMap α} (h : keysRising ((j, w) :: rest) = true) :
    keysRising rest = true ∧ keysAbove j rest := by
  induction rest generalizing j w with
  | nil => simp [keysRising, keysAbove]
  | cons e rest ih =>
    obtain ⟨k, v⟩ := e
    simp only [keysRising, Bool.and_eq_true, decide_eq_true_eq] at h
    obtain ⟨hjk, hr⟩ := h
    refine ⟨hr, ?_⟩
    intro e he
    rcases List.mem_cons.1 he with rfl | he
    · exact hjk
    · exact Nat.lt_trans hjk ((ih hr).2 e he)

theorem keysRising_of_above {j : Nat} {w : α} {rest : SMap α} (hr : keysRising rest = true) (ha : keysAbove j rest) :
    keysRising ((j, w) :: rest) = true := by
  cases rest with
  | nil => rfl
  | cons e rest =>
    obtain ⟨k, v⟩ := e
    have : j < k := ha (k, v) (by simp)
    simp [keysRising, this, hr]

theorem mem_mput {k : Nat} {v : α} {m : SMap α} {e : Nat × α} (h : e ∈ mput k v m) : e = (k, v) ∨ e ∈ m := by
  induction m with
  | nil => simpa [mput] using h
  | cons x rest ih =>
    obtain ⟨j, w⟩ := x
    simp only [mput] at h
    split at h
    · simpa using h
    · split at h
      · rcases List.mem_cons.1 h with h | h
        · exact .inl h
        · exact .inr (List.mem_cons_of_mem _ h)
      · rcases List.mem_cons.1 h with h | h
        · exact .inr (by simp [h])
        · rcases ih h with h | h
          · exact .inl h
          · exact .inr (List.mem_cons_of_mem _ h)

theorem keysRising_mput (k : Nat) (v : α) (m : SMap α) (h : keysRising m = true) : keysRising (mput k v m) = true := by
  induction m with
  | nil => rfl
  | cons x rest ih =>
    obtain ⟨j, w⟩ := x
    obtain ⟨hr, ha⟩ := keysRising_cons h
    simp only [mput]
    split
    · rename_i hk
      exact keysRising_of_above h (fun e he => by
        rcases List.mem_cons.1 he with rfl | he
        · exact hk
        · exact Nat.lt_trans hk (ha e he))
    · split
      · subst k; exact keysRising_of_above hr ha
      · refine keysRising_of_above (ih hr) (fun e he => ?_)
        rcases mem_mput he with rfl | he
        · show j < k; omega
        · exact ha e he

theorem keysRising_filter (p : Nat × α → Bool) (m : SMap α) (h : keysRising m = true) :
    keysRising (m.filter p) = true := by
  induction m with
  | nil => rfl
  | cons x rest ih =>
    obtain ⟨j, w⟩ := x
    obtain ⟨hr, ha⟩ := keysRising_cons h
    simp only [List.filter]
    split
    · exact keysRising_of_above (ih hr) (fun e he => ha e (List.mem_of_mem_filter he))
    · exact ih hr

theorem keysRising_mdel (k : Nat) (m : SMap α) (h : keysRising m = true) : keysRising (mdel k m) = true := keysRising_filter _ m h

/-! ### Memory -/

theorem memory_wf_nil : Memory.wf [] := by simp [Memory.wf, keysRising]

/-- A write keeps the canonical form. -/
theorem memWrite_wf (m : Mem) (a : Nat) (b : Byte) (h : Memory.wf m) : Memory.wf (memWrite m a b) := by
  obtain ⟨hr, hd⟩ := h
  unfold memWrite mset
  split
  · exact ⟨keysRising_mdel a m hr, fun c hc => hd c (List.mem_of_mem_filter hc)⟩
  · rename_i hb
    refine ⟨keysRising_mput a b m hr, fun c hc => ?_⟩
    rcases mem_mput hc with rfl | hc
    · exact hb
    · exact hd c hc

theorem memWriteN_wf (m : Mem) (a : Nat) (bs : List Byte) (h : Memory.wf m) : Memory.wf (memWriteN m a bs) := by
  induction bs generalizing m a with
  | nil => exact h
  | cons b bs ih => exact ih _ _ (memWrite_wf m a b h)

/-- Zeroing a range keeps the canonical form. -/
theorem memClear_wf (m : Mem) (a n : Nat) (h : Memory.wf m) : Memory.wf (memClear m a n) :=
  ⟨keysRising_filter _ m h.1, fun c hc => h.2 c (List.mem_of_mem_filter hc)⟩

/-- A read after a write of the same byte. -/
@[simp] theorem memRead_memWrite_self (m : Mem) (a : Nat) (b : Byte) : memRead (memWrite m a b) a = b := mget_mset_self _ _ _ _

/-- A write leaves every other byte alone. -/
theorem memRead_memWrite_other (m : Mem) {a c : Nat} (b : Byte) (hc : c ≠ a) : memRead (memWrite m a b) c = memRead m c :=
  mget_mset_other _ hc _ _

/-- Writing bytes leaves every byte outside the range alone. -/
theorem memRead_memWriteN_other (m : Mem) (a c : Nat) (bs : List Byte)
    (hc : c < a ∨ a + bs.length ≤ c) : memRead (memWriteN m a bs) c = memRead m c := by
  induction bs generalizing m a with
  | nil => rfl
  | cons b bs ih =>
    simp only [memWriteN, List.length_cons] at hc ⊢
    rw [ih _ _ (by omega), memRead_memWrite_other m b (by omega)]

/-- Byte k of a range reads as it was written. -/
theorem memRead_memWriteN_self (m : Mem) (a k : Nat) (bs : List Byte) (hk : k < bs.length) :
    memRead (memWriteN m a bs) (a + k) = bs[k] := by
  induction bs generalizing m a k with
  | nil => simp at hk
  | cons b bs ih =>
    cases k with
    | zero =>
      simp only [memWriteN, Nat.add_zero, List.getElem_cons_zero]
      rw [memRead_memWriteN_other _ _ _ _ (by omega), memRead_memWrite_self]
    | succ k =>
      have := ih (memWrite m a b) (a + 1) k (by simpa using hk)
      simpa [memWriteN, Nat.add_assoc, Nat.add_comm 1 k] using this

/-- A zeroed byte reads zero, any other as before. -/
theorem memRead_memClear (m : Mem) (a n c : Nat) :
    memRead (memClear m a n) c = if c < a ∨ a + n ≤ c then memRead m c else 0 := by
  have := mfind_filter c (fun k => decide (k < a) || decide (a + n ≤ k)) m
  unfold memRead mget
  rw [show memClear m a n = m.filter (fun e => (fun k => decide (k < a) || decide (a + n ≤ k)) e.1) from rfl, this]
  simp only [Bool.or_eq_true, decide_eq_true_eq]
  split <;> simp [memDefault]

end Sys2Proof.Machine
end

