-- ==== Sys2Proof/Laws/State.lean ====
section
/-! SUPPORT. What each update of the package leaves alone and what a read finds after it: one small law per field and update. -/

namespace Sys2Proof.Machine

variable (s : Chip)

/-! ### Fields an update leaves alone -/

@[simp] theorem Chip.setCell_time (n : Nat) (c : Cell) : (s.setCell n c).time = s.time := rfl
@[simp] theorem Chip.setCell_fUnit (n : Nat) (c : Cell) : (s.setCell n c).fUnit = s.fUnit := rfl
@[simp] theorem Chip.setCell_panels (n : Nat) (c : Cell) : (s.setCell n c).panels = s.panels := rfl
@[simp] theorem Chip.setCell_swatches (n : Nat) (c : Cell) : (s.setCell n c).swatches = s.swatches := rfl
@[simp] theorem Chip.setCell_parts (n : Nat) (c : Cell) : (s.setCell n c).parts = s.parts := rfl
@[simp] theorem Chip.setCell_runs (n : Nat) (c : Cell) : (s.setCell n c).runs = s.runs := rfl
@[simp] theorem Chip.setCell_nextRun (n : Nat) (c : Cell) : (s.setCell n c).nextRun = s.nextRun := rfl
@[simp] theorem Chip.setCell_mem (n : Nat) (c : Cell) : (s.setCell n c).mem = s.mem := rfl
@[simp] theorem Chip.setCell_linings (n : Nat) (c : Cell) : (s.setCell n c).linings = s.linings := rfl
@[simp] theorem Chip.setCell_hbm (n : Nat) (c : Cell) : (s.setCell n c).hbm = s.hbm := rfl
@[simp] theorem Chip.setCell_seams (n : Nat) (c : Cell) : (s.setCell n c).seams = s.seams := rfl
@[simp] theorem Chip.setCell_links (n : Nat) (c : Cell) : (s.setCell n c).links = s.links := rfl
@[simp] theorem Chip.setCell_bufs (n : Nat) (c : Cell) : (s.setCell n c).bufs = s.bufs := rfl
@[simp] theorem Chip.setCell_requests (n : Nat) (c : Cell) : (s.setCell n c).requests = s.requests := rfl
@[simp] theorem Chip.setCell_nextReq (n : Nat) (c : Cell) : (s.setCell n c).nextReq = s.nextReq := rfl
@[simp] theorem Chip.setCell_tlr (n : Nat) (c : Cell) : (s.setCell n c).tlr = s.tlr := rfl
@[simp] theorem Chip.setCell_dbg (n : Nat) (c : Cell) : (s.setCell n c).dbg = s.dbg := rfl
@[simp] theorem Chip.setCell_grade (n : Nat) (c : Cell) : (s.setCell n c).grade = s.grade := rfl
@[simp] theorem Chip.setCell_life (n : Nat) (c : Cell) : (s.setCell n c).life = s.life := rfl
@[simp] theorem Chip.setCell_expert (n : Nat) (c : Cell) : (s.setCell n c).expert = s.expert := rfl
@[simp] theorem Chip.setCell_planSigning (n : Nat) (c : Cell) : (s.setCell n c).planSigning = s.planSigning := rfl
@[simp] theorem Chip.setCell_configId (n : Nat) (c : Cell) : (s.setCell n c).configId = s.configId := rfl
@[simp] theorem Chip.setCell_free (n : Nat) (c : Cell) : (s.setCell n c).free = s.free := rfl
@[simp] theorem Chip.setCell_seeds (n : Nat) (c : Cell) : (s.setCell n c).seeds = s.seeds := rfl
@[simp] theorem Chip.setCell_fabric (n : Nat) (c : Cell) : (s.setCell n c).fabric = s.fabric := rfl
@[simp] theorem Chip.setCell_plates (n : Nat) (c : Cell) : (s.setCell n c).plates = s.plates := rfl
@[simp] theorem Chip.setCell_heat (n : Nat) (c : Cell) : (s.setCell n c).heat = s.heat := rfl
@[simp] theorem Chip.setCell_power (n : Nat) (c : Cell) : (s.setCell n c).power = s.power := rfl
@[simp] theorem Chip.setCell_ledger (n : Nat) (c : Cell) : (s.setCell n c).ledger = s.ledger := rfl
@[simp] theorem Chip.setCell_trust (n : Nat) (c : Cell) : (s.setCell n c).trust = s.trust := rfl
@[simp] theorem Chip.setCell_krp (n : Nat) (c : Cell) : (s.setCell n c).krp = s.krp := rfl
@[simp] theorem Chip.setCell_pci (n : Nat) (c : Cell) : (s.setCell n c).pci = s.pci := rfl
@[simp] theorem Chip.setCell_boot (n : Nat) (c : Cell) : (s.setCell n c).boot = s.boot := rfl
@[simp] theorem Chip.setCell_mgmt (n : Nat) (c : Cell) : (s.setCell n c).mgmt = s.mgmt := rfl

@[simp] theorem Chip.updCell_time (n : Nat) (f : Cell → Cell) : (s.updCell n f).time = s.time := rfl
@[simp] theorem Chip.updCell_fUnit (n : Nat) (f : Cell → Cell) : (s.updCell n f).fUnit = s.fUnit := rfl
@[simp] theorem Chip.updCell_panels (n : Nat) (f : Cell → Cell) : (s.updCell n f).panels = s.panels := rfl
@[simp] theorem Chip.updCell_swatches (n : Nat) (f : Cell → Cell) : (s.updCell n f).swatches = s.swatches := rfl
@[simp] theorem Chip.updCell_parts (n : Nat) (f : Cell → Cell) : (s.updCell n f).parts = s.parts := rfl
@[simp] theorem Chip.updCell_runs (n : Nat) (f : Cell → Cell) : (s.updCell n f).runs = s.runs := rfl
@[simp] theorem Chip.updCell_nextRun (n : Nat) (f : Cell → Cell) : (s.updCell n f).nextRun = s.nextRun := rfl
@[simp] theorem Chip.updCell_mem (n : Nat) (f : Cell → Cell) : (s.updCell n f).mem = s.mem := rfl
@[simp] theorem Chip.updCell_linings (n : Nat) (f : Cell → Cell) : (s.updCell n f).linings = s.linings := rfl
@[simp] theorem Chip.updCell_hbm (n : Nat) (f : Cell → Cell) : (s.updCell n f).hbm = s.hbm := rfl
@[simp] theorem Chip.updCell_seams (n : Nat) (f : Cell → Cell) : (s.updCell n f).seams = s.seams := rfl
@[simp] theorem Chip.updCell_links (n : Nat) (f : Cell → Cell) : (s.updCell n f).links = s.links := rfl
@[simp] theorem Chip.updCell_bufs (n : Nat) (f : Cell → Cell) : (s.updCell n f).bufs = s.bufs := rfl
@[simp] theorem Chip.updCell_requests (n : Nat) (f : Cell → Cell) : (s.updCell n f).requests = s.requests := rfl
@[simp] theorem Chip.updCell_nextReq (n : Nat) (f : Cell → Cell) : (s.updCell n f).nextReq = s.nextReq := rfl
@[simp] theorem Chip.updCell_tlr (n : Nat) (f : Cell → Cell) : (s.updCell n f).tlr = s.tlr := rfl
@[simp] theorem Chip.updCell_dbg (n : Nat) (f : Cell → Cell) : (s.updCell n f).dbg = s.dbg := rfl
@[simp] theorem Chip.updCell_grade (n : Nat) (f : Cell → Cell) : (s.updCell n f).grade = s.grade := rfl
@[simp] theorem Chip.updCell_life (n : Nat) (f : Cell → Cell) : (s.updCell n f).life = s.life := rfl
@[simp] theorem Chip.updCell_expert (n : Nat) (f : Cell → Cell) : (s.updCell n f).expert = s.expert := rfl
@[simp] theorem Chip.updCell_planSigning (n : Nat) (f : Cell → Cell) : (s.updCell n f).planSigning = s.planSigning := rfl
@[simp] theorem Chip.updCell_configId (n : Nat) (f : Cell → Cell) : (s.updCell n f).configId = s.configId := rfl
@[simp] theorem Chip.updCell_free (n : Nat) (f : Cell → Cell) : (s.updCell n f).free = s.free := rfl
@[simp] theorem Chip.updCell_seeds (n : Nat) (f : Cell → Cell) : (s.updCell n f).seeds = s.seeds := rfl
@[simp] theorem Chip.updCell_fabric (n : Nat) (f : Cell → Cell) : (s.updCell n f).fabric = s.fabric := rfl
@[simp] theorem Chip.updCell_plates (n : Nat) (f : Cell → Cell) : (s.updCell n f).plates = s.plates := rfl
@[simp] theorem Chip.updCell_heat (n : Nat) (f : Cell → Cell) : (s.updCell n f).heat = s.heat := rfl
@[simp] theorem Chip.updCell_power (n : Nat) (f : Cell → Cell) : (s.updCell n f).power = s.power := rfl
@[simp] theorem Chip.updCell_ledger (n : Nat) (f : Cell → Cell) : (s.updCell n f).ledger = s.ledger := rfl
@[simp] theorem Chip.updCell_trust (n : Nat) (f : Cell → Cell) : (s.updCell n f).trust = s.trust := rfl
@[simp] theorem Chip.updCell_krp (n : Nat) (f : Cell → Cell) : (s.updCell n f).krp = s.krp := rfl
@[simp] theorem Chip.updCell_pci (n : Nat) (f : Cell → Cell) : (s.updCell n f).pci = s.pci := rfl
@[simp] theorem Chip.updCell_boot (n : Nat) (f : Cell → Cell) : (s.updCell n f).boot = s.boot := rfl
@[simp] theorem Chip.updCell_mgmt (n : Nat) (f : Cell → Cell) : (s.updCell n f).mgmt = s.mgmt := rfl

@[simp] theorem Chip.updPanel_time (n : Nat) (f : Panel → Panel) : (s.updPanel n f).time = s.time := rfl
@[simp] theorem Chip.updPanel_fUnit (n : Nat) (f : Panel → Panel) : (s.updPanel n f).fUnit = s.fUnit := rfl
@[simp] theorem Chip.updPanel_cells (n : Nat) (f : Panel → Panel) : (s.updPanel n f).cells = s.cells := rfl
@[simp] theorem Chip.updPanel_swatches (n : Nat) (f : Panel → Panel) : (s.updPanel n f).swatches = s.swatches := rfl
@[simp] theorem Chip.updPanel_parts (n : Nat) (f : Panel → Panel) : (s.updPanel n f).parts = s.parts := rfl
@[simp] theorem Chip.updPanel_runs (n : Nat) (f : Panel → Panel) : (s.updPanel n f).runs = s.runs := rfl
@[simp] theorem Chip.updPanel_nextRun (n : Nat) (f : Panel → Panel) : (s.updPanel n f).nextRun = s.nextRun := rfl
@[simp] theorem Chip.updPanel_mem (n : Nat) (f : Panel → Panel) : (s.updPanel n f).mem = s.mem := rfl
@[simp] theorem Chip.updPanel_linings (n : Nat) (f : Panel → Panel) : (s.updPanel n f).linings = s.linings := rfl
@[simp] theorem Chip.updPanel_hbm (n : Nat) (f : Panel → Panel) : (s.updPanel n f).hbm = s.hbm := rfl
@[simp] theorem Chip.updPanel_seams (n : Nat) (f : Panel → Panel) : (s.updPanel n f).seams = s.seams := rfl
@[simp] theorem Chip.updPanel_links (n : Nat) (f : Panel → Panel) : (s.updPanel n f).links = s.links := rfl
@[simp] theorem Chip.updPanel_bufs (n : Nat) (f : Panel → Panel) : (s.updPanel n f).bufs = s.bufs := rfl
@[simp] theorem Chip.updPanel_requests (n : Nat) (f : Panel → Panel) : (s.updPanel n f).requests = s.requests := rfl
@[simp] theorem Chip.updPanel_nextReq (n : Nat) (f : Panel → Panel) : (s.updPanel n f).nextReq = s.nextReq := rfl
@[simp] theorem Chip.updPanel_tlr (n : Nat) (f : Panel → Panel) : (s.updPanel n f).tlr = s.tlr := rfl
@[simp] theorem Chip.updPanel_dbg (n : Nat) (f : Panel → Panel) : (s.updPanel n f).dbg = s.dbg := rfl
@[simp] theorem Chip.updPanel_grade (n : Nat) (f : Panel → Panel) : (s.updPanel n f).grade = s.grade := rfl
@[simp] theorem Chip.updPanel_life (n : Nat) (f : Panel → Panel) : (s.updPanel n f).life = s.life := rfl
@[simp] theorem Chip.updPanel_expert (n : Nat) (f : Panel → Panel) : (s.updPanel n f).expert = s.expert := rfl
@[simp] theorem Chip.updPanel_planSigning (n : Nat) (f : Panel → Panel) : (s.updPanel n f).planSigning = s.planSigning := rfl
@[simp] theorem Chip.updPanel_configId (n : Nat) (f : Panel → Panel) : (s.updPanel n f).configId = s.configId := rfl
@[simp] theorem Chip.updPanel_free (n : Nat) (f : Panel → Panel) : (s.updPanel n f).free = s.free := rfl
@[simp] theorem Chip.updPanel_seeds (n : Nat) (f : Panel → Panel) : (s.updPanel n f).seeds = s.seeds := rfl
@[simp] theorem Chip.updPanel_fabric (n : Nat) (f : Panel → Panel) : (s.updPanel n f).fabric = s.fabric := rfl
@[simp] theorem Chip.updPanel_plates (n : Nat) (f : Panel → Panel) : (s.updPanel n f).plates = s.plates := rfl
@[simp] theorem Chip.updPanel_heat (n : Nat) (f : Panel → Panel) : (s.updPanel n f).heat = s.heat := rfl
@[simp] theorem Chip.updPanel_power (n : Nat) (f : Panel → Panel) : (s.updPanel n f).power = s.power := rfl
@[simp] theorem Chip.updPanel_ledger (n : Nat) (f : Panel → Panel) : (s.updPanel n f).ledger = s.ledger := rfl
@[simp] theorem Chip.updPanel_trust (n : Nat) (f : Panel → Panel) : (s.updPanel n f).trust = s.trust := rfl
@[simp] theorem Chip.updPanel_krp (n : Nat) (f : Panel → Panel) : (s.updPanel n f).krp = s.krp := rfl
@[simp] theorem Chip.updPanel_pci (n : Nat) (f : Panel → Panel) : (s.updPanel n f).pci = s.pci := rfl
@[simp] theorem Chip.updPanel_boot (n : Nat) (f : Panel → Panel) : (s.updPanel n f).boot = s.boot := rfl
@[simp] theorem Chip.updPanel_mgmt (n : Nat) (f : Panel → Panel) : (s.updPanel n f).mgmt = s.mgmt := rfl

@[simp] theorem Chip.updSwatch_time (n : Nat) (f : Swatch → Swatch) : (s.updSwatch n f).time = s.time := rfl
@[simp] theorem Chip.updSwatch_fUnit (n : Nat) (f : Swatch → Swatch) : (s.updSwatch n f).fUnit = s.fUnit := rfl
@[simp] theorem Chip.updSwatch_cells (n : Nat) (f : Swatch → Swatch) : (s.updSwatch n f).cells = s.cells := rfl
@[simp] theorem Chip.updSwatch_panels (n : Nat) (f : Swatch → Swatch) : (s.updSwatch n f).panels = s.panels := rfl
@[simp] theorem Chip.updSwatch_parts (n : Nat) (f : Swatch → Swatch) : (s.updSwatch n f).parts = s.parts := rfl
@[simp] theorem Chip.updSwatch_runs (n : Nat) (f : Swatch → Swatch) : (s.updSwatch n f).runs = s.runs := rfl
@[simp] theorem Chip.updSwatch_nextRun (n : Nat) (f : Swatch → Swatch) : (s.updSwatch n f).nextRun = s.nextRun := rfl
@[simp] theorem Chip.updSwatch_mem (n : Nat) (f : Swatch → Swatch) : (s.updSwatch n f).mem = s.mem := rfl
@[simp] theorem Chip.updSwatch_linings (n : Nat) (f : Swatch → Swatch) : (s.updSwatch n f).linings = s.linings := rfl
@[simp] theorem Chip.updSwatch_hbm (n : Nat) (f : Swatch → Swatch) : (s.updSwatch n f).hbm = s.hbm := rfl
@[simp] theorem Chip.updSwatch_seams (n : Nat) (f : Swatch → Swatch) : (s.updSwatch n f).seams = s.seams := rfl
@[simp] theorem Chip.updSwatch_links (n : Nat) (f : Swatch → Swatch) : (s.updSwatch n f).links = s.links := rfl
@[simp] theorem Chip.updSwatch_bufs (n : Nat) (f : Swatch → Swatch) : (s.updSwatch n f).bufs = s.bufs := rfl
@[simp] theorem Chip.updSwatch_requests (n : Nat) (f : Swatch → Swatch) : (s.updSwatch n f).requests = s.requests := rfl
@[simp] theorem Chip.updSwatch_nextReq (n : Nat) (f : Swatch → Swatch) : (s.updSwatch n f).nextReq = s.nextReq := rfl
@[simp] theorem Chip.updSwatch_tlr (n : Nat) (f : Swatch → Swatch) : (s.updSwatch n f).tlr = s.tlr := rfl
@[simp] theorem Chip.updSwatch_dbg (n : Nat) (f : Swatch → Swatch) : (s.updSwatch n f).dbg = s.dbg := rfl
@[simp] theorem Chip.updSwatch_grade (n : Nat) (f : Swatch → Swatch) : (s.updSwatch n f).grade = s.grade := rfl
@[simp] theorem Chip.updSwatch_life (n : Nat) (f : Swatch → Swatch) : (s.updSwatch n f).life = s.life := rfl
@[simp] theorem Chip.updSwatch_expert (n : Nat) (f : Swatch → Swatch) : (s.updSwatch n f).expert = s.expert := rfl
@[simp] theorem Chip.updSwatch_planSigning (n : Nat) (f : Swatch → Swatch) : (s.updSwatch n f).planSigning = s.planSigning := rfl
@[simp] theorem Chip.updSwatch_configId (n : Nat) (f : Swatch → Swatch) : (s.updSwatch n f).configId = s.configId := rfl
@[simp] theorem Chip.updSwatch_free (n : Nat) (f : Swatch → Swatch) : (s.updSwatch n f).free = s.free := rfl
@[simp] theorem Chip.updSwatch_seeds (n : Nat) (f : Swatch → Swatch) : (s.updSwatch n f).seeds = s.seeds := rfl
@[simp] theorem Chip.updSwatch_fabric (n : Nat) (f : Swatch → Swatch) : (s.updSwatch n f).fabric = s.fabric := rfl
@[simp] theorem Chip.updSwatch_plates (n : Nat) (f : Swatch → Swatch) : (s.updSwatch n f).plates = s.plates := rfl
@[simp] theorem Chip.updSwatch_heat (n : Nat) (f : Swatch → Swatch) : (s.updSwatch n f).heat = s.heat := rfl
@[simp] theorem Chip.updSwatch_power (n : Nat) (f : Swatch → Swatch) : (s.updSwatch n f).power = s.power := rfl
@[simp] theorem Chip.updSwatch_ledger (n : Nat) (f : Swatch → Swatch) : (s.updSwatch n f).ledger = s.ledger := rfl
@[simp] theorem Chip.updSwatch_trust (n : Nat) (f : Swatch → Swatch) : (s.updSwatch n f).trust = s.trust := rfl
@[simp] theorem Chip.updSwatch_krp (n : Nat) (f : Swatch → Swatch) : (s.updSwatch n f).krp = s.krp := rfl
@[simp] theorem Chip.updSwatch_pci (n : Nat) (f : Swatch → Swatch) : (s.updSwatch n f).pci = s.pci := rfl
@[simp] theorem Chip.updSwatch_boot (n : Nat) (f : Swatch → Swatch) : (s.updSwatch n f).boot = s.boot := rfl
@[simp] theorem Chip.updSwatch_mgmt (n : Nat) (f : Swatch → Swatch) : (s.updSwatch n f).mgmt = s.mgmt := rfl

@[simp] theorem Chip.updPart_time (n : Nat) (f : Partition → Partition) : (s.updPart n f).time = s.time := rfl
@[simp] theorem Chip.updPart_fUnit (n : Nat) (f : Partition → Partition) : (s.updPart n f).fUnit = s.fUnit := rfl
@[simp] theorem Chip.updPart_cells (n : Nat) (f : Partition → Partition) : (s.updPart n f).cells = s.cells := rfl
@[simp] theorem Chip.updPart_panels (n : Nat) (f : Partition → Partition) : (s.updPart n f).panels = s.panels := rfl
@[simp] theorem Chip.updPart_swatches (n : Nat) (f : Partition → Partition) : (s.updPart n f).swatches = s.swatches := rfl
@[simp] theorem Chip.updPart_runs (n : Nat) (f : Partition → Partition) : (s.updPart n f).runs = s.runs := rfl
@[simp] theorem Chip.updPart_nextRun (n : Nat) (f : Partition → Partition) : (s.updPart n f).nextRun = s.nextRun := rfl
@[simp] theorem Chip.updPart_mem (n : Nat) (f : Partition → Partition) : (s.updPart n f).mem = s.mem := rfl
@[simp] theorem Chip.updPart_linings (n : Nat) (f : Partition → Partition) : (s.updPart n f).linings = s.linings := rfl
@[simp] theorem Chip.updPart_hbm (n : Nat) (f : Partition → Partition) : (s.updPart n f).hbm = s.hbm := rfl
@[simp] theorem Chip.updPart_seams (n : Nat) (f : Partition → Partition) : (s.updPart n f).seams = s.seams := rfl
@[simp] theorem Chip.updPart_links (n : Nat) (f : Partition → Partition) : (s.updPart n f).links = s.links := rfl
@[simp] theorem Chip.updPart_bufs (n : Nat) (f : Partition → Partition) : (s.updPart n f).bufs = s.bufs := rfl
@[simp] theorem Chip.updPart_requests (n : Nat) (f : Partition → Partition) : (s.updPart n f).requests = s.requests := rfl
@[simp] theorem Chip.updPart_nextReq (n : Nat) (f : Partition → Partition) : (s.updPart n f).nextReq = s.nextReq := rfl
@[simp] theorem Chip.updPart_tlr (n : Nat) (f : Partition → Partition) : (s.updPart n f).tlr = s.tlr := rfl
@[simp] theorem Chip.updPart_dbg (n : Nat) (f : Partition → Partition) : (s.updPart n f).dbg = s.dbg := rfl
@[simp] theorem Chip.updPart_grade (n : Nat) (f : Partition → Partition) : (s.updPart n f).grade = s.grade := rfl
@[simp] theorem Chip.updPart_life (n : Nat) (f : Partition → Partition) : (s.updPart n f).life = s.life := rfl
@[simp] theorem Chip.updPart_expert (n : Nat) (f : Partition → Partition) : (s.updPart n f).expert = s.expert := rfl
@[simp] theorem Chip.updPart_planSigning (n : Nat) (f : Partition → Partition) : (s.updPart n f).planSigning = s.planSigning := rfl
@[simp] theorem Chip.updPart_configId (n : Nat) (f : Partition → Partition) : (s.updPart n f).configId = s.configId := rfl
@[simp] theorem Chip.updPart_free (n : Nat) (f : Partition → Partition) : (s.updPart n f).free = s.free := rfl
@[simp] theorem Chip.updPart_seeds (n : Nat) (f : Partition → Partition) : (s.updPart n f).seeds = s.seeds := rfl
@[simp] theorem Chip.updPart_fabric (n : Nat) (f : Partition → Partition) : (s.updPart n f).fabric = s.fabric := rfl
@[simp] theorem Chip.updPart_plates (n : Nat) (f : Partition → Partition) : (s.updPart n f).plates = s.plates := rfl
@[simp] theorem Chip.updPart_heat (n : Nat) (f : Partition → Partition) : (s.updPart n f).heat = s.heat := rfl
@[simp] theorem Chip.updPart_power (n : Nat) (f : Partition → Partition) : (s.updPart n f).power = s.power := rfl
@[simp] theorem Chip.updPart_ledger (n : Nat) (f : Partition → Partition) : (s.updPart n f).ledger = s.ledger := rfl
@[simp] theorem Chip.updPart_trust (n : Nat) (f : Partition → Partition) : (s.updPart n f).trust = s.trust := rfl
@[simp] theorem Chip.updPart_krp (n : Nat) (f : Partition → Partition) : (s.updPart n f).krp = s.krp := rfl
@[simp] theorem Chip.updPart_pci (n : Nat) (f : Partition → Partition) : (s.updPart n f).pci = s.pci := rfl
@[simp] theorem Chip.updPart_boot (n : Nat) (f : Partition → Partition) : (s.updPart n f).boot = s.boot := rfl
@[simp] theorem Chip.updPart_mgmt (n : Nat) (f : Partition → Partition) : (s.updPart n f).mgmt = s.mgmt := rfl

@[simp] theorem Chip.updCnt_time (n : Nat) (f : PtnCounters → PtnCounters) : (s.updCnt n f).time = s.time := rfl
@[simp] theorem Chip.updCnt_fUnit (n : Nat) (f : PtnCounters → PtnCounters) : (s.updCnt n f).fUnit = s.fUnit := rfl
@[simp] theorem Chip.updCnt_cells (n : Nat) (f : PtnCounters → PtnCounters) : (s.updCnt n f).cells = s.cells := rfl
@[simp] theorem Chip.updCnt_panels (n : Nat) (f : PtnCounters → PtnCounters) : (s.updCnt n f).panels = s.panels := rfl
@[simp] theorem Chip.updCnt_swatches (n : Nat) (f : PtnCounters → PtnCounters) : (s.updCnt n f).swatches = s.swatches := rfl
@[simp] theorem Chip.updCnt_runs (n : Nat) (f : PtnCounters → PtnCounters) : (s.updCnt n f).runs = s.runs := rfl
@[simp] theorem Chip.updCnt_nextRun (n : Nat) (f : PtnCounters → PtnCounters) : (s.updCnt n f).nextRun = s.nextRun := rfl
@[simp] theorem Chip.updCnt_mem (n : Nat) (f : PtnCounters → PtnCounters) : (s.updCnt n f).mem = s.mem := rfl
@[simp] theorem Chip.updCnt_linings (n : Nat) (f : PtnCounters → PtnCounters) : (s.updCnt n f).linings = s.linings := rfl
@[simp] theorem Chip.updCnt_hbm (n : Nat) (f : PtnCounters → PtnCounters) : (s.updCnt n f).hbm = s.hbm := rfl
@[simp] theorem Chip.updCnt_seams (n : Nat) (f : PtnCounters → PtnCounters) : (s.updCnt n f).seams = s.seams := rfl
@[simp] theorem Chip.updCnt_links (n : Nat) (f : PtnCounters → PtnCounters) : (s.updCnt n f).links = s.links := rfl
@[simp] theorem Chip.updCnt_bufs (n : Nat) (f : PtnCounters → PtnCounters) : (s.updCnt n f).bufs = s.bufs := rfl
@[simp] theorem Chip.updCnt_requests (n : Nat) (f : PtnCounters → PtnCounters) : (s.updCnt n f).requests = s.requests := rfl
@[simp] theorem Chip.updCnt_nextReq (n : Nat) (f : PtnCounters → PtnCounters) : (s.updCnt n f).nextReq = s.nextReq := rfl
@[simp] theorem Chip.updCnt_tlr (n : Nat) (f : PtnCounters → PtnCounters) : (s.updCnt n f).tlr = s.tlr := rfl
@[simp] theorem Chip.updCnt_dbg (n : Nat) (f : PtnCounters → PtnCounters) : (s.updCnt n f).dbg = s.dbg := rfl
@[simp] theorem Chip.updCnt_grade (n : Nat) (f : PtnCounters → PtnCounters) : (s.updCnt n f).grade = s.grade := rfl
@[simp] theorem Chip.updCnt_life (n : Nat) (f : PtnCounters → PtnCounters) : (s.updCnt n f).life = s.life := rfl
@[simp] theorem Chip.updCnt_expert (n : Nat) (f : PtnCounters → PtnCounters) : (s.updCnt n f).expert = s.expert := rfl
@[simp] theorem Chip.updCnt_planSigning (n : Nat) (f : PtnCounters → PtnCounters) : (s.updCnt n f).planSigning = s.planSigning := rfl
@[simp] theorem Chip.updCnt_configId (n : Nat) (f : PtnCounters → PtnCounters) : (s.updCnt n f).configId = s.configId := rfl
@[simp] theorem Chip.updCnt_free (n : Nat) (f : PtnCounters → PtnCounters) : (s.updCnt n f).free = s.free := rfl
@[simp] theorem Chip.updCnt_seeds (n : Nat) (f : PtnCounters → PtnCounters) : (s.updCnt n f).seeds = s.seeds := rfl
@[simp] theorem Chip.updCnt_fabric (n : Nat) (f : PtnCounters → PtnCounters) : (s.updCnt n f).fabric = s.fabric := rfl
@[simp] theorem Chip.updCnt_plates (n : Nat) (f : PtnCounters → PtnCounters) : (s.updCnt n f).plates = s.plates := rfl
@[simp] theorem Chip.updCnt_heat (n : Nat) (f : PtnCounters → PtnCounters) : (s.updCnt n f).heat = s.heat := rfl
@[simp] theorem Chip.updCnt_power (n : Nat) (f : PtnCounters → PtnCounters) : (s.updCnt n f).power = s.power := rfl
@[simp] theorem Chip.updCnt_ledger (n : Nat) (f : PtnCounters → PtnCounters) : (s.updCnt n f).ledger = s.ledger := rfl
@[simp] theorem Chip.updCnt_trust (n : Nat) (f : PtnCounters → PtnCounters) : (s.updCnt n f).trust = s.trust := rfl
@[simp] theorem Chip.updCnt_krp (n : Nat) (f : PtnCounters → PtnCounters) : (s.updCnt n f).krp = s.krp := rfl
@[simp] theorem Chip.updCnt_pci (n : Nat) (f : PtnCounters → PtnCounters) : (s.updCnt n f).pci = s.pci := rfl
@[simp] theorem Chip.updCnt_boot (n : Nat) (f : PtnCounters → PtnCounters) : (s.updCnt n f).boot = s.boot := rfl
@[simp] theorem Chip.updCnt_mgmt (n : Nat) (f : PtnCounters → PtnCounters) : (s.updCnt n f).mgmt = s.mgmt := rfl

@[simp] theorem Chip.updRegs_time (n : Nat) (f : PtnPlan → PtnPlan) : (s.updRegs n f).time = s.time := rfl
@[simp] theorem Chip.updRegs_fUnit (n : Nat) (f : PtnPlan → PtnPlan) : (s.updRegs n f).fUnit = s.fUnit := rfl
@[simp] theorem Chip.updRegs_cells (n : Nat) (f : PtnPlan → PtnPlan) : (s.updRegs n f).cells = s.cells := rfl
@[simp] theorem Chip.updRegs_panels (n : Nat) (f : PtnPlan → PtnPlan) : (s.updRegs n f).panels = s.panels := rfl
@[simp] theorem Chip.updRegs_swatches (n : Nat) (f : PtnPlan → PtnPlan) : (s.updRegs n f).swatches = s.swatches := rfl
@[simp] theorem Chip.updRegs_runs (n : Nat) (f : PtnPlan → PtnPlan) : (s.updRegs n f).runs = s.runs := rfl
@[simp] theorem Chip.updRegs_nextRun (n : Nat) (f : PtnPlan → PtnPlan) : (s.updRegs n f).nextRun = s.nextRun := rfl
@[simp] theorem Chip.updRegs_mem (n : Nat) (f : PtnPlan → PtnPlan) : (s.updRegs n f).mem = s.mem := rfl
@[simp] theorem Chip.updRegs_linings (n : Nat) (f : PtnPlan → PtnPlan) : (s.updRegs n f).linings = s.linings := rfl
@[simp] theorem Chip.updRegs_hbm (n : Nat) (f : PtnPlan → PtnPlan) : (s.updRegs n f).hbm = s.hbm := rfl
@[simp] theorem Chip.updRegs_seams (n : Nat) (f : PtnPlan → PtnPlan) : (s.updRegs n f).seams = s.seams := rfl
@[simp] theorem Chip.updRegs_links (n : Nat) (f : PtnPlan → PtnPlan) : (s.updRegs n f).links = s.links := rfl
@[simp] theorem Chip.updRegs_bufs (n : Nat) (f : PtnPlan → PtnPlan) : (s.updRegs n f).bufs = s.bufs := rfl
@[simp] theorem Chip.updRegs_requests (n : Nat) (f : PtnPlan → PtnPlan) : (s.updRegs n f).requests = s.requests := rfl
@[simp] theorem Chip.updRegs_nextReq (n : Nat) (f : PtnPlan → PtnPlan) : (s.updRegs n f).nextReq = s.nextReq := rfl
@[simp] theorem Chip.updRegs_tlr (n : Nat) (f : PtnPlan → PtnPlan) : (s.updRegs n f).tlr = s.tlr := rfl
@[simp] theorem Chip.updRegs_dbg (n : Nat) (f : PtnPlan → PtnPlan) : (s.updRegs n f).dbg = s.dbg := rfl
@[simp] theorem Chip.updRegs_grade (n : Nat) (f : PtnPlan → PtnPlan) : (s.updRegs n f).grade = s.grade := rfl
@[simp] theorem Chip.updRegs_life (n : Nat) (f : PtnPlan → PtnPlan) : (s.updRegs n f).life = s.life := rfl
@[simp] theorem Chip.updRegs_expert (n : Nat) (f : PtnPlan → PtnPlan) : (s.updRegs n f).expert = s.expert := rfl
@[simp] theorem Chip.updRegs_planSigning (n : Nat) (f : PtnPlan → PtnPlan) : (s.updRegs n f).planSigning = s.planSigning := rfl
@[simp] theorem Chip.updRegs_configId (n : Nat) (f : PtnPlan → PtnPlan) : (s.updRegs n f).configId = s.configId := rfl
@[simp] theorem Chip.updRegs_free (n : Nat) (f : PtnPlan → PtnPlan) : (s.updRegs n f).free = s.free := rfl
@[simp] theorem Chip.updRegs_seeds (n : Nat) (f : PtnPlan → PtnPlan) : (s.updRegs n f).seeds = s.seeds := rfl
@[simp] theorem Chip.updRegs_fabric (n : Nat) (f : PtnPlan → PtnPlan) : (s.updRegs n f).fabric = s.fabric := rfl
@[simp] theorem Chip.updRegs_plates (n : Nat) (f : PtnPlan → PtnPlan) : (s.updRegs n f).plates = s.plates := rfl
@[simp] theorem Chip.updRegs_heat (n : Nat) (f : PtnPlan → PtnPlan) : (s.updRegs n f).heat = s.heat := rfl
@[simp] theorem Chip.updRegs_power (n : Nat) (f : PtnPlan → PtnPlan) : (s.updRegs n f).power = s.power := rfl
@[simp] theorem Chip.updRegs_ledger (n : Nat) (f : PtnPlan → PtnPlan) : (s.updRegs n f).ledger = s.ledger := rfl
@[simp] theorem Chip.updRegs_trust (n : Nat) (f : PtnPlan → PtnPlan) : (s.updRegs n f).trust = s.trust := rfl
@[simp] theorem Chip.updRegs_krp (n : Nat) (f : PtnPlan → PtnPlan) : (s.updRegs n f).krp = s.krp := rfl
@[simp] theorem Chip.updRegs_pci (n : Nat) (f : PtnPlan → PtnPlan) : (s.updRegs n f).pci = s.pci := rfl
@[simp] theorem Chip.updRegs_boot (n : Nat) (f : PtnPlan → PtnPlan) : (s.updRegs n f).boot = s.boot := rfl
@[simp] theorem Chip.updRegs_mgmt (n : Nat) (f : PtnPlan → PtnPlan) : (s.updRegs n f).mgmt = s.mgmt := rfl

@[simp] theorem Chip.raisePart_time (n k : Nat) : (s.raisePart n k).time = s.time := rfl
@[simp] theorem Chip.raisePart_fUnit (n k : Nat) : (s.raisePart n k).fUnit = s.fUnit := rfl
@[simp] theorem Chip.raisePart_cells (n k : Nat) : (s.raisePart n k).cells = s.cells := rfl
@[simp] theorem Chip.raisePart_panels (n k : Nat) : (s.raisePart n k).panels = s.panels := rfl
@[simp] theorem Chip.raisePart_swatches (n k : Nat) : (s.raisePart n k).swatches = s.swatches := rfl
@[simp] theorem Chip.raisePart_runs (n k : Nat) : (s.raisePart n k).runs = s.runs := rfl
@[simp] theorem Chip.raisePart_nextRun (n k : Nat) : (s.raisePart n k).nextRun = s.nextRun := rfl
@[simp] theorem Chip.raisePart_mem (n k : Nat) : (s.raisePart n k).mem = s.mem := rfl
@[simp] theorem Chip.raisePart_linings (n k : Nat) : (s.raisePart n k).linings = s.linings := rfl
@[simp] theorem Chip.raisePart_hbm (n k : Nat) : (s.raisePart n k).hbm = s.hbm := rfl
@[simp] theorem Chip.raisePart_seams (n k : Nat) : (s.raisePart n k).seams = s.seams := rfl
@[simp] theorem Chip.raisePart_links (n k : Nat) : (s.raisePart n k).links = s.links := rfl
@[simp] theorem Chip.raisePart_bufs (n k : Nat) : (s.raisePart n k).bufs = s.bufs := rfl
@[simp] theorem Chip.raisePart_requests (n k : Nat) : (s.raisePart n k).requests = s.requests := rfl
@[simp] theorem Chip.raisePart_nextReq (n k : Nat) : (s.raisePart n k).nextReq = s.nextReq := rfl
@[simp] theorem Chip.raisePart_tlr (n k : Nat) : (s.raisePart n k).tlr = s.tlr := rfl
@[simp] theorem Chip.raisePart_dbg (n k : Nat) : (s.raisePart n k).dbg = s.dbg := rfl
@[simp] theorem Chip.raisePart_grade (n k : Nat) : (s.raisePart n k).grade = s.grade := rfl
@[simp] theorem Chip.raisePart_life (n k : Nat) : (s.raisePart n k).life = s.life := rfl
@[simp] theorem Chip.raisePart_expert (n k : Nat) : (s.raisePart n k).expert = s.expert := rfl
@[simp] theorem Chip.raisePart_planSigning (n k : Nat) : (s.raisePart n k).planSigning = s.planSigning := rfl
@[simp] theorem Chip.raisePart_configId (n k : Nat) : (s.raisePart n k).configId = s.configId := rfl
@[simp] theorem Chip.raisePart_free (n k : Nat) : (s.raisePart n k).free = s.free := rfl
@[simp] theorem Chip.raisePart_seeds (n k : Nat) : (s.raisePart n k).seeds = s.seeds := rfl
@[simp] theorem Chip.raisePart_fabric (n k : Nat) : (s.raisePart n k).fabric = s.fabric := rfl
@[simp] theorem Chip.raisePart_plates (n k : Nat) : (s.raisePart n k).plates = s.plates := rfl
@[simp] theorem Chip.raisePart_heat (n k : Nat) : (s.raisePart n k).heat = s.heat := rfl
@[simp] theorem Chip.raisePart_power (n k : Nat) : (s.raisePart n k).power = s.power := rfl
@[simp] theorem Chip.raisePart_ledger (n k : Nat) : (s.raisePart n k).ledger = s.ledger := rfl
@[simp] theorem Chip.raisePart_trust (n k : Nat) : (s.raisePart n k).trust = s.trust := rfl
@[simp] theorem Chip.raisePart_krp (n k : Nat) : (s.raisePart n k).krp = s.krp := rfl
@[simp] theorem Chip.raisePart_pci (n k : Nat) : (s.raisePart n k).pci = s.pci := rfl
@[simp] theorem Chip.raisePart_boot (n k : Nat) : (s.raisePart n k).boot = s.boot := rfl
@[simp] theorem Chip.raisePart_mgmt (n k : Nat) : (s.raisePart n k).mgmt = s.mgmt := rfl

@[simp] theorem Chip.updRing_time (n k : Nat) (f : Ring → Ring) : (s.updRing n k f).time = s.time := rfl
@[simp] theorem Chip.updRing_fUnit (n k : Nat) (f : Ring → Ring) : (s.updRing n k f).fUnit = s.fUnit := rfl
@[simp] theorem Chip.updRing_cells (n k : Nat) (f : Ring → Ring) : (s.updRing n k f).cells = s.cells := rfl
@[simp] theorem Chip.updRing_panels (n k : Nat) (f : Ring → Ring) : (s.updRing n k f).panels = s.panels := rfl
@[simp] theorem Chip.updRing_swatches (n k : Nat) (f : Ring → Ring) : (s.updRing n k f).swatches = s.swatches := rfl
@[simp] theorem Chip.updRing_runs (n k : Nat) (f : Ring → Ring) : (s.updRing n k f).runs = s.runs := rfl
@[simp] theorem Chip.updRing_nextRun (n k : Nat) (f : Ring → Ring) : (s.updRing n k f).nextRun = s.nextRun := rfl
@[simp] theorem Chip.updRing_mem (n k : Nat) (f : Ring → Ring) : (s.updRing n k f).mem = s.mem := rfl
@[simp] theorem Chip.updRing_linings (n k : Nat) (f : Ring → Ring) : (s.updRing n k f).linings = s.linings := rfl
@[simp] theorem Chip.updRing_hbm (n k : Nat) (f : Ring → Ring) : (s.updRing n k f).hbm = s.hbm := rfl
@[simp] theorem Chip.updRing_seams (n k : Nat) (f : Ring → Ring) : (s.updRing n k f).seams = s.seams := rfl
@[simp] theorem Chip.updRing_links (n k : Nat) (f : Ring → Ring) : (s.updRing n k f).links = s.links := rfl
@[simp] theorem Chip.updRing_bufs (n k : Nat) (f : Ring → Ring) : (s.updRing n k f).bufs = s.bufs := rfl
@[simp] theorem Chip.updRing_requests (n k : Nat) (f : Ring → Ring) : (s.updRing n k f).requests = s.requests := rfl
@[simp] theorem Chip.updRing_nextReq (n k : Nat) (f : Ring → Ring) : (s.updRing n k f).nextReq = s.nextReq := rfl
@[simp] theorem Chip.updRing_tlr (n k : Nat) (f : Ring → Ring) : (s.updRing n k f).tlr = s.tlr := rfl
@[simp] theorem Chip.updRing_dbg (n k : Nat) (f : Ring → Ring) : (s.updRing n k f).dbg = s.dbg := rfl
@[simp] theorem Chip.updRing_grade (n k : Nat) (f : Ring → Ring) : (s.updRing n k f).grade = s.grade := rfl
@[simp] theorem Chip.updRing_life (n k : Nat) (f : Ring → Ring) : (s.updRing n k f).life = s.life := rfl
@[simp] theorem Chip.updRing_expert (n k : Nat) (f : Ring → Ring) : (s.updRing n k f).expert = s.expert := rfl
@[simp] theorem Chip.updRing_planSigning (n k : Nat) (f : Ring → Ring) : (s.updRing n k f).planSigning = s.planSigning := rfl
@[simp] theorem Chip.updRing_configId (n k : Nat) (f : Ring → Ring) : (s.updRing n k f).configId = s.configId := rfl
@[simp] theorem Chip.updRing_free (n k : Nat) (f : Ring → Ring) : (s.updRing n k f).free = s.free := rfl
@[simp] theorem Chip.updRing_seeds (n k : Nat) (f : Ring → Ring) : (s.updRing n k f).seeds = s.seeds := rfl
@[simp] theorem Chip.updRing_fabric (n k : Nat) (f : Ring → Ring) : (s.updRing n k f).fabric = s.fabric := rfl
@[simp] theorem Chip.updRing_plates (n k : Nat) (f : Ring → Ring) : (s.updRing n k f).plates = s.plates := rfl
@[simp] theorem Chip.updRing_heat (n k : Nat) (f : Ring → Ring) : (s.updRing n k f).heat = s.heat := rfl
@[simp] theorem Chip.updRing_power (n k : Nat) (f : Ring → Ring) : (s.updRing n k f).power = s.power := rfl
@[simp] theorem Chip.updRing_ledger (n k : Nat) (f : Ring → Ring) : (s.updRing n k f).ledger = s.ledger := rfl
@[simp] theorem Chip.updRing_trust (n k : Nat) (f : Ring → Ring) : (s.updRing n k f).trust = s.trust := rfl
@[simp] theorem Chip.updRing_krp (n k : Nat) (f : Ring → Ring) : (s.updRing n k f).krp = s.krp := rfl
@[simp] theorem Chip.updRing_pci (n k : Nat) (f : Ring → Ring) : (s.updRing n k f).pci = s.pci := rfl
@[simp] theorem Chip.updRing_boot (n k : Nat) (f : Ring → Ring) : (s.updRing n k f).boot = s.boot := rfl
@[simp] theorem Chip.updRing_mgmt (n k : Nat) (f : Ring → Ring) : (s.updRing n k f).mgmt = s.mgmt := rfl

@[simp] theorem Chip.updLining_time (n : Nat) (f : Lining → Lining) : (s.updLining n f).time = s.time := rfl
@[simp] theorem Chip.updLining_fUnit (n : Nat) (f : Lining → Lining) : (s.updLining n f).fUnit = s.fUnit := rfl
@[simp] theorem Chip.updLining_cells (n : Nat) (f : Lining → Lining) : (s.updLining n f).cells = s.cells := rfl
@[simp] theorem Chip.updLining_panels (n : Nat) (f : Lining → Lining) : (s.updLining n f).panels = s.panels := rfl
@[simp] theorem Chip.updLining_swatches (n : Nat) (f : Lining → Lining) : (s.updLining n f).swatches = s.swatches := rfl
@[simp] theorem Chip.updLining_parts (n : Nat) (f : Lining → Lining) : (s.updLining n f).parts = s.parts := rfl
@[simp] theorem Chip.updLining_runs (n : Nat) (f : Lining → Lining) : (s.updLining n f).runs = s.runs := rfl
@[simp] theorem Chip.updLining_nextRun (n : Nat) (f : Lining → Lining) : (s.updLining n f).nextRun = s.nextRun := rfl
@[simp] theorem Chip.updLining_mem (n : Nat) (f : Lining → Lining) : (s.updLining n f).mem = s.mem := rfl
@[simp] theorem Chip.updLining_hbm (n : Nat) (f : Lining → Lining) : (s.updLining n f).hbm = s.hbm := rfl
@[simp] theorem Chip.updLining_seams (n : Nat) (f : Lining → Lining) : (s.updLining n f).seams = s.seams := rfl
@[simp] theorem Chip.updLining_links (n : Nat) (f : Lining → Lining) : (s.updLining n f).links = s.links := rfl
@[simp] theorem Chip.updLining_bufs (n : Nat) (f : Lining → Lining) : (s.updLining n f).bufs = s.bufs := rfl
@[simp] theorem Chip.updLining_requests (n : Nat) (f : Lining → Lining) : (s.updLining n f).requests = s.requests := rfl
@[simp] theorem Chip.updLining_nextReq (n : Nat) (f : Lining → Lining) : (s.updLining n f).nextReq = s.nextReq := rfl
@[simp] theorem Chip.updLining_tlr (n : Nat) (f : Lining → Lining) : (s.updLining n f).tlr = s.tlr := rfl
@[simp] theorem Chip.updLining_dbg (n : Nat) (f : Lining → Lining) : (s.updLining n f).dbg = s.dbg := rfl
@[simp] theorem Chip.updLining_grade (n : Nat) (f : Lining → Lining) : (s.updLining n f).grade = s.grade := rfl
@[simp] theorem Chip.updLining_life (n : Nat) (f : Lining → Lining) : (s.updLining n f).life = s.life := rfl
@[simp] theorem Chip.updLining_expert (n : Nat) (f : Lining → Lining) : (s.updLining n f).expert = s.expert := rfl
@[simp] theorem Chip.updLining_planSigning (n : Nat) (f : Lining → Lining) : (s.updLining n f).planSigning = s.planSigning := rfl
@[simp] theorem Chip.updLining_configId (n : Nat) (f : Lining → Lining) : (s.updLining n f).configId = s.configId := rfl
@[simp] theorem Chip.updLining_free (n : Nat) (f : Lining → Lining) : (s.updLining n f).free = s.free := rfl
@[simp] theorem Chip.updLining_seeds (n : Nat) (f : Lining → Lining) : (s.updLining n f).seeds = s.seeds := rfl
@[simp] theorem Chip.updLining_fabric (n : Nat) (f : Lining → Lining) : (s.updLining n f).fabric = s.fabric := rfl
@[simp] theorem Chip.updLining_plates (n : Nat) (f : Lining → Lining) : (s.updLining n f).plates = s.plates := rfl
@[simp] theorem Chip.updLining_heat (n : Nat) (f : Lining → Lining) : (s.updLining n f).heat = s.heat := rfl
@[simp] theorem Chip.updLining_power (n : Nat) (f : Lining → Lining) : (s.updLining n f).power = s.power := rfl
@[simp] theorem Chip.updLining_ledger (n : Nat) (f : Lining → Lining) : (s.updLining n f).ledger = s.ledger := rfl
@[simp] theorem Chip.updLining_trust (n : Nat) (f : Lining → Lining) : (s.updLining n f).trust = s.trust := rfl
@[simp] theorem Chip.updLining_krp (n : Nat) (f : Lining → Lining) : (s.updLining n f).krp = s.krp := rfl
@[simp] theorem Chip.updLining_pci (n : Nat) (f : Lining → Lining) : (s.updLining n f).pci = s.pci := rfl
@[simp] theorem Chip.updLining_boot (n : Nat) (f : Lining → Lining) : (s.updLining n f).boot = s.boot := rfl
@[simp] theorem Chip.updLining_mgmt (n : Nat) (f : Lining → Lining) : (s.updLining n f).mgmt = s.mgmt := rfl

@[simp] theorem Chip.updStack_time (n : Nat) (f : Stack → Stack) : (s.updStack n f).time = s.time := rfl
@[simp] theorem Chip.updStack_fUnit (n : Nat) (f : Stack → Stack) : (s.updStack n f).fUnit = s.fUnit := rfl
@[simp] theorem Chip.updStack_cells (n : Nat) (f : Stack → Stack) : (s.updStack n f).cells = s.cells := rfl
@[simp] theorem Chip.updStack_panels (n : Nat) (f : Stack → Stack) : (s.updStack n f).panels = s.panels := rfl
@[simp] theorem Chip.updStack_swatches (n : Nat) (f : Stack → Stack) : (s.updStack n f).swatches = s.swatches := rfl
@[simp] theorem Chip.updStack_parts (n : Nat) (f : Stack → Stack) : (s.updStack n f).parts = s.parts := rfl
@[simp] theorem Chip.updStack_runs (n : Nat) (f : Stack → Stack) : (s.updStack n f).runs = s.runs := rfl
@[simp] theorem Chip.updStack_nextRun (n : Nat) (f : Stack → Stack) : (s.updStack n f).nextRun = s.nextRun := rfl
@[simp] theorem Chip.updStack_mem (n : Nat) (f : Stack → Stack) : (s.updStack n f).mem = s.mem := rfl
@[simp] theorem Chip.updStack_linings (n : Nat) (f : Stack → Stack) : (s.updStack n f).linings = s.linings := rfl
@[simp] theorem Chip.updStack_seams (n : Nat) (f : Stack → Stack) : (s.updStack n f).seams = s.seams := rfl
@[simp] theorem Chip.updStack_links (n : Nat) (f : Stack → Stack) : (s.updStack n f).links = s.links := rfl
@[simp] theorem Chip.updStack_bufs (n : Nat) (f : Stack → Stack) : (s.updStack n f).bufs = s.bufs := rfl
@[simp] theorem Chip.updStack_requests (n : Nat) (f : Stack → Stack) : (s.updStack n f).requests = s.requests := rfl
@[simp] theorem Chip.updStack_nextReq (n : Nat) (f : Stack → Stack) : (s.updStack n f).nextReq = s.nextReq := rfl
@[simp] theorem Chip.updStack_tlr (n : Nat) (f : Stack → Stack) : (s.updStack n f).tlr = s.tlr := rfl
@[simp] theorem Chip.updStack_dbg (n : Nat) (f : Stack → Stack) : (s.updStack n f).dbg = s.dbg := rfl
@[simp] theorem Chip.updStack_grade (n : Nat) (f : Stack → Stack) : (s.updStack n f).grade = s.grade := rfl
@[simp] theorem Chip.updStack_life (n : Nat) (f : Stack → Stack) : (s.updStack n f).life = s.life := rfl
@[simp] theorem Chip.updStack_expert (n : Nat) (f : Stack → Stack) : (s.updStack n f).expert = s.expert := rfl
@[simp] theorem Chip.updStack_planSigning (n : Nat) (f : Stack → Stack) : (s.updStack n f).planSigning = s.planSigning := rfl
@[simp] theorem Chip.updStack_configId (n : Nat) (f : Stack → Stack) : (s.updStack n f).configId = s.configId := rfl
@[simp] theorem Chip.updStack_free (n : Nat) (f : Stack → Stack) : (s.updStack n f).free = s.free := rfl
@[simp] theorem Chip.updStack_seeds (n : Nat) (f : Stack → Stack) : (s.updStack n f).seeds = s.seeds := rfl
@[simp] theorem Chip.updStack_fabric (n : Nat) (f : Stack → Stack) : (s.updStack n f).fabric = s.fabric := rfl
@[simp] theorem Chip.updStack_plates (n : Nat) (f : Stack → Stack) : (s.updStack n f).plates = s.plates := rfl
@[simp] theorem Chip.updStack_heat (n : Nat) (f : Stack → Stack) : (s.updStack n f).heat = s.heat := rfl
@[simp] theorem Chip.updStack_power (n : Nat) (f : Stack → Stack) : (s.updStack n f).power = s.power := rfl
@[simp] theorem Chip.updStack_ledger (n : Nat) (f : Stack → Stack) : (s.updStack n f).ledger = s.ledger := rfl
@[simp] theorem Chip.updStack_trust (n : Nat) (f : Stack → Stack) : (s.updStack n f).trust = s.trust := rfl
@[simp] theorem Chip.updStack_krp (n : Nat) (f : Stack → Stack) : (s.updStack n f).krp = s.krp := rfl
@[simp] theorem Chip.updStack_pci (n : Nat) (f : Stack → Stack) : (s.updStack n f).pci = s.pci := rfl
@[simp] theorem Chip.updStack_boot (n : Nat) (f : Stack → Stack) : (s.updStack n f).boot = s.boot := rfl
@[simp] theorem Chip.updStack_mgmt (n : Nat) (f : Stack → Stack) : (s.updStack n f).mgmt = s.mgmt := rfl

@[simp] theorem Chip.updSeam_time (n : Nat) (f : SeamPort → SeamPort) : (s.updSeam n f).time = s.time := rfl
@[simp] theorem Chip.updSeam_fUnit (n : Nat) (f : SeamPort → SeamPort) : (s.updSeam n f).fUnit = s.fUnit := rfl
@[simp] theorem Chip.updSeam_cells (n : Nat) (f : SeamPort → SeamPort) : (s.updSeam n f).cells = s.cells := rfl
@[simp] theorem Chip.updSeam_panels (n : Nat) (f : SeamPort → SeamPort) : (s.updSeam n f).panels = s.panels := rfl
@[simp] theorem Chip.updSeam_swatches (n : Nat) (f : SeamPort → SeamPort) : (s.updSeam n f).swatches = s.swatches := rfl
@[simp] theorem Chip.updSeam_parts (n : Nat) (f : SeamPort → SeamPort) : (s.updSeam n f).parts = s.parts := rfl
@[simp] theorem Chip.updSeam_runs (n : Nat) (f : SeamPort → SeamPort) : (s.updSeam n f).runs = s.runs := rfl
@[simp] theorem Chip.updSeam_nextRun (n : Nat) (f : SeamPort → SeamPort) : (s.updSeam n f).nextRun = s.nextRun := rfl
@[simp] theorem Chip.updSeam_mem (n : Nat) (f : SeamPort → SeamPort) : (s.updSeam n f).mem = s.mem := rfl
@[simp] theorem Chip.updSeam_linings (n : Nat) (f : SeamPort → SeamPort) : (s.updSeam n f).linings = s.linings := rfl
@[simp] theorem Chip.updSeam_hbm (n : Nat) (f : SeamPort → SeamPort) : (s.updSeam n f).hbm = s.hbm := rfl
@[simp] theorem Chip.updSeam_links (n : Nat) (f : SeamPort → SeamPort) : (s.updSeam n f).links = s.links := rfl
@[simp] theorem Chip.updSeam_bufs (n : Nat) (f : SeamPort → SeamPort) : (s.updSeam n f).bufs = s.bufs := rfl
@[simp] theorem Chip.updSeam_requests (n : Nat) (f : SeamPort → SeamPort) : (s.updSeam n f).requests = s.requests := rfl
@[simp] theorem Chip.updSeam_nextReq (n : Nat) (f : SeamPort → SeamPort) : (s.updSeam n f).nextReq = s.nextReq := rfl
@[simp] theorem Chip.updSeam_tlr (n : Nat) (f : SeamPort → SeamPort) : (s.updSeam n f).tlr = s.tlr := rfl
@[simp] theorem Chip.updSeam_dbg (n : Nat) (f : SeamPort → SeamPort) : (s.updSeam n f).dbg = s.dbg := rfl
@[simp] theorem Chip.updSeam_grade (n : Nat) (f : SeamPort → SeamPort) : (s.updSeam n f).grade = s.grade := rfl
@[simp] theorem Chip.updSeam_life (n : Nat) (f : SeamPort → SeamPort) : (s.updSeam n f).life = s.life := rfl
@[simp] theorem Chip.updSeam_expert (n : Nat) (f : SeamPort → SeamPort) : (s.updSeam n f).expert = s.expert := rfl
@[simp] theorem Chip.updSeam_planSigning (n : Nat) (f : SeamPort → SeamPort) : (s.updSeam n f).planSigning = s.planSigning := rfl
@[simp] theorem Chip.updSeam_configId (n : Nat) (f : SeamPort → SeamPort) : (s.updSeam n f).configId = s.configId := rfl
@[simp] theorem Chip.updSeam_free (n : Nat) (f : SeamPort → SeamPort) : (s.updSeam n f).free = s.free := rfl
@[simp] theorem Chip.updSeam_seeds (n : Nat) (f : SeamPort → SeamPort) : (s.updSeam n f).seeds = s.seeds := rfl
@[simp] theorem Chip.updSeam_fabric (n : Nat) (f : SeamPort → SeamPort) : (s.updSeam n f).fabric = s.fabric := rfl
@[simp] theorem Chip.updSeam_plates (n : Nat) (f : SeamPort → SeamPort) : (s.updSeam n f).plates = s.plates := rfl
@[simp] theorem Chip.updSeam_heat (n : Nat) (f : SeamPort → SeamPort) : (s.updSeam n f).heat = s.heat := rfl
@[simp] theorem Chip.updSeam_power (n : Nat) (f : SeamPort → SeamPort) : (s.updSeam n f).power = s.power := rfl
@[simp] theorem Chip.updSeam_ledger (n : Nat) (f : SeamPort → SeamPort) : (s.updSeam n f).ledger = s.ledger := rfl
@[simp] theorem Chip.updSeam_trust (n : Nat) (f : SeamPort → SeamPort) : (s.updSeam n f).trust = s.trust := rfl
@[simp] theorem Chip.updSeam_krp (n : Nat) (f : SeamPort → SeamPort) : (s.updSeam n f).krp = s.krp := rfl
@[simp] theorem Chip.updSeam_pci (n : Nat) (f : SeamPort → SeamPort) : (s.updSeam n f).pci = s.pci := rfl
@[simp] theorem Chip.updSeam_boot (n : Nat) (f : SeamPort → SeamPort) : (s.updSeam n f).boot = s.boot := rfl
@[simp] theorem Chip.updSeam_mgmt (n : Nat) (f : SeamPort → SeamPort) : (s.updSeam n f).mgmt = s.mgmt := rfl

@[simp] theorem Chip.updLink_time (n : Nat) (f : SlvLink → SlvLink) : (s.updLink n f).time = s.time := rfl
@[simp] theorem Chip.updLink_fUnit (n : Nat) (f : SlvLink → SlvLink) : (s.updLink n f).fUnit = s.fUnit := rfl
@[simp] theorem Chip.updLink_cells (n : Nat) (f : SlvLink → SlvLink) : (s.updLink n f).cells = s.cells := rfl
@[simp] theorem Chip.updLink_panels (n : Nat) (f : SlvLink → SlvLink) : (s.updLink n f).panels = s.panels := rfl
@[simp] theorem Chip.updLink_swatches (n : Nat) (f : SlvLink → SlvLink) : (s.updLink n f).swatches = s.swatches := rfl
@[simp] theorem Chip.updLink_parts (n : Nat) (f : SlvLink → SlvLink) : (s.updLink n f).parts = s.parts := rfl
@[simp] theorem Chip.updLink_runs (n : Nat) (f : SlvLink → SlvLink) : (s.updLink n f).runs = s.runs := rfl
@[simp] theorem Chip.updLink_nextRun (n : Nat) (f : SlvLink → SlvLink) : (s.updLink n f).nextRun = s.nextRun := rfl
@[simp] theorem Chip.updLink_mem (n : Nat) (f : SlvLink → SlvLink) : (s.updLink n f).mem = s.mem := rfl
@[simp] theorem Chip.updLink_linings (n : Nat) (f : SlvLink → SlvLink) : (s.updLink n f).linings = s.linings := rfl
@[simp] theorem Chip.updLink_hbm (n : Nat) (f : SlvLink → SlvLink) : (s.updLink n f).hbm = s.hbm := rfl
@[simp] theorem Chip.updLink_seams (n : Nat) (f : SlvLink → SlvLink) : (s.updLink n f).seams = s.seams := rfl
@[simp] theorem Chip.updLink_bufs (n : Nat) (f : SlvLink → SlvLink) : (s.updLink n f).bufs = s.bufs := rfl
@[simp] theorem Chip.updLink_requests (n : Nat) (f : SlvLink → SlvLink) : (s.updLink n f).requests = s.requests := rfl
@[simp] theorem Chip.updLink_nextReq (n : Nat) (f : SlvLink → SlvLink) : (s.updLink n f).nextReq = s.nextReq := rfl
@[simp] theorem Chip.updLink_tlr (n : Nat) (f : SlvLink → SlvLink) : (s.updLink n f).tlr = s.tlr := rfl
@[simp] theorem Chip.updLink_dbg (n : Nat) (f : SlvLink → SlvLink) : (s.updLink n f).dbg = s.dbg := rfl
@[simp] theorem Chip.updLink_grade (n : Nat) (f : SlvLink → SlvLink) : (s.updLink n f).grade = s.grade := rfl
@[simp] theorem Chip.updLink_life (n : Nat) (f : SlvLink → SlvLink) : (s.updLink n f).life = s.life := rfl
@[simp] theorem Chip.updLink_expert (n : Nat) (f : SlvLink → SlvLink) : (s.updLink n f).expert = s.expert := rfl
@[simp] theorem Chip.updLink_planSigning (n : Nat) (f : SlvLink → SlvLink) : (s.updLink n f).planSigning = s.planSigning := rfl
@[simp] theorem Chip.updLink_configId (n : Nat) (f : SlvLink → SlvLink) : (s.updLink n f).configId = s.configId := rfl
@[simp] theorem Chip.updLink_free (n : Nat) (f : SlvLink → SlvLink) : (s.updLink n f).free = s.free := rfl
@[simp] theorem Chip.updLink_seeds (n : Nat) (f : SlvLink → SlvLink) : (s.updLink n f).seeds = s.seeds := rfl
@[simp] theorem Chip.updLink_fabric (n : Nat) (f : SlvLink → SlvLink) : (s.updLink n f).fabric = s.fabric := rfl
@[simp] theorem Chip.updLink_plates (n : Nat) (f : SlvLink → SlvLink) : (s.updLink n f).plates = s.plates := rfl
@[simp] theorem Chip.updLink_heat (n : Nat) (f : SlvLink → SlvLink) : (s.updLink n f).heat = s.heat := rfl
@[simp] theorem Chip.updLink_power (n : Nat) (f : SlvLink → SlvLink) : (s.updLink n f).power = s.power := rfl
@[simp] theorem Chip.updLink_ledger (n : Nat) (f : SlvLink → SlvLink) : (s.updLink n f).ledger = s.ledger := rfl
@[simp] theorem Chip.updLink_trust (n : Nat) (f : SlvLink → SlvLink) : (s.updLink n f).trust = s.trust := rfl
@[simp] theorem Chip.updLink_krp (n : Nat) (f : SlvLink → SlvLink) : (s.updLink n f).krp = s.krp := rfl
@[simp] theorem Chip.updLink_pci (n : Nat) (f : SlvLink → SlvLink) : (s.updLink n f).pci = s.pci := rfl
@[simp] theorem Chip.updLink_boot (n : Nat) (f : SlvLink → SlvLink) : (s.updLink n f).boot = s.boot := rfl
@[simp] theorem Chip.updLink_mgmt (n : Nat) (f : SlvLink → SlvLink) : (s.updLink n f).mgmt = s.mgmt := rfl

@[simp] theorem Chip.updPlate_time (n : Nat) (f : Plate → Plate) : (s.updPlate n f).time = s.time := rfl
@[simp] theorem Chip.updPlate_fUnit (n : Nat) (f : Plate → Plate) : (s.updPlate n f).fUnit = s.fUnit := rfl
@[simp] theorem Chip.updPlate_cells (n : Nat) (f : Plate → Plate) : (s.updPlate n f).cells = s.cells := rfl
@[simp] theorem Chip.updPlate_panels (n : Nat) (f : Plate → Plate) : (s.updPlate n f).panels = s.panels := rfl
@[simp] theorem Chip.updPlate_swatches (n : Nat) (f : Plate → Plate) : (s.updPlate n f).swatches = s.swatches := rfl
@[simp] theorem Chip.updPlate_parts (n : Nat) (f : Plate → Plate) : (s.updPlate n f).parts = s.parts := rfl
@[simp] theorem Chip.updPlate_runs (n : Nat) (f : Plate → Plate) : (s.updPlate n f).runs = s.runs := rfl
@[simp] theorem Chip.updPlate_nextRun (n : Nat) (f : Plate → Plate) : (s.updPlate n f).nextRun = s.nextRun := rfl
@[simp] theorem Chip.updPlate_mem (n : Nat) (f : Plate → Plate) : (s.updPlate n f).mem = s.mem := rfl
@[simp] theorem Chip.updPlate_linings (n : Nat) (f : Plate → Plate) : (s.updPlate n f).linings = s.linings := rfl
@[simp] theorem Chip.updPlate_hbm (n : Nat) (f : Plate → Plate) : (s.updPlate n f).hbm = s.hbm := rfl
@[simp] theorem Chip.updPlate_seams (n : Nat) (f : Plate → Plate) : (s.updPlate n f).seams = s.seams := rfl
@[simp] theorem Chip.updPlate_links (n : Nat) (f : Plate → Plate) : (s.updPlate n f).links = s.links := rfl
@[simp] theorem Chip.updPlate_bufs (n : Nat) (f : Plate → Plate) : (s.updPlate n f).bufs = s.bufs := rfl
@[simp] theorem Chip.updPlate_requests (n : Nat) (f : Plate → Plate) : (s.updPlate n f).requests = s.requests := rfl
@[simp] theorem Chip.updPlate_nextReq (n : Nat) (f : Plate → Plate) : (s.updPlate n f).nextReq = s.nextReq := rfl
@[simp] theorem Chip.updPlate_tlr (n : Nat) (f : Plate → Plate) : (s.updPlate n f).tlr = s.tlr := rfl
@[simp] theorem Chip.updPlate_dbg (n : Nat) (f : Plate → Plate) : (s.updPlate n f).dbg = s.dbg := rfl
@[simp] theorem Chip.updPlate_grade (n : Nat) (f : Plate → Plate) : (s.updPlate n f).grade = s.grade := rfl
@[simp] theorem Chip.updPlate_life (n : Nat) (f : Plate → Plate) : (s.updPlate n f).life = s.life := rfl
@[simp] theorem Chip.updPlate_expert (n : Nat) (f : Plate → Plate) : (s.updPlate n f).expert = s.expert := rfl
@[simp] theorem Chip.updPlate_planSigning (n : Nat) (f : Plate → Plate) : (s.updPlate n f).planSigning = s.planSigning := rfl
@[simp] theorem Chip.updPlate_configId (n : Nat) (f : Plate → Plate) : (s.updPlate n f).configId = s.configId := rfl
@[simp] theorem Chip.updPlate_free (n : Nat) (f : Plate → Plate) : (s.updPlate n f).free = s.free := rfl
@[simp] theorem Chip.updPlate_seeds (n : Nat) (f : Plate → Plate) : (s.updPlate n f).seeds = s.seeds := rfl
@[simp] theorem Chip.updPlate_fabric (n : Nat) (f : Plate → Plate) : (s.updPlate n f).fabric = s.fabric := rfl
@[simp] theorem Chip.updPlate_heat (n : Nat) (f : Plate → Plate) : (s.updPlate n f).heat = s.heat := rfl
@[simp] theorem Chip.updPlate_power (n : Nat) (f : Plate → Plate) : (s.updPlate n f).power = s.power := rfl
@[simp] theorem Chip.updPlate_ledger (n : Nat) (f : Plate → Plate) : (s.updPlate n f).ledger = s.ledger := rfl
@[simp] theorem Chip.updPlate_trust (n : Nat) (f : Plate → Plate) : (s.updPlate n f).trust = s.trust := rfl
@[simp] theorem Chip.updPlate_krp (n : Nat) (f : Plate → Plate) : (s.updPlate n f).krp = s.krp := rfl
@[simp] theorem Chip.updPlate_pci (n : Nat) (f : Plate → Plate) : (s.updPlate n f).pci = s.pci := rfl
@[simp] theorem Chip.updPlate_boot (n : Nat) (f : Plate → Plate) : (s.updPlate n f).boot = s.boot := rfl
@[simp] theorem Chip.updPlate_mgmt (n : Nat) (f : Plate → Plate) : (s.updPlate n f).mgmt = s.mgmt := rfl

@[simp] theorem Chip.setRun_time (r : Run) : (s.setRun r).time = s.time := rfl
@[simp] theorem Chip.setRun_fUnit (r : Run) : (s.setRun r).fUnit = s.fUnit := rfl
@[simp] theorem Chip.setRun_cells (r : Run) : (s.setRun r).cells = s.cells := rfl
@[simp] theorem Chip.setRun_panels (r : Run) : (s.setRun r).panels = s.panels := rfl
@[simp] theorem Chip.setRun_swatches (r : Run) : (s.setRun r).swatches = s.swatches := rfl
@[simp] theorem Chip.setRun_parts (r : Run) : (s.setRun r).parts = s.parts := rfl
@[simp] theorem Chip.setRun_nextRun (r : Run) : (s.setRun r).nextRun = s.nextRun := rfl
@[simp] theorem Chip.setRun_mem (r : Run) : (s.setRun r).mem = s.mem := rfl
@[simp] theorem Chip.setRun_linings (r : Run) : (s.setRun r).linings = s.linings := rfl
@[simp] theorem Chip.setRun_hbm (r : Run) : (s.setRun r).hbm = s.hbm := rfl
@[simp] theorem Chip.setRun_seams (r : Run) : (s.setRun r).seams = s.seams := rfl
@[simp] theorem Chip.setRun_links (r : Run) : (s.setRun r).links = s.links := rfl
@[simp] theorem Chip.setRun_bufs (r : Run) : (s.setRun r).bufs = s.bufs := rfl
@[simp] theorem Chip.setRun_requests (r : Run) : (s.setRun r).requests = s.requests := rfl
@[simp] theorem Chip.setRun_nextReq (r : Run) : (s.setRun r).nextReq = s.nextReq := rfl
@[simp] theorem Chip.setRun_tlr (r : Run) : (s.setRun r).tlr = s.tlr := rfl
@[simp] theorem Chip.setRun_dbg (r : Run) : (s.setRun r).dbg = s.dbg := rfl
@[simp] theorem Chip.setRun_grade (r : Run) : (s.setRun r).grade = s.grade := rfl
@[simp] theorem Chip.setRun_life (r : Run) : (s.setRun r).life = s.life := rfl
@[simp] theorem Chip.setRun_expert (r : Run) : (s.setRun r).expert = s.expert := rfl
@[simp] theorem Chip.setRun_planSigning (r : Run) : (s.setRun r).planSigning = s.planSigning := rfl
@[simp] theorem Chip.setRun_configId (r : Run) : (s.setRun r).configId = s.configId := rfl
@[simp] theorem Chip.setRun_free (r : Run) : (s.setRun r).free = s.free := rfl
@[simp] theorem Chip.setRun_seeds (r : Run) : (s.setRun r).seeds = s.seeds := rfl
@[simp] theorem Chip.setRun_fabric (r : Run) : (s.setRun r).fabric = s.fabric := rfl
@[simp] theorem Chip.setRun_plates (r : Run) : (s.setRun r).plates = s.plates := rfl
@[simp] theorem Chip.setRun_heat (r : Run) : (s.setRun r).heat = s.heat := rfl
@[simp] theorem Chip.setRun_power (r : Run) : (s.setRun r).power = s.power := rfl
@[simp] theorem Chip.setRun_ledger (r : Run) : (s.setRun r).ledger = s.ledger := rfl
@[simp] theorem Chip.setRun_trust (r : Run) : (s.setRun r).trust = s.trust := rfl
@[simp] theorem Chip.setRun_krp (r : Run) : (s.setRun r).krp = s.krp := rfl
@[simp] theorem Chip.setRun_pci (r : Run) : (s.setRun r).pci = s.pci := rfl
@[simp] theorem Chip.setRun_boot (r : Run) : (s.setRun r).boot = s.boot := rfl
@[simp] theorem Chip.setRun_mgmt (r : Run) : (s.setRun r).mgmt = s.mgmt := rfl

@[simp] theorem Chip.updRun_time (n : Nat) (f : Run → Run) : (s.updRun n f).time = s.time := rfl
@[simp] theorem Chip.updRun_fUnit (n : Nat) (f : Run → Run) : (s.updRun n f).fUnit = s.fUnit := rfl
@[simp] theorem Chip.updRun_cells (n : Nat) (f : Run → Run) : (s.updRun n f).cells = s.cells := rfl
@[simp] theorem Chip.updRun_panels (n : Nat) (f : Run → Run) : (s.updRun n f).panels = s.panels := rfl
@[simp] theorem Chip.updRun_swatches (n : Nat) (f : Run → Run) : (s.updRun n f).swatches = s.swatches := rfl
@[simp] theorem Chip.updRun_parts (n : Nat) (f : Run → Run) : (s.updRun n f).parts = s.parts := rfl
@[simp] theorem Chip.updRun_nextRun (n : Nat) (f : Run → Run) : (s.updRun n f).nextRun = s.nextRun := rfl
@[simp] theorem Chip.updRun_mem (n : Nat) (f : Run → Run) : (s.updRun n f).mem = s.mem := rfl
@[simp] theorem Chip.updRun_linings (n : Nat) (f : Run → Run) : (s.updRun n f).linings = s.linings := rfl
@[simp] theorem Chip.updRun_hbm (n : Nat) (f : Run → Run) : (s.updRun n f).hbm = s.hbm := rfl
@[simp] theorem Chip.updRun_seams (n : Nat) (f : Run → Run) : (s.updRun n f).seams = s.seams := rfl
@[simp] theorem Chip.updRun_links (n : Nat) (f : Run → Run) : (s.updRun n f).links = s.links := rfl
@[simp] theorem Chip.updRun_bufs (n : Nat) (f : Run → Run) : (s.updRun n f).bufs = s.bufs := rfl
@[simp] theorem Chip.updRun_requests (n : Nat) (f : Run → Run) : (s.updRun n f).requests = s.requests := rfl
@[simp] theorem Chip.updRun_nextReq (n : Nat) (f : Run → Run) : (s.updRun n f).nextReq = s.nextReq := rfl
@[simp] theorem Chip.updRun_tlr (n : Nat) (f : Run → Run) : (s.updRun n f).tlr = s.tlr := rfl
@[simp] theorem Chip.updRun_dbg (n : Nat) (f : Run → Run) : (s.updRun n f).dbg = s.dbg := rfl
@[simp] theorem Chip.updRun_grade (n : Nat) (f : Run → Run) : (s.updRun n f).grade = s.grade := rfl
@[simp] theorem Chip.updRun_life (n : Nat) (f : Run → Run) : (s.updRun n f).life = s.life := rfl
@[simp] theorem Chip.updRun_expert (n : Nat) (f : Run → Run) : (s.updRun n f).expert = s.expert := rfl
@[simp] theorem Chip.updRun_planSigning (n : Nat) (f : Run → Run) : (s.updRun n f).planSigning = s.planSigning := rfl
@[simp] theorem Chip.updRun_configId (n : Nat) (f : Run → Run) : (s.updRun n f).configId = s.configId := rfl
@[simp] theorem Chip.updRun_free (n : Nat) (f : Run → Run) : (s.updRun n f).free = s.free := rfl
@[simp] theorem Chip.updRun_seeds (n : Nat) (f : Run → Run) : (s.updRun n f).seeds = s.seeds := rfl
@[simp] theorem Chip.updRun_fabric (n : Nat) (f : Run → Run) : (s.updRun n f).fabric = s.fabric := rfl
@[simp] theorem Chip.updRun_plates (n : Nat) (f : Run → Run) : (s.updRun n f).plates = s.plates := rfl
@[simp] theorem Chip.updRun_heat (n : Nat) (f : Run → Run) : (s.updRun n f).heat = s.heat := rfl
@[simp] theorem Chip.updRun_power (n : Nat) (f : Run → Run) : (s.updRun n f).power = s.power := rfl
@[simp] theorem Chip.updRun_ledger (n : Nat) (f : Run → Run) : (s.updRun n f).ledger = s.ledger := rfl
@[simp] theorem Chip.updRun_trust (n : Nat) (f : Run → Run) : (s.updRun n f).trust = s.trust := rfl
@[simp] theorem Chip.updRun_krp (n : Nat) (f : Run → Run) : (s.updRun n f).krp = s.krp := rfl
@[simp] theorem Chip.updRun_pci (n : Nat) (f : Run → Run) : (s.updRun n f).pci = s.pci := rfl
@[simp] theorem Chip.updRun_boot (n : Nat) (f : Run → Run) : (s.updRun n f).boot = s.boot := rfl
@[simp] theorem Chip.updRun_mgmt (n : Nat) (f : Run → Run) : (s.updRun n f).mgmt = s.mgmt := rfl

@[simp] theorem Chip.updMt_time (f : MtStage → MtStage) : (s.updMt f).time = s.time := rfl
@[simp] theorem Chip.updMt_fUnit (f : MtStage → MtStage) : (s.updMt f).fUnit = s.fUnit := rfl
@[simp] theorem Chip.updMt_cells (f : MtStage → MtStage) : (s.updMt f).cells = s.cells := rfl
@[simp] theorem Chip.updMt_panels (f : MtStage → MtStage) : (s.updMt f).panels = s.panels := rfl
@[simp] theorem Chip.updMt_swatches (f : MtStage → MtStage) : (s.updMt f).swatches = s.swatches := rfl
@[simp] theorem Chip.updMt_parts (f : MtStage → MtStage) : (s.updMt f).parts = s.parts := rfl
@[simp] theorem Chip.updMt_runs (f : MtStage → MtStage) : (s.updMt f).runs = s.runs := rfl
@[simp] theorem Chip.updMt_nextRun (f : MtStage → MtStage) : (s.updMt f).nextRun = s.nextRun := rfl
@[simp] theorem Chip.updMt_mem (f : MtStage → MtStage) : (s.updMt f).mem = s.mem := rfl
@[simp] theorem Chip.updMt_linings (f : MtStage → MtStage) : (s.updMt f).linings = s.linings := rfl
@[simp] theorem Chip.updMt_hbm (f : MtStage → MtStage) : (s.updMt f).hbm = s.hbm := rfl
@[simp] theorem Chip.updMt_seams (f : MtStage → MtStage) : (s.updMt f).seams = s.seams := rfl
@[simp] theorem Chip.updMt_links (f : MtStage → MtStage) : (s.updMt f).links = s.links := rfl
@[simp] theorem Chip.updMt_bufs (f : MtStage → MtStage) : (s.updMt f).bufs = s.bufs := rfl
@[simp] theorem Chip.updMt_requests (f : MtStage → MtStage) : (s.updMt f).requests = s.requests := rfl
@[simp] theorem Chip.updMt_nextReq (f : MtStage → MtStage) : (s.updMt f).nextReq = s.nextReq := rfl
@[simp] theorem Chip.updMt_dbg (f : MtStage → MtStage) : (s.updMt f).dbg = s.dbg := rfl
@[simp] theorem Chip.updMt_grade (f : MtStage → MtStage) : (s.updMt f).grade = s.grade := rfl
@[simp] theorem Chip.updMt_life (f : MtStage → MtStage) : (s.updMt f).life = s.life := rfl
@[simp] theorem Chip.updMt_expert (f : MtStage → MtStage) : (s.updMt f).expert = s.expert := rfl
@[simp] theorem Chip.updMt_planSigning (f : MtStage → MtStage) : (s.updMt f).planSigning = s.planSigning := rfl
@[simp] theorem Chip.updMt_configId (f : MtStage → MtStage) : (s.updMt f).configId = s.configId := rfl
@[simp] theorem Chip.updMt_free (f : MtStage → MtStage) : (s.updMt f).free = s.free := rfl
@[simp] theorem Chip.updMt_seeds (f : MtStage → MtStage) : (s.updMt f).seeds = s.seeds := rfl
@[simp] theorem Chip.updMt_fabric (f : MtStage → MtStage) : (s.updMt f).fabric = s.fabric := rfl
@[simp] theorem Chip.updMt_plates (f : MtStage → MtStage) : (s.updMt f).plates = s.plates := rfl
@[simp] theorem Chip.updMt_heat (f : MtStage → MtStage) : (s.updMt f).heat = s.heat := rfl
@[simp] theorem Chip.updMt_power (f : MtStage → MtStage) : (s.updMt f).power = s.power := rfl
@[simp] theorem Chip.updMt_ledger (f : MtStage → MtStage) : (s.updMt f).ledger = s.ledger := rfl
@[simp] theorem Chip.updMt_trust (f : MtStage → MtStage) : (s.updMt f).trust = s.trust := rfl
@[simp] theorem Chip.updMt_krp (f : MtStage → MtStage) : (s.updMt f).krp = s.krp := rfl
@[simp] theorem Chip.updMt_pci (f : MtStage → MtStage) : (s.updMt f).pci = s.pci := rfl
@[simp] theorem Chip.updMt_boot (f : MtStage → MtStage) : (s.updMt f).boot = s.boot := rfl
@[simp] theorem Chip.updMt_mgmt (f : MtStage → MtStage) : (s.updMt f).mgmt = s.mgmt := rfl

@[simp] theorem Chip.updDbg_time (f : Dbg → Dbg) : (s.updDbg f).time = s.time := rfl
@[simp] theorem Chip.updDbg_fUnit (f : Dbg → Dbg) : (s.updDbg f).fUnit = s.fUnit := rfl
@[simp] theorem Chip.updDbg_cells (f : Dbg → Dbg) : (s.updDbg f).cells = s.cells := rfl
@[simp] theorem Chip.updDbg_panels (f : Dbg → Dbg) : (s.updDbg f).panels = s.panels := rfl
@[simp] theorem Chip.updDbg_swatches (f : Dbg → Dbg) : (s.updDbg f).swatches = s.swatches := rfl
@[simp] theorem Chip.updDbg_parts (f : Dbg → Dbg) : (s.updDbg f).parts = s.parts := rfl
@[simp] theorem Chip.updDbg_runs (f : Dbg → Dbg) : (s.updDbg f).runs = s.runs := rfl
@[simp] theorem Chip.updDbg_nextRun (f : Dbg → Dbg) : (s.updDbg f).nextRun = s.nextRun := rfl
@[simp] theorem Chip.updDbg_mem (f : Dbg → Dbg) : (s.updDbg f).mem = s.mem := rfl
@[simp] theorem Chip.updDbg_linings (f : Dbg → Dbg) : (s.updDbg f).linings = s.linings := rfl
@[simp] theorem Chip.updDbg_hbm (f : Dbg → Dbg) : (s.updDbg f).hbm = s.hbm := rfl
@[simp] theorem Chip.updDbg_seams (f : Dbg → Dbg) : (s.updDbg f).seams = s.seams := rfl
@[simp] theorem Chip.updDbg_links (f : Dbg → Dbg) : (s.updDbg f).links = s.links := rfl
@[simp] theorem Chip.updDbg_bufs (f : Dbg → Dbg) : (s.updDbg f).bufs = s.bufs := rfl
@[simp] theorem Chip.updDbg_requests (f : Dbg → Dbg) : (s.updDbg f).requests = s.requests := rfl
@[simp] theorem Chip.updDbg_nextReq (f : Dbg → Dbg) : (s.updDbg f).nextReq = s.nextReq := rfl
@[simp] theorem Chip.updDbg_tlr (f : Dbg → Dbg) : (s.updDbg f).tlr = s.tlr := rfl
@[simp] theorem Chip.updDbg_grade (f : Dbg → Dbg) : (s.updDbg f).grade = s.grade := rfl
@[simp] theorem Chip.updDbg_life (f : Dbg → Dbg) : (s.updDbg f).life = s.life := rfl
@[simp] theorem Chip.updDbg_expert (f : Dbg → Dbg) : (s.updDbg f).expert = s.expert := rfl
@[simp] theorem Chip.updDbg_planSigning (f : Dbg → Dbg) : (s.updDbg f).planSigning = s.planSigning := rfl
@[simp] theorem Chip.updDbg_configId (f : Dbg → Dbg) : (s.updDbg f).configId = s.configId := rfl
@[simp] theorem Chip.updDbg_free (f : Dbg → Dbg) : (s.updDbg f).free = s.free := rfl
@[simp] theorem Chip.updDbg_seeds (f : Dbg → Dbg) : (s.updDbg f).seeds = s.seeds := rfl
@[simp] theorem Chip.updDbg_fabric (f : Dbg → Dbg) : (s.updDbg f).fabric = s.fabric := rfl
@[simp] theorem Chip.updDbg_plates (f : Dbg → Dbg) : (s.updDbg f).plates = s.plates := rfl
@[simp] theorem Chip.updDbg_heat (f : Dbg → Dbg) : (s.updDbg f).heat = s.heat := rfl
@[simp] theorem Chip.updDbg_power (f : Dbg → Dbg) : (s.updDbg f).power = s.power := rfl
@[simp] theorem Chip.updDbg_ledger (f : Dbg → Dbg) : (s.updDbg f).ledger = s.ledger := rfl
@[simp] theorem Chip.updDbg_trust (f : Dbg → Dbg) : (s.updDbg f).trust = s.trust := rfl
@[simp] theorem Chip.updDbg_krp (f : Dbg → Dbg) : (s.updDbg f).krp = s.krp := rfl
@[simp] theorem Chip.updDbg_pci (f : Dbg → Dbg) : (s.updDbg f).pci = s.pci := rfl
@[simp] theorem Chip.updDbg_boot (f : Dbg → Dbg) : (s.updDbg f).boot = s.boot := rfl
@[simp] theorem Chip.updDbg_mgmt (f : Dbg → Dbg) : (s.updDbg f).mgmt = s.mgmt := rfl

@[simp] theorem Chip.updSpdm_time (f : Spdm → Spdm) : (s.updSpdm f).time = s.time := rfl
@[simp] theorem Chip.updSpdm_fUnit (f : Spdm → Spdm) : (s.updSpdm f).fUnit = s.fUnit := rfl
@[simp] theorem Chip.updSpdm_cells (f : Spdm → Spdm) : (s.updSpdm f).cells = s.cells := rfl
@[simp] theorem Chip.updSpdm_panels (f : Spdm → Spdm) : (s.updSpdm f).panels = s.panels := rfl
@[simp] theorem Chip.updSpdm_swatches (f : Spdm → Spdm) : (s.updSpdm f).swatches = s.swatches := rfl
@[simp] theorem Chip.updSpdm_parts (f : Spdm → Spdm) : (s.updSpdm f).parts = s.parts := rfl
@[simp] theorem Chip.updSpdm_runs (f : Spdm → Spdm) : (s.updSpdm f).runs = s.runs := rfl
@[simp] theorem Chip.updSpdm_nextRun (f : Spdm → Spdm) : (s.updSpdm f).nextRun = s.nextRun := rfl
@[simp] theorem Chip.updSpdm_mem (f : Spdm → Spdm) : (s.updSpdm f).mem = s.mem := rfl
@[simp] theorem Chip.updSpdm_linings (f : Spdm → Spdm) : (s.updSpdm f).linings = s.linings := rfl
@[simp] theorem Chip.updSpdm_hbm (f : Spdm → Spdm) : (s.updSpdm f).hbm = s.hbm := rfl
@[simp] theorem Chip.updSpdm_seams (f : Spdm → Spdm) : (s.updSpdm f).seams = s.seams := rfl
@[simp] theorem Chip.updSpdm_links (f : Spdm → Spdm) : (s.updSpdm f).links = s.links := rfl
@[simp] theorem Chip.updSpdm_bufs (f : Spdm → Spdm) : (s.updSpdm f).bufs = s.bufs := rfl
@[simp] theorem Chip.updSpdm_requests (f : Spdm → Spdm) : (s.updSpdm f).requests = s.requests := rfl
@[simp] theorem Chip.updSpdm_nextReq (f : Spdm → Spdm) : (s.updSpdm f).nextReq = s.nextReq := rfl
@[simp] theorem Chip.updSpdm_tlr (f : Spdm → Spdm) : (s.updSpdm f).tlr = s.tlr := rfl
@[simp] theorem Chip.updSpdm_dbg (f : Spdm → Spdm) : (s.updSpdm f).dbg = s.dbg := rfl
@[simp] theorem Chip.updSpdm_grade (f : Spdm → Spdm) : (s.updSpdm f).grade = s.grade := rfl
@[simp] theorem Chip.updSpdm_life (f : Spdm → Spdm) : (s.updSpdm f).life = s.life := rfl
@[simp] theorem Chip.updSpdm_expert (f : Spdm → Spdm) : (s.updSpdm f).expert = s.expert := rfl
@[simp] theorem Chip.updSpdm_planSigning (f : Spdm → Spdm) : (s.updSpdm f).planSigning = s.planSigning := rfl
@[simp] theorem Chip.updSpdm_configId (f : Spdm → Spdm) : (s.updSpdm f).configId = s.configId := rfl
@[simp] theorem Chip.updSpdm_free (f : Spdm → Spdm) : (s.updSpdm f).free = s.free := rfl
@[simp] theorem Chip.updSpdm_seeds (f : Spdm → Spdm) : (s.updSpdm f).seeds = s.seeds := rfl
@[simp] theorem Chip.updSpdm_fabric (f : Spdm → Spdm) : (s.updSpdm f).fabric = s.fabric := rfl
@[simp] theorem Chip.updSpdm_plates (f : Spdm → Spdm) : (s.updSpdm f).plates = s.plates := rfl
@[simp] theorem Chip.updSpdm_heat (f : Spdm → Spdm) : (s.updSpdm f).heat = s.heat := rfl
@[simp] theorem Chip.updSpdm_power (f : Spdm → Spdm) : (s.updSpdm f).power = s.power := rfl
@[simp] theorem Chip.updSpdm_ledger (f : Spdm → Spdm) : (s.updSpdm f).ledger = s.ledger := rfl
@[simp] theorem Chip.updSpdm_krp (f : Spdm → Spdm) : (s.updSpdm f).krp = s.krp := rfl
@[simp] theorem Chip.updSpdm_pci (f : Spdm → Spdm) : (s.updSpdm f).pci = s.pci := rfl
@[simp] theorem Chip.updSpdm_boot (f : Spdm → Spdm) : (s.updSpdm f).boot = s.boot := rfl
@[simp] theorem Chip.updSpdm_mgmt (f : Spdm → Spdm) : (s.updSpdm f).mgmt = s.mgmt := rfl

@[simp] theorem Chip.updSession_time (n : Nat) (f : KrpSession → KrpSession) : (s.updSession n f).time = s.time := rfl
@[simp] theorem Chip.updSession_fUnit (n : Nat) (f : KrpSession → KrpSession) : (s.updSession n f).fUnit = s.fUnit := rfl
@[simp] theorem Chip.updSession_cells (n : Nat) (f : KrpSession → KrpSession) : (s.updSession n f).cells = s.cells := rfl
@[simp] theorem Chip.updSession_panels (n : Nat) (f : KrpSession → KrpSession) : (s.updSession n f).panels = s.panels := rfl
@[simp] theorem Chip.updSession_swatches (n : Nat) (f : KrpSession → KrpSession) : (s.updSession n f).swatches = s.swatches := rfl
@[simp] theorem Chip.updSession_parts (n : Nat) (f : KrpSession → KrpSession) : (s.updSession n f).parts = s.parts := rfl
@[simp] theorem Chip.updSession_runs (n : Nat) (f : KrpSession → KrpSession) : (s.updSession n f).runs = s.runs := rfl
@[simp] theorem Chip.updSession_nextRun (n : Nat) (f : KrpSession → KrpSession) : (s.updSession n f).nextRun = s.nextRun := rfl
@[simp] theorem Chip.updSession_mem (n : Nat) (f : KrpSession → KrpSession) : (s.updSession n f).mem = s.mem := rfl
@[simp] theorem Chip.updSession_linings (n : Nat) (f : KrpSession → KrpSession) : (s.updSession n f).linings = s.linings := rfl
@[simp] theorem Chip.updSession_hbm (n : Nat) (f : KrpSession → KrpSession) : (s.updSession n f).hbm = s.hbm := rfl
@[simp] theorem Chip.updSession_seams (n : Nat) (f : KrpSession → KrpSession) : (s.updSession n f).seams = s.seams := rfl
@[simp] theorem Chip.updSession_links (n : Nat) (f : KrpSession → KrpSession) : (s.updSession n f).links = s.links := rfl
@[simp] theorem Chip.updSession_bufs (n : Nat) (f : KrpSession → KrpSession) : (s.updSession n f).bufs = s.bufs := rfl
@[simp] theorem Chip.updSession_requests (n : Nat) (f : KrpSession → KrpSession) : (s.updSession n f).requests = s.requests := rfl
@[simp] theorem Chip.updSession_nextReq (n : Nat) (f : KrpSession → KrpSession) : (s.updSession n f).nextReq = s.nextReq := rfl
@[simp] theorem Chip.updSession_tlr (n : Nat) (f : KrpSession → KrpSession) : (s.updSession n f).tlr = s.tlr := rfl
@[simp] theorem Chip.updSession_dbg (n : Nat) (f : KrpSession → KrpSession) : (s.updSession n f).dbg = s.dbg := rfl
@[simp] theorem Chip.updSession_grade (n : Nat) (f : KrpSession → KrpSession) : (s.updSession n f).grade = s.grade := rfl
@[simp] theorem Chip.updSession_life (n : Nat) (f : KrpSession → KrpSession) : (s.updSession n f).life = s.life := rfl
@[simp] theorem Chip.updSession_expert (n : Nat) (f : KrpSession → KrpSession) : (s.updSession n f).expert = s.expert := rfl
@[simp] theorem Chip.updSession_planSigning (n : Nat) (f : KrpSession → KrpSession) : (s.updSession n f).planSigning = s.planSigning := rfl
@[simp] theorem Chip.updSession_configId (n : Nat) (f : KrpSession → KrpSession) : (s.updSession n f).configId = s.configId := rfl
@[simp] theorem Chip.updSession_free (n : Nat) (f : KrpSession → KrpSession) : (s.updSession n f).free = s.free := rfl
@[simp] theorem Chip.updSession_seeds (n : Nat) (f : KrpSession → KrpSession) : (s.updSession n f).seeds = s.seeds := rfl
@[simp] theorem Chip.updSession_fabric (n : Nat) (f : KrpSession → KrpSession) : (s.updSession n f).fabric = s.fabric := rfl
@[simp] theorem Chip.updSession_plates (n : Nat) (f : KrpSession → KrpSession) : (s.updSession n f).plates = s.plates := rfl
@[simp] theorem Chip.updSession_heat (n : Nat) (f : KrpSession → KrpSession) : (s.updSession n f).heat = s.heat := rfl
@[simp] theorem Chip.updSession_power (n : Nat) (f : KrpSession → KrpSession) : (s.updSession n f).power = s.power := rfl
@[simp] theorem Chip.updSession_ledger (n : Nat) (f : KrpSession → KrpSession) : (s.updSession n f).ledger = s.ledger := rfl
@[simp] theorem Chip.updSession_trust (n : Nat) (f : KrpSession → KrpSession) : (s.updSession n f).trust = s.trust := rfl
@[simp] theorem Chip.updSession_pci (n : Nat) (f : KrpSession → KrpSession) : (s.updSession n f).pci = s.pci := rfl
@[simp] theorem Chip.updSession_boot (n : Nat) (f : KrpSession → KrpSession) : (s.updSession n f).boot = s.boot := rfl
@[simp] theorem Chip.updSession_mgmt (n : Nat) (f : KrpSession → KrpSession) : (s.updSession n f).mgmt = s.mgmt := rfl

@[simp] theorem Chip.updKrpPort_time (n : Nat) (f : KrpPort → KrpPort) : (s.updKrpPort n f).time = s.time := rfl
@[simp] theorem Chip.updKrpPort_fUnit (n : Nat) (f : KrpPort → KrpPort) : (s.updKrpPort n f).fUnit = s.fUnit := rfl
@[simp] theorem Chip.updKrpPort_cells (n : Nat) (f : KrpPort → KrpPort) : (s.updKrpPort n f).cells = s.cells := rfl
@[simp] theorem Chip.updKrpPort_panels (n : Nat) (f : KrpPort → KrpPort) : (s.updKrpPort n f).panels = s.panels := rfl
@[simp] theorem Chip.updKrpPort_swatches (n : Nat) (f : KrpPort → KrpPort) : (s.updKrpPort n f).swatches = s.swatches := rfl
@[simp] theorem Chip.updKrpPort_parts (n : Nat) (f : KrpPort → KrpPort) : (s.updKrpPort n f).parts = s.parts := rfl
@[simp] theorem Chip.updKrpPort_runs (n : Nat) (f : KrpPort → KrpPort) : (s.updKrpPort n f).runs = s.runs := rfl
@[simp] theorem Chip.updKrpPort_nextRun (n : Nat) (f : KrpPort → KrpPort) : (s.updKrpPort n f).nextRun = s.nextRun := rfl
@[simp] theorem Chip.updKrpPort_mem (n : Nat) (f : KrpPort → KrpPort) : (s.updKrpPort n f).mem = s.mem := rfl
@[simp] theorem Chip.updKrpPort_linings (n : Nat) (f : KrpPort → KrpPort) : (s.updKrpPort n f).linings = s.linings := rfl
@[simp] theorem Chip.updKrpPort_hbm (n : Nat) (f : KrpPort → KrpPort) : (s.updKrpPort n f).hbm = s.hbm := rfl
@[simp] theorem Chip.updKrpPort_seams (n : Nat) (f : KrpPort → KrpPort) : (s.updKrpPort n f).seams = s.seams := rfl
@[simp] theorem Chip.updKrpPort_links (n : Nat) (f : KrpPort → KrpPort) : (s.updKrpPort n f).links = s.links := rfl
@[simp] theorem Chip.updKrpPort_bufs (n : Nat) (f : KrpPort → KrpPort) : (s.updKrpPort n f).bufs = s.bufs := rfl
@[simp] theorem Chip.updKrpPort_requests (n : Nat) (f : KrpPort → KrpPort) : (s.updKrpPort n f).requests = s.requests := rfl
@[simp] theorem Chip.updKrpPort_nextReq (n : Nat) (f : KrpPort → KrpPort) : (s.updKrpPort n f).nextReq = s.nextReq := rfl
@[simp] theorem Chip.updKrpPort_tlr (n : Nat) (f : KrpPort → KrpPort) : (s.updKrpPort n f).tlr = s.tlr := rfl
@[simp] theorem Chip.updKrpPort_dbg (n : Nat) (f : KrpPort → KrpPort) : (s.updKrpPort n f).dbg = s.dbg := rfl
@[simp] theorem Chip.updKrpPort_grade (n : Nat) (f : KrpPort → KrpPort) : (s.updKrpPort n f).grade = s.grade := rfl
@[simp] theorem Chip.updKrpPort_life (n : Nat) (f : KrpPort → KrpPort) : (s.updKrpPort n f).life = s.life := rfl
@[simp] theorem Chip.updKrpPort_expert (n : Nat) (f : KrpPort → KrpPort) : (s.updKrpPort n f).expert = s.expert := rfl
@[simp] theorem Chip.updKrpPort_planSigning (n : Nat) (f : KrpPort → KrpPort) : (s.updKrpPort n f).planSigning = s.planSigning := rfl
@[simp] theorem Chip.updKrpPort_configId (n : Nat) (f : KrpPort → KrpPort) : (s.updKrpPort n f).configId = s.configId := rfl
@[simp] theorem Chip.updKrpPort_free (n : Nat) (f : KrpPort → KrpPort) : (s.updKrpPort n f).free = s.free := rfl
@[simp] theorem Chip.updKrpPort_seeds (n : Nat) (f : KrpPort → KrpPort) : (s.updKrpPort n f).seeds = s.seeds := rfl
@[simp] theorem Chip.updKrpPort_fabric (n : Nat) (f : KrpPort → KrpPort) : (s.updKrpPort n f).fabric = s.fabric := rfl
@[simp] theorem Chip.updKrpPort_plates (n : Nat) (f : KrpPort → KrpPort) : (s.updKrpPort n f).plates = s.plates := rfl
@[simp] theorem Chip.updKrpPort_heat (n : Nat) (f : KrpPort → KrpPort) : (s.updKrpPort n f).heat = s.heat := rfl
@[simp] theorem Chip.updKrpPort_power (n : Nat) (f : KrpPort → KrpPort) : (s.updKrpPort n f).power = s.power := rfl
@[simp] theorem Chip.updKrpPort_ledger (n : Nat) (f : KrpPort → KrpPort) : (s.updKrpPort n f).ledger = s.ledger := rfl
@[simp] theorem Chip.updKrpPort_trust (n : Nat) (f : KrpPort → KrpPort) : (s.updKrpPort n f).trust = s.trust := rfl
@[simp] theorem Chip.updKrpPort_pci (n : Nat) (f : KrpPort → KrpPort) : (s.updKrpPort n f).pci = s.pci := rfl
@[simp] theorem Chip.updKrpPort_boot (n : Nat) (f : KrpPort → KrpPort) : (s.updKrpPort n f).boot = s.boot := rfl
@[simp] theorem Chip.updKrpPort_mgmt (n : Nat) (f : KrpPort → KrpPort) : (s.updKrpPort n f).mgmt = s.mgmt := rfl

@[simp] theorem Chip.logRec_time (code kind : Nat) (part unit cell : Option Nat) (addr : Nat) : (s.logRec code kind part unit cell addr).time = s.time := rfl
@[simp] theorem Chip.logRec_fUnit (code kind : Nat) (part unit cell : Option Nat) (addr : Nat) : (s.logRec code kind part unit cell addr).fUnit = s.fUnit := rfl
@[simp] theorem Chip.logRec_cells (code kind : Nat) (part unit cell : Option Nat) (addr : Nat) : (s.logRec code kind part unit cell addr).cells = s.cells := rfl
@[simp] theorem Chip.logRec_panels (code kind : Nat) (part unit cell : Option Nat) (addr : Nat) : (s.logRec code kind part unit cell addr).panels = s.panels := rfl
@[simp] theorem Chip.logRec_swatches (code kind : Nat) (part unit cell : Option Nat) (addr : Nat) : (s.logRec code kind part unit cell addr).swatches = s.swatches := rfl
@[simp] theorem Chip.logRec_parts (code kind : Nat) (part unit cell : Option Nat) (addr : Nat) : (s.logRec code kind part unit cell addr).parts = s.parts := rfl
@[simp] theorem Chip.logRec_runs (code kind : Nat) (part unit cell : Option Nat) (addr : Nat) : (s.logRec code kind part unit cell addr).runs = s.runs := rfl
@[simp] theorem Chip.logRec_nextRun (code kind : Nat) (part unit cell : Option Nat) (addr : Nat) : (s.logRec code kind part unit cell addr).nextRun = s.nextRun := rfl
@[simp] theorem Chip.logRec_mem (code kind : Nat) (part unit cell : Option Nat) (addr : Nat) : (s.logRec code kind part unit cell addr).mem = s.mem := rfl
@[simp] theorem Chip.logRec_linings (code kind : Nat) (part unit cell : Option Nat) (addr : Nat) : (s.logRec code kind part unit cell addr).linings = s.linings := rfl
@[simp] theorem Chip.logRec_hbm (code kind : Nat) (part unit cell : Option Nat) (addr : Nat) : (s.logRec code kind part unit cell addr).hbm = s.hbm := rfl
@[simp] theorem Chip.logRec_seams (code kind : Nat) (part unit cell : Option Nat) (addr : Nat) : (s.logRec code kind part unit cell addr).seams = s.seams := rfl
@[simp] theorem Chip.logRec_links (code kind : Nat) (part unit cell : Option Nat) (addr : Nat) : (s.logRec code kind part unit cell addr).links = s.links := rfl
@[simp] theorem Chip.logRec_bufs (code kind : Nat) (part unit cell : Option Nat) (addr : Nat) : (s.logRec code kind part unit cell addr).bufs = s.bufs := rfl
@[simp] theorem Chip.logRec_requests (code kind : Nat) (part unit cell : Option Nat) (addr : Nat) : (s.logRec code kind part unit cell addr).requests = s.requests := rfl
@[simp] theorem Chip.logRec_nextReq (code kind : Nat) (part unit cell : Option Nat) (addr : Nat) : (s.logRec code kind part unit cell addr).nextReq = s.nextReq := rfl
@[simp] theorem Chip.logRec_dbg (code kind : Nat) (part unit cell : Option Nat) (addr : Nat) : (s.logRec code kind part unit cell addr).dbg = s.dbg := rfl
@[simp] theorem Chip.logRec_grade (code kind : Nat) (part unit cell : Option Nat) (addr : Nat) : (s.logRec code kind part unit cell addr).grade = s.grade := rfl
@[simp] theorem Chip.logRec_life (code kind : Nat) (part unit cell : Option Nat) (addr : Nat) : (s.logRec code kind part unit cell addr).life = s.life := rfl
@[simp] theorem Chip.logRec_expert (code kind : Nat) (part unit cell : Option Nat) (addr : Nat) : (s.logRec code kind part unit cell addr).expert = s.expert := rfl
@[simp] theorem Chip.logRec_planSigning (code kind : Nat) (part unit cell : Option Nat) (addr : Nat) : (s.logRec code kind part unit cell addr).planSigning = s.planSigning := rfl
@[simp] theorem Chip.logRec_configId (code kind : Nat) (part unit cell : Option Nat) (addr : Nat) : (s.logRec code kind part unit cell addr).configId = s.configId := rfl
@[simp] theorem Chip.logRec_free (code kind : Nat) (part unit cell : Option Nat) (addr : Nat) : (s.logRec code kind part unit cell addr).free = s.free := rfl
@[simp] theorem Chip.logRec_seeds (code kind : Nat) (part unit cell : Option Nat) (addr : Nat) : (s.logRec code kind part unit cell addr).seeds = s.seeds := rfl
@[simp] theorem Chip.logRec_fabric (code kind : Nat) (part unit cell : Option Nat) (addr : Nat) : (s.logRec code kind part unit cell addr).fabric = s.fabric := rfl
@[simp] theorem Chip.logRec_plates (code kind : Nat) (part unit cell : Option Nat) (addr : Nat) : (s.logRec code kind part unit cell addr).plates = s.plates := rfl
@[simp] theorem Chip.logRec_heat (code kind : Nat) (part unit cell : Option Nat) (addr : Nat) : (s.logRec code kind part unit cell addr).heat = s.heat := rfl
@[simp] theorem Chip.logRec_power (code kind : Nat) (part unit cell : Option Nat) (addr : Nat) : (s.logRec code kind part unit cell addr).power = s.power := rfl
@[simp] theorem Chip.logRec_ledger (code kind : Nat) (part unit cell : Option Nat) (addr : Nat) : (s.logRec code kind part unit cell addr).ledger = s.ledger := rfl
@[simp] theorem Chip.logRec_trust (code kind : Nat) (part unit cell : Option Nat) (addr : Nat) : (s.logRec code kind part unit cell addr).trust = s.trust := rfl
@[simp] theorem Chip.logRec_krp (code kind : Nat) (part unit cell : Option Nat) (addr : Nat) : (s.logRec code kind part unit cell addr).krp = s.krp := rfl
@[simp] theorem Chip.logRec_pci (code kind : Nat) (part unit cell : Option Nat) (addr : Nat) : (s.logRec code kind part unit cell addr).pci = s.pci := rfl
@[simp] theorem Chip.logRec_boot (code kind : Nat) (part unit cell : Option Nat) (addr : Nat) : (s.logRec code kind part unit cell addr).boot = s.boot := rfl
@[simp] theorem Chip.logRec_mgmt (code kind : Nat) (part unit cell : Option Nat) (addr : Nat) : (s.logRec code kind part unit cell addr).mgmt = s.mgmt := rfl

@[simp] theorem Chip.setLimit_time (w : Nat) : (s.setLimit w).time = s.time := rfl
@[simp] theorem Chip.setLimit_fUnit (w : Nat) : (s.setLimit w).fUnit = s.fUnit := rfl
@[simp] theorem Chip.setLimit_cells (w : Nat) : (s.setLimit w).cells = s.cells := rfl
@[simp] theorem Chip.setLimit_panels (w : Nat) : (s.setLimit w).panels = s.panels := rfl
@[simp] theorem Chip.setLimit_swatches (w : Nat) : (s.setLimit w).swatches = s.swatches := rfl
@[simp] theorem Chip.setLimit_parts (w : Nat) : (s.setLimit w).parts = s.parts := rfl
@[simp] theorem Chip.setLimit_runs (w : Nat) : (s.setLimit w).runs = s.runs := rfl
@[simp] theorem Chip.setLimit_nextRun (w : Nat) : (s.setLimit w).nextRun = s.nextRun := rfl
@[simp] theorem Chip.setLimit_mem (w : Nat) : (s.setLimit w).mem = s.mem := rfl
@[simp] theorem Chip.setLimit_linings (w : Nat) : (s.setLimit w).linings = s.linings := rfl
@[simp] theorem Chip.setLimit_hbm (w : Nat) : (s.setLimit w).hbm = s.hbm := rfl
@[simp] theorem Chip.setLimit_seams (w : Nat) : (s.setLimit w).seams = s.seams := rfl
@[simp] theorem Chip.setLimit_links (w : Nat) : (s.setLimit w).links = s.links := rfl
@[simp] theorem Chip.setLimit_bufs (w : Nat) : (s.setLimit w).bufs = s.bufs := rfl
@[simp] theorem Chip.setLimit_requests (w : Nat) : (s.setLimit w).requests = s.requests := rfl
@[simp] theorem Chip.setLimit_nextReq (w : Nat) : (s.setLimit w).nextReq = s.nextReq := rfl
@[simp] theorem Chip.setLimit_tlr (w : Nat) : (s.setLimit w).tlr = s.tlr := rfl
@[simp] theorem Chip.setLimit_dbg (w : Nat) : (s.setLimit w).dbg = s.dbg := rfl
@[simp] theorem Chip.setLimit_grade (w : Nat) : (s.setLimit w).grade = s.grade := rfl
@[simp] theorem Chip.setLimit_life (w : Nat) : (s.setLimit w).life = s.life := rfl
@[simp] theorem Chip.setLimit_expert (w : Nat) : (s.setLimit w).expert = s.expert := rfl
@[simp] theorem Chip.setLimit_planSigning (w : Nat) : (s.setLimit w).planSigning = s.planSigning := rfl
@[simp] theorem Chip.setLimit_configId (w : Nat) : (s.setLimit w).configId = s.configId := rfl
@[simp] theorem Chip.setLimit_free (w : Nat) : (s.setLimit w).free = s.free := rfl
@[simp] theorem Chip.setLimit_seeds (w : Nat) : (s.setLimit w).seeds = s.seeds := rfl
@[simp] theorem Chip.setLimit_fabric (w : Nat) : (s.setLimit w).fabric = s.fabric := rfl
@[simp] theorem Chip.setLimit_plates (w : Nat) : (s.setLimit w).plates = s.plates := rfl
@[simp] theorem Chip.setLimit_heat (w : Nat) : (s.setLimit w).heat = s.heat := rfl
@[simp] theorem Chip.setLimit_ledger (w : Nat) : (s.setLimit w).ledger = s.ledger := rfl
@[simp] theorem Chip.setLimit_trust (w : Nat) : (s.setLimit w).trust = s.trust := rfl
@[simp] theorem Chip.setLimit_krp (w : Nat) : (s.setLimit w).krp = s.krp := rfl
@[simp] theorem Chip.setLimit_pci (w : Nat) : (s.setLimit w).pci = s.pci := rfl
@[simp] theorem Chip.setLimit_boot (w : Nat) : (s.setLimit w).boot = s.boot := rfl
@[simp] theorem Chip.setLimit_mgmt (w : Nat) : (s.setLimit w).mgmt = s.mgmt := rfl

@[simp] theorem Chip.raiseDev_time (i : Nat) (part unit cell : Option Nat) (addr : Nat) : (s.raiseDev i part unit cell addr).time = s.time := by
  unfold Chip.raiseDev; simp only; split <;> rfl
@[simp] theorem Chip.raiseDev_fUnit (i : Nat) (part unit cell : Option Nat) (addr : Nat) : (s.raiseDev i part unit cell addr).fUnit = s.fUnit := by
  unfold Chip.raiseDev; simp only; split <;> rfl
@[simp] theorem Chip.raiseDev_cells (i : Nat) (part unit cell : Option Nat) (addr : Nat) : (s.raiseDev i part unit cell addr).cells = s.cells := by
  unfold Chip.raiseDev; simp only; split <;> rfl
@[simp] theorem Chip.raiseDev_panels (i : Nat) (part unit cell : Option Nat) (addr : Nat) : (s.raiseDev i part unit cell addr).panels = s.panels := by
  unfold Chip.raiseDev; simp only; split <;> rfl
@[simp] theorem Chip.raiseDev_swatches (i : Nat) (part unit cell : Option Nat) (addr : Nat) : (s.raiseDev i part unit cell addr).swatches = s.swatches := by
  unfold Chip.raiseDev; simp only; split <;> rfl
@[simp] theorem Chip.raiseDev_parts (i : Nat) (part unit cell : Option Nat) (addr : Nat) : (s.raiseDev i part unit cell addr).parts = s.parts := by
  unfold Chip.raiseDev; simp only; split <;> rfl
@[simp] theorem Chip.raiseDev_runs (i : Nat) (part unit cell : Option Nat) (addr : Nat) : (s.raiseDev i part unit cell addr).runs = s.runs := by
  unfold Chip.raiseDev; simp only; split <;> rfl
@[simp] theorem Chip.raiseDev_nextRun (i : Nat) (part unit cell : Option Nat) (addr : Nat) : (s.raiseDev i part unit cell addr).nextRun = s.nextRun := by
  unfold Chip.raiseDev; simp only; split <;> rfl
@[simp] theorem Chip.raiseDev_mem (i : Nat) (part unit cell : Option Nat) (addr : Nat) : (s.raiseDev i part unit cell addr).mem = s.mem := by
  unfold Chip.raiseDev; simp only; split <;> rfl
@[simp] theorem Chip.raiseDev_linings (i : Nat) (part unit cell : Option Nat) (addr : Nat) : (s.raiseDev i part unit cell addr).linings = s.linings := by
  unfold Chip.raiseDev; simp only; split <;> rfl
@[simp] theorem Chip.raiseDev_hbm (i : Nat) (part unit cell : Option Nat) (addr : Nat) : (s.raiseDev i part unit cell addr).hbm = s.hbm := by
  unfold Chip.raiseDev; simp only; split <;> rfl
@[simp] theorem Chip.raiseDev_seams (i : Nat) (part unit cell : Option Nat) (addr : Nat) : (s.raiseDev i part unit cell addr).seams = s.seams := by
  unfold Chip.raiseDev; simp only; split <;> rfl
@[simp] theorem Chip.raiseDev_links (i : Nat) (part unit cell : Option Nat) (addr : Nat) : (s.raiseDev i part unit cell addr).links = s.links := by
  unfold Chip.raiseDev; simp only; split <;> rfl
@[simp] theorem Chip.raiseDev_bufs (i : Nat) (part unit cell : Option Nat) (addr : Nat) : (s.raiseDev i part unit cell addr).bufs = s.bufs := by
  unfold Chip.raiseDev; simp only; split <;> rfl
@[simp] theorem Chip.raiseDev_requests (i : Nat) (part unit cell : Option Nat) (addr : Nat) : (s.raiseDev i part unit cell addr).requests = s.requests := by
  unfold Chip.raiseDev; simp only; split <;> rfl
@[simp] theorem Chip.raiseDev_nextReq (i : Nat) (part unit cell : Option Nat) (addr : Nat) : (s.raiseDev i part unit cell addr).nextReq = s.nextReq := by
  unfold Chip.raiseDev; simp only; split <;> rfl
@[simp] theorem Chip.raiseDev_dbg (i : Nat) (part unit cell : Option Nat) (addr : Nat) : (s.raiseDev i part unit cell addr).dbg = s.dbg := by
  unfold Chip.raiseDev; simp only; split <;> rfl
@[simp] theorem Chip.raiseDev_grade (i : Nat) (part unit cell : Option Nat) (addr : Nat) : (s.raiseDev i part unit cell addr).grade = s.grade := by
  unfold Chip.raiseDev; simp only; split <;> rfl
@[simp] theorem Chip.raiseDev_life (i : Nat) (part unit cell : Option Nat) (addr : Nat) : (s.raiseDev i part unit cell addr).life = s.life := by
  unfold Chip.raiseDev; simp only; split <;> rfl
@[simp] theorem Chip.raiseDev_expert (i : Nat) (part unit cell : Option Nat) (addr : Nat) : (s.raiseDev i part unit cell addr).expert = s.expert := by
  unfold Chip.raiseDev; simp only; split <;> rfl
@[simp] theorem Chip.raiseDev_planSigning (i : Nat) (part unit cell : Option Nat) (addr : Nat) : (s.raiseDev i part unit cell addr).planSigning = s.planSigning := by
  unfold Chip.raiseDev; simp only; split <;> rfl
@[simp] theorem Chip.raiseDev_configId (i : Nat) (part unit cell : Option Nat) (addr : Nat) : (s.raiseDev i part unit cell addr).configId = s.configId := by
  unfold Chip.raiseDev; simp only; split <;> rfl
@[simp] theorem Chip.raiseDev_free (i : Nat) (part unit cell : Option Nat) (addr : Nat) : (s.raiseDev i part unit cell addr).free = s.free := by
  unfold Chip.raiseDev; simp only; split <;> rfl
@[simp] theorem Chip.raiseDev_seeds (i : Nat) (part unit cell : Option Nat) (addr : Nat) : (s.raiseDev i part unit cell addr).seeds = s.seeds := by
  unfold Chip.raiseDev; simp only; split <;> rfl
@[simp] theorem Chip.raiseDev_fabric (i : Nat) (part unit cell : Option Nat) (addr : Nat) : (s.raiseDev i part unit cell addr).fabric = s.fabric := by
  unfold Chip.raiseDev; simp only; split <;> rfl
@[simp] theorem Chip.raiseDev_plates (i : Nat) (part unit cell : Option Nat) (addr : Nat) : (s.raiseDev i part unit cell addr).plates = s.plates := by
  unfold Chip.raiseDev; simp only; split <;> rfl
@[simp] theorem Chip.raiseDev_heat (i : Nat) (part unit cell : Option Nat) (addr : Nat) : (s.raiseDev i part unit cell addr).heat = s.heat := by
  unfold Chip.raiseDev; simp only; split <;> rfl
@[simp] theorem Chip.raiseDev_power (i : Nat) (part unit cell : Option Nat) (addr : Nat) : (s.raiseDev i part unit cell addr).power = s.power := by
  unfold Chip.raiseDev; simp only; split <;> rfl
@[simp] theorem Chip.raiseDev_ledger (i : Nat) (part unit cell : Option Nat) (addr : Nat) : (s.raiseDev i part unit cell addr).ledger = s.ledger := by
  unfold Chip.raiseDev; simp only; split <;> rfl
@[simp] theorem Chip.raiseDev_trust (i : Nat) (part unit cell : Option Nat) (addr : Nat) : (s.raiseDev i part unit cell addr).trust = s.trust := by
  unfold Chip.raiseDev; simp only; split <;> rfl
@[simp] theorem Chip.raiseDev_krp (i : Nat) (part unit cell : Option Nat) (addr : Nat) : (s.raiseDev i part unit cell addr).krp = s.krp := by
  unfold Chip.raiseDev; simp only; split <;> rfl
@[simp] theorem Chip.raiseDev_pci (i : Nat) (part unit cell : Option Nat) (addr : Nat) : (s.raiseDev i part unit cell addr).pci = s.pci := by
  unfold Chip.raiseDev; simp only; split <;> rfl
@[simp] theorem Chip.raiseDev_boot (i : Nat) (part unit cell : Option Nat) (addr : Nat) : (s.raiseDev i part unit cell addr).boot = s.boot := by
  unfold Chip.raiseDev; simp only; split <;> rfl
@[simp] theorem Chip.raiseDev_mgmt (i : Nat) (part unit cell : Option Nat) (addr : Nat) : (s.raiseDev i part unit cell addr).mgmt = s.mgmt := by
  unfold Chip.raiseDev; simp only; split <;> rfl

@[simp] theorem Chip.raiseBoth_time (p pi di : Nat) (unit cell : Option Nat) (addr : Nat) : (s.raiseBoth p pi di unit cell addr).time = s.time := by
  simp [Chip.raiseBoth]
@[simp] theorem Chip.raiseBoth_fUnit (p pi di : Nat) (unit cell : Option Nat) (addr : Nat) : (s.raiseBoth p pi di unit cell addr).fUnit = s.fUnit := by
  simp [Chip.raiseBoth]
@[simp] theorem Chip.raiseBoth_cells (p pi di : Nat) (unit cell : Option Nat) (addr : Nat) : (s.raiseBoth p pi di unit cell addr).cells = s.cells := by
  simp [Chip.raiseBoth]
@[simp] theorem Chip.raiseBoth_panels (p pi di : Nat) (unit cell : Option Nat) (addr : Nat) : (s.raiseBoth p pi di unit cell addr).panels = s.panels := by
  simp [Chip.raiseBoth]
@[simp] theorem Chip.raiseBoth_swatches (p pi di : Nat) (unit cell : Option Nat) (addr : Nat) : (s.raiseBoth p pi di unit cell addr).swatches = s.swatches := by
  simp [Chip.raiseBoth]
@[simp] theorem Chip.raiseBoth_runs (p pi di : Nat) (unit cell : Option Nat) (addr : Nat) : (s.raiseBoth p pi di unit cell addr).runs = s.runs := by
  simp [Chip.raiseBoth]
@[simp] theorem Chip.raiseBoth_nextRun (p pi di : Nat) (unit cell : Option Nat) (addr : Nat) : (s.raiseBoth p pi di unit cell addr).nextRun = s.nextRun := by
  simp [Chip.raiseBoth]
@[simp] theorem Chip.raiseBoth_mem (p pi di : Nat) (unit cell : Option Nat) (addr : Nat) : (s.raiseBoth p pi di unit cell addr).mem = s.mem := by
  simp [Chip.raiseBoth]
@[simp] theorem Chip.raiseBoth_linings (p pi di : Nat) (unit cell : Option Nat) (addr : Nat) : (s.raiseBoth p pi di unit cell addr).linings = s.linings := by
  simp [Chip.raiseBoth]
@[simp] theorem Chip.raiseBoth_hbm (p pi di : Nat) (unit cell : Option Nat) (addr : Nat) : (s.raiseBoth p pi di unit cell addr).hbm = s.hbm := by
  simp [Chip.raiseBoth]
@[simp] theorem Chip.raiseBoth_seams (p pi di : Nat) (unit cell : Option Nat) (addr : Nat) : (s.raiseBoth p pi di unit cell addr).seams = s.seams := by
  simp [Chip.raiseBoth]
@[simp] theorem Chip.raiseBoth_links (p pi di : Nat) (unit cell : Option Nat) (addr : Nat) : (s.raiseBoth p pi di unit cell addr).links = s.links := by
  simp [Chip.raiseBoth]
@[simp] theorem Chip.raiseBoth_bufs (p pi di : Nat) (unit cell : Option Nat) (addr : Nat) : (s.raiseBoth p pi di unit cell addr).bufs = s.bufs := by
  simp [Chip.raiseBoth]
@[simp] theorem Chip.raiseBoth_requests (p pi di : Nat) (unit cell : Option Nat) (addr : Nat) : (s.raiseBoth p pi di unit cell addr).requests = s.requests := by
  simp [Chip.raiseBoth]
@[simp] theorem Chip.raiseBoth_nextReq (p pi di : Nat) (unit cell : Option Nat) (addr : Nat) : (s.raiseBoth p pi di unit cell addr).nextReq = s.nextReq := by
  simp [Chip.raiseBoth]
@[simp] theorem Chip.raiseBoth_dbg (p pi di : Nat) (unit cell : Option Nat) (addr : Nat) : (s.raiseBoth p pi di unit cell addr).dbg = s.dbg := by
  simp [Chip.raiseBoth]
@[simp] theorem Chip.raiseBoth_grade (p pi di : Nat) (unit cell : Option Nat) (addr : Nat) : (s.raiseBoth p pi di unit cell addr).grade = s.grade := by
  simp [Chip.raiseBoth]
@[simp] theorem Chip.raiseBoth_life (p pi di : Nat) (unit cell : Option Nat) (addr : Nat) : (s.raiseBoth p pi di unit cell addr).life = s.life := by
  simp [Chip.raiseBoth]
@[simp] theorem Chip.raiseBoth_expert (p pi di : Nat) (unit cell : Option Nat) (addr : Nat) : (s.raiseBoth p pi di unit cell addr).expert = s.expert := by
  simp [Chip.raiseBoth]
@[simp] theorem Chip.raiseBoth_planSigning (p pi di : Nat) (unit cell : Option Nat) (addr : Nat) : (s.raiseBoth p pi di unit cell addr).planSigning = s.planSigning := by
  simp [Chip.raiseBoth]
@[simp] theorem Chip.raiseBoth_configId (p pi di : Nat) (unit cell : Option Nat) (addr : Nat) : (s.raiseBoth p pi di unit cell addr).configId = s.configId := by
  simp [Chip.raiseBoth]
@[simp] theorem Chip.raiseBoth_free (p pi di : Nat) (unit cell : Option Nat) (addr : Nat) : (s.raiseBoth p pi di unit cell addr).free = s.free := by
  simp [Chip.raiseBoth]
@[simp] theorem Chip.raiseBoth_seeds (p pi di : Nat) (unit cell : Option Nat) (addr : Nat) : (s.raiseBoth p pi di unit cell addr).seeds = s.seeds := by
  simp [Chip.raiseBoth]
@[simp] theorem Chip.raiseBoth_fabric (p pi di : Nat) (unit cell : Option Nat) (addr : Nat) : (s.raiseBoth p pi di unit cell addr).fabric = s.fabric := by
  simp [Chip.raiseBoth]
@[simp] theorem Chip.raiseBoth_plates (p pi di : Nat) (unit cell : Option Nat) (addr : Nat) : (s.raiseBoth p pi di unit cell addr).plates = s.plates := by
  simp [Chip.raiseBoth]
@[simp] theorem Chip.raiseBoth_heat (p pi di : Nat) (unit cell : Option Nat) (addr : Nat) : (s.raiseBoth p pi di unit cell addr).heat = s.heat := by
  simp [Chip.raiseBoth]
@[simp] theorem Chip.raiseBoth_power (p pi di : Nat) (unit cell : Option Nat) (addr : Nat) : (s.raiseBoth p pi di unit cell addr).power = s.power := by
  simp [Chip.raiseBoth]
@[simp] theorem Chip.raiseBoth_ledger (p pi di : Nat) (unit cell : Option Nat) (addr : Nat) : (s.raiseBoth p pi di unit cell addr).ledger = s.ledger := by
  simp [Chip.raiseBoth]
@[simp] theorem Chip.raiseBoth_trust (p pi di : Nat) (unit cell : Option Nat) (addr : Nat) : (s.raiseBoth p pi di unit cell addr).trust = s.trust := by
  simp [Chip.raiseBoth]
@[simp] theorem Chip.raiseBoth_krp (p pi di : Nat) (unit cell : Option Nat) (addr : Nat) : (s.raiseBoth p pi di unit cell addr).krp = s.krp := by
  simp [Chip.raiseBoth]
@[simp] theorem Chip.raiseBoth_pci (p pi di : Nat) (unit cell : Option Nat) (addr : Nat) : (s.raiseBoth p pi di unit cell addr).pci = s.pci := by
  simp [Chip.raiseBoth]
@[simp] theorem Chip.raiseBoth_boot (p pi di : Nat) (unit cell : Option Nat) (addr : Nat) : (s.raiseBoth p pi di unit cell addr).boot = s.boot := by
  simp [Chip.raiseBoth]
@[simp] theorem Chip.raiseBoth_mgmt (p pi di : Nat) (unit cell : Option Nat) (addr : Nat) : (s.raiseBoth p pi di unit cell addr).mgmt = s.mgmt := by
  simp [Chip.raiseBoth]

@[simp] theorem Chip.updMbx_time (fn : Fn) (g : Mailbox → Mailbox) : (s.updMbx fn g).time = s.time := by
  unfold Chip.updMbx; (repeat' split) <;> rfl
@[simp] theorem Chip.updMbx_fUnit (fn : Fn) (g : Mailbox → Mailbox) : (s.updMbx fn g).fUnit = s.fUnit := by
  unfold Chip.updMbx; (repeat' split) <;> rfl
@[simp] theorem Chip.updMbx_cells (fn : Fn) (g : Mailbox → Mailbox) : (s.updMbx fn g).cells = s.cells := by
  unfold Chip.updMbx; (repeat' split) <;> rfl
@[simp] theorem Chip.updMbx_panels (fn : Fn) (g : Mailbox → Mailbox) : (s.updMbx fn g).panels = s.panels := by
  unfold Chip.updMbx; (repeat' split) <;> rfl
@[simp] theorem Chip.updMbx_swatches (fn : Fn) (g : Mailbox → Mailbox) : (s.updMbx fn g).swatches = s.swatches := by
  unfold Chip.updMbx; (repeat' split) <;> rfl
@[simp] theorem Chip.updMbx_runs (fn : Fn) (g : Mailbox → Mailbox) : (s.updMbx fn g).runs = s.runs := by
  unfold Chip.updMbx; (repeat' split) <;> rfl
@[simp] theorem Chip.updMbx_nextRun (fn : Fn) (g : Mailbox → Mailbox) : (s.updMbx fn g).nextRun = s.nextRun := by
  unfold Chip.updMbx; (repeat' split) <;> rfl
@[simp] theorem Chip.updMbx_mem (fn : Fn) (g : Mailbox → Mailbox) : (s.updMbx fn g).mem = s.mem := by
  unfold Chip.updMbx; (repeat' split) <;> rfl
@[simp] theorem Chip.updMbx_linings (fn : Fn) (g : Mailbox → Mailbox) : (s.updMbx fn g).linings = s.linings := by
  unfold Chip.updMbx; (repeat' split) <;> rfl
@[simp] theorem Chip.updMbx_hbm (fn : Fn) (g : Mailbox → Mailbox) : (s.updMbx fn g).hbm = s.hbm := by
  unfold Chip.updMbx; (repeat' split) <;> rfl
@[simp] theorem Chip.updMbx_seams (fn : Fn) (g : Mailbox → Mailbox) : (s.updMbx fn g).seams = s.seams := by
  unfold Chip.updMbx; (repeat' split) <;> rfl
@[simp] theorem Chip.updMbx_links (fn : Fn) (g : Mailbox → Mailbox) : (s.updMbx fn g).links = s.links := by
  unfold Chip.updMbx; (repeat' split) <;> rfl
@[simp] theorem Chip.updMbx_bufs (fn : Fn) (g : Mailbox → Mailbox) : (s.updMbx fn g).bufs = s.bufs := by
  unfold Chip.updMbx; (repeat' split) <;> rfl
@[simp] theorem Chip.updMbx_requests (fn : Fn) (g : Mailbox → Mailbox) : (s.updMbx fn g).requests = s.requests := by
  unfold Chip.updMbx; (repeat' split) <;> rfl
@[simp] theorem Chip.updMbx_nextReq (fn : Fn) (g : Mailbox → Mailbox) : (s.updMbx fn g).nextReq = s.nextReq := by
  unfold Chip.updMbx; (repeat' split) <;> rfl
@[simp] theorem Chip.updMbx_dbg (fn : Fn) (g : Mailbox → Mailbox) : (s.updMbx fn g).dbg = s.dbg := by
  unfold Chip.updMbx; (repeat' split) <;> rfl
@[simp] theorem Chip.updMbx_grade (fn : Fn) (g : Mailbox → Mailbox) : (s.updMbx fn g).grade = s.grade := by
  unfold Chip.updMbx; (repeat' split) <;> rfl
@[simp] theorem Chip.updMbx_life (fn : Fn) (g : Mailbox → Mailbox) : (s.updMbx fn g).life = s.life := by
  unfold Chip.updMbx; (repeat' split) <;> rfl
@[simp] theorem Chip.updMbx_expert (fn : Fn) (g : Mailbox → Mailbox) : (s.updMbx fn g).expert = s.expert := by
  unfold Chip.updMbx; (repeat' split) <;> rfl
@[simp] theorem Chip.updMbx_planSigning (fn : Fn) (g : Mailbox → Mailbox) : (s.updMbx fn g).planSigning = s.planSigning := by
  unfold Chip.updMbx; (repeat' split) <;> rfl
@[simp] theorem Chip.updMbx_configId (fn : Fn) (g : Mailbox → Mailbox) : (s.updMbx fn g).configId = s.configId := by
  unfold Chip.updMbx; (repeat' split) <;> rfl
@[simp] theorem Chip.updMbx_free (fn : Fn) (g : Mailbox → Mailbox) : (s.updMbx fn g).free = s.free := by
  unfold Chip.updMbx; (repeat' split) <;> rfl
@[simp] theorem Chip.updMbx_seeds (fn : Fn) (g : Mailbox → Mailbox) : (s.updMbx fn g).seeds = s.seeds := by
  unfold Chip.updMbx; (repeat' split) <;> rfl
@[simp] theorem Chip.updMbx_fabric (fn : Fn) (g : Mailbox → Mailbox) : (s.updMbx fn g).fabric = s.fabric := by
  unfold Chip.updMbx; (repeat' split) <;> rfl
@[simp] theorem Chip.updMbx_plates (fn : Fn) (g : Mailbox → Mailbox) : (s.updMbx fn g).plates = s.plates := by
  unfold Chip.updMbx; (repeat' split) <;> rfl
@[simp] theorem Chip.updMbx_heat (fn : Fn) (g : Mailbox → Mailbox) : (s.updMbx fn g).heat = s.heat := by
  unfold Chip.updMbx; (repeat' split) <;> rfl
@[simp] theorem Chip.updMbx_power (fn : Fn) (g : Mailbox → Mailbox) : (s.updMbx fn g).power = s.power := by
  unfold Chip.updMbx; (repeat' split) <;> rfl
@[simp] theorem Chip.updMbx_ledger (fn : Fn) (g : Mailbox → Mailbox) : (s.updMbx fn g).ledger = s.ledger := by
  unfold Chip.updMbx; (repeat' split) <;> rfl
@[simp] theorem Chip.updMbx_trust (fn : Fn) (g : Mailbox → Mailbox) : (s.updMbx fn g).trust = s.trust := by
  unfold Chip.updMbx; (repeat' split) <;> rfl
@[simp] theorem Chip.updMbx_krp (fn : Fn) (g : Mailbox → Mailbox) : (s.updMbx fn g).krp = s.krp := by
  unfold Chip.updMbx; (repeat' split) <;> rfl
@[simp] theorem Chip.updMbx_pci (fn : Fn) (g : Mailbox → Mailbox) : (s.updMbx fn g).pci = s.pci := by
  unfold Chip.updMbx; (repeat' split) <;> rfl
@[simp] theorem Chip.updMbx_boot (fn : Fn) (g : Mailbox → Mailbox) : (s.updMbx fn g).boot = s.boot := by
  unfold Chip.updMbx; (repeat' split) <;> rfl
@[simp] theorem Chip.updMbx_mgmt (fn : Fn) (g : Mailbox → Mailbox) : (s.updMbx fn g).mgmt = s.mgmt := by
  unfold Chip.updMbx; (repeat' split) <;> rfl

@[simp] theorem Chip.updEvents_time (fn : Fn) (g : Events → Events) : (s.updEvents fn g).time = s.time := by
  unfold Chip.updEvents; (repeat' split) <;> rfl
@[simp] theorem Chip.updEvents_fUnit (fn : Fn) (g : Events → Events) : (s.updEvents fn g).fUnit = s.fUnit := by
  unfold Chip.updEvents; (repeat' split) <;> rfl
@[simp] theorem Chip.updEvents_cells (fn : Fn) (g : Events → Events) : (s.updEvents fn g).cells = s.cells := by
  unfold Chip.updEvents; (repeat' split) <;> rfl
@[simp] theorem Chip.updEvents_panels (fn : Fn) (g : Events → Events) : (s.updEvents fn g).panels = s.panels := by
  unfold Chip.updEvents; (repeat' split) <;> rfl
@[simp] theorem Chip.updEvents_swatches (fn : Fn) (g : Events → Events) : (s.updEvents fn g).swatches = s.swatches := by
  unfold Chip.updEvents; (repeat' split) <;> rfl
@[simp] theorem Chip.updEvents_runs (fn : Fn) (g : Events → Events) : (s.updEvents fn g).runs = s.runs := by
  unfold Chip.updEvents; (repeat' split) <;> rfl
@[simp] theorem Chip.updEvents_nextRun (fn : Fn) (g : Events → Events) : (s.updEvents fn g).nextRun = s.nextRun := by
  unfold Chip.updEvents; (repeat' split) <;> rfl
@[simp] theorem Chip.updEvents_mem (fn : Fn) (g : Events → Events) : (s.updEvents fn g).mem = s.mem := by
  unfold Chip.updEvents; (repeat' split) <;> rfl
@[simp] theorem Chip.updEvents_linings (fn : Fn) (g : Events → Events) : (s.updEvents fn g).linings = s.linings := by
  unfold Chip.updEvents; (repeat' split) <;> rfl
@[simp] theorem Chip.updEvents_hbm (fn : Fn) (g : Events → Events) : (s.updEvents fn g).hbm = s.hbm := by
  unfold Chip.updEvents; (repeat' split) <;> rfl
@[simp] theorem Chip.updEvents_seams (fn : Fn) (g : Events → Events) : (s.updEvents fn g).seams = s.seams := by
  unfold Chip.updEvents; (repeat' split) <;> rfl
@[simp] theorem Chip.updEvents_links (fn : Fn) (g : Events → Events) : (s.updEvents fn g).links = s.links := by
  unfold Chip.updEvents; (repeat' split) <;> rfl
@[simp] theorem Chip.updEvents_bufs (fn : Fn) (g : Events → Events) : (s.updEvents fn g).bufs = s.bufs := by
  unfold Chip.updEvents; (repeat' split) <;> rfl
@[simp] theorem Chip.updEvents_requests (fn : Fn) (g : Events → Events) : (s.updEvents fn g).requests = s.requests := by
  unfold Chip.updEvents; (repeat' split) <;> rfl
@[simp] theorem Chip.updEvents_nextReq (fn : Fn) (g : Events → Events) : (s.updEvents fn g).nextReq = s.nextReq := by
  unfold Chip.updEvents; (repeat' split) <;> rfl
@[simp] theorem Chip.updEvents_dbg (fn : Fn) (g : Events → Events) : (s.updEvents fn g).dbg = s.dbg := by
  unfold Chip.updEvents; (repeat' split) <;> rfl
@[simp] theorem Chip.updEvents_grade (fn : Fn) (g : Events → Events) : (s.updEvents fn g).grade = s.grade := by
  unfold Chip.updEvents; (repeat' split) <;> rfl
@[simp] theorem Chip.updEvents_life (fn : Fn) (g : Events → Events) : (s.updEvents fn g).life = s.life := by
  unfold Chip.updEvents; (repeat' split) <;> rfl
@[simp] theorem Chip.updEvents_expert (fn : Fn) (g : Events → Events) : (s.updEvents fn g).expert = s.expert := by
  unfold Chip.updEvents; (repeat' split) <;> rfl
@[simp] theorem Chip.updEvents_planSigning (fn : Fn) (g : Events → Events) : (s.updEvents fn g).planSigning = s.planSigning := by
  unfold Chip.updEvents; (repeat' split) <;> rfl
@[simp] theorem Chip.updEvents_configId (fn : Fn) (g : Events → Events) : (s.updEvents fn g).configId = s.configId := by
  unfold Chip.updEvents; (repeat' split) <;> rfl
@[simp] theorem Chip.updEvents_free (fn : Fn) (g : Events → Events) : (s.updEvents fn g).free = s.free := by
  unfold Chip.updEvents; (repeat' split) <;> rfl
@[simp] theorem Chip.updEvents_seeds (fn : Fn) (g : Events → Events) : (s.updEvents fn g).seeds = s.seeds := by
  unfold Chip.updEvents; (repeat' split) <;> rfl
@[simp] theorem Chip.updEvents_fabric (fn : Fn) (g : Events → Events) : (s.updEvents fn g).fabric = s.fabric := by
  unfold Chip.updEvents; (repeat' split) <;> rfl
@[simp] theorem Chip.updEvents_plates (fn : Fn) (g : Events → Events) : (s.updEvents fn g).plates = s.plates := by
  unfold Chip.updEvents; (repeat' split) <;> rfl
@[simp] theorem Chip.updEvents_heat (fn : Fn) (g : Events → Events) : (s.updEvents fn g).heat = s.heat := by
  unfold Chip.updEvents; (repeat' split) <;> rfl
@[simp] theorem Chip.updEvents_power (fn : Fn) (g : Events → Events) : (s.updEvents fn g).power = s.power := by
  unfold Chip.updEvents; (repeat' split) <;> rfl
@[simp] theorem Chip.updEvents_ledger (fn : Fn) (g : Events → Events) : (s.updEvents fn g).ledger = s.ledger := by
  unfold Chip.updEvents; (repeat' split) <;> rfl
@[simp] theorem Chip.updEvents_trust (fn : Fn) (g : Events → Events) : (s.updEvents fn g).trust = s.trust := by
  unfold Chip.updEvents; (repeat' split) <;> rfl
@[simp] theorem Chip.updEvents_krp (fn : Fn) (g : Events → Events) : (s.updEvents fn g).krp = s.krp := by
  unfold Chip.updEvents; (repeat' split) <;> rfl
@[simp] theorem Chip.updEvents_pci (fn : Fn) (g : Events → Events) : (s.updEvents fn g).pci = s.pci := by
  unfold Chip.updEvents; (repeat' split) <;> rfl
@[simp] theorem Chip.updEvents_boot (fn : Fn) (g : Events → Events) : (s.updEvents fn g).boot = s.boot := by
  unfold Chip.updEvents; (repeat' split) <;> rfl
@[simp] theorem Chip.updEvents_mgmt (fn : Fn) (g : Events → Events) : (s.updEvents fn g).mgmt = s.mgmt := by
  unfold Chip.updEvents; (repeat' split) <;> rfl

@[simp] theorem Chip.updMsix_time (fn : Fn) (g : Msix → Msix) : (s.updMsix fn g).time = s.time := by
  unfold Chip.updMsix; (repeat' split) <;> rfl
@[simp] theorem Chip.updMsix_fUnit (fn : Fn) (g : Msix → Msix) : (s.updMsix fn g).fUnit = s.fUnit := by
  unfold Chip.updMsix; (repeat' split) <;> rfl
@[simp] theorem Chip.updMsix_cells (fn : Fn) (g : Msix → Msix) : (s.updMsix fn g).cells = s.cells := by
  unfold Chip.updMsix; (repeat' split) <;> rfl
@[simp] theorem Chip.updMsix_panels (fn : Fn) (g : Msix → Msix) : (s.updMsix fn g).panels = s.panels := by
  unfold Chip.updMsix; (repeat' split) <;> rfl
@[simp] theorem Chip.updMsix_swatches (fn : Fn) (g : Msix → Msix) : (s.updMsix fn g).swatches = s.swatches := by
  unfold Chip.updMsix; (repeat' split) <;> rfl
@[simp] theorem Chip.updMsix_runs (fn : Fn) (g : Msix → Msix) : (s.updMsix fn g).runs = s.runs := by
  unfold Chip.updMsix; (repeat' split) <;> rfl
@[simp] theorem Chip.updMsix_nextRun (fn : Fn) (g : Msix → Msix) : (s.updMsix fn g).nextRun = s.nextRun := by
  unfold Chip.updMsix; (repeat' split) <;> rfl
@[simp] theorem Chip.updMsix_mem (fn : Fn) (g : Msix → Msix) : (s.updMsix fn g).mem = s.mem := by
  unfold Chip.updMsix; (repeat' split) <;> rfl
@[simp] theorem Chip.updMsix_linings (fn : Fn) (g : Msix → Msix) : (s.updMsix fn g).linings = s.linings := by
  unfold Chip.updMsix; (repeat' split) <;> rfl
@[simp] theorem Chip.updMsix_hbm (fn : Fn) (g : Msix → Msix) : (s.updMsix fn g).hbm = s.hbm := by
  unfold Chip.updMsix; (repeat' split) <;> rfl
@[simp] theorem Chip.updMsix_seams (fn : Fn) (g : Msix → Msix) : (s.updMsix fn g).seams = s.seams := by
  unfold Chip.updMsix; (repeat' split) <;> rfl
@[simp] theorem Chip.updMsix_links (fn : Fn) (g : Msix → Msix) : (s.updMsix fn g).links = s.links := by
  unfold Chip.updMsix; (repeat' split) <;> rfl
@[simp] theorem Chip.updMsix_bufs (fn : Fn) (g : Msix → Msix) : (s.updMsix fn g).bufs = s.bufs := by
  unfold Chip.updMsix; (repeat' split) <;> rfl
@[simp] theorem Chip.updMsix_requests (fn : Fn) (g : Msix → Msix) : (s.updMsix fn g).requests = s.requests := by
  unfold Chip.updMsix; (repeat' split) <;> rfl
@[simp] theorem Chip.updMsix_nextReq (fn : Fn) (g : Msix → Msix) : (s.updMsix fn g).nextReq = s.nextReq := by
  unfold Chip.updMsix; (repeat' split) <;> rfl
@[simp] theorem Chip.updMsix_dbg (fn : Fn) (g : Msix → Msix) : (s.updMsix fn g).dbg = s.dbg := by
  unfold Chip.updMsix; (repeat' split) <;> rfl
@[simp] theorem Chip.updMsix_grade (fn : Fn) (g : Msix → Msix) : (s.updMsix fn g).grade = s.grade := by
  unfold Chip.updMsix; (repeat' split) <;> rfl
@[simp] theorem Chip.updMsix_life (fn : Fn) (g : Msix → Msix) : (s.updMsix fn g).life = s.life := by
  unfold Chip.updMsix; (repeat' split) <;> rfl
@[simp] theorem Chip.updMsix_expert (fn : Fn) (g : Msix → Msix) : (s.updMsix fn g).expert = s.expert := by
  unfold Chip.updMsix; (repeat' split) <;> rfl
@[simp] theorem Chip.updMsix_planSigning (fn : Fn) (g : Msix → Msix) : (s.updMsix fn g).planSigning = s.planSigning := by
  unfold Chip.updMsix; (repeat' split) <;> rfl
@[simp] theorem Chip.updMsix_configId (fn : Fn) (g : Msix → Msix) : (s.updMsix fn g).configId = s.configId := by
  unfold Chip.updMsix; (repeat' split) <;> rfl
@[simp] theorem Chip.updMsix_free (fn : Fn) (g : Msix → Msix) : (s.updMsix fn g).free = s.free := by
  unfold Chip.updMsix; (repeat' split) <;> rfl
@[simp] theorem Chip.updMsix_seeds (fn : Fn) (g : Msix → Msix) : (s.updMsix fn g).seeds = s.seeds := by
  unfold Chip.updMsix; (repeat' split) <;> rfl
@[simp] theorem Chip.updMsix_fabric (fn : Fn) (g : Msix → Msix) : (s.updMsix fn g).fabric = s.fabric := by
  unfold Chip.updMsix; (repeat' split) <;> rfl
@[simp] theorem Chip.updMsix_plates (fn : Fn) (g : Msix → Msix) : (s.updMsix fn g).plates = s.plates := by
  unfold Chip.updMsix; (repeat' split) <;> rfl
@[simp] theorem Chip.updMsix_heat (fn : Fn) (g : Msix → Msix) : (s.updMsix fn g).heat = s.heat := by
  unfold Chip.updMsix; (repeat' split) <;> rfl
@[simp] theorem Chip.updMsix_power (fn : Fn) (g : Msix → Msix) : (s.updMsix fn g).power = s.power := by
  unfold Chip.updMsix; (repeat' split) <;> rfl
@[simp] theorem Chip.updMsix_ledger (fn : Fn) (g : Msix → Msix) : (s.updMsix fn g).ledger = s.ledger := by
  unfold Chip.updMsix; (repeat' split) <;> rfl
@[simp] theorem Chip.updMsix_trust (fn : Fn) (g : Msix → Msix) : (s.updMsix fn g).trust = s.trust := by
  unfold Chip.updMsix; (repeat' split) <;> rfl
@[simp] theorem Chip.updMsix_krp (fn : Fn) (g : Msix → Msix) : (s.updMsix fn g).krp = s.krp := by
  unfold Chip.updMsix; (repeat' split) <;> rfl
@[simp] theorem Chip.updMsix_pci (fn : Fn) (g : Msix → Msix) : (s.updMsix fn g).pci = s.pci := by
  unfold Chip.updMsix; (repeat' split) <;> rfl
@[simp] theorem Chip.updMsix_boot (fn : Fn) (g : Msix → Msix) : (s.updMsix fn g).boot = s.boot := by
  unfold Chip.updMsix; (repeat' split) <;> rfl
@[simp] theorem Chip.updMsix_mgmt (fn : Fn) (g : Msix → Msix) : (s.updMsix fn g).mgmt = s.mgmt := by
  unfold Chip.updMsix; (repeat' split) <;> rfl

@[simp] theorem Chip.respond_time (c : Call) (code : Nat) (st : Status) (detail : Nat) (result : List Nat) : (s.respond c code st detail result).time = s.time := by
  unfold Chip.respond; split <;> simp
@[simp] theorem Chip.respond_fUnit (c : Call) (code : Nat) (st : Status) (detail : Nat) (result : List Nat) : (s.respond c code st detail result).fUnit = s.fUnit := by
  unfold Chip.respond; split <;> simp
@[simp] theorem Chip.respond_cells (c : Call) (code : Nat) (st : Status) (detail : Nat) (result : List Nat) : (s.respond c code st detail result).cells = s.cells := by
  unfold Chip.respond; split <;> simp
@[simp] theorem Chip.respond_panels (c : Call) (code : Nat) (st : Status) (detail : Nat) (result : List Nat) : (s.respond c code st detail result).panels = s.panels := by
  unfold Chip.respond; split <;> simp
@[simp] theorem Chip.respond_swatches (c : Call) (code : Nat) (st : Status) (detail : Nat) (result : List Nat) : (s.respond c code st detail result).swatches = s.swatches := by
  unfold Chip.respond; split <;> simp
@[simp] theorem Chip.respond_runs (c : Call) (code : Nat) (st : Status) (detail : Nat) (result : List Nat) : (s.respond c code st detail result).runs = s.runs := by
  unfold Chip.respond; split <;> simp
@[simp] theorem Chip.respond_nextRun (c : Call) (code : Nat) (st : Status) (detail : Nat) (result : List Nat) : (s.respond c code st detail result).nextRun = s.nextRun := by
  unfold Chip.respond; split <;> simp
@[simp] theorem Chip.respond_mem (c : Call) (code : Nat) (st : Status) (detail : Nat) (result : List Nat) : (s.respond c code st detail result).mem = s.mem := by
  unfold Chip.respond; split <;> simp
@[simp] theorem Chip.respond_linings (c : Call) (code : Nat) (st : Status) (detail : Nat) (result : List Nat) : (s.respond c code st detail result).linings = s.linings := by
  unfold Chip.respond; split <;> simp
@[simp] theorem Chip.respond_hbm (c : Call) (code : Nat) (st : Status) (detail : Nat) (result : List Nat) : (s.respond c code st detail result).hbm = s.hbm := by
  unfold Chip.respond; split <;> simp
@[simp] theorem Chip.respond_seams (c : Call) (code : Nat) (st : Status) (detail : Nat) (result : List Nat) : (s.respond c code st detail result).seams = s.seams := by
  unfold Chip.respond; split <;> simp
@[simp] theorem Chip.respond_links (c : Call) (code : Nat) (st : Status) (detail : Nat) (result : List Nat) : (s.respond c code st detail result).links = s.links := by
  unfold Chip.respond; split <;> simp
@[simp] theorem Chip.respond_bufs (c : Call) (code : Nat) (st : Status) (detail : Nat) (result : List Nat) : (s.respond c code st detail result).bufs = s.bufs := by
  unfold Chip.respond; split <;> simp
@[simp] theorem Chip.respond_requests (c : Call) (code : Nat) (st : Status) (detail : Nat) (result : List Nat) : (s.respond c code st detail result).requests = s.requests := by
  unfold Chip.respond; split <;> simp
@[simp] theorem Chip.respond_nextReq (c : Call) (code : Nat) (st : Status) (detail : Nat) (result : List Nat) : (s.respond c code st detail result).nextReq = s.nextReq := by
  unfold Chip.respond; split <;> simp
@[simp] theorem Chip.respond_dbg (c : Call) (code : Nat) (st : Status) (detail : Nat) (result : List Nat) : (s.respond c code st detail result).dbg = s.dbg := by
  unfold Chip.respond; split <;> simp
@[simp] theorem Chip.respond_grade (c : Call) (code : Nat) (st : Status) (detail : Nat) (result : List Nat) : (s.respond c code st detail result).grade = s.grade := by
  unfold Chip.respond; split <;> simp
@[simp] theorem Chip.respond_life (c : Call) (code : Nat) (st : Status) (detail : Nat) (result : List Nat) : (s.respond c code st detail result).life = s.life := by
  unfold Chip.respond; split <;> simp
@[simp] theorem Chip.respond_expert (c : Call) (code : Nat) (st : Status) (detail : Nat) (result : List Nat) : (s.respond c code st detail result).expert = s.expert := by
  unfold Chip.respond; split <;> simp
@[simp] theorem Chip.respond_planSigning (c : Call) (code : Nat) (st : Status) (detail : Nat) (result : List Nat) : (s.respond c code st detail result).planSigning = s.planSigning := by
  unfold Chip.respond; split <;> simp
@[simp] theorem Chip.respond_configId (c : Call) (code : Nat) (st : Status) (detail : Nat) (result : List Nat) : (s.respond c code st detail result).configId = s.configId := by
  unfold Chip.respond; split <;> simp
@[simp] theorem Chip.respond_free (c : Call) (code : Nat) (st : Status) (detail : Nat) (result : List Nat) : (s.respond c code st detail result).free = s.free := by
  unfold Chip.respond; split <;> simp
@[simp] theorem Chip.respond_seeds (c : Call) (code : Nat) (st : Status) (detail : Nat) (result : List Nat) : (s.respond c code st detail result).seeds = s.seeds := by
  unfold Chip.respond; split <;> simp
@[simp] theorem Chip.respond_fabric (c : Call) (code : Nat) (st : Status) (detail : Nat) (result : List Nat) : (s.respond c code st detail result).fabric = s.fabric := by
  unfold Chip.respond; split <;> simp
@[simp] theorem Chip.respond_plates (c : Call) (code : Nat) (st : Status) (detail : Nat) (result : List Nat) : (s.respond c code st detail result).plates = s.plates := by
  unfold Chip.respond; split <;> simp
@[simp] theorem Chip.respond_heat (c : Call) (code : Nat) (st : Status) (detail : Nat) (result : List Nat) : (s.respond c code st detail result).heat = s.heat := by
  unfold Chip.respond; split <;> simp
@[simp] theorem Chip.respond_power (c : Call) (code : Nat) (st : Status) (detail : Nat) (result : List Nat) : (s.respond c code st detail result).power = s.power := by
  unfold Chip.respond; split <;> simp
@[simp] theorem Chip.respond_ledger (c : Call) (code : Nat) (st : Status) (detail : Nat) (result : List Nat) : (s.respond c code st detail result).ledger = s.ledger := by
  unfold Chip.respond; split <;> simp
@[simp] theorem Chip.respond_trust (c : Call) (code : Nat) (st : Status) (detail : Nat) (result : List Nat) : (s.respond c code st detail result).trust = s.trust := by
  unfold Chip.respond; split <;> simp
@[simp] theorem Chip.respond_krp (c : Call) (code : Nat) (st : Status) (detail : Nat) (result : List Nat) : (s.respond c code st detail result).krp = s.krp := by
  unfold Chip.respond; split <;> simp
@[simp] theorem Chip.respond_pci (c : Call) (code : Nat) (st : Status) (detail : Nat) (result : List Nat) : (s.respond c code st detail result).pci = s.pci := by
  unfold Chip.respond; split <;> simp
@[simp] theorem Chip.respond_boot (c : Call) (code : Nat) (st : Status) (detail : Nat) (result : List Nat) : (s.respond c code st detail result).boot = s.boot := by
  unfold Chip.respond; split <;> simp
@[simp] theorem Chip.respond_mgmt (c : Call) (code : Nat) (st : Status) (detail : Nat) (result : List Nat) : (s.respond c code st detail result).mgmt = s.mgmt := by
  unfold Chip.respond; split <;> simp

/-! ### Reading back what an update wrote -/

@[simp] theorem Chip.panel_updPanel (n : Nat) (f : Panel → Panel) : (s.updPanel n f).panel n = f (s.panel n) := by
  simp [Chip.updPanel, Chip.panel]

theorem Chip.panel_updPanel_other {n k : Nat} (h : k ≠ n) (f : Panel → Panel) : (s.updPanel n f).panel k = s.panel k := by
  simp [Chip.updPanel, Chip.panel, mget_mput_other _ h]

@[simp] theorem Chip.swatch_updSwatch (n : Nat) (f : Swatch → Swatch) : (s.updSwatch n f).swatch n = f (s.swatch n) := by
  simp [Chip.updSwatch, Chip.swatch]

theorem Chip.swatch_updSwatch_other {n k : Nat} (h : k ≠ n) (f : Swatch → Swatch) : (s.updSwatch n f).swatch k = s.swatch k := by
  simp [Chip.updSwatch, Chip.swatch, mget_mput_other _ h]

@[simp] theorem Chip.part_updPart (n : Nat) (f : Partition → Partition) : (s.updPart n f).part n = f (s.part n) := by
  simp [Chip.updPart, Chip.part]

theorem Chip.part_updPart_other {n k : Nat} (h : k ≠ n) (f : Partition → Partition) : (s.updPart n f).part k = s.part k := by
  simp [Chip.updPart, Chip.part, mget_mput_other _ h]

@[simp] theorem Chip.lining_updLining (n : Nat) (f : Lining → Lining) : (s.updLining n f).lining n = f (s.lining n) := by
  simp [Chip.updLining, Chip.lining]

theorem Chip.lining_updLining_other {n k : Nat} (h : k ≠ n) (f : Lining → Lining) : (s.updLining n f).lining k = s.lining k := by
  simp [Chip.updLining, Chip.lining, mget_mput_other _ h]

@[simp] theorem Chip.stack_updStack (n : Nat) (f : Stack → Stack) : (s.updStack n f).stack n = f (s.stack n) := by
  simp [Chip.updStack, Chip.stack]

theorem Chip.stack_updStack_other {n k : Nat} (h : k ≠ n) (f : Stack → Stack) : (s.updStack n f).stack k = s.stack k := by
  simp [Chip.updStack, Chip.stack, mget_mput_other _ h]

@[simp] theorem Chip.seam_updSeam (n : Nat) (f : SeamPort → SeamPort) : (s.updSeam n f).seam n = f (s.seam n) := by
  simp [Chip.updSeam, Chip.seam]

theorem Chip.seam_updSeam_other {n k : Nat} (h : k ≠ n) (f : SeamPort → SeamPort) : (s.updSeam n f).seam k = s.seam k := by
  simp [Chip.updSeam, Chip.seam, mget_mput_other _ h]

@[simp] theorem Chip.link_updLink (n : Nat) (f : SlvLink → SlvLink) : (s.updLink n f).link n = f (s.link n) := by
  simp [Chip.updLink, Chip.link]

theorem Chip.link_updLink_other {n k : Nat} (h : k ≠ n) (f : SlvLink → SlvLink) : (s.updLink n f).link k = s.link k := by
  simp [Chip.updLink, Chip.link, mget_mput_other _ h]

@[simp] theorem Chip.plate_updPlate (n : Nat) (f : Plate → Plate) : (s.updPlate n f).plate n = f (s.plate n) := by
  simp [Chip.updPlate, Chip.plate]

theorem Chip.plate_updPlate_other {n k : Nat} (h : k ≠ n) (f : Plate → Plate) : (s.updPlate n f).plate k = s.plate k := by
  simp [Chip.updPlate, Chip.plate, mget_mput_other _ h]

@[simp] theorem Chip.cell_setCell (n : Nat) (c : Cell) : (s.setCell n c).cell n = c := by simp [Chip.setCell, Chip.cell]

theorem Chip.cell_setCell_other {n k : Nat} (h : k ≠ n) (c : Cell) : (s.setCell n c).cell k = s.cell k := by
  simp [Chip.setCell, Chip.cell, mget_mput_other _ h]

@[simp] theorem Chip.cell_updCell (n : Nat) (f : Cell → Cell) : (s.updCell n f).cell n = f (s.cell n) := by
  simp [Chip.updCell]

theorem Chip.cell_updCell_other {n k : Nat} (h : k ≠ n) (f : Cell → Cell) : (s.updCell n f).cell k = s.cell k := by
  simp [Chip.updCell, Chip.cell_setCell_other _ h]

@[simp] theorem Chip.part_updCnt (n : Nat) (f : PtnCounters → PtnCounters) :
    (s.updCnt n f).part n = { s.part n with cnt := f (s.part n).cnt } := by simp [Chip.updCnt]

@[simp] theorem Chip.part_updRegs (n : Nat) (f : PtnPlan → PtnPlan) :
    (s.updRegs n f).part n = { s.part n with regs := f (s.part n).regs } := by simp [Chip.updRegs]

@[simp] theorem Chip.part_raisePart (n k : Nat) :
    (s.raisePart n k).part n = { s.part n with events := (s.part n).events.bump k 1 } := by simp [Chip.raisePart]

theorem Chip.part_updCnt_other {n k : Nat} (h : k ≠ n) (f : PtnCounters → PtnCounters) : (s.updCnt n f).part k = s.part k := by
  simp [Chip.updCnt, Chip.part_updPart_other _ h]

theorem Chip.part_updRegs_other {n k : Nat} (h : k ≠ n) (f : PtnPlan → PtnPlan) : (s.updRegs n f).part k = s.part k := by
  simp [Chip.updRegs, Chip.part_updPart_other _ h]

/-- The part map is all a partition read looks at. -/
theorem Chip.part_congr {s t : Chip} (h : t.parts = s.parts) (n : Nat) : t.part n = s.part n := by simp [Chip.part, h]

/-! ### Mailboxes -/

@[simp] theorem Chip.mbx_updMbx (fn : Fn) (g : Mailbox → Mailbox) : (s.updMbx fn g).mbx fn = g (s.mbx fn) := by
  cases fn <;> simp [Chip.updMbx, Chip.mbx]

theorem Mailbox.answer_responses (r : Response) (m : Mailbox) : (m.answer r).responses = r :: m.responses.take 15 := by
  unfold Mailbox.answer; split <;> rfl

/-- Answering a call puts the response at the front of its function's mailbox. -/
theorem Chip.respond_front (c : Call) (code : Nat) (st : Status) (detail : Nat) (result : List Nat) (h : c.quiet = false) :
    ((s.respond c code st detail result).mbx c.fn).responses.head?
      = some ⟨code, c.tag, st, if st = .ok then 0 else detail, result⟩ := by
  simp [Chip.respond, h, Mailbox.answer_responses]

/-! ### Gates -/

theorem Chip.live_of {f : Chip → Chip} (h : s.held = false) : s.live f = f s := by simp [Chip.live, h]

theorem Chip.live_held {f : Chip → Chip} (h : s.held = true) : s.live f = s := by simp [Chip.live, h]

theorem Chip.shown_of {f : Chip → Chip} (h : s.held = false) (hm : s.boot.mute = false) : s.shown f = f s := by
  simp [Chip.shown, Chip.live, h, hm]

theorem Chip.shown_held {f : Chip → Chip} (h : s.held = true) : s.shown f = s := by simp [Chip.shown, Chip.live, h]

theorem Chip.served_of {f : Chip → Chip} (c : Call) (h : s.held = false) (hs : s.serves c.fn = true) :
    s.served c f = f s := by simp [Chip.served, Chip.live, h, hs]

theorem Chip.served_held {f : Chip → Chip} (c : Call) (h : s.held = true) : s.served c f = s := by
  simp [Chip.served, Chip.live, h]

theorem Chip.reached_held {f : Chip → Chip} (fn : Fn) (h : s.held = true) : s.reached fn f = s := by
  simp [Chip.reached, Chip.live, h]

theorem Chip.host_held {f : Chip → Chip} (fn : Fn) (h : s.held = true) : s.host fn f = s := by
  simp [Chip.host, Chip.shown, Chip.live, h]

/-- A served call whose common checks pass runs its own effect and answers with its status and result. -/
theorem Chip.call_of {s : Chip} {c : Call} {code : Nat} {k : CallShape} {ranges : List (Bool × Status)}
    {effect : Chip → Chip × Status × Nat × List Nat} (h : s.common c k ranges = none) :
    s.call c code k ranges effect
      = (effect s).1.respond c code (effect s).2.1 (effect s).2.2.1 (effect s).2.2.2 := by
  simp [Chip.call, h]

end Sys2Proof.Machine
end

