-- ==== Sys2Proof/Laws/Gates.lean ====
section
/-! SUPPORT. What the gates of a command do once it is taken: one law each, cited instead of unfolding the gate. -/

namespace Sys2Proof.Machine

variable {s : Chip}

theorem Chip.accepts_parts {c : Call} (h : s.accepts c = true) : c.quiet = false ∧ s.held = false ∧ s.serves c.fn = true := by
  simpa [Chip.accepts, and_assoc] using h

theorem Chip.served_accepts {c : Call} {f : Chip → Chip} (h : s.accepts c = true) : s.served c f = f s :=
  s.served_of c (Chip.accepts_parts h).2.1 (Chip.accepts_parts h).2.2

theorem Chip.served_passes {c : Call} {k : CallShape} {r : List (Bool × Status)} {f : Chip → Chip} (h : s.passes c k r) :
    s.served c f = f s := Chip.served_accepts h.1

/-- A call that passes its common checks runs its effect and answers. -/
theorem Chip.call_passes {c : Call} {code : Nat} {k : CallShape} {r : List (Bool × Status)}
    {effect : Chip → Chip × Status × Nat × List Nat} (h : s.passes c k r) :
    s.call c code k r effect = (effect s).1.respond c code (effect s).2.1 (effect s).2.2.1 (effect s).2.2.2 := Chip.call_of h.2

theorem Chip.admits_parts {fn : Fn} (h : s.admitsHost fn = true) :
    s.held = false ∧ s.boot.mute = false ∧ s.reach fn = true ∧ s.hostHeld = false := by
  simpa [Chip.admitsHost, and_assoc] using h

theorem Chip.presents_parts (h : s.presents = true) : s.held = false ∧ s.boot.mute = false := by
  simpa [Chip.presents] using h

/-- A host command that the package takes acts. -/
theorem Chip.host_admits {fn : Fn} {f : Chip → Chip} (h : s.admitsHost fn = true) : s.host fn f = f s := by
  obtain ⟨h1, h2, h3, h4⟩ := Chip.admits_parts h
  simp [Chip.host, Chip.shown_of s h1 h2, Chip.fromHost, h3, Chip.hostAccess, h4]

theorem Chip.shown_presents {f : Chip → Chip} (h : s.presents = true) : s.shown f = f s :=
  s.shown_of (Chip.presents_parts h).1 (Chip.presents_parts h).2

theorem Chip.reached_reach {fn : Fn} {f : Chip → Chip} (h : s.held = false) (hr : s.reach fn = true) : s.reached fn f = f s := by
  simp [Chip.reached, Chip.live, h, hr]

@[simp] theorem State.put_chip (x : State) (t : Chip) : (x.put t).chip = t := rfl
@[simp] theorem State.put_pending (x : State) (t : Chip) : (x.put t).pending = x.pending := rfl
@[simp] theorem State.put_self (x : State) : x.put x.chip = x := rfl

/-- A meaning that acts on the package leaves the queue. -/
theorem State.on_eq (x : State) (f : Chip → Chip) : x.on f = .next (x.put (f x.chip)) := rfl

end Sys2Proof.Machine
end

