-- ==== Sys2Proof/Laws/Ops.lean ====
section
/-! SUPPORT. What the shared operations of a running plan can change: one law for each, in two frames that compose. -/

namespace Sys2Proof.Machine

/-! ### Two frames -/

/-- Only runs, partitions and the device registers differ: what a hold, an event or a count changes. -/
def Chip.counted (s t : Chip) : Prop := t = { s with runs := t.runs, parts := t.parts, tlr := t.tlr }

/-- Only time, cells, runs, partitions, the device registers and the count of free values differ: what a plan changes as it goes. -/
def Chip.moved (s t : Chip) : Prop :=
  t = { s with time := t.time, cells := t.cells, runs := t.runs, parts := t.parts, tlr := t.tlr, free := t.free }

theorem Chip.counted_refl (s : Chip) : s.counted s := rfl

theorem Chip.counted_trans {s t u : Chip} (h : s.counted t) (k : t.counted u) : s.counted u := by
  unfold Chip.counted at *; rw [k, h]

theorem Chip.moved_refl (s : Chip) : s.moved s := rfl

theorem Chip.moved_trans {s t u : Chip} (h : s.moved t) (k : t.moved u) : s.moved u := by
  unfold Chip.moved at *; rw [k, h]

theorem Chip.counted.moved {s t : Chip} (h : s.counted t) : s.moved t := by
  unfold Chip.counted at h; unfold Chip.moved; rw [h]

theorem Chip.counted.cells {s t : Chip} (h : s.counted t) : t.cells = s.cells := by unfold Chip.counted at h; rw [h]
theorem Chip.counted.cell {s t : Chip} (h : s.counted t) (n : Nat) : t.cell n = s.cell n := by simp [Chip.cell, h.cells]
theorem Chip.counted.time {s t : Chip} (h : s.counted t) : t.time = s.time := by unfold Chip.counted at h; rw [h]
theorem Chip.moved.mem {s t : Chip} (h : s.moved t) : t.mem = s.mem := by unfold Chip.moved at h; rw [h]
theorem Chip.moved.panels {s t : Chip} (h : s.moved t) : t.panels = s.panels := by unfold Chip.moved at h; rw [h]
theorem Chip.moved.swatches {s t : Chip} (h : s.moved t) : t.swatches = s.swatches := by unfold Chip.moved at h; rw [h]
theorem Chip.moved.hbm {s t : Chip} (h : s.moved t) : t.hbm = s.hbm := by unfold Chip.moved at h; rw [h]
theorem Chip.moved.linings {s t : Chip} (h : s.moved t) : t.linings = s.linings := by unfold Chip.moved at h; rw [h]
theorem Chip.moved.bufs {s t : Chip} (h : s.moved t) : t.bufs = s.bufs := by unfold Chip.moved at h; rw [h]
theorem Chip.moved.requests {s t : Chip} (h : s.moved t) : t.requests = s.requests := by unfold Chip.moved at h; rw [h]
theorem Chip.moved.boot {s t : Chip} (h : s.moved t) : t.boot = s.boot := by unfold Chip.moved at h; rw [h]
theorem Chip.moved.trust {s t : Chip} (h : s.moved t) : t.trust = s.trust := by unfold Chip.moved at h; rw [h]
theorem Chip.moved.krp {s t : Chip} (h : s.moved t) : t.krp = s.krp := by unfold Chip.moved at h; rw [h]
theorem Chip.moved.held {s t : Chip} (h : s.moved t) : t.boot.dead = s.boot.dead ∧ t.boot.cold = s.boot.cold := by simp [h.boot]

/-! ### Counts, events and holds -/

theorem Chip.updPart_counted (s : Chip) (n : Nat) (f : Partition → Partition) : s.counted (s.updPart n f) := rfl
theorem Chip.updCnt_counted (s : Chip) (n : Nat) (f : PtnCounters → PtnCounters) : s.counted (s.updCnt n f) := rfl
theorem Chip.updRegs_counted (s : Chip) (n : Nat) (f : PtnPlan → PtnPlan) : s.counted (s.updRegs n f) := rfl
theorem Chip.updRun_counted (s : Chip) (n : Nat) (f : Run → Run) : s.counted (s.updRun n f) := rfl
theorem Chip.raisePart_counted (s : Chip) (p i : Nat) : s.counted (s.raisePart p i) := rfl

theorem Chip.raiseDev_counted (s : Chip) (i : Nat) (part unit cell : Option Nat) (addr : Nat) :
    s.counted (s.raiseDev i part unit cell addr) := by
  unfold Chip.raiseDev; dsimp only; split <;> rfl

theorem Chip.raiseBoth_counted (s : Chip) (p pi di : Nat) (unit cell : Option Nat) (addr : Nat) :
    s.counted (s.raiseBoth p pi di unit cell addr) :=
  Chip.counted_trans (s.raisePart_counted p pi) (Chip.raiseDev_counted ..)

/-- A hazard is recorded in the partition's registers and nowhere else. -/
theorem Chip.hazard_counted (s : Chip) (r : Run) (kind cell bundle : Nat) : s.counted (s.hazard r kind cell bundle) := by
  unfold Chip.hazard; split
  · dsimp only; split <;> rfl
  · rfl

theorem Chip.foldl_counted {α : Type} (f : Chip → α → Chip) (h : ∀ (t : Chip) (x : α), t.counted (f t x)) (l : List α) (s : Chip) :
    s.counted (l.foldl f s) := by
  induction l generalizing s with
  | nil => rfl
  | cons x rest ih => exact Chip.counted_trans (h s x) (ih _)

theorem Chip.foldl_moved {α : Type} (f : Chip → α → Chip) (h : ∀ (t : Chip) (x : α), t.moved (f t x)) (l : List α) (s : Chip) :
    s.moved (l.foldl f s) := by
  induction l generalizing s with
  | nil => rfl
  | cons x rest ih => exact Chip.moved_trans (h s x) (ih _)

theorem Chip.countStalls_counted (s : Chip) (r : Run) (stalls cycles cell bundle : Nat) :
    s.counted (s.countStalls r stalls cycles cell bundle) :=
  Chip.counted_trans (Chip.updRegs_counted ..)
    (Chip.foldl_counted _ (fun _ _ => Chip.counted_trans (Chip.raiseBoth_counted ..) (Chip.hazard_counted ..)) _ _)

theorem Chip.holdSwatches_counted (s : Chip) (r : Run) (n : Nat) : s.counted (s.holdSwatches r n) := rfl

/-- A hold changes the runs on its swatches, the partition's registers and the events. -/
theorem Chip.stall_counted (s : Chip) (id n cell bundle : Nat) : s.counted (s.stall id n cell bundle) := by
  unfold Chip.stall; split
  · rfl
  · split
    · rfl
    · exact Chip.counted_trans (Chip.holdSwatches_counted ..) (Chip.countStalls_counted ..)

@[simp] theorem Chip.stall_zero (s : Chip) (id cell bundle : Nat) : s.stall id 0 cell bundle = s := by
  unfold Chip.stall; split <;> simp

/-- Items beyond a bound hold the plan as a stall does. -/
theorem Chip.overflow_counted (s : Chip) (id : Nat) (demand : List (Nat × Nat)) (cell bundle : Nat) :
    s.counted (s.overflow id demand cell bundle) := by
  unfold Chip.overflow; split
  · rfl
  · split
    · rfl
    · dsimp only; split
      · exact Chip.updRun_counted ..
      · exact Chip.counted_trans (Chip.counted_trans (Chip.updRun_counted ..) (Chip.holdSwatches_counted ..))
          (Chip.countStalls_counted ..)

theorem Chip.watch_counted (s : Chip) (id : Nat) (w : Watch) (cell bundle : Nat) : s.counted (s.watch id w cell bundle) := by
  unfold Chip.watch; split
  · rfl
  · dsimp only; split
    · rfl
    · exact Chip.counted_trans (Chip.updRun_counted ..) (Chip.overflow_counted ..)

/-! ### Time -/

/-- A run that stands at the cycle waited for lets no time pass. -/
theorem Chip.waitRun_here {s : Chip} {id c : Nat} {r : Run} (h : s.run? id = some r) (hc : c ≤ r.cycle) : s.waitRun id c = some s := by
  simp [Chip.waitRun, Chip.waitBy, h, Chip.need, hc]

/-- Waiting for a cycle ends in the same state or after an advance of the clocks. -/
theorem Chip.waitRun_some {s t : Chip} {id c : Nat} (h : s.waitRun id c = some t) : t = s ∨ ∃ du, t = s.advance du := by
  unfold Chip.waitRun Chip.waitBy at h
  split at h
  · cases h
  · split at h
    · cases h
    · cases h; exact .inl rfl
    · cases h; exact .inr ⟨_, rfl⟩

/-- A slot that issues: the package has only waited, and the slot carries its issuer. -/
theorem Chip.slotOf_some {s t : Chip} {i : Issuer} {k : Slot} (h : s.slotOf i = (t, some k)) :
    (t = s ∨ ∃ du, t = s.advance du) ∧ k.i = i ∧ k.cells = t.issuers i ∧ t.run? i.run = some k.r ∧ k.now = k.r.cycle := by
  unfold Chip.slotOf at h
  split at h
  · simp at h
  · split at h
    · simp at h
    · rename_i hw
      split at h
      · simp at h
      · rename_i hr
        have m := Chip.waitRun_some hw
        split at h <;> split at h <;> simp only [Prod.mk.injEq, Option.some.injEq, reduceCtorEq, and_false] at h
        all_goals
          obtain ⟨rfl, rfl⟩ := h
          exact ⟨m, rfl, rfl, hr, rfl⟩

theorem Chip.issue_some {s t : Chip} {i : Issuer} {k : Slot} (f : Slot → Chip → Chip) (h : s.slotOf i = (t, some k)) :
    s.issue i f = f k t := by simp [Chip.issue, h]

/-! ### Cells -/

theorem Chip.updCell_moved (s : Chip) (n : Nat) (f : Cell → Cell) : s.moved (s.updCell n f) := rfl

theorem Chip.updCells_moved (s : Chip) (ns : List Nat) (f : Nat → Cell → Cell) : s.moved (s.updCells ns f) := by
  unfold Chip.updCells
  induction ns generalizing s with
  | nil => rfl
  | cons n rest ih => exact Chip.moved_trans (s.updCell_moved n (f n)) (ih _)

theorem Chip.updCells_cell_other (s : Chip) (ns : List Nat) (f : Nat → Cell → Cell) {n : Nat} (h : n ∉ ns) :
    (s.updCells ns f).cell n = s.cell n := by
  unfold Chip.updCells
  induction ns generalizing s with
  | nil => rfl
  | cons m rest ih =>
    simp only [List.mem_cons, not_or] at h
    simp only [List.foldl_cons]
    rw [ih _ h.2, Chip.cell_updCell_other _ h.1]

theorem Chip.updCells_cell (s : Chip) (ns : List Nat) (f : Nat → Cell → Cell) (d : ns.Nodup) {n : Nat} (h : n ∈ ns) :
    (s.updCells ns f).cell n = f n (s.cell n) := by
  unfold Chip.updCells
  induction ns generalizing s with
  | nil => cases h
  | cons m rest ih =>
    have d' := List.nodup_cons.mp d
    simp only [List.foldl_cons]
    rcases List.mem_cons.mp h with e | e
    · subst e
      have k := Chip.updCells_cell_other (s.updCell n (f n)) rest f d'.1
      unfold Chip.updCells at k
      rw [k]; simp
    · have ne : n ≠ m := fun x => d'.1 (x ▸ e)
      rw [ih _ d'.2 e, Chip.cell_updCell_other _ ne]

theorem Chip.setCell_moved (s : Chip) (n : Nat) (c : Cell) : s.moved (s.setCell n c) := rfl
theorem Chip.setFree_moved (s : Chip) (k : Nat) : s.moved { s with free := k } := rfl

/-! ### The Pad -/

theorem Chip.checkRead_counted (s : Chip) (r : Run) (cn row now bundle : Nat) (mask : BitVec 8) :
    s.counted (s.checkRead r cn row now bundle mask) := by
  unfold Chip.checkRead; split
  · dsimp only; split
    · exact Chip.hazard_counted ..
    · rfl
  · rfl

theorem Chip.checkWrite_counted (s : Chip) (r : Run) (cn row due bundle : Nat) (mask : BitVec 8) :
    s.counted (s.checkWrite r cn row due bundle mask) := by
  unfold Chip.checkWrite; split
  · dsimp only; split
    · exact Chip.hazard_counted ..
    · rfl
  · rfl

/-- What a Pad read finds wrong is counted, and may hold the runs. -/
theorem Chip.notePad_counted (s : Chip) (id part cn now : Nat) (e : PadErr) (bundle : Nat) :
    s.counted (s.notePad id part cn now e bundle) := by
  unfold Chip.notePad; dsimp only
  generalize hu : (if e.ue then _ else s : Chip) = u
  have h : s.counted u := by
    rw [← hu]; split
    · exact Chip.counted_trans (Chip.updCnt_counted ..) (Chip.raiseBoth_counted ..)
    · rfl
  split
  · exact h
  · split
    · exact Chip.counted_trans h (Chip.updCnt_counted ..)
    · split
      · exact Chip.counted_trans h (Chip.updCnt_counted ..)
      · exact Chip.counted_trans (Chip.counted_trans h (Chip.updCnt_counted ..))
          (Chip.counted_trans (Chip.updRun_counted ..) (Chip.stall_counted ..))

/-- An access of a bank changes its cell's count of accesses and, beyond the bank's budget, the runs it holds. -/
theorem Chip.noteBank_moved (s : Chip) (id cn row cycle now bundle : Nat) : s.moved (s.noteBank id cn row cycle now bundle) := by
  unfold Chip.noteBank; dsimp only; split
  · rfl
  · exact Chip.moved_trans (by rfl) (Chip.overflow_counted ..).moved

/-- A Pad read changes the cell, the counters and the runs it holds. -/
theorem Chip.readPad_moved (s : Chip) (r : Run) (cn row now bundle : Nat) (mask : BitVec 8) :
    s.moved (s.readPad r cn row now bundle mask).1 := by
  unfold Chip.readPad
  dsimp only
  generalize hu : s.checkRead r cn row now bundle mask = u
  have h : s.moved u := hu ▸ (Chip.checkRead_counted s r cn row now bundle mask).moved
  generalize (u.cell cn).pad.read now row (maskPairs mask) = x
  generalize hv : (u.setCell cn { u.cell cn with pad := x.1 }).notePad r.id r.part cn now x.2.2.2 bundle = v
  have g : u.moved v := hv ▸ Chip.moved_trans (Chip.setCell_moved ..) (Chip.notePad_counted ..).moved
  exact Chip.moved_trans h (Chip.moved_trans g (Chip.noteBank_moved v r.id cn row now now bundle))

theorem Chip.readRows_moved (s : Chip) (r : Run) (cn now bundle : Nat) (rows : List Nat) :
    s.moved (s.readRows r cn now bundle rows).1 := by
  induction rows generalizing s with
  | nil => rfl
  | cons row rest ih =>
    simp only [Chip.readRows]
    exact Chip.moved_trans (Chip.readPad_moved s r cn row now bundle (BitVec.allOnes 8)) (ih (s.readPad r cn row now bundle).1)

theorem Chip.landPad_moved (s : Chip) (r : Run) (cn row due order : Nat) (mask : BitVec 8) (data : Row) (poison : Bool) (bundle : Nat)
    (origin : Option AutoTag) : s.moved (s.landPad r cn row due order mask data poison bundle origin) := by
  unfold Chip.landPad
  dsimp only
  generalize (List.isEmpty (if order = 5 then [] else List.filter (fun (o : BurinOp) => o.covers row due) (s.cell cn).burin.queue)) = b
  cases b
  · simp only [Bool.false_eq_true, if_false]
    exact Chip.moved_trans (Chip.hazard_counted s r 2 cn bundle).moved
      (Chip.moved_trans (Chip.setFree_moved ..) (Chip.setCell_moved ..))
  · simp only [if_true]
    exact Chip.moved_trans (Chip.checkWrite_counted s r cn row due bundle mask).moved (Chip.setCell_moved ..)

/-- A Pad write changes the cell, the counters, the runs it holds and the count of free values. -/
theorem Chip.writePad_moved (s : Chip) (r : Run) (cn row due order : Nat) (mask : BitVec 8) (data : Row) (poison : Bool) (bundle : Nat)
    (origin : Option AutoTag) : s.moved (s.writePad r cn row due order mask data poison bundle origin) := by
  exact Chip.moved_trans (Chip.landPad_moved ..) (Chip.noteBank_moved ..)

theorem Chip.writeRows_moved (s : Chip) (r : Run) (cn row due order : Nat) (data : List (Row × Bool)) (bundle : Nat)
    (origin : Option AutoTag) : s.moved (s.writeRows r cn row due order data bundle origin) :=
  Chip.foldl_moved _ (fun _ _ => Chip.writePad_moved ..) _ _

/-! ### Answers -/

theorem Chip.respond_quiet (s : Chip) {c : Call} (code : Nat) (st : Status) (detail : Nat) (result : List Nat) (h : c.quiet = true) :
    s.respond c code st detail result = s := by simp [Chip.respond, h]

/-- An answered call stands first among the responses of its function's mailbox. -/
theorem Chip.respond_mbx (s : Chip) {c : Call} (code : Nat) (st : Status) (detail : Nat) (result : List Nat) (h : c.quiet = false) :
    (s.respond c code st detail result).mbx c.fn
      = (s.mbx c.fn).answer ⟨code, c.tag, st, if st = .ok then 0 else detail, result⟩ := by
  simp only [Chip.respond, h, Chip.updMbx, Chip.mbx, Bool.false_eq_true, if_false]
  cases c.fn <;> simp

end Sys2Proof.Machine
end

