-- ==== Sys2Proof/Laws/PerInstr.lean ====
section
/-! SUPPORT. Per command: a well-formed command that a mailbox entry carries has a well-formed entry. -/

/-- A well-formed command's mailbox entry names a function that exists, and its fields fit (R549, Table 16.1). -/
def Sys2Proof.Laws.Wf.Statement (i : Sys2Proof.Instr) : Prop := ∀ c, i.call? = some c → i.wf = true → c.wf = true

theorem Sys2Proof.Laws.wf_left {a b : Bool} (h : (a && b) = true) : a = true := by revert h; cases a <;> simp

theorem Sys2Proof.Laws.wf_of_none {i : Sys2Proof.Instr} (h : i.call? = none) : Sys2Proof.Laws.Wf.Statement i :=
  fun c e => by rw [h] at e; cases e

theorem Sys2Proof.Laws.wf_of_some {i : Sys2Proof.Instr} {c : Sys2Proof.Machine.Call} (h : i.call? = some c)
    (k : i.wf = true → c.wf = true) : Sys2Proof.Laws.Wf.Statement i := fun d e => by rw [h] at e; cases e; exact k

theorem Sys2Proof.Laws.Wf.nop (a0 : _) : Statement (.nop a0) := wf_of_none rfl

theorem Sys2Proof.Laws.Wf.add (a0 a1 a2 a3 : _) : Statement (.add a0 a1 a2 a3) := wf_of_none rfl

theorem Sys2Proof.Laws.Wf.sub (a0 a1 a2 a3 : _) : Statement (.sub a0 a1 a2 a3) := wf_of_none rfl

theorem Sys2Proof.Laws.Wf.and (a0 a1 a2 a3 : _) : Statement (.and a0 a1 a2 a3) := wf_of_none rfl

theorem Sys2Proof.Laws.Wf.or (a0 a1 a2 a3 : _) : Statement (.or a0 a1 a2 a3) := wf_of_none rfl

theorem Sys2Proof.Laws.Wf.xor (a0 a1 a2 a3 : _) : Statement (.xor a0 a1 a2 a3) := wf_of_none rfl

theorem Sys2Proof.Laws.Wf.shl (a0 a1 a2 a3 : _) : Statement (.shl a0 a1 a2 a3) := wf_of_none rfl

theorem Sys2Proof.Laws.Wf.shr (a0 a1 a2 a3 : _) : Statement (.shr a0 a1 a2 a3) := wf_of_none rfl

theorem Sys2Proof.Laws.Wf.sra (a0 a1 a2 a3 : _) : Statement (.sra a0 a1 a2 a3) := wf_of_none rfl

theorem Sys2Proof.Laws.Wf.mul (a0 a1 a2 a3 : _) : Statement (.mul a0 a1 a2 a3) := wf_of_none rfl

theorem Sys2Proof.Laws.Wf.mulhu (a0 a1 a2 a3 : _) : Statement (.mulhu a0 a1 a2 a3) := wf_of_none rfl

theorem Sys2Proof.Laws.Wf.slt (a0 a1 a2 a3 : _) : Statement (.slt a0 a1 a2 a3) := wf_of_none rfl

theorem Sys2Proof.Laws.Wf.sltu (a0 a1 a2 a3 : _) : Statement (.sltu a0 a1 a2 a3) := wf_of_none rfl

theorem Sys2Proof.Laws.Wf.sel (a0 a1 a2 a3 : _) : Statement (.sel a0 a1 a2 a3) := wf_of_none rfl

theorem Sys2Proof.Laws.Wf.addi (a0 a1 a2 a3 : _) : Statement (.addi a0 a1 a2 a3) := wf_of_none rfl

theorem Sys2Proof.Laws.Wf.andi (a0 a1 a2 a3 : _) : Statement (.andi a0 a1 a2 a3) := wf_of_none rfl

theorem Sys2Proof.Laws.Wf.ori (a0 a1 a2 a3 : _) : Statement (.ori a0 a1 a2 a3) := wf_of_none rfl

theorem Sys2Proof.Laws.Wf.xori (a0 a1 a2 a3 : _) : Statement (.xori a0 a1 a2 a3) := wf_of_none rfl

theorem Sys2Proof.Laws.Wf.shli (a0 a1 a2 a3 : _) : Statement (.shli a0 a1 a2 a3) := wf_of_none rfl

theorem Sys2Proof.Laws.Wf.shri (a0 a1 a2 a3 : _) : Statement (.shri a0 a1 a2 a3) := wf_of_none rfl

theorem Sys2Proof.Laws.Wf.li (a0 a1 a2 : _) : Statement (.li a0 a1 a2) := wf_of_none rfl

theorem Sys2Proof.Laws.Wf.modadd (a0 a1 a2 a3 a4 : _) : Statement (.modadd a0 a1 a2 a3 a4) := wf_of_none rfl

theorem Sys2Proof.Laws.Wf.modmul (a0 a1 a2 a3 a4 : _) : Statement (.modmul a0 a1 a2 a3 a4) := wf_of_none rfl

theorem Sys2Proof.Laws.Wf.ldn (a0 a1 a2 a3 : _) : Statement (.ldn a0 a1 a2 a3) := wf_of_none rfl

theorem Sys2Proof.Laws.Wf.stn (a0 a1 a2 a3 : _) : Statement (.stn a0 a1 a2 a3) := wf_of_none rfl

theorem Sys2Proof.Laws.Wf.mfs (a0 a1 a2 : _) : Statement (.mfs a0 a1 a2) := wf_of_none rfl

theorem Sys2Proof.Laws.Wf.mts (a0 a1 a2 : _) : Statement (.mts a0 a1 a2) := wf_of_none rfl

theorem Sys2Proof.Laws.Wf.tsel (a0 a1 : _) : Statement (.tsel a0 a1) := wf_of_none rfl

theorem Sys2Proof.Laws.Wf.br (a0 a1 : _) : Statement (.br a0 a1) := wf_of_none rfl

theorem Sys2Proof.Laws.Wf.beq (a0 a1 a2 a3 : _) : Statement (.beq a0 a1 a2 a3) := wf_of_none rfl

theorem Sys2Proof.Laws.Wf.bne (a0 a1 a2 a3 : _) : Statement (.bne a0 a1 a2 a3) := wf_of_none rfl

theorem Sys2Proof.Laws.Wf.blt (a0 a1 a2 a3 : _) : Statement (.blt a0 a1 a2 a3) := wf_of_none rfl

theorem Sys2Proof.Laws.Wf.bltu (a0 a1 a2 a3 : _) : Statement (.bltu a0 a1 a2 a3) := wf_of_none rfl

theorem Sys2Proof.Laws.Wf.call (a0 a1 : _) : Statement (.call a0 a1) := wf_of_none rfl

theorem Sys2Proof.Laws.Wf.ret (a0 : _) : Statement (.ret a0) := wf_of_none rfl

theorem Sys2Proof.Laws.Wf.loop (a0 a1 a2 : _) : Statement (.loop a0 a1 a2) := wf_of_none rfl

theorem Sys2Proof.Laws.Wf.idle (a0 a1 : _) : Statement (.idle a0 a1) := wf_of_none rfl

theorem Sys2Proof.Laws.Wf.loose (a0 a1 : _) : Statement (.loose a0 a1) := wf_of_none rfl

theorem Sys2Proof.Laws.Wf.scriberWriteback (a0 : _) : Statement (.scriberWriteback a0) := wf_of_none rfl

theorem Sys2Proof.Laws.Wf.stitch (a0 a1 : _) : Statement (.stitch a0 a1) := wf_of_none rfl

theorem Sys2Proof.Laws.Wf.barrier (a0 a1 a2 : _) : Statement (.barrier a0 a1 a2) := wf_of_none rfl

theorem Sys2Proof.Laws.Wf.yoke (a0 a1 : _) : Statement (.yoke a0 a1) := wf_of_none rfl

theorem Sys2Proof.Laws.Wf.weave (a0 a1 : _) : Statement (.weave a0 a1) := wf_of_none rfl

theorem Sys2Proof.Laws.Wf.event (a0 a1 : _) : Statement (.event a0 a1) := wf_of_none rfl

theorem Sys2Proof.Laws.Wf.mma (a0 a1 a2 a3 a4 : _) : Statement (.mma a0 a1 a2 a3 a4) := wf_of_none rfl

theorem Sys2Proof.Laws.Wf.mmaStep (a0 : _) : Statement (.mmaStep a0) := wf_of_none rfl

theorem Sys2Proof.Laws.Wf.drain (a0 a1 a2 a3 a4 a5 : _) : Statement (.drain a0 a1 a2 a3 a4 a5) := wf_of_none rfl

theorem Sys2Proof.Laws.Wf.drainWordLand (a0 : _) : Statement (.drainWordLand a0) := wf_of_none rfl

theorem Sys2Proof.Laws.Wf.zero (a0 : _) : Statement (.zero a0) := wf_of_none rfl

theorem Sys2Proof.Laws.Wf.taprel (a0 : _) : Statement (.taprel a0) := wf_of_none rfl

theorem Sys2Proof.Laws.Wf.engineStart (a0 a1 a2 : _) : Statement (.engineStart a0 a1 a2) := wf_of_none rfl

theorem Sys2Proof.Laws.Wf.madd (a0 a1 : _) : Statement (.madd a0 a1) := wf_of_none rfl

theorem Sys2Proof.Laws.Wf.msub (a0 a1 : _) : Statement (.msub a0 a1) := wf_of_none rfl

theorem Sys2Proof.Laws.Wf.mneg (a0 a1 : _) : Statement (.mneg a0 a1) := wf_of_none rfl

theorem Sys2Proof.Laws.Wf.mmul (a0 a1 : _) : Statement (.mmul a0 a1) := wf_of_none rfl

theorem Sys2Proof.Laws.Wf.mmad (a0 a1 : _) : Statement (.mmad a0 a1) := wf_of_none rfl

theorem Sys2Proof.Laws.Wf.mmsb (a0 a1 : _) : Statement (.mmsb a0 a1) := wf_of_none rfl

theorem Sys2Proof.Laws.Wf.resc (a0 a1 : _) : Statement (.resc a0 a1) := wf_of_none rfl

theorem Sys2Proof.Laws.Wf.red (a0 a1 : _) : Statement (.red a0 a1) := wf_of_none rfl

theorem Sys2Proof.Laws.Wf.move (a0 a1 : _) : Statement (.move a0 a1) := wf_of_none rfl

theorem Sys2Proof.Laws.Wf.digit (a0 a1 : _) : Statement (.digit a0 a1) := wf_of_none rfl

theorem Sys2Proof.Laws.Wf.stippleGroup (a0 : _) : Statement (.stippleGroup a0) := wf_of_none rfl

theorem Sys2Proof.Laws.Wf.ntt (a0 a1 a2 a3 a4 a5 : _) : Statement (.ntt a0 a1 a2 a3 a4 a5) := wf_of_none rfl

theorem Sys2Proof.Laws.Wf.intt (a0 a1 a2 a3 a4 a5 : _) : Statement (.intt a0 a1 a2 a3 a4 a5) := wf_of_none rfl

theorem Sys2Proof.Laws.Wf.burinRowWrite (a0 : _) : Statement (.burinRowWrite a0) := wf_of_none rfl

theorem Sys2Proof.Laws.Wf.auto (a0 a1 a2 a3 a4 a5 a6 a7 : _) : Statement (.auto a0 a1 a2 a3 a4 a5 a6 a7) := wf_of_none rfl

theorem Sys2Proof.Laws.Wf.trans (a0 a1 a2 a3 a4 a5 a6 : _) : Statement (.trans a0 a1 a2 a3 a4 a5 a6) := wf_of_none rfl

theorem Sys2Proof.Laws.Wf.brev (a0 a1 a2 a3 : _) : Statement (.brev a0 a1 a2 a3) := wf_of_none rfl

theorem Sys2Proof.Laws.Wf.gather (a0 a1 a2 a3 a4 : _) : Statement (.gather a0 a1 a2 a3 a4) := wf_of_none rfl

theorem Sys2Proof.Laws.Wf.hatchRowLand (a0 a1 : _) : Statement (.hatchRowLand a0 a1) := wf_of_none rfl

theorem Sys2Proof.Laws.Wf.expand (a0 a1 a2 a3 : _) : Statement (.expand a0 a1 a2 a3) := wf_of_none rfl

theorem Sys2Proof.Laws.Wf.sample (a0 a1 a2 a3 : _) : Statement (.sample a0 a1 a2 a3) := wf_of_none rfl

theorem Sys2Proof.Laws.Wf.weftRowLand (a0 a1 : _) : Statement (.weftRowLand a0 a1) := wf_of_none rfl

theorem Sys2Proof.Laws.Wf.tstart (a0 a1 a2 a3 : _) : Statement (.tstart a0 a1 a2 a3) := wf_of_none rfl

theorem Sys2Proof.Laws.Wf.advance (a0 a1 a2 : _) : Statement (.advance a0 a1 a2) := wf_of_none rfl

theorem Sys2Proof.Laws.Wf.tstop (a0 a1 : _) : Statement (.tstop a0 a1) := wf_of_none rfl

theorem Sys2Proof.Laws.Wf.spoolPresent (a0 a1 : _) : Statement (.spoolPresent a0 a1) := wf_of_none rfl

theorem Sys2Proof.Laws.Wf.unitLand (a0 a1 : _) : Statement (.unitLand a0 a1) := wf_of_none rfl

theorem Sys2Proof.Laws.Wf.writeDrainDone (a0 : _) : Statement (.writeDrainDone a0) := wf_of_none rfl

theorem Sys2Proof.Laws.Wf.liningReadBeat (a0 a1 : _) : Statement (.liningReadBeat a0 a1) := wf_of_none rfl

theorem Sys2Proof.Laws.Wf.liningWriteBeat (a0 a1 : _) : Statement (.liningWriteBeat a0 a1) := wf_of_none rfl

theorem Sys2Proof.Laws.Wf.liningLineLand (a0 a1 : _) : Statement (.liningLineLand a0 a1) := wf_of_none rfl

theorem Sys2Proof.Laws.Wf.liningPatrolScrub (a0 : _) : Statement (.liningPatrolScrub a0) := wf_of_none rfl

theorem Sys2Proof.Laws.Wf.hbmRequestArrive (a0 a1 : _) : Statement (.hbmRequestArrive a0 a1) := wf_of_none rfl

theorem Sys2Proof.Laws.Wf.hbmSlotServe (a0 a1 a2 : _) : Statement (.hbmSlotServe a0 a1 a2) := wf_of_none rfl

theorem Sys2Proof.Laws.Wf.controlTackReturn (a0 a1 a2 : _) : Statement (.controlTackReturn a0 a1 a2) := wf_of_none rfl

theorem Sys2Proof.Laws.Wf.weaveFlitLand (a0 a1 : _) : Statement (.weaveFlitLand a0 a1) := wf_of_none rfl

theorem Sys2Proof.Laws.Wf.yokeWordLand (a0 a1 : _) : Statement (.yokeWordLand a0 a1) := wf_of_none rfl

theorem Sys2Proof.Laws.Wf.controlFlitDeliver (a0 : _) : Statement (.controlFlitDeliver a0) := wf_of_none rfl

theorem Sys2Proof.Laws.Wf.seamFlitDepart (a0 a1 : _) : Statement (.seamFlitDepart a0 a1) := wf_of_none rfl

theorem Sys2Proof.Laws.Wf.seamFlitDeliver (a0 a1 a2 a3 : _) : Statement (.seamFlitDeliver a0 a1 a2 a3) := wf_of_none rfl

theorem Sys2Proof.Laws.Wf.stitchCommit (a0 : _) : Statement (.stitchCommit a0) := wf_of_none rfl

theorem Sys2Proof.Laws.Wf.planFinal (a0 : _) : Statement (.planFinal a0) := wf_of_none rfl

theorem Sys2Proof.Laws.Wf.planStart (a0 : _) : Statement (.planStart a0) := wf_of_none rfl

theorem Sys2Proof.Laws.Wf.planSplice (a0 : _) : Statement (.planSplice a0) := wf_of_none rfl

theorem Sys2Proof.Laws.Wf.residencyLoadStart (a0 : _) : Statement (.residencyLoadStart a0) := wf_of_none rfl

theorem Sys2Proof.Laws.Wf.residencyLoadDone (a0 : _) : Statement (.residencyLoadDone a0) := wf_of_none rfl

theorem Sys2Proof.Laws.Wf.sealJobDone : Statement (.sealJobDone) := wf_of_none rfl

theorem Sys2Proof.Laws.Wf.sealYield : Statement (.sealYield) := wf_of_none rfl

theorem Sys2Proof.Laws.Wf.tcModulusSet (a0 a1 a2 a3 a4 a5 a6 a7 : _) : Statement (.tcModulusSet a0 a1 a2 a3 a4 a5 a6 a7) :=
  wf_of_some rfl fun h => wf_left (wf_left (wf_left (wf_left (wf_left (wf_left (wf_left h))))))

theorem Sys2Proof.Laws.Wf.tcModulusClear (a0 a1 a2 : _) : Statement (.tcModulusClear a0 a1 a2) :=
  wf_of_some rfl fun h => wf_left (wf_left h)

theorem Sys2Proof.Laws.Wf.tcChainSet (a0 a1 a2 a3 a4 a5 : _) : Statement (.tcChainSet a0 a1 a2 a3 a4 a5) :=
  wf_of_some rfl fun h => wf_left (wf_left (wf_left (wf_left (wf_left h))))

theorem Sys2Proof.Laws.Wf.tcChainClear (a0 a1 a2 : _) : Statement (.tcChainClear a0 a1 a2) :=
  wf_of_some rfl fun h => wf_left (wf_left h)

theorem Sys2Proof.Laws.Wf.tcModulusGet (a0 a1 a2 a3 : _) : Statement (.tcModulusGet a0 a1 a2 a3) :=
  wf_of_some rfl fun h => wf_left (wf_left h)

theorem Sys2Proof.Laws.Wf.tcContainerCheck (a0 a1 a2 a3 : _) : Statement (.tcContainerCheck a0 a1 a2 a3) :=
  wf_of_some rfl fun h => wf_left (wf_left (wf_left h))

theorem Sys2Proof.Laws.Wf.tcContainerSize (a0 a1 : _) : Statement (.tcContainerSize a0 a1) := wf_of_some rfl fun h => wf_left h

theorem Sys2Proof.Laws.Wf.tcPlanInstall (a0 a1 a2 a3 a4 a5 : _) : Statement (.tcPlanInstall a0 a1 a2 a3 a4 a5) :=
  wf_of_some rfl fun h => wf_left (wf_left (wf_left (wf_left h)))

theorem Sys2Proof.Laws.Wf.tcPlanStart (a0 a1 a2 a3 : _) : Statement (.tcPlanStart a0 a1 a2 a3) :=
  wf_of_some rfl fun h => wf_left (wf_left (wf_left h))

theorem Sys2Proof.Laws.Wf.tcPlanRemove (a0 a1 a2 : _) : Statement (.tcPlanRemove a0 a1 a2) :=
  wf_of_some rfl fun h => wf_left (wf_left h)

theorem Sys2Proof.Laws.Wf.tcPlanQuery (a0 a1 a2 : _) : Statement (.tcPlanQuery a0 a1 a2) :=
  wf_of_some rfl fun h => wf_left (wf_left h)

theorem Sys2Proof.Laws.Wf.tcScriberQuery (a0 a1 a2 : _) : Statement (.tcScriberQuery a0 a1 a2) :=
  wf_of_some rfl fun h => wf_left (wf_left h)

theorem Sys2Proof.Laws.Wf.tcPsQuery (a0 a1 a2 : _) : Statement (.tcPsQuery a0 a1 a2) := wf_of_some rfl fun h => wf_left (wf_left h)

theorem Sys2Proof.Laws.Wf.tcEngineStore (a0 a1 a2 a3 a4 : _) : Statement (.tcEngineStore a0 a1 a2 a3 a4) :=
  wf_of_some rfl fun h => wf_left (wf_left (wf_left h))

theorem Sys2Proof.Laws.Wf.tcEngineQuery (a0 a1 a2 : _) : Statement (.tcEngineQuery a0 a1 a2) :=
  wf_of_some rfl fun h => wf_left (wf_left h)

theorem Sys2Proof.Laws.Wf.tcSpoolQuery (a0 a1 a2 : _) : Statement (.tcSpoolQuery a0 a1 a2) :=
  wf_of_some rfl fun h => wf_left (wf_left h)

theorem Sys2Proof.Laws.Wf.tcLiningRetire (a0 a1 a2 : _) : Statement (.tcLiningRetire a0 a1 a2) :=
  wf_of_some rfl fun h => wf_left (wf_left h)

theorem Sys2Proof.Laws.Wf.tcMemQuery (a0 a1 a2 : _) : Statement (.tcMemQuery a0 a1 a2) :=
  wf_of_some rfl fun h => wf_left (wf_left h)

theorem Sys2Proof.Laws.Wf.tcPageRetire (a0 a1 a2 a3 : _) : Statement (.tcPageRetire a0 a1 a2 a3) :=
  wf_of_some rfl fun h => wf_left (wf_left (wf_left h))

theorem Sys2Proof.Laws.Wf.tcHbmQuery (a0 a1 : _) : Statement (.tcHbmQuery a0 a1) := wf_of_some rfl fun h => wf_left h

theorem Sys2Proof.Laws.Wf.tcSeamQuery (a0 a1 a2 : _) : Statement (.tcSeamQuery a0 a1 a2) :=
  wf_of_some rfl fun h => wf_left (wf_left h)

theorem Sys2Proof.Laws.Wf.tcSeamTest (a0 a1 a2 a3 a4 : _) : Statement (.tcSeamTest a0 a1 a2 a3 a4) :=
  wf_of_some rfl fun h => wf_left (wf_left (wf_left (wf_left h)))

theorem Sys2Proof.Laws.Wf.seamTestDone (a0 a1 a2 a3 : _) : Statement (.seamTestDone a0 a1 a2 a3) := wf_of_none rfl

theorem Sys2Proof.Laws.Wf.tcSeamLaneRetire (a0 a1 a2 a3 a4 : _) : Statement (.tcSeamLaneRetire a0 a1 a2 a3 a4) :=
  wf_of_some rfl fun h => wf_left (wf_left (wf_left (wf_left h)))

theorem Sys2Proof.Laws.Wf.tcPlateRecover (a0 a1 : _) : Statement (.tcPlateRecover a0 a1) := wf_of_some rfl fun h => wf_left h

theorem Sys2Proof.Laws.Wf.tcFabricJoin (a0 a1 a2 a3 : _) : Statement (.tcFabricJoin a0 a1 a2 a3) :=
  wf_of_some rfl fun h => wf_left (wf_left h)

theorem Sys2Proof.Laws.Wf.tcRouteSet (a0 a1 a2 : _) : Statement (.tcRouteSet a0 a1 a2) :=
  wf_of_some rfl fun h => wf_left (wf_left h)

theorem Sys2Proof.Laws.Wf.tcSlvQuery (a0 a1 : _) : Statement (.tcSlvQuery a0 a1) := wf_of_some rfl fun h => wf_left h

theorem Sys2Proof.Laws.Wf.tcSlvTest (a0 a1 a2 a3 : _) : Statement (.tcSlvTest a0 a1 a2 a3) :=
  wf_of_some rfl fun h => wf_left (wf_left (wf_left h))

theorem Sys2Proof.Laws.Wf.tcSlvLaneRetire (a0 a1 a2 a3 : _) : Statement (.tcSlvLaneRetire a0 a1 a2 a3) :=
  wf_of_some rfl fun h => wf_left (wf_left (wf_left h))

theorem Sys2Proof.Laws.Wf.tcOwnerSet (a0 a1 a2 a3 a4 : _) : Statement (.tcOwnerSet a0 a1 a2 a3 a4) :=
  wf_of_some rfl fun h => wf_left (wf_left (wf_left h))

theorem Sys2Proof.Laws.Wf.tcTokenGate (a0 a1 a2 a3 a4 a5 a6 : _) : Statement (.tcTokenGate a0 a1 a2 a3 a4 a5 a6) :=
  wf_of_some rfl fun h => wf_left (wf_left (wf_left (wf_left (wf_left (wf_left h)))))

theorem Sys2Proof.Laws.Wf.tcFabricFetch (a0 a1 a2 a3 a4 a5 : _) : Statement (.tcFabricFetch a0 a1 a2 a3 a4 a5) :=
  wf_of_some rfl fun h => wf_left (wf_left (wf_left (wf_left h)))

theorem Sys2Proof.Laws.Wf.tcPartitionCreate (a0 a1 a2 a3 : _) : Statement (.tcPartitionCreate a0 a1 a2 a3) :=
  wf_of_some rfl fun h => wf_left (wf_left h)

theorem Sys2Proof.Laws.Wf.tcPartitionGrow (a0 a1 a2 : _) : Statement (.tcPartitionGrow a0 a1 a2) :=
  wf_of_some rfl fun h => wf_left (wf_left h)

theorem Sys2Proof.Laws.Wf.tcPartitionShrink (a0 a1 a2 : _) : Statement (.tcPartitionShrink a0 a1 a2) :=
  wf_of_some rfl fun h => wf_left (wf_left h)

theorem Sys2Proof.Laws.Wf.tcPartitionDestroy (a0 a1 : _) : Statement (.tcPartitionDestroy a0 a1) :=
  wf_of_some rfl fun h => wf_left h

theorem Sys2Proof.Laws.Wf.tcPartitionQuery (a0 a1 : _) : Statement (.tcPartitionQuery a0 a1) := wf_of_some rfl fun h => wf_left h

theorem Sys2Proof.Laws.Wf.tcSplitSet (a0 a1 a2 a3 a4 a5 : _) : Statement (.tcSplitSet a0 a1 a2 a3 a4 a5) :=
  wf_of_some rfl fun h => wf_left (wf_left (wf_left (wf_left h)))

theorem Sys2Proof.Laws.Wf.tcSplitQuery (a0 a1 : _) : Statement (.tcSplitQuery a0 a1) := wf_of_some rfl fun h => wf_left h

theorem Sys2Proof.Laws.Wf.tcPartitionReset (a0 a1 : _) : Statement (.tcPartitionReset a0 a1) := wf_of_some rfl fun h => wf_left h

theorem Sys2Proof.Laws.Wf.tcPlateReset (a0 a1 : _) : Statement (.tcPlateReset a0 a1) := wf_of_some rfl fun h => wf_left h

theorem Sys2Proof.Laws.Wf.tcCollarReset (a0 : _) : Statement (.tcCollarReset a0) := wf_of_some rfl fun h => h

theorem Sys2Proof.Laws.Wf.tcEventRoute (a0 a1 a2 a3 a4 : _) : Statement (.tcEventRoute a0 a1 a2 a3 a4) :=
  wf_of_some rfl fun h => wf_left (wf_left (wf_left h))

theorem Sys2Proof.Laws.Wf.tcPowerPolicy (a0 a1 a2 a3 a4 : _) : Statement (.tcPowerPolicy a0 a1 a2 a3 a4) :=
  wf_of_some rfl fun h => wf_left (wf_left (wf_left (wf_left h)))

theorem Sys2Proof.Laws.Wf.tcPlatePower (a0 a1 a2 a3 : _) : Statement (.tcPlatePower a0 a1 a2 a3) :=
  wf_of_some rfl fun h => wf_left (wf_left h)

theorem Sys2Proof.Laws.Wf.tcPowerLimit (a0 a1 : _) : Statement (.tcPowerLimit a0 a1) := wf_of_some rfl fun h => wf_left h

theorem Sys2Proof.Laws.Wf.tcPowerQuery (a0 a1 a2 : _) : Statement (.tcPowerQuery a0 a1 a2) := wf_of_some rfl fun h => wf_left h

theorem Sys2Proof.Laws.Wf.tcThermalQuery (a0 : _) : Statement (.tcThermalQuery a0) := wf_of_some rfl fun h => h

theorem Sys2Proof.Laws.Wf.tcLedgerGet (a0 a1 a2 : _) : Statement (.tcLedgerGet a0 a1 a2) :=
  wf_of_some rfl fun h => wf_left (wf_left h)

theorem Sys2Proof.Laws.Wf.tcLedgerSet (a0 a1 : _) : Statement (.tcLedgerSet a0 a1) := wf_of_some rfl fun h => h

theorem Sys2Proof.Laws.Wf.tcLedgerCommit (a0 : _) : Statement (.tcLedgerCommit a0) := wf_of_some rfl fun h => h

theorem Sys2Proof.Laws.Wf.tcCellRetire (a0 a1 a2 : _) : Statement (.tcCellRetire a0 a1 a2) := wf_of_some rfl fun h => wf_left h

theorem Sys2Proof.Laws.Wf.tcBufAlloc (a0 a1 a2 a3 a4 a5 : _) : Statement (.tcBufAlloc a0 a1 a2 a3 a4 a5) :=
  wf_of_some rfl fun h => wf_left (wf_left (wf_left (wf_left h)))

theorem Sys2Proof.Laws.Wf.tcBufFree (a0 a1 : _) : Statement (.tcBufFree a0 a1) := wf_of_some rfl fun h => wf_left h

theorem Sys2Proof.Laws.Wf.tcBufShare (a0 a1 a2 a3 a4 a5 a6 a7 a8 a9 a10 : _) : Statement (.tcBufShare a0 a1 a2 a3 a4 a5 a6 a7 a8 a9 a10) :=
  wf_of_some rfl fun h => wf_left (wf_left (wf_left (wf_left (wf_left (wf_left h)))))

theorem Sys2Proof.Laws.Wf.tcBufRevoke (a0 a1 : _) : Statement (.tcBufRevoke a0 a1) := wf_of_some rfl fun h => wf_left h

theorem Sys2Proof.Laws.Wf.tcBufQuery (a0 a1 : _) : Statement (.tcBufQuery a0 a1) := wf_of_some rfl fun h => wf_left h

theorem Sys2Proof.Laws.Wf.tcQuotaSet (a0 a1 a2 a3 a4 a5 a6 a7 : _) : Statement (.tcQuotaSet a0 a1 a2 a3 a4 a5 a6 a7) :=
  wf_of_some rfl fun h => wf_left (wf_left (wf_left (wf_left (wf_left (wf_left (wf_left h))))))

theorem Sys2Proof.Laws.Wf.tcKeyRegister (a0 a1 a2 a3 : _) : Statement (.tcKeyRegister a0 a1 a2 a3) :=
  wf_of_some rfl fun h => wf_left (wf_left (wf_left h))

theorem Sys2Proof.Laws.Wf.tcKeyEvict (a0 a1 a2 : _) : Statement (.tcKeyEvict a0 a1 a2) :=
  wf_of_some rfl fun h => wf_left (wf_left h)

theorem Sys2Proof.Laws.Wf.tcKeyQuery (a0 a1 : _) : Statement (.tcKeyQuery a0 a1) := wf_of_some rfl fun h => wf_left h

theorem Sys2Proof.Laws.Wf.tcServiceDefine (a0 a1 a2 a3 a4 a5 a6 : _) : Statement (.tcServiceDefine a0 a1 a2 a3 a4 a5 a6) :=
  wf_of_some rfl fun h => wf_left (wf_left (wf_left (wf_left (wf_left h))))

theorem Sys2Proof.Laws.Wf.tcServiceRemove (a0 a1 a2 : _) : Statement (.tcServiceRemove a0 a1 a2) :=
  wf_of_some rfl fun h => wf_left (wf_left h)

theorem Sys2Proof.Laws.Wf.tcServiceQuery (a0 a1 a2 : _) : Statement (.tcServiceQuery a0 a1 a2) :=
  wf_of_some rfl fun h => wf_left (wf_left h)

theorem Sys2Proof.Laws.Wf.tcReceiptGet (a0 a1 a2 : _) : Statement (.tcReceiptGet a0 a1 a2) :=
  wf_of_some rfl fun h => wf_left (wf_left h)

theorem Sys2Proof.Laws.Wf.tcTimeSet (a0 a1 : _) : Statement (.tcTimeSet a0 a1) := wf_of_some rfl fun h => wf_left h

theorem Sys2Proof.Laws.Wf.tcBufAllocAt (a0 a1 a2 a3 : _) : Statement (.tcBufAllocAt a0 a1 a2 a3) :=
  wf_of_some rfl fun h => wf_left (wf_left (wf_left h))

theorem Sys2Proof.Laws.Wf.tcSchedHold (a0 a1 a2 : _) : Statement (.tcSchedHold a0 a1 a2) := wf_of_some rfl fun h => wf_left h

theorem Sys2Proof.Laws.Wf.tcKrpPortSet (a0 a1 a2 a3 a4 a5 a6 a7 : _) : Statement (.tcKrpPortSet a0 a1 a2 a3 a4 a5 a6 a7) :=
  wf_of_some rfl fun h => wf_left (wf_left (wf_left (wf_left (wf_left (wf_left h)))))

theorem Sys2Proof.Laws.Wf.tcKrpClientSet (a0 a1 : _) : Statement (.tcKrpClientSet a0 a1) := wf_of_some rfl fun h => wf_left h

theorem Sys2Proof.Laws.Wf.tcKrpClientRemove (a0 a1 : _) : Statement (.tcKrpClientRemove a0 a1) := wf_of_some rfl fun h => wf_left h

theorem Sys2Proof.Laws.Wf.tcKrpSessionQuery (a0 a1 : _) : Statement (.tcKrpSessionQuery a0 a1) := wf_of_some rfl fun h => wf_left h

theorem Sys2Proof.Laws.Wf.tcKrpSessionClose (a0 a1 : _) : Statement (.tcKrpSessionClose a0 a1) := wf_of_some rfl fun h => wf_left h

theorem Sys2Proof.Laws.Wf.tcSealQuery (a0 : _) : Statement (.tcSealQuery a0) := wf_of_some rfl fun h => h

theorem Sys2Proof.Laws.Wf.tcAttest (a0 a1 : _) : Statement (.tcAttest a0 a1) := wf_of_some rfl fun h => wf_left h

theorem Sys2Proof.Laws.Wf.tcMeasLog (a0 a1 a2 : _) : Statement (.tcMeasLog a0 a1 a2) := wf_of_some rfl fun h => wf_left (wf_left h)

theorem Sys2Proof.Laws.Wf.tcLifecycleSet (a0 a1 a2 : _) : Statement (.tcLifecycleSet a0 a1 a2) := wf_of_some rfl fun h => wf_left h

theorem Sys2Proof.Laws.Wf.tcPolicySet (a0 a1 a2 a3 : _) : Statement (.tcPolicySet a0 a1 a2 a3) := wf_of_some rfl fun h => wf_left h

theorem Sys2Proof.Laws.Wf.tcPolicyKeySet (a0 a1 a2 a3 : _) : Statement (.tcPolicyKeySet a0 a1 a2 a3) :=
  wf_of_some rfl fun h => wf_left h

theorem Sys2Proof.Laws.Wf.tcSignerSet (a0 a1 a2 a3 a4 a5 a6 a7 : _) : Statement (.tcSignerSet a0 a1 a2 a3 a4 a5 a6 a7) :=
  wf_of_some rfl fun h => wf_left (wf_left (wf_left h))

theorem Sys2Proof.Laws.Wf.tcSvnCommit (a0 : _) : Statement (.tcSvnCommit a0) := wf_of_some rfl fun h => h

theorem Sys2Proof.Laws.Wf.tcSealKat (a0 a1 : _) : Statement (.tcSealKat a0 a1) := wf_of_some rfl fun h => h

theorem Sys2Proof.Laws.Wf.tcTrngRaw (a0 a1 a2 : _) : Statement (.tcTrngRaw a0 a1 a2) := wf_of_some rfl fun h => wf_left (wf_left h)

theorem Sys2Proof.Laws.Wf.tcRingSet (a0 a1 a2 a3 a4 a5 a6 a7 : _) : Statement (.tcRingSet a0 a1 a2 a3 a4 a5 a6 a7) :=
  wf_of_some rfl fun h => wf_left (wf_left (wf_left (wf_left (wf_left (wf_left h)))))

theorem Sys2Proof.Laws.Wf.tcRingQuery (a0 a1 a2 : _) : Statement (.tcRingQuery a0 a1 a2) :=
  wf_of_some rfl fun h => wf_left (wf_left h)

theorem Sys2Proof.Laws.Wf.tcWindowMap (a0 a1 a2 a3 a4 : _) : Statement (.tcWindowMap a0 a1 a2 a3 a4) :=
  wf_of_some rfl fun h => wf_left (wf_left (wf_left (wf_left h)))

theorem Sys2Proof.Laws.Wf.tcWindowUnmap (a0 a1 a2 : _) : Statement (.tcWindowUnmap a0 a1 a2) :=
  wf_of_some rfl fun h => wf_left (wf_left h)

theorem Sys2Proof.Laws.Wf.tcWindowQuery (a0 a1 : _) : Statement (.tcWindowQuery a0 a1) := wf_of_some rfl fun h => wf_left h

theorem Sys2Proof.Laws.Wf.tcWindowMapPhys (a0 a1 a2 : _) : Statement (.tcWindowMapPhys a0 a1 a2) :=
  wf_of_some rfl fun h => wf_left (wf_left h)

theorem Sys2Proof.Laws.Wf.tcGradeQuery (a0 : _) : Statement (.tcGradeQuery a0) := wf_of_some rfl fun h => h

theorem Sys2Proof.Laws.Wf.tcSelftest (a0 a1 : _) : Statement (.tcSelftest a0 a1) := wf_of_some rfl fun h => wf_left h

theorem Sys2Proof.Laws.Wf.selftestDone (a0 a1 : _) : Statement (.selftestDone a0 a1) := wf_of_none rfl

theorem Sys2Proof.Laws.Wf.tcErrorLog (a0 a1 a2 a3 : _) : Statement (.tcErrorLog a0 a1 a2 a3) :=
  wf_of_some rfl fun h => wf_left (wf_left h)

theorem Sys2Proof.Laws.Wf.tcErrlogClear (a0 : _) : Statement (.tcErrlogClear a0) := wf_of_some rfl fun h => h

theorem Sys2Proof.Laws.Wf.mailboxTailWrite (a0 a1 : _) : Statement (.mailboxTailWrite a0 a1) := wf_of_none rfl

theorem Sys2Proof.Laws.Wf.mtCmdWriteEntry : Statement (.mtCmdWriteEntry) := wf_of_none rfl

theorem Sys2Proof.Laws.Wf.mtCmdClearEntry : Statement (.mtCmdClearEntry) := wf_of_none rfl

theorem Sys2Proof.Laws.Wf.mtCmdWriteChain : Statement (.mtCmdWriteChain) := wf_of_none rfl

theorem Sys2Proof.Laws.Wf.mtCmdClearChain : Statement (.mtCmdClearChain) := wf_of_none rfl

theorem Sys2Proof.Laws.Wf.mtCmdReserved (a0 : _) : Statement (.mtCmdReserved a0) := wf_of_none rfl

theorem Sys2Proof.Laws.Wf.mtCmdDone : Statement (.mtCmdDone) := wf_of_none rfl

theorem Sys2Proof.Laws.Wf.dbgStitchGo : Statement (.dbgStitchGo) := wf_of_none rfl

theorem Sys2Proof.Laws.Wf.dbgPsAbort (a0 a1 : _) : Statement (.dbgPsAbort a0 a1) := wf_of_none rfl

theorem Sys2Proof.Laws.Wf.dbgEngSwapNow (a0 a1 : _) : Statement (.dbgEngSwapNow a0 a1) := wf_of_none rfl

theorem Sys2Proof.Laws.Wf.dbgEngAbort (a0 a1 : _) : Statement (.dbgEngAbort a0 a1) := wf_of_none rfl

theorem Sys2Proof.Laws.Wf.dbgEngCmdReserved (a0 a1 a2 : _) : Statement (.dbgEngCmdReserved a0 a1 a2) := wf_of_none rfl

theorem Sys2Proof.Laws.Wf.dbgPadRead (a0 a1 : _) : Statement (.dbgPadRead a0 a1) := wf_of_none rfl

theorem Sys2Proof.Laws.Wf.dbgPadWrite (a0 a1 : _) : Statement (.dbgPadWrite a0 a1) := wf_of_none rfl

theorem Sys2Proof.Laws.Wf.hbmInjectGo (a0 a1 a2 : _) : Statement (.hbmInjectGo a0 a1 a2) := wf_of_none rfl

theorem Sys2Proof.Laws.Wf.seamTestCtrlGo (a0 a1 a2 a3 : _) : Statement (.seamTestCtrlGo a0 a1 a2 a3) := wf_of_none rfl

theorem Sys2Proof.Laws.Wf.slvTestCtrlGo (a0 a1 a2 : _) : Statement (.slvTestCtrlGo a0 a1 a2) := wf_of_none rfl

theorem Sys2Proof.Laws.Wf.pwrResetPlate (a0 : _) : Statement (.pwrResetPlate a0) := wf_of_none rfl

theorem Sys2Proof.Laws.Wf.pwrResetCollarWarm : Statement (.pwrResetCollarWarm) := wf_of_none rfl

theorem Sys2Proof.Laws.Wf.dbgEvInject (a0 a1 : _) : Statement (.dbgEvInject a0 a1) := wf_of_none rfl

theorem Sys2Proof.Laws.Wf.pwrForceRun (a0 : _) : Statement (.pwrForceRun a0) := wf_of_none rfl

theorem Sys2Proof.Laws.Wf.pwrForceDoze (a0 : _) : Statement (.pwrForceDoze a0) := wf_of_none rfl

theorem Sys2Proof.Laws.Wf.ldgUserWrite (a0 a1 a2 : _) : Statement (.ldgUserWrite a0 a1 a2) := wf_of_none rfl

theorem Sys2Proof.Laws.Wf.dbgCapOverrideWrite (a0 a1 a2 : _) : Statement (.dbgCapOverrideWrite a0 a1 a2) := wf_of_none rfl

theorem Sys2Proof.Laws.Wf.slvPkgWrite (a0 a1 : _) : Statement (.slvPkgWrite a0 a1) := wf_of_none rfl

theorem Sys2Proof.Laws.Wf.evAckWrite (a0 a1 a2 : _) : Statement (.evAckWrite a0 a1 a2) := wf_of_none rfl

theorem Sys2Proof.Laws.Wf.vecRearmWrite (a0 a1 : _) : Statement (.vecRearmWrite a0 a1) := wf_of_none rfl

theorem Sys2Proof.Laws.Wf.evRouteWrite (a0 a1 a2 : _) : Statement (.evRouteWrite a0 a1 a2) := wf_of_none rfl

theorem Sys2Proof.Laws.Wf.registerWrite (a0 a1 : _) : Statement (.registerWrite a0 a1) := wf_of_none rfl

theorem Sys2Proof.Laws.Wf.msixSend (a0 a1 : _) : Statement (.msixSend a0 a1) := wf_of_none rfl

theorem Sys2Proof.Laws.Wf.msixUnmask (a0 a1 : _) : Statement (.msixUnmask a0 a1) := wf_of_none rfl

theorem Sys2Proof.Laws.Wf.sqDoorbell (a0 a1 a2 a3 : _) : Statement (.sqDoorbell a0 a1 a2 a3) := wf_of_none rfl

theorem Sys2Proof.Laws.Wf.cqDoorbell (a0 a1 a2 a3 : _) : Statement (.cqDoorbell a0 a1 a2 a3) := wf_of_none rfl

theorem Sys2Proof.Laws.Wf.sqStart (a0 a1 a2 a3 a4 a5 a6 a7 a8 : _) : Statement (.sqStart a0 a1 a2 a3 a4 a5 a6 a7 a8) :=
  wf_of_none rfl

theorem Sys2Proof.Laws.Wf.sqFrameTx (a0 a1 a2 a3 a4 a5 a6 : _) : Statement (.sqFrameTx a0 a1 a2 a3 a4 a5 a6) := wf_of_none rfl

theorem Sys2Proof.Laws.Wf.sqRxbuf (a0 a1 a2 a3 a4 : _) : Statement (.sqRxbuf a0 a1 a2 a3 a4) := wf_of_none rfl

theorem Sys2Proof.Laws.Wf.sqNop (a0 a1 a2 a3 : _) : Statement (.sqNop a0 a1 a2 a3) := wf_of_none rfl

theorem Sys2Proof.Laws.Wf.ringDmaError (a0 a1 a2 : _) : Statement (.ringDmaError a0 a1 a2) := wf_of_none rfl

theorem Sys2Proof.Laws.Wf.windowRead (a0 a1 a2 a3 : _) : Statement (.windowRead a0 a1 a2 a3) := wf_of_none rfl

theorem Sys2Proof.Laws.Wf.windowWrite (a0 a1 a2 a3 : _) : Statement (.windowWrite a0 a1 a2 a3) := wf_of_none rfl

theorem Sys2Proof.Laws.Wf.atomicOp (a0 a1 a2 a3 a4 : _) : Statement (.atomicOp a0 a1 a2 a3 a4) := wf_of_none rfl

theorem Sys2Proof.Laws.Wf.pcieConfigRequest (a0 a1 : _) : Statement (.pcieConfigRequest a0 a1) := wf_of_none rfl

theorem Sys2Proof.Laws.Wf.busMasterEnableChange (a0 a1 : _) : Statement (.busMasterEnableChange a0 a1) := wf_of_none rfl

theorem Sys2Proof.Laws.Wf.pcieHotReset : Statement (.pcieHotReset) := wf_of_none rfl

theorem Sys2Proof.Laws.Wf.pf0Flr : Statement (.pf0Flr) := wf_of_none rfl

theorem Sys2Proof.Laws.Wf.vfFlr (a0 : _) : Statement (.vfFlr a0) := wf_of_none rfl

theorem Sys2Proof.Laws.Wf.openStage1 (a0 a1 a2 a3 : _) : Statement (.openStage1 a0 a1 a2 a3) := wf_of_none rfl

theorem Sys2Proof.Laws.Wf.openStage3 (a0 a1 a2 a3 : _) : Statement (.openStage3 a0 a1 a2 a3) := wf_of_none rfl

theorem Sys2Proof.Laws.Wf.keys (a0 a1 a2 a3 : _) : Statement (.keys a0 a1 a2 a3) := wf_of_none rfl

theorem Sys2Proof.Laws.Wf.submit (a0 a1 a2 a3 : _) : Statement (.submit a0 a1 a2 a3) := wf_of_none rfl

theorem Sys2Proof.Laws.Wf.chunk (a0 a1 a2 a3 a4 a5 : _) : Statement (.chunk a0 a1 a2 a3 a4 a5) := wf_of_none rfl

theorem Sys2Proof.Laws.Wf.handoffIn (a0 a1 a2 a3 a4 : _) : Statement (.handoffIn a0 a1 a2 a3 a4) := wf_of_none rfl

theorem Sys2Proof.Laws.Wf.close (a0 : _) : Statement (.close a0) := wf_of_none rfl

theorem Sys2Proof.Laws.Wf.nackMissingReceive (a0 a1 a2 a3 a4 : _) : Statement (.nackMissingReceive a0 a1 a2 a3 a4) :=
  wf_of_none rfl

theorem Sys2Proof.Laws.Wf.nackResendReceive (a0 a1 : _) : Statement (.nackResendReceive a0 a1) := wf_of_none rfl

theorem Sys2Proof.Laws.Wf.resultChunkSend (a0 : _) : Statement (.resultChunkSend a0) := wf_of_none rfl

theorem Sys2Proof.Laws.Wf.krpGapTimer (a0 a1 a2 a3 : _) : Statement (.krpGapTimer a0 a1 a2 a3) := wf_of_none rfl

theorem Sys2Proof.Laws.Wf.openPieceTimeout (a0 a1 : _) : Statement (.openPieceTimeout a0 a1) := wf_of_none rfl

theorem Sys2Proof.Laws.Wf.halfOpenExpiry (a0 : _) : Statement (.halfOpenExpiry a0) := wf_of_none rfl

theorem Sys2Proof.Laws.Wf.sessionIdleTimeout (a0 : _) : Statement (.sessionIdleTimeout a0) := wf_of_none rfl

theorem Sys2Proof.Laws.Wf.krpSessionRekey (a0 : _) : Statement (.krpSessionRekey a0) := wf_of_none rfl

theorem Sys2Proof.Laws.Wf.handoffTimeout (a0 : _) : Statement (.handoffTimeout a0) := wf_of_none rfl

theorem Sys2Proof.Laws.Wf.netHousekeepingFrame (a0 a1 : _) : Statement (.netHousekeepingFrame a0 a1) := wf_of_none rfl

theorem Sys2Proof.Laws.Wf.receiptExpiry (a0 a1 : _) : Statement (.receiptExpiry a0 a1) := wf_of_none rfl

theorem Sys2Proof.Laws.Wf.tokenGateTimeout (a0 a1 : _) : Statement (.tokenGateTimeout a0 a1) := wf_of_none rfl

theorem Sys2Proof.Laws.Wf.slvEgressAccept (a0 : _) : Statement (.slvEgressAccept a0) := wf_of_none rfl

theorem Sys2Proof.Laws.Wf.slvPacketSend (a0 a1 : _) : Statement (.slvPacketSend a0 a1) := wf_of_none rfl

theorem Sys2Proof.Laws.Wf.slvWriteReceive (a0 a1 a2 : _) : Statement (.slvWriteReceive a0 a1 a2) := wf_of_none rfl

theorem Sys2Proof.Laws.Wf.slvAddReceive (a0 a1 a2 a3 a4 a5 : _) : Statement (.slvAddReceive a0 a1 a2 a3 a4 a5) := wf_of_none rfl

theorem Sys2Proof.Laws.Wf.slvTokenReceive (a0 a1 a2 : _) : Statement (.slvTokenReceive a0 a1 a2) := wf_of_none rfl

theorem Sys2Proof.Laws.Wf.slvControlReceive (a0 a1 a2 a3 a4 a5 : _) : Statement (.slvControlReceive a0 a1 a2 a3 a4 a5) :=
  wf_of_none rfl

theorem Sys2Proof.Laws.Wf.slvAckReceive (a0 a1 : _) : Statement (.slvAckReceive a0 a1) := wf_of_none rfl

theorem Sys2Proof.Laws.Wf.slvNackReceive (a0 a1 a2 a3 : _) : Statement (.slvNackReceive a0 a1 a2 a3) := wf_of_none rfl

theorem Sys2Proof.Laws.Wf.slvPacketError (a0 a1 a2 : _) : Statement (.slvPacketError a0 a1 a2) := wf_of_none rfl

theorem Sys2Proof.Laws.Wf.slvRekey (a0 : _) : Statement (.slvRekey a0) := wf_of_none rfl

theorem Sys2Proof.Laws.Wf.slvLaneFail (a0 a1 a2 : _) : Statement (.slvLaneFail a0 a1 a2) := wf_of_none rfl

theorem Sys2Proof.Laws.Wf.slvTrainStateDone (a0 a1 a2 a3 : _) : Statement (.slvTrainStateDone a0 a1 a2 a3) := wf_of_none rfl

theorem Sys2Proof.Laws.Wf.slvTrainTimeout (a0 : _) : Statement (.slvTrainTimeout a0) := wf_of_none rfl

theorem Sys2Proof.Laws.Wf.seamLaneFail (a0 a1 a2 a3 : _) : Statement (.seamLaneFail a0 a1 a2 a3) := wf_of_none rfl

theorem Sys2Proof.Laws.Wf.seamRepairDone (a0 a1 : _) : Statement (.seamRepairDone a0 a1) := wf_of_none rfl

theorem Sys2Proof.Laws.Wf.seamRetrainDone (a0 a1 : _) : Statement (.seamRetrainDone a0 a1) := wf_of_none rfl

theorem Sys2Proof.Laws.Wf.seamTrainStateDone (a0 a1 a2 a3 : _) : Statement (.seamTrainStateDone a0 a1 a2 a3) := wf_of_none rfl

theorem Sys2Proof.Laws.Wf.seamTrainTimeout (a0 a1 : _) : Statement (.seamTrainTimeout a0 a1) := wf_of_none rfl

theorem Sys2Proof.Laws.Wf.tapBypass : Statement (.tapBypass) := wf_of_none rfl

theorem Sys2Proof.Laws.Wf.tapIdcode : Statement (.tapIdcode) := wf_of_none rfl

theorem Sys2Proof.Laws.Wf.tapSamplePreload : Statement (.tapSamplePreload) := wf_of_none rfl

theorem Sys2Proof.Laws.Wf.tapExtest : Statement (.tapExtest) := wf_of_none rfl

theorem Sys2Proof.Laws.Wf.tapDieAccess : Statement (.tapDieAccess) := wf_of_none rfl

theorem Sys2Proof.Laws.Wf.tapSeamInterconnectTest (a0 a1 a2 a3 : _) : Statement (.tapSeamInterconnectTest a0 a1 a2 a3) :=
  wf_of_none rfl

theorem Sys2Proof.Laws.Wf.spdmGetVersion : Statement (.spdmGetVersion) := wf_of_none rfl

theorem Sys2Proof.Laws.Wf.spdmGetCapabilities (a0 : _) : Statement (.spdmGetCapabilities a0) := wf_of_none rfl

theorem Sys2Proof.Laws.Wf.spdmNegotiateAlgorithms (a0 a1 a2 a3 : _) : Statement (.spdmNegotiateAlgorithms a0 a1 a2 a3) :=
  wf_of_none rfl

theorem Sys2Proof.Laws.Wf.spdmGetDigests : Statement (.spdmGetDigests) := wf_of_none rfl

theorem Sys2Proof.Laws.Wf.spdmGetCertificate (a0 a1 a2 : _) : Statement (.spdmGetCertificate a0 a1 a2) := wf_of_none rfl

theorem Sys2Proof.Laws.Wf.spdmChallenge (a0 a1 : _) : Statement (.spdmChallenge a0 a1) := wf_of_none rfl

theorem Sys2Proof.Laws.Wf.spdmGetMeasurements (a0 a1 a2 : _) : Statement (.spdmGetMeasurements a0 a1 a2) := wf_of_none rfl

theorem Sys2Proof.Laws.Wf.spdmKeyExchange (a0 a1 a2 : _) : Statement (.spdmKeyExchange a0 a1 a2) := wf_of_none rfl

theorem Sys2Proof.Laws.Wf.spdmFinish (a0 : _) : Statement (.spdmFinish a0) := wf_of_none rfl

theorem Sys2Proof.Laws.Wf.spdmHeartbeat : Statement (.spdmHeartbeat) := wf_of_none rfl

theorem Sys2Proof.Laws.Wf.spdmKeyUpdate (a0 : _) : Statement (.spdmKeyUpdate a0) := wf_of_none rfl

theorem Sys2Proof.Laws.Wf.spdmEndSession : Statement (.spdmEndSession) := wf_of_none rfl

theorem Sys2Proof.Laws.Wf.spdmSetCertificate (a0 a1 : _) : Statement (.spdmSetCertificate a0 a1) := wf_of_none rfl

theorem Sys2Proof.Laws.Wf.spdmUnsupportedRequest : Statement (.spdmUnsupportedRequest) := wf_of_none rfl

theorem Sys2Proof.Laws.Wf.pldmSensorRead (a0 : _) : Statement (.pldmSensorRead a0) := wf_of_none rfl

theorem Sys2Proof.Laws.Wf.pldmFirmwareUpdate (a0 a1 a2 : _) : Statement (.pldmFirmwareUpdate a0 a1 a2) := wf_of_none rfl

theorem Sys2Proof.Laws.Wf.coldReset (a0 a1 a2 : _) : Statement (.coldReset a0 a1 a2) := wf_of_none rfl

theorem Sys2Proof.Laws.Wf.bringupPhaseDone (a0 : _) : Statement (.bringupPhaseDone a0) := wf_of_none rfl

theorem Sys2Proof.Laws.Wf.bringupPhaseTimeout (a0 : _) : Statement (.bringupPhaseTimeout a0) := wf_of_none rfl

theorem Sys2Proof.Laws.Wf.collarWarmReset (a0 : _) : Statement (.collarWarmReset a0) := wf_of_none rfl

theorem Sys2Proof.Laws.Wf.tailorWatchdogExpiry : Statement (.tailorWatchdogExpiry) := wf_of_none rfl

theorem Sys2Proof.Laws.Wf.tailorCoreFail (a0 : _) : Statement (.tailorCoreFail a0) := wf_of_none rfl

theorem Sys2Proof.Laws.Wf.resetDrainTimeout (a0 : _) : Statement (.resetDrainTimeout a0) := wf_of_none rfl

theorem Sys2Proof.Laws.Wf.partitionResetTimeout (a0 a1 : _) : Statement (.partitionResetTimeout a0 a1) := wf_of_none rfl

theorem Sys2Proof.Laws.Wf.plateResetTimeout (a0 : _) : Statement (.plateResetTimeout a0) := wf_of_none rfl

theorem Sys2Proof.Laws.Wf.timeoutChannelExpiry (a0 : _) : Statement (.timeoutChannelExpiry a0) := wf_of_none rfl

theorem Sys2Proof.Laws.Wf.refaLoss : Statement (.refaLoss) := wf_of_none rfl

theorem Sys2Proof.Laws.Wf.refaReturn : Statement (.refaReturn) := wf_of_none rfl

theorem Sys2Proof.Laws.Wf.platePllUnlock (a0 : _) : Statement (.platePllUnlock a0) := wf_of_none rfl

theorem Sys2Proof.Laws.Wf.collarPllUnlock : Statement (.collarPllUnlock) := wf_of_none rfl

theorem Sys2Proof.Laws.Wf.debugPllLock (a0 : _) : Statement (.debugPllLock a0) := wf_of_none rfl

theorem Sys2Proof.Laws.Wf.plateRailUndervoltage (a0 : _) : Statement (.plateRailUndervoltage a0) := wf_of_none rfl

theorem Sys2Proof.Laws.Wf.railUndervoltage (a0 : _) : Statement (.railUndervoltage a0) := wf_of_none rfl

theorem Sys2Proof.Laws.Wf.plateTempTrip (a0 : _) : Statement (.plateTempTrip a0) := wf_of_none rfl

theorem Sys2Proof.Laws.Wf.stackTempTrip (a0 : _) : Statement (.stackTempTrip a0) := wf_of_none rfl

theorem Sys2Proof.Laws.Wf.stackTripRelease (a0 : _) : Statement (.stackTripRelease a0) := wf_of_none rfl

theorem Sys2Proof.Laws.Wf.collarTempTrip : Statement (.collarTempTrip) := wf_of_none rfl

theorem Sys2Proof.Laws.Wf.thermalEvaluation (a0 a1 a2 a3 : _) : Statement (.thermalEvaluation a0 a1 a2 a3) := wf_of_none rfl

theorem Sys2Proof.Laws.Wf.withdrawalTimeout (a0 : _) : Statement (.withdrawalTimeout a0) := wf_of_none rfl

theorem Sys2Proof.Laws.Wf.avsLimitTimeout (a0 : _) : Statement (.avsLimitTimeout a0) := wf_of_none rfl

theorem Sys2Proof.Laws.Wf.avsbusTransactionError (a0 : _) : Statement (.avsbusTransactionError a0) := wf_of_none rfl

theorem Sys2Proof.Laws.Wf.trngSourceFail (a0 : _) : Statement (.trngSourceFail a0) := wf_of_none rfl

theorem Sys2Proof.Laws.Wf.drbgReseed (a0 : _) : Statement (.drbgReseed a0) := wf_of_none rfl

theorem Sys2Proof.Laws.Wf.dozeEntry (a0 : _) : Statement (.dozeEntry a0) := wf_of_none rfl

theorem Sys2Proof.Laws.Wf.napEntry (a0 : _) : Statement (.napEntry a0) := wf_of_none rfl

theorem Sys2Proof.Laws.Wf.restEntry (a0 : _) : Statement (.restEntry a0) := wf_of_none rfl

theorem Sys2Proof.Laws.Wf.plateOffEntry (a0 : _) : Statement (.plateOffEntry a0) := wf_of_none rfl

theorem Sys2Proof.Laws.Wf.swatchWakeDone (a0 : _) : Statement (.swatchWakeDone a0) := wf_of_none rfl

theorem Sys2Proof.Laws.Wf.resetCompletion (a0 : _) : Statement (.resetCompletion a0) := wf_of_none rfl

theorem Sys2Proof.Laws.Wf.zeroingDone (a0 a1 : _) : Statement (.zeroingDone a0 a1) := wf_of_none rfl

theorem Sys2Proof.Laws.Wf.railReturn (a0 : _) : Statement (.railReturn a0) := wf_of_none rfl

theorem Sys2Proof.Laws.Wf.avsMarginReturn (a0 : _) : Statement (.avsMarginReturn a0) := wf_of_none rfl

theorem Sys2Proof.Laws.Wf.slvTestDone (a0 a1 a2 : _) : Statement (.slvTestDone a0 a1 a2) := wf_of_none rfl

theorem Sys2Proof.Laws.Wf.mctpSetEndpointId (a0 : _) : Statement (.mctpSetEndpointId a0) := wf_of_none rfl

theorem Sys2Proof.Laws.Wf.pcieLinkUp (a0 a1 a2 : _) : Statement (.pcieLinkUp a0 a1 a2) := wf_of_none rfl

theorem Sys2Proof.Laws.Wf.ethernetLinkChange (a0 a1 : _) : Statement (.ethernetLinkChange a0 a1) := wf_of_none rfl
end

