-- ==== Sys2Proof/Machine/Views.lean ====
section
/-! DEFINITION. The words that the registers with a SETTLED bit show: what a read over a clock-domain crossing returns (R389), and the defect map (R95). -/

namespace Sys2Proof.Machine

/-- A register word from its fields, each its lowest bit, its width and its value. -/
def packed (fs : List (Nat × Nat × Nat)) : Nat := (fs.map fun e => e.2.2 % 2 ^ e.2.1 * 2 ^ e.1).sum

/-- One bit per index below n. -/
def bitmap (n : Nat) (f : Nat → Bool) : Nat := ((List.range n).map fun k => b2n (f k) * 2 ^ k).sum

/-- A read of a register over a crossing: its word, with SETTLED in the bit that the register gives it (R389, log entry 91). -/
def crossed (top v : Nat) : Nat :=
  let (w, settled) := crossRead v (samplesOf v)
  w + b2n settled * 2 ^ top

/-! ### Debug windows -/

/-- DBG_SCR_DATA (Table 5.13). -/
def Chip.dbgScrData (s : Chip) : Nat :=
  let (v, poison, valid) := s.scrDebug
  crossed 63 (packed [(0, 36, v), (36, 1, b2n poison), (37, 1, b2n valid)])

/-- DBG_PAD_DATA4 (Table 8.12), as the last access left it. -/
def Chip.dbgPadData4 (s : Chip) : Nat :=
  packed [(0, 32, s.dbg.padData.toNat / 2 ^ 256), (32, 1, b2n s.dbg.padPoison), (33, 1, b2n s.dbg.padValid), (63, 1, b2n s.dbg.padSettled)]

/-- DBG_SPOOL_STATE (Table 9.11). -/
def Chip.dbgSpoolState (s : Chip) : Nat := crossed 63 s.spoolState.toNat

/-! ### Plates: swatches, stacks, ports -/

/-- SWT_STATE (Table 13.12). -/
def Chip.swtState (s : Chip) (sw : Nat) : Nat :=
  let w := s.swatch sw
  crossed 31 (packed [(0, 1, b2n w.inService), (1, 3, w.power), (4, 1, b2n w.lost), (5, 1, b2n (s.runOn sw).isSome),
    (6, 1, b2n (w.owner.any fun p => decide ((s.part p).pace < 64))), (7, 1, b2n w.resetting)])

/-- SWT_OWNER (Table 13.12). -/
def Chip.swtOwner (s : Chip) (sw : Nat) : Nat :=
  let w := s.swatch sw
  packed [(0, 6, w.owner.getD 0), (6, 1, b2n w.owner.isSome), (8, 6, w.former.getD 0), (14, 1, b2n w.former.isSome)]

/-- SWT_SPARES (Table 13.12): how many of the two spare cells of each panel serve a virtual cell. -/
def Chip.swtSpares (s : Chip) (sw : Nat) : Nat :=
  packed ((List.range 8).map fun k => (2 * k, 2, (((s.goodCells (8 * sw + k)).take 64).filter fun c => decide (64 ≤ c)).length))

/-- HBM_QUEUE (Table 10.12). -/
def Chip.hbmQueue (s : Chip) (h : Nat) : Nat :=
  let n := fun (o : HbmOp) => ((s.stack h).queue.filter fun q => q.op == o).length
  crossed 63 (packed [(0, 11, n .read), (11, 10, n .write), (21, 9, n .tack), (30, 8, n .add)])

/-- HBM_STATE (Table 10.10). -/
def Chip.hbmState (s : Chip) (h : Nat) : Nat :=
  let x := s.stack h
  packed [(0, 1, b2n x.ready), (1, 1, b2n x.zeroing), (2, 1, b2n x.degraded), (3, 7, if x.degraded then 58 else 62)]

/-- A direction of a Seam port is locked to clock lane k: the port has passed CLOCK and the lane has not failed (Table 11.3). -/
def SeamPort.clockOk (p : SeamPort) (k : Nat) : Bool :=
  decide (3 ≤ p.state) && p.state != 0xB && !p.tx.failed.contains (68 + k) && !p.rx.failed.contains (68 + k)

/-- SEAM_STATE (Table 11.11). -/
def Chip.seamState (s : Chip) (key : Nat) : Nat :=
  let p := s.seam key
  crossed 31 (packed [(0, 4, p.state), (4, 2, p.mode), (6, 3, p.spares p.tx p.retiredTx), (9, 3, p.spares p.rx p.retiredRx),
    (12, 1, b2n p.tx.halfB), (13, 1, b2n p.rx.halfB), (14, 1, b2n (p.clockOk 0)), (15, 1, b2n (p.clockOk 1))])

/-- SEAM_TEST_RESULT (Table 11.12). -/
def Chip.seamTestResult (s : Chip) (key : Nat) : Nat :=
  let p := s.seam key
  crossed 63 (packed [(0, 16, p.testStatus.code), (16, 1, b2n p.testDone), (17, 8, p.testFailed), (25, 7, p.testFirst),
    (32, 1, b2n p.testFirstRx), (33, 4, p.testPhase)])

/-! ### Collar -/

/-- SLV_STATE (Table 12.12): the spare lane is unused while no lane of either direction has failed or is retired. -/
def Chip.slvState (s : Chip) (l : Nat) : Nat :=
  let x := s.link l
  crossed 31 (packed [(0, 4, x.state), (4, 2, x.mode), (6, 1, b2n (x.tx ++ x.rx ++ x.retiredTx ++ x.retiredRx).isEmpty)])

/-- SLV_TEST_RESULT, in the layout of Table 11.12. -/
def Chip.slvTestResult (s : Chip) (l : Nat) : Nat :=
  let p := s.link l
  crossed 63 (packed [(0, 16, p.testStatus.code), (16, 1, b2n p.testDone), (17, 8, p.testFailed), (25, 7, p.testFirst),
    (32, 1, b2n p.testFirstRx), (33, 4, p.testPhase)])

/-- CLK_STATE (Table 15.10). -/
def Chip.clkState (s : Chip) : Nat :=
  crossed 31 (packed [(0, 2, s.bin), (2, 1, b2n s.boot.cLock), (3, 8, bitmap 8 fun p => (s.plate p).fLock),
    (11, 8, bitmap 8 fun p => (s.plate p).dbgLock)])

/-- PWR_THERM_PLATE[p] (Table 15.10). -/
def Chip.thermPlate (s : Chip) (p : Nat) : Nat :=
  crossed 31 (packed [(0, 10, tempField (s.plate p).temp), (10, 7, (s.plate p).theta), (17, 1, b2n (s.plate p).tripped)])

/-- PWR_THERM_STACK[h] (Table 15.10). -/
def Chip.thermStack (s : Chip) (h : Nat) : Nat :=
  let x := mget {} h s.heat
  crossed 31 (packed [(0, 10, tempField x.temp), (17, 1, b2n x.tripped), (18, 2, x.level)])

/-- PWR_THERM_COLLAR (Table 15.10). -/
def Chip.thermCollar (s : Chip) : Nat := crossed 31 (tempField s.power.collarTemp)

/-- PWR_RAIL (Table 22.7, R620): a rail other than a plate's is in regulation unless it holds the package in Cold reset. -/
def Chip.pwrRail (s : Chip) : Nat :=
  let good := fun r => !s.boot.cold.contains r
  crossed 31 (packed [(0, 8, bitmap 8 fun p => !(s.plate p).railLow), (8, 1, b2n (good 8)), (9, 1, b2n (good 9)), (10, 1, b2n (good 10)),
    (11, 1, b2n (good 11)), (12, 8, bitmap 8 fun h => good (12 + h)), (20, 1, b2n s.mgmt.sel), (21, 2, s.mgmt.addr),
    (23, 1, b2n s.power.thermtrip)])

/-- KRP_PORT_STATE (Table 17.12). -/
def Chip.krpPortState (s : Chip) (i : Nat) : Nat :=
  let p := mget {} i s.krp.ports
  crossed 31 (packed [(0, 1, b2n p.link), (1, 1, b2n p.configured)])

/-- SEAL_STATE (Table 18.13). -/
def Chip.sealState (s : Chip) : Nat :=
  crossed 31 (packed [(0, 2, s.life.code), (2, 1, b2n s.trust.pending), (3, 1, b2n s.trust.katOk), (4, 1, b2n s.trust.identity)])

/-- SEAL_QUEUE (Table 18.13). -/
def Chip.sealQueue (s : Chip) : Nat :=
  packed [(0, 9, s.trust.high.length), (9, 11, s.trust.low.length), (20, 1, b2n (s.trust.low.any fun j => j.yielded))]

/-- PCI_LINK (Table 20.16). -/
def Chip.pciLink (s : Chip) : Nat :=
  crossed 31 (packed [(0, 3, s.pci.speed), (3, 5, s.pci.width), (8, 1, b2n s.pci.flit), (9, 1, b2n s.pci.up)])

/-- GLB_BRINGUP (Table 21.12). -/
def Chip.glbBringup (s : Chip) : Nat :=
  crossed 31 (packed [(0, 3, s.boot.phase), (3, 8, s.boot.plateDone), (11, 8, bitmap 8 fun h => (s.stack h).ready),
    (19, 8, bitmap 8 fun p => (s.seam (portKey p 0)).up)])

/-- GLB_GRADE (Table 20.14). -/
def Chip.glbGrade (s : Chip) : Nat :=
  let g := match s.grade with | .mgmt => 0 | .reduced => 1 | .frayed => 2 | .full => 3
  packed [(0, 2, g), (2, 7, ((List.range 64).filter fun sw => (s.swatch sw).inService).length), (9, 8, bitmap 8 fun p => (s.plate p).online),
    (17, 1, b2n (s.grade != .mgmt))]

/-- CEL_GOOD[k] (Table 20.17): bit c while neither Ledger retires physical cell c of panel k, the bits of cells 64 and 65 in the second word. -/
def Chip.celGood (s : Chip) (k : Nat) : Nat × Nat :=
  let g := s.goodCells k
  (bitmap 64 fun c => g.contains c, bitmap 2 fun c => g.contains (64 + c))

end Sys2Proof.Machine
end

