-- ==== Sys2Proof/Tests/Slice0.lean ====
section
/-! SUPPORT. Tests: every check of WellFormed refuses an ill-formed command, every hypothesis of the statements is met by a concrete
state, and single commands give the results that the spec and the published standards state. -/

-- one proof at a time: checked side by side they ask for more threads than the memory limit allows
set_option Elab.async false

namespace Sys2Proof.Tests

open Sys2Proof Sys2Proof.Machine

/-! ### Well-formedness refuses -/

def big : Nat := 2 ^ 128
def call : Call := { fn := .pf0 }
def frame : KrpFrame := { carrier := .net 0 0 0, session := 1, pn := 1 }
def client : KrpClient := { keyId := 1, alg := 1, part := 0, owner := 0 }
def head : PacketHead :=
  { link := 0, dest := 0, src := 0, srcPart := 0, handle := 0x1000000, bolt := 0, seq := 1, wellFormed := true }
def owner : OwnerEntry := ⟨true, 0, 0, 0, 0, 1, 0x1000000, 0⟩
def issuer : Issuer := { run := 0, sw := 0, cell := some 0 }

/-- The fields of a mailbox entry, a binding, a frame, a target and a client, each beyond its width. -/
theorem test_wf_parts : ((Fn.vf 64).wf = false ∧ { call with fn := .vf 64 }.wf = false ∧ { call with tag := 2 ^ 32 }.wf = false
    ∧ { call with argLen := 2 ^ 16 }.wf = false ∧ { call with quiet := true }.wf = false ∧ call.wf = true)
    ∧ ((Carrier.net 2 0 0).wf = false ∧ (Carrier.net 0 (2 ^ 128) 0).wf = false ∧ (Carrier.net 0 0 65536).wf = false
    ∧ (Carrier.host 64 false 0).wf = false ∧ (Carrier.host 0 false 8).wf = false ∧ (Carrier.host 63 true 7).wf = true)
    ∧ ({ head with epoch := 2 ^ 64 }.wf = false ∧ { head with first := some (0, 2 ^ 64, 0) }.wf = false
    ∧ { head with first := some (0, 0, 2 ^ 64) }.wf = false ∧ { head with seq := 2 ^ 64 }.wf = false
    ∧ { head with first := some (15, 3, 4) }.wf = true)
    ∧ ({ frame with carrier := .net 2 0 0 }.wf = false ∧ { frame with session := 2 ^ 32 }.wf = false
    ∧ { frame with pn := 2 ^ 64 }.wf = false ∧ frame.wf = true)
    ∧ ((Target.service 65536).wf = false ∧ (Target.slot 65536).wf = false ∧ { client with part := 64 }.wf = false
    ∧ { client with owner := 2 ^ 32 }.wf = false) := by decide +kernel

/-- Commands with every operand in range. -/
theorem test_wf_accepts_0 : ([
    .writeDrainDone 0,
    .hbmRequestArrive 0 0,
    .controlTackReturn issuer 0 0,
    .weaveFlitLand 0 0,
    .seamFlitDepart 0 0,
    .seamFlitDeliver 0 0 true [],
    .stitchCommit 0,
    .planFinal 0,
    .planSplice 0,
    .tcModulusSet call 0 0 0 0 0 0 0,
    .tcModulusClear call 0 0,
    .tcChainSet call 0 0 0 0 [],
    .tcChainClear call 0 0,
    .tcModulusGet call 0 0 true,
    .tcContainerCheck call 0 0 0,
    .tcContainerSize call (List.replicate 128 0),
    .tcPlanInstall call 0 0 [] 0 true,
    .tcPlanStart call 0 (.slot 0) [],
    .tcPlanRemove call 0 0,
    .tcPlanQuery call 0 0,
    .tcScriberQuery call 0 0,
    .tcPsQuery call 0 0,
    .tcEngineStore call 0 0 0 (.seed 0),
    .tcEngineQuery call 0 0,
    .tcSpoolQuery call 0 0,
    .tcLiningRetire call 0 0,
    .tcMemQuery call 0 0,
    .tcPageRetire call 0 0 0,
    .tcHbmQuery call 0,
    .tcSeamQuery call 0 0,
    .tcSeamTest call 0 0 0 0,
    .seamTestDone 0 0 [] [],
    .tcSeamLaneRetire call 0 0 0 0,
    .tcPlateRecover call 0,
    .tcFabricJoin call 0 [] true,
    .tcRouteSet call 0 0,
    .tcSlvQuery call 0,
    .tcSlvTest call 0 0 0,
    .tcSlvLaneRetire call 0 0 0,
    .tcOwnerSet call 0 0 0 owner] : List Instr).all (fun i => i.wf) = true := by decide +kernel

theorem test_wf_accepts_1 : ([
    .tcTokenGate call 0 0 0 0 0 0,
    .tcFabricFetch call 0 0 0 0 [],
    .tcPartitionCreate call 0 0 true,
    .tcPartitionGrow call 0 0,
    .tcPartitionShrink call 0 0,
    .tcPartitionDestroy call 0,
    .tcPartitionQuery call 0,
    .tcSplitSet call 0 0 0 0 true,
    .tcSplitQuery call 0,
    .tcPartitionReset call 0,
    .tcPlateReset call 0,
    .tcCollarReset call,
    .tcEventRoute call 0 0 0 true,
    .tcPowerPolicy call 0 0 0 0,
    .tcPlatePower call 0 true 0,
    .tcPowerLimit call 0,
    .tcPowerQuery call true 0,
    .tcThermalQuery call,
    .tcLedgerGet call 0 0,
    .tcLedgerSet call [],
    .tcLedgerCommit call,
    .tcCellRetire call 0 true,
    .tcBufAlloc call 0 0 0 0 true,
    .tcBufFree call 0,
    .tcBufShare call 0 true 0 0 0 0 true true true 0,
    .tcBufRevoke call 0,
    .tcBufQuery call 0,
    .tcQuotaSet call 0 [] [] [] 0 0 0,
    .tcKeyRegister call 0 0 0,
    .tcKeyEvict call 0 0,
    .tcKeyQuery call 0,
    .tcServiceDefine call 0 0 [] 0 0 {},
    .tcServiceRemove call 0 0,
    .tcServiceQuery call 0 0,
    .tcReceiptGet call 0 0,
    .tcTimeSet call 0,
    .tcBufAllocAt call 0 0 0,
    .tcSchedHold call 0 true,
    .tcKrpPortSet call 0 0 0 0 0 0 true,
    .tcKrpClientSet call client] : List Instr).all (fun i => i.wf) = true := by decide +kernel

theorem test_wf_accepts_2 : ([
    .tcKrpClientRemove call 0,
    .tcKrpSessionQuery call 0,
    .tcKrpSessionClose call 0,
    .tcSealQuery call,
    .tcAttest call (List.replicate 64 0),
    .tcMeasLog call 0 0,
    .tcLifecycleSet call 0 {},
    .tcPolicySet call 0 true {},
    .tcPolicyKeySet call 0 none {},
    .tcSignerSet call true 0 0 [] 0 true {},
    .tcSvnCommit call,
    .tcSealKat call [],
    .tcTrngRaw call 0 0,
    .tcRingSet call 0 0 true 0 0 0 0,
    .tcRingQuery call 0 0,
    .tcWindowMap call 0 0 0 0,
    .tcWindowUnmap call 0 0,
    .tcWindowQuery call 0,
    .tcWindowMapPhys call 0 0,
    .tcGradeQuery call,
    .tcSelftest call 0,
    .selftestDone 0 [],
    .tcErrorLog call 0 0 true,
    .tcErrlogClear call,
    .mailboxTailWrite .pf0 0,
    .evAckWrite .pf0 0 0,
    .vecRearmWrite .pf0 0,
    .evRouteWrite .pf0 0 0,
    .registerWrite .pf0 .other,
    .msixSend .pf0 0,
    .msixUnmask .pf0 0,
    .sqDoorbell .pf0 0 0 0,
    .cqDoorbell .pf0 0 0 0,
    .sqStart 0 0 true true 0 0 0 true [],
    .sqFrameTx 0 0 true 0 0 frame .close,
    .windowRead .pf0 0 0 0,
    .windowWrite .pf0 0 0 [],
    .atomicOp .pf0 0 0 true (.swap 0),
    .pcieConfigRequest .pf0 .read,
    .busMasterEnableChange .pf0 true] : List Instr).all (fun i => i.wf) = true := by decide +kernel

theorem test_wf_accepts_3 : ([
    .openStage1 frame 0 0 [],
    .openStage3 frame 0 0 [],
    .keys frame 0 0 (List.replicate 128 0),
    .submit frame 0 0 [],
    .chunk frame 0 0 0 0 [],
    .handoffIn frame 0 0 0 (List.replicate 128 0),
    .close frame,
    .nackMissingReceive frame 0 0 0 [],
    .nackResendReceive frame 0,
    .resultChunkSend 0,
    .krpGapTimer 0 0 0 0,
    .openPieceTimeout (.net 0 0 0) 0,
    .halfOpenExpiry 0,
    .sessionIdleTimeout 0,
    .krpSessionRekey 0,
    .handoffTimeout 0,
    .receiptExpiry 0 0,
    .slvEgressAccept 0,
    .slvWriteReceive head (List.replicate 16 0) (List.replicate 16 false),
    .slvAddReceive head true 0 true (List.replicate 16 0) (List.replicate 16 false),
    .slvTokenReceive head true 0,
    .slvControlReceive head 0 0 0 0 owner,
    .slvAckReceive 0 0,
    .slvNackReceive 0 0 0 0,
    .slvPacketError 0 0 true,
    .timeoutChannelExpiry .pf0,
    .thermalEvaluation (List.replicate 8 (List.replicate 16 0)) (List.replicate 8 0) (List.replicate 4 0) 0,
    .slvTestDone 0 [] []] : List Instr).all (fun i => i.wf) = true := by decide +kernel

/-! One operand out of range in each, for every check of every command. -/

theorem test_wf_refuses_0 : ([
    .writeDrainDone big,
    .hbmRequestArrive big 0,
    .controlTackReturn issuer 0 big,
    .weaveFlitLand big 0,
    .seamFlitDepart big 0,
    .seamFlitDeliver big 0 true [],
    .stitchCommit big,
    .planFinal big,
    .planSplice big,
    .tcModulusSet { call with tag := big } 0 0 0 0 0 0 0,
    .tcModulusSet call big 0 0 0 0 0 0,
    .tcModulusSet call 0 big 0 0 0 0 0,
    .tcModulusSet call 0 0 big 0 0 0 0,
    .tcModulusSet call 0 0 0 big 0 0 0,
    .tcModulusSet call 0 0 0 0 big 0 0,
    .tcModulusSet call 0 0 0 0 0 big 0,
    .tcModulusSet call 0 0 0 0 0 0 big,
    .tcModulusClear { call with tag := big } 0 0,
    .tcModulusClear call big 0,
    .tcModulusClear call 0 big,
    .tcChainSet { call with tag := big } 0 0 0 0 [],
    .tcChainSet call big 0 0 0 [],
    .tcChainSet call 0 big 0 0 [],
    .tcChainSet call 0 0 big 0 [],
    .tcChainSet call 0 0 0 big [],
    .tcChainSet call 0 0 0 0 [big],
    .tcChainClear { call with tag := big } 0 0,
    .tcChainClear call big 0,
    .tcChainClear call 0 big,
    .tcModulusGet { call with tag := big } 0 0 true,
    .tcModulusGet call big 0 true,
    .tcModulusGet call 0 big true,
    .tcContainerCheck { call with tag := big } 0 0 0,
    .tcContainerCheck call big 0 0,
    .tcContainerCheck call 0 big 0,
    .tcContainerCheck call 0 0 big,
    .tcContainerSize { call with tag := big } (List.replicate 128 0),
    .tcContainerSize call [],
    .tcPlanInstall { call with tag := big } 0 0 [] 0 true,
    .tcPlanInstall call big 0 [] 0 true,
    .tcPlanInstall call 0 big [] 0 true,
    .tcPlanInstall call 0 0 [big] 0 true,
    .tcPlanInstall call 0 0 [] big true,
    .tcPlanStart { call with tag := big } 0 (.slot 0) [],
    .tcPlanStart call big (.slot 0) [],
    .tcPlanStart call 0 (.slot 65536) [],
    .tcPlanStart call 0 (.slot 0) [big],
    .tcPlanRemove { call with tag := big } 0 0,
    .tcPlanRemove call big 0,
    .tcPlanRemove call 0 big,
    .tcPlanQuery { call with tag := big } 0 0,
    .tcPlanQuery call big 0,
    .tcPlanQuery call 0 big,
    .tcScriberQuery { call with tag := big } 0 0,
    .tcScriberQuery call big 0,
    .tcScriberQuery call 0 big,
    .tcPsQuery { call with tag := big } 0 0,
    .tcPsQuery call big 0,
    .tcPsQuery call 0 big,
    .tcEngineStore { call with tag := big } 0 0 0 (.seed 0)] : List Instr).all (fun i => !i.wf) = true := by decide +kernel

theorem test_wf_refuses_1 : ([
    .tcEngineStore call big 0 0 (.seed 0),
    .tcEngineStore call 0 big 0 (.seed 0),
    .tcEngineStore call 0 0 big (.seed 0),
    .tcEngineQuery { call with tag := big } 0 0,
    .tcEngineQuery call big 0,
    .tcEngineQuery call 0 big,
    .tcSpoolQuery { call with tag := big } 0 0,
    .tcSpoolQuery call big 0,
    .tcSpoolQuery call 0 big,
    .tcLiningRetire { call with tag := big } 0 0,
    .tcLiningRetire call big 0,
    .tcLiningRetire call 0 big,
    .tcMemQuery { call with tag := big } 0 0,
    .tcMemQuery call big 0,
    .tcMemQuery call 0 big,
    .tcPageRetire { call with tag := big } 0 0 0,
    .tcPageRetire call big 0 0,
    .tcPageRetire call 0 big 0,
    .tcPageRetire call 0 0 big,
    .tcHbmQuery { call with tag := big } 0,
    .tcHbmQuery call big,
    .tcSeamQuery { call with tag := big } 0 0,
    .tcSeamQuery call big 0,
    .tcSeamQuery call 0 big,
    .tcSeamTest { call with tag := big } 0 0 0 0,
    .tcSeamTest call big 0 0 0,
    .tcSeamTest call 0 big 0 0,
    .tcSeamTest call 0 0 big 0,
    .tcSeamTest call 0 0 0 big,
    .seamTestDone 0 0 [] [big],
    .tcSeamLaneRetire { call with tag := big } 0 0 0 0,
    .tcSeamLaneRetire call big 0 0 0,
    .tcSeamLaneRetire call 0 big 0 0,
    .tcSeamLaneRetire call 0 0 big 0,
    .tcSeamLaneRetire call 0 0 0 big,
    .tcPlateRecover { call with tag := big } 0,
    .tcPlateRecover call big,
    .tcFabricJoin { call with tag := big } 0 [] true,
    .tcFabricJoin call big [] true,
    .tcFabricJoin call 0 [(0, big)] true,
    .tcRouteSet { call with tag := big } 0 0,
    .tcRouteSet call big 0,
    .tcRouteSet call 0 big,
    .tcSlvQuery { call with tag := big } 0,
    .tcSlvQuery call big,
    .tcSlvTest { call with tag := big } 0 0 0,
    .tcSlvTest call big 0 0,
    .tcSlvTest call 0 big 0,
    .tcSlvTest call 0 0 big,
    .tcSlvLaneRetire { call with tag := big } 0 0 0,
    .tcSlvLaneRetire call big 0 0,
    .tcSlvLaneRetire call 0 big 0,
    .tcSlvLaneRetire call 0 0 big,
    .tcOwnerSet { call with tag := big } 0 0 0 owner,
    .tcOwnerSet call big 0 0 owner,
    .tcOwnerSet call 0 big 0 owner,
    .tcOwnerSet call 0 0 big owner,
    .tcTokenGate { call with tag := big } 0 0 0 0 0 0,
    .tcTokenGate call big 0 0 0 0 0,
    .tcTokenGate call 0 big 0 0 0 0] : List Instr).all (fun i => !i.wf) = true := by decide +kernel

theorem test_wf_refuses_2 : ([
    .tcTokenGate call 0 0 big 0 0 0,
    .tcTokenGate call 0 0 0 big 0 0,
    .tcTokenGate call 0 0 0 0 big 0,
    .tcTokenGate call 0 0 0 0 0 big,
    .tcFabricFetch { call with tag := big } 0 0 0 0 [],
    .tcFabricFetch call big 0 0 0 [],
    .tcFabricFetch call 0 big 0 0 [],
    .tcFabricFetch call 0 0 big 0 [],
    .tcFabricFetch call 0 0 0 big [],
    .tcPartitionCreate { call with tag := big } 0 0 true,
    .tcPartitionCreate call big 0 true,
    .tcPartitionCreate call 0 big true,
    .tcPartitionGrow { call with tag := big } 0 0,
    .tcPartitionGrow call big 0,
    .tcPartitionGrow call 0 big,
    .tcPartitionShrink { call with tag := big } 0 0,
    .tcPartitionShrink call big 0,
    .tcPartitionShrink call 0 big,
    .tcPartitionDestroy { call with tag := big } 0,
    .tcPartitionDestroy call big,
    .tcPartitionQuery { call with tag := big } 0,
    .tcPartitionQuery call big,
    .tcSplitSet { call with tag := big } 0 0 0 0 true,
    .tcSplitSet call big 0 0 0 true,
    .tcSplitSet call 0 big 0 0 true,
    .tcSplitSet call 0 0 big 0 true,
    .tcSplitSet call 0 0 0 big true,
    .tcSplitQuery { call with tag := big } 0,
    .tcSplitQuery call big,
    .tcPartitionReset { call with tag := big } 0,
    .tcPartitionReset call big,
    .tcPlateReset { call with tag := big } 0,
    .tcPlateReset call big,
    .tcCollarReset { call with tag := big },
    .tcEventRoute { call with tag := big } 0 0 0 true,
    .tcEventRoute call big 0 0 true,
    .tcEventRoute call 0 big 0 true,
    .tcEventRoute call 0 0 big true,
    .tcPowerPolicy { call with tag := big } 0 0 0 0,
    .tcPowerPolicy call big 0 0 0,
    .tcPowerPolicy call 0 big 0 0,
    .tcPowerPolicy call 0 0 big 0,
    .tcPowerPolicy call 0 0 0 big,
    .tcPlatePower { call with tag := big } 0 true 0,
    .tcPlatePower call big true 0,
    .tcPlatePower call 0 true big,
    .tcPowerLimit { call with tag := big } 0,
    .tcPowerLimit call big,
    .tcPowerQuery { call with tag := big } true 0,
    .tcPowerQuery call true big,
    .tcThermalQuery { call with tag := big },
    .tcLedgerGet { call with tag := big } 0 0,
    .tcLedgerGet call big 0,
    .tcLedgerGet call 0 big,
    .tcLedgerSet { call with tag := big } [],
    .tcLedgerCommit { call with tag := big },
    .tcCellRetire { call with tag := big } 0 true,
    .tcCellRetire call big true,
    .tcBufAlloc { call with tag := big } 0 0 0 0 true,
    .tcBufAlloc call big 0 0 0 true] : List Instr).all (fun i => !i.wf) = true := by decide +kernel

theorem test_wf_refuses_3 : ([
    .tcBufAlloc call 0 big 0 0 true,
    .tcBufAlloc call 0 0 big 0 true,
    .tcBufAlloc call 0 0 0 big true,
    .tcBufFree { call with tag := big } 0,
    .tcBufFree call big,
    .tcBufShare { call with tag := big } 0 true 0 0 0 0 true true true 0,
    .tcBufShare call big true 0 0 0 0 true true true 0,
    .tcBufShare call 0 true big 0 0 0 true true true 0,
    .tcBufShare call 0 true 0 big 0 0 true true true 0,
    .tcBufShare call 0 true 0 0 big 0 true true true 0,
    .tcBufShare call 0 true 0 0 0 big true true true 0,
    .tcBufShare call 0 true 0 0 0 0 true true true big,
    .tcBufRevoke { call with tag := big } 0,
    .tcBufRevoke call big,
    .tcBufQuery { call with tag := big } 0,
    .tcBufQuery call big,
    .tcQuotaSet { call with tag := big } 0 [] [] [] 0 0 0,
    .tcQuotaSet call big [] [] [] 0 0 0,
    .tcQuotaSet call 0 [big] [] [] 0 0 0,
    .tcQuotaSet call 0 [] [big] [] 0 0 0,
    .tcQuotaSet call 0 [] [] [big] 0 0 0,
    .tcQuotaSet call 0 [] [] [] big 0 0,
    .tcQuotaSet call 0 [] [] [] 0 big 0,
    .tcQuotaSet call 0 [] [] [] 0 0 big,
    .tcKeyRegister { call with tag := big } 0 0 0,
    .tcKeyRegister call big 0 0,
    .tcKeyRegister call 0 big 0,
    .tcKeyRegister call 0 0 big,
    .tcKeyEvict { call with tag := big } 0 0,
    .tcKeyEvict call big 0,
    .tcKeyEvict call 0 big,
    .tcKeyQuery { call with tag := big } 0,
    .tcKeyQuery call big,
    .tcServiceDefine { call with tag := big } 0 0 [] 0 0 {},
    .tcServiceDefine call big 0 [] 0 0 {},
    .tcServiceDefine call 0 big [] 0 0 {},
    .tcServiceDefine call 0 0 [big] 0 0 {},
    .tcServiceDefine call 0 0 [] big 0 {},
    .tcServiceDefine call 0 0 [] 0 big {},
    .tcServiceRemove { call with tag := big } 0 0,
    .tcServiceRemove call big 0,
    .tcServiceRemove call 0 big,
    .tcServiceQuery { call with tag := big } 0 0,
    .tcServiceQuery call big 0,
    .tcServiceQuery call 0 big,
    .tcReceiptGet { call with tag := big } 0 0,
    .tcReceiptGet call big 0,
    .tcReceiptGet call 0 big,
    .tcTimeSet { call with tag := big } 0,
    .tcTimeSet call big,
    .tcBufAllocAt { call with tag := big } 0 0 0,
    .tcBufAllocAt call big 0 0,
    .tcBufAllocAt call 0 big 0,
    .tcBufAllocAt call 0 0 big,
    .tcSchedHold { call with tag := big } 0 true,
    .tcSchedHold call big true,
    .tcKrpPortSet { call with tag := big } 0 0 0 0 0 0 true,
    .tcKrpPortSet call big 0 0 0 0 0 true,
    .tcKrpPortSet call 0 big 0 0 0 0 true,
    .tcKrpPortSet call 0 0 big 0 0 0 true] : List Instr).all (fun i => !i.wf) = true := by decide +kernel

theorem test_wf_refuses_4 : ([
    .tcKrpPortSet call 0 0 0 big 0 0 true,
    .tcKrpPortSet call 0 0 0 0 big 0 true,
    .tcKrpPortSet call 0 0 0 0 0 big true,
    .tcKrpClientSet { call with tag := big } client,
    .tcKrpClientSet call { client with part := 64 },
    .tcKrpClientRemove { call with tag := big } 0,
    .tcKrpClientRemove call big,
    .tcKrpSessionQuery { call with tag := big } 0,
    .tcKrpSessionQuery call big,
    .tcKrpSessionClose { call with tag := big } 0,
    .tcKrpSessionClose call big,
    .tcSealQuery { call with tag := big },
    .tcAttest { call with tag := big } (List.replicate 64 0),
    .tcAttest call [],
    .tcMeasLog { call with tag := big } 0 0,
    .tcMeasLog call big 0,
    .tcMeasLog call 0 big,
    .tcLifecycleSet { call with tag := big } 0 {},
    .tcLifecycleSet call big {},
    .tcPolicySet { call with tag := big } 0 true {},
    .tcPolicySet call big true {},
    .tcPolicyKeySet { call with tag := big } 0 none {},
    .tcPolicyKeySet call big none {},
    .tcSignerSet { call with tag := big } true 0 0 [] 0 true {},
    .tcSignerSet call true big 0 [] 0 true {},
    .tcSignerSet call true 0 big [] 0 true {},
    .tcSignerSet call true 0 0 [] big true {},
    .tcSvnCommit { call with tag := big },
    .tcSealKat { call with tag := big } [],
    .tcTrngRaw { call with tag := big } 0 0,
    .tcTrngRaw call big 0,
    .tcTrngRaw call 0 big,
    .tcRingSet { call with tag := big } 0 0 true 0 0 0 0,
    .tcRingSet call big 0 true 0 0 0 0,
    .tcRingSet call 0 big true 0 0 0 0,
    .tcRingSet call 0 0 true big 0 0 0,
    .tcRingSet call 0 0 true 0 big 0 0,
    .tcRingSet call 0 0 true 0 0 big 0,
    .tcRingSet call 0 0 true 0 0 0 big,
    .tcRingQuery { call with tag := big } 0 0,
    .tcRingQuery call big 0,
    .tcRingQuery call 0 big,
    .tcWindowMap { call with tag := big } 0 0 0 0,
    .tcWindowMap call big 0 0 0,
    .tcWindowMap call 0 big 0 0,
    .tcWindowMap call 0 0 big 0,
    .tcWindowMap call 0 0 0 big,
    .tcWindowUnmap { call with tag := big } 0 0,
    .tcWindowUnmap call big 0,
    .tcWindowUnmap call 0 big,
    .tcWindowQuery { call with tag := big } 0,
    .tcWindowQuery call big,
    .tcWindowMapPhys { call with tag := big } 0 0,
    .tcWindowMapPhys call big 0,
    .tcWindowMapPhys call 0 big,
    .tcGradeQuery { call with tag := big },
    .tcSelftest { call with tag := big } 0,
    .tcSelftest call big,
    .selftestDone 0 [big],
    .tcErrorLog { call with tag := big } 0 0 true] : List Instr).all (fun i => !i.wf) = true := by decide +kernel

theorem test_wf_refuses_5 : ([
    .tcErrorLog call big 0 true,
    .tcErrorLog call 0 big true,
    .tcErrlogClear { call with tag := big },
    .mailboxTailWrite (.vf 64) 0,
    .evAckWrite (.vf 64) 0 0,
    .vecRearmWrite (.vf 64) 0,
    .evRouteWrite (.vf 64) 0 0,
    .registerWrite (.vf 64) .other,
    .msixSend (.vf 64) 0,
    .msixUnmask (.vf 64) 0,
    .sqDoorbell (.vf 64) 0 0 0,
    .cqDoorbell (.vf 64) 0 0 0,
    .sqStart 0 0 true true 0 0 0 true (List.replicate 65 0),
    .sqFrameTx 0 0 true 0 0 { frame with pn := big } .close,
    .windowRead (.vf 64) 0 0 0,
    .windowRead .pf0 0 4095 2,
    .windowWrite (.vf 64) 0 0 [],
    .windowWrite .pf0 0 4095 [0, 0],
    .atomicOp (.vf 64) 0 0 true (.swap 0),
    .pcieConfigRequest (.vf 64) .read,
    .busMasterEnableChange (.vf 64) true,
    .openStage1 { frame with pn := big } 0 0 [],
    .openStage1 frame big 0 [],
    .openStage1 frame 0 big [],
    .openStage1 frame 0 0 (List.replicate 8265 0),
    .openStage3 { frame with pn := big } 0 0 [],
    .openStage3 frame big 0 [],
    .openStage3 frame 0 big [],
    .openStage3 frame 0 0 (List.replicate 8265 0),
    .keys { frame with pn := big } 0 0 (List.replicate 128 0),
    .keys frame big 0 (List.replicate 128 0),
    .keys frame 0 big (List.replicate 128 0),
    .keys frame 0 0 [],
    .submit { frame with pn := big } 0 0 [],
    .submit frame big 0 [],
    .submit frame 0 big [],
    .submit frame 0 0 [(0, [])],
    .chunk { frame with pn := big } 0 0 0 0 [],
    .chunk frame big 0 0 0 [],
    .chunk frame 0 big 0 0 [],
    .chunk frame 0 0 big 0 [],
    .chunk frame 0 0 0 big [],
    .chunk frame 0 0 0 0 (List.replicate 8193 0),
    .handoffIn { frame with pn := big } 0 0 0 (List.replicate 128 0),
    .handoffIn frame big 0 0 (List.replicate 128 0),
    .handoffIn frame 0 big 0 (List.replicate 128 0),
    .handoffIn frame 0 0 big (List.replicate 128 0),
    .handoffIn frame 0 0 0 [],
    .close { frame with pn := big },
    .nackMissingReceive { frame with pn := big } 0 0 0 [],
    .nackMissingReceive frame big 0 0 [],
    .nackMissingReceive frame 0 big 0 [],
    .nackMissingReceive frame 0 0 big [],
    .nackMissingReceive frame 0 0 0 [(0, big)],
    .nackResendReceive { frame with pn := big } 0,
    .nackResendReceive frame big,
    .resultChunkSend big,
    .krpGapTimer big 0 0 0,
    .krpGapTimer 0 big 0 0,
    .krpGapTimer 0 0 big 0] : List Instr).all (fun i => !i.wf) = true := by decide +kernel

theorem test_wf_refuses_6 : ([
    .krpGapTimer 0 0 0 big,
    .openPieceTimeout (.net 2 0 0) 0,
    .openPieceTimeout (.net 0 0 0) big,
    .halfOpenExpiry big,
    .sessionIdleTimeout big,
    .krpSessionRekey big,
    .handoffTimeout big,
    .receiptExpiry 0 big,
    .slvEgressAccept big,
    .slvWriteReceive { head with seq := big } (List.replicate 16 0) (List.replicate 16 false),
    .slvWriteReceive head [] (List.replicate 16 false),
    .slvWriteReceive head (List.replicate 16 0) [],
    .slvAddReceive { head with seq := big } true 0 true (List.replicate 16 0) (List.replicate 16 false),
    .slvAddReceive head true 0 true [] (List.replicate 16 false),
    .slvAddReceive head true 0 true (List.replicate 16 0) [],
    .slvTokenReceive { head with seq := big } true 0,
    .slvControlReceive { head with seq := big } 0 0 0 0 owner,
    .slvAckReceive 0 big,
    .slvNackReceive 0 big 0 0,
    .slvNackReceive 0 0 big 0,
    .slvPacketError 0 big true,
    .timeoutChannelExpiry (.vf 64),
    .thermalEvaluation [] (List.replicate 8 0) (List.replicate 4 0) 0,
    .thermalEvaluation (List.replicate 8 []) (List.replicate 8 0) (List.replicate 4 0) 0,
    .thermalEvaluation (List.replicate 8 (List.replicate 16 0)) [] (List.replicate 4 0) 0,
    .thermalEvaluation (List.replicate 8 (List.replicate 16 0)) (List.replicate 8 0) [] 0,
    .slvTestDone 0 [] [big]] : List Instr).all (fun i => !i.wf) = true := by decide +kernel

/-! ### A package to meet hypotheses with -/

/-- A package in service: Provisioned, Expert control on, one partition of one swatch, a sound modulus and chain. -/
def tab : ModTable :=
  let e := entryWord 147457 (2 ^ 36 / 147457) (powMod 147457 (2 ^ 12) 40 147455) 11153 255 12 1 true
  let e' := entryWord 163841 (2 ^ 36 / 163841) 163801 84080 255 12 1 true
  { entries := [(0, e), (1, e')], chains := [(0, { qcount := 1, pcount := 1, index := [0, 1] })], chainOk := [0] }

def part0 : Partition := { present := true, vfEnabled := true, busMaster := true, master := tab, shadow := tab }

def demo : Chip := {
  time := 1056000000, grade := .full, life := .provisioned, expert := true
  boot := { phase := 0, gradeReported := true }, pci := { up := true, busMaster := true }
  parts := [(0, part0)], swatches := [(0, { owner := some 0, inService := true, power := 0 }), (1, { inService := true, power := 0 })]
  plates := [(0, { online := true, off := false, fLock := true })], hbm := [(0, { ready := true })] }

def s0 : State := { chip := demo, pending := [] }

/-- A live buffer of partition 0 in stack 0, with its handle. -/
def buf0 : Buf := { gen := 1, live := true, part := 0, kind := 0, place := 0, addr := 0, bolts := 8 }
def h0 : Nat := 2 ^ 24
def withBuf (b : Buf) (s : Chip) : Chip := { s with bufs := mput 0 b s.bufs }

/-- The header of an LWE vector of dimension 630 in the chain of `tab`, with its check sum. -/
def lweRaw : List Byte :=
  [0x4B, 0x43, 0x54, 0x31, 6, 4, 12, 1, 0, 0, 0, 0, 0, 0, 0, 0, 0, 0, 0, 0, 0, 0, 1, 0] ++ List.replicate 64 0
    ++ [0x76, 0x02, 0, 0, 1, 0, 0, 0] ++ List.replicate 32 0
def lweHeader : List Byte := lweRaw.take 60 ++ natLE 4 (headerCrc lweRaw) ++ lweRaw.drop 64

theorem ex_pair {α β : Type} {f : α × β} {x : β} (h : f.2 = x) : ∃ u, f = (u, x) := ⟨f.1, by rw [← h]⟩
theorem ex_some {α : Type} {f : Option α} (h : f.isSome = true) : ∃ u, f = some u := Option.isSome_iff_exists.mp h
theorem ex_ok {ε α : Type} : ∀ {f : Except ε α}, f.toOption.isSome = true → ∃ u, f = .ok u
  | .ok a, _ => ⟨a, rfl⟩

theorem ex_admit {k : Nat} : ∀ {f : Chip × Except Refused Nat}, f.2.toOption = some k → ∃ u, f = (u, .ok k)
  | (u, .ok _), h => ⟨u, by rw [Option.some.inj h]⟩

/-! ### Every hypothesis is met -/

theorem test_met_step : s0.pending = [] ∧ ({ s0 with pending := [Instr.refaLoss] } : State).pending = .refaLoss :: [] := ⟨rfl, rfl⟩

theorem test_met_held : ({ demo with boot := { dead := true } } : Chip).held = true
    ∧ ({ chip := { demo with boot := { dead := true } }, pending := [.refaReturn] } : State).stopped := by
  refine ⟨rfl, rfl, ?_⟩; simp [isColdReset]

theorem test_met_lifecycle : demo.passes call { pf0Only := true } [(decide (3 < 1), .bound)]
    ∧ (demo.life, 1) ∉ [(Lifecycle.manufacturing, 1), (.provisioned, 2), (.manufacturing, 3), (.provisioned, 3), (.deployed, 3)] := by
  decide +kernel

theorem test_met_ack : demo.admitsHost .pf0 = true ∧ eventAssigned .pf0 21 = true
    ∧ demo.admitsHost (.vf 0) = true ∧ eventAssigned (.vf 0) 31 = true ∧ (demo.part 0).present = true := by decide +kernel

theorem test_met_modulus : demo.accepts call = true ∧ demo.mtEarlier 0 = demo
    ∧ demo.passes call { part := some 0 } [(decide (1024 ≤ 1023), .bound)]
    ∧ qInRange 147457 12 true = true ∧ isPrimeMR 147457 = true
    ∧ checkEntryFields 1 12 147457 (2 ^ 36 / 147457) (powMod 147457 (2 ^ 12 % 147457) 40 147455) 11153 0 = .ok
    ∧ demo.passes call { part := some 0 } [(decide (16 ≤ 15), .bound), ([0, 1].any fun i => decide (1024 ≤ i), .bound)]
    ∧ (demo.part 0).shadow.checkChain (chainOf 1 1 [0, 1]) = .ok
    ∧ demo.passes call { part := some 0 } [(decide (16 ≤ 0), .bound)] ∧ (mfind 0 (demo.part 0).shadow.chains).isSome = true := by
  decide +kernel

theorem test_met_container : (withBuf buf0 demo).passes call { part := some 0 } [(decide (2 ^ 32 ≤ h0), .bound)]
    ∧ (withBuf buf0 demo).bufOf h0 = some buf0 ∧ buf0.part = 0
    ∧ demo.passes { fn := .vf 0 } {} [] ∧ lweHeader.length = 128
    ∧ firstFail ((Header.ofBytes lweHeader).checks67 ++ (Header.ofBytes lweHeader).checks89 (demo.part (Fn.vf 0).part).master) = none := by
  decide +kernel

/-- A plan of one swatch with one input, installed in slot 0. -/
def plan0 : Plan := { vswatches := [0], swatches := [0], plateMap := [0, 255, 255, 255, 255, 255, 255, 255], totalCycles := 100, stitches := [⟨0, false, false, false, 0, 0, 0, 0⟩, ⟨1, true, true, false, 0, 0, 0, 50⟩, ⟨2, false, false, false, 0, 0, 0, 100⟩] }
def planned : Chip := { demo with parts := [(0, { part0 with plans := [(0, plan0)] })] }

/-- A plan image of one virtual swatch and two stitch records, signed with one Ed25519 entry, in stack 0. -/
def imageMem : Mem :=
  [(0, 75), (1, 80), (2, 76), (3, 49), (4, 1), (6, 1), (8, 1), (10, 1), (12, 2), (24, 100), (32, 128), (36, 184), (40, 64), (41, 1),
    (44, 24), (56, 128), (57, 1), (60, 24), (64, 152), (65, 1), (124, 32), (125, 243), (126, 125), (127, 33), (128, 1), (132, 136)]
  ++ [(272, 9), (276, 32), (296, 2), (320, 100), (336, 100), (384, 75), (385, 83), (386, 71), (387, 49), (388, 1), (392, 1), (394, 8),
    (400, 9), (401, 9), (402, 9), (403, 9), (404, 9), (405, 9), (406, 9), (407, 9)]
def imaged : Chip := withBuf buf0 { demo with mem := imageMem }
/-- The same package in Deployed with plan signing enforced. -/
def signing : Chip := { imaged with life := .deployed, planSigning := true }
def onPlate0 : List Nat := [0, 255, 255, 255, 255, 255, 255, 255]

theorem ex_install {f : Chip × Status × Nat × List Nat} (h : f.2.1 = .ok) : ∃ u n slot, f = (u, .ok, n, slot) :=
  ⟨f.1, f.2.2.1, f.2.2.2, by rw [← h]⟩

set_option maxRecDepth 100000 in
theorem test_met_install : imaged.passes call { part := some 0 } [] ∧ imaged.toVerify call 0 h0 = none
    ∧ (∃ u n slot, imaged.dropDebugLocks.installPlan call 0 h0 onPlate0 0 false none = (u, .ok, n, slot))
    ∧ ∃ g es, signing.toVerify call 0 h0 = some (g, es) := by
  refine ⟨by decide +kernel, by decide +kernel, ex_install (by decide +kernel), ?_⟩
  obtain ⟨x, hx⟩ := ex_some (f := signing.toVerify call 0 h0) (by decide +kernel)
  exact ⟨x.1, x.2, hx⟩

set_option maxRecDepth 100000 in
theorem test_met_signed_install : signing.passes call { part := some 0 } []
    ∧ ((signing.toVerify call 0 h0).map fun x => x.2.all fun e => signing.checkable e.1 e.2.2.length) = some true
    ∧ ((signing.toVerify call 0 h0).map fun x => (signing.sealSubmit (.install call 0 h0 onPlate0 0 false x.1.hash
        (signing.acceptors x.1 0)) false (blockCycles x.2)).2) = some true :=
  ⟨by decide +kernel, by decide +kernel, by decide +kernel⟩

theorem test_met_plans : demo.passes call { part := some 0 } [] ∧ planned.passes call { part := some 0 } [(decide (64 ≤ 0), .bound), (decide (64 < 0), .badShape)]
    ∧ (∃ u, planned.admitRequest (hostAdmission 0 (.slot 0) (.call .pf0 0) 0 []) = (u, .ok 0))
    ∧ mfind 0 (planned.part 0).plans = some plan0 ∧ plan0.removing = false ∧ planned.runs = [] ∧ planned.requests = []
    ∧ demo.quiet 0 = true ∧ (demo.swatch (swatchOf 0)).owner = some 0 ∧ (demo.swatch 0).owner = some 0 := by
  refine ⟨by decide +kernel, by decide +kernel, ex_pair rfl, rfl, rfl, rfl, rfl, rfl, rfl, rfl⟩

theorem test_met_stores : demo.passes call { part := some 0 } [((StoreItem.seed 5) == .twiddle, .notSupported), (decide (32 ≤ 31), .bound)]
    ∧ (maskSwatches 1).any (fun sw => (demo.swatch sw).owner != some 0) = false
    ∧ (∃ u, (maskSwatches 1).foldl (fun (t : Option Chip) sw => t.bind fun t => t.storeItem 0 31 (.seed 5) sw) (some demo) = some u)
    ∧ demo.passes call { pf0Only := true } [(decide (8 ≤ 7), .bound), (decide (1820 < 1820), .bound)]
    ∧ (demo.lining 7).retired.contains 1820 = false ∧ (demo.lining 7).retired.length < 64
    ∧ demo.passes call { part := some 0 } [(decide (8 ≤ 7), .bound)] ∧ demo.passes call {} [(decide (8 ≤ 7), .bound)]
    ∧ ({ demo with hbm := [(7, { degraded := true })] } : Chip).passes call { pf0Only := true } [(decide (8 ≤ 7), .bound)]
    ∧ 589823 + 1 ≤ 589824 ∧ (([] : List (Nat × Nat)).length + (newRuns [] 589823 1).length ≤ 8192) := by
  refine ⟨by decide +kernel, by decide +kernel, ex_some (by decide +kernel), ?_⟩
  decide +kernel

theorem test_met_seam : demo.passes call {} [(decide (8 ≤ 7) || decide (4 ≤ 3) || !seamConnected (portKey 7 3), .bound)]
    ∧ demo.passes call { pf0Only := true } [] ∧ seamConnected (portKey 7 3) = true ∧ demo.testBusy (portKey 7 3) = false
    ∧ demo.passes call { pf0Only := true } [(decide (8 ≤ 0) || decide (4 ≤ 0) || !seamConnected (portKey 0 0) || decide (70 ≤ 69), .bound),
        (decide (1 < 1), .notSupported)]
    ∧ (demo.seam (portKey 0 0)).retiredRx.contains 69 = false ∧ (demo.seam (portKey 0 0)).retiredTx.contains 69 = false
    ∧ (demo.plate 0).reset = false ∧ (demo.plate 0).hot = false ∧ (demo.plate 0).railLow = false
    ∧ demo.held = false ∧ (({ state := 12, testDone := false } : SeamPort).testFn = none)
    ∧ (({ demo with seams := [(31, { state := 12, testDone := false })] } : Chip).seam (portKey (7 : BitVec 3).toNat (3 : BitVec 2).toNat)).state = 12 := by
  decide +kernel

/-- An owner table of one valid entry in control memory, and a buffer the block it names is copied to. -/
def tableBuf : Buf := { gen := 1, live := true, part := 0, kind := 2, place := 0, addr := controlBase, bolts := 1 }
def tabled : Chip := { demo with bufs := [(0, tableBuf), (1, buf0)], mem := [(controlBase + 1, 0x80), (controlBase + 12, 1)] }

theorem test_met_fabric : demo.passes call { pf0Only := true } [(decide (4096 ≤ 4095), .bound)] ∧ demo.fabric.lock = false
    ∧ demo.passes call { pf0Only := true } [(decide (4096 ≤ 4095), .bound), (decide (65536 ≤ 65535), .bound)]
    ∧ demo.passes call {} [(decide (16 ≤ 15), .bound)] ∧ demo.passes call {} [] ∧ demo.linkHeld 15 = false ∧ (demo.link 15).state ≠ 11
    ∧ demo.passes call { pf0Only := true } [(decide (16 ≤ 15) || decide (9 ≤ 8), .bound), (decide (1 < 1), .notSupported)]
    ∧ (demo.link 15).retiredRx.contains 8 = false
    ∧ tabled.passes call { part := some 0 } [(decide (2 ^ 24 ≤ 0), .bound)] ∧ tabled.bufOf h0 = some tableBuf
    ∧ (call.fn == .pf0 || tableBuf.part == call.fn.part) = true ∧ 32 * (0 + 1) ≤ 576 * tableBuf.bolts
    ∧ planned.passes call { part := some 0 } [(decide (64 ≤ 0) || decide (64 ≤ 63), .bound)]
    ∧ tabled.bufOf (h0 + 1) = some buf0
    ∧ bit (leNat ((memReadN tabled.mem (tableBuf.addr + 32 * 0) 32).take 2)) 15 = true
    ∧ leNat ((memReadN tabled.mem (tableBuf.addr + 32 * 0) 32).take 2) % 4096 = tabled.fabric.active
    ∧ 576 * leNat (((memReadN tabled.mem (tableBuf.addr + 32 * 0) 32).drop 12).take 4) ≤ 576 * buf0.bolts := by decide +kernel

/-- The header of a seeded key of one digit, with its check sum, at address 0 of a buffer of 64 Bolts. -/
def keyMem : Mem :=
  [(0, 75), (1, 67), (2, 84), (3, 49), (4, 5), (5, 1), (6, 12), (7, 2), (10, 1), (22, 2), (23, 1),
    (60, 20), (61, 222), (62, 137), (63, 68), (64, 7), (68, 1), (69, 1)]
def keyBuf : Buf := { buf0 with bolts := 64, addr := 0 }
def keyed : Chip := withBuf keyBuf { demo with mem := keyMem }
def quota0 : Quotas := { hbm := [(0, 2 ^ 20)], control := 65536, handles := 4 }
def ofPart (p : Partition) : Chip := { demo with parts := [(0, p)] }
def view0 : Buf := { gen := 1, live := true, part := 0, kind := 0, place := 0, addr := 0, bolts := 8, view := some 1 }

theorem test_met_partitions : demo.passes call { pf0Only := true, part := some 63, creates := true } [] ∧ demo.alive = true
    ∧ (demo.part 63).present = false ∧ ((maskSwatches 2).any fun sw => (demo.swatch sw).owner.isSome) = false
    ∧ ((maskSwatches 2).any fun sw => !demo.usable sw) = false ∧ demo.passes call { pf0Only := true, part := some 0 } []
    ∧ (maskSwatches 2).isEmpty = false ∧ ((maskSwatches 1).any fun sw => (demo.swatch sw).owner != some 0) = false
    ∧ ((maskSwatches 1).any fun sw => !demo.usable sw) = false ∧ ((maskSwatches 1).any fun sw => (demo.part 0).uses sw) = false
    ∧ demo.runs = [] ∧ demo.requests = [] ∧ demo.passes call { part := some 0 } []
    ∧ 39 < 40 ∧ 0 < resClasses 39 ∧ (mget {} (grantKey 39 0) (demo.part 0).grants).units < 1
    ∧ (demo.updPart 0 (Partition.setGrant 39 0 1 false)).admits 39 = true ∧ demo.passes call {} [(decide (40 ≤ 39), .bound)] := by
  decide +kernel

theorem test_met_resets_and_power : demo.passes call { part := some 0 } [] ∧ demo.passes call { pf0Only := true } [(decide (8 ≤ 7), .bound)]
    ∧ (demo.plate 7).reset = false ∧ demo.passes call { pf0Only := true } []
    ∧ demo.passes call { pf0Only := true } [(!eventAssigned .pf0 21 || decide (64 ≤ 63), .bound)]
    ∧ demo.passes call { part := some 0 } [(!eventAssigned (.vf 0) 31 || decide (32 ≤ 31), .bound)] ∧ (demo.part 0).present = true
    ∧ demo.passes call { part := some 0 } [(decide (3 = 0 ∨ 3 < 3), .notSupported), (decide (2 ^ 30 < 2 ^ 30 ∨ 2 ^ 30 < 0), .bound)]
    ∧ demo.passes call { pf0Only := true } [(decide (8 ≤ 7), .bound), (decide (2 ^ 30 < 2 ^ 30), .bound)]
    ∧ demo.passes call { pf0Only := true } [(decide (300 ≠ 0 ∧ (300 < 300 ∨ 1150 < 300)), .bound)]
    ∧ demo.passes call {} [(decide (8 ≤ 7), .bound)] ∧ demo.passes call {} [] := by
  decide +kernel

theorem test_met_ledger : demo.passes call {} [(decide (ledgerCount 12 ≤ 0), .bound)] ∧ demo.passes call { pf0Only := true } []
    ∧ demo.ledgerOpen = true ∧ ([(0, 0, 0)] : List (Nat × Nat × Int)).findSome? demo.ledgerBad = none ∧ demo.ledger.flash = true
    ∧ demo.passes call { pf0Only := true } [(decide (32768 ≤ 32767), .bound)]
    ∧ ({ demo with ledger := { userCells := [0] } } : Chip).ledger.cellOut (66 * (0 / 64) + 0 % 64) = true
    ∧ demo.ledger.cellOut (66 * (0 / 64) + 0 % 64) = false ∧ demo.lastCells (66 * (0 / 64) + 0 % 64) = false := by
  decide +kernel

theorem test_met_buffers : demo.passes call { part := some 0 }
        [(decide (2 < 2), .notSupported), (decide (2 < 2 && 7 < 0 && !(2 == 0 && 0 == 255)), .bound), (decide (2 = 2 ∧ 0 ≠ 0), .bound)]
    ∧ (∃ x, (ofPart { part0 with quotas := quota0 }).allocBuf 0 2 0 1 false = .ok x)
    ∧ demo.passes call {} [] ∧ (withBuf buf0 demo).bufOf h0 = some buf0 ∧ (call.fn == .pf0 || buf0.part == call.fn.part) = true
    ∧ (withBuf buf0 demo).bound h0 = false ∧ (withBuf buf0 demo).keyInUse 0 h0 = false ∧ (withBuf buf0 demo).mapped h0 = false
    ∧ demo.passes call {} [(decide (4096 ≤ (0 : Nat)), .bound), (decide (64 ≤ 0), .bound), (decide (64 ≤ (0 : Nat)), .bound), (!(true || false), .notSupported)]
    ∧ buf0.view = none ∧ buf0.grants.length < 64 ∧ (withBuf buf0 demo).handleRoom 0 = true
    ∧ ({ demo with bufs := [(0, view0), (1, buf0)] } : Chip).bufOf h0 = some view0 ∧ view0.view = some 1
    ∧ demo.passes call { expert := true, part := some 0 } [] ∧ 0x7000000000 < 0x8000000000
    ∧ (576 * 1 ≠ 0 → demo.regionRetired 0x7000000000 (576 * 1) = false)
    ∧ 0x7000000000 % 0x1000000000 % 576 = 0 ∧ (demo.owned.any fun b => decide (0x7000000000 < b.addr + 576 * b.bolts)
        && decide (b.addr < 0x7000000000 + 576 * 1)) = false ∧ demo.handleRoom 0 = true
    ∧ ((demo.busyStack (stackOf 0x7000000000)).any fun r => decide (0x7000000000 % 0x1000000000 < r.2)
        && decide (r.1 < 0x7000000000 % 0x1000000000 + 576 * 1) && decide (r.1 < r.2)) = false := by
  refine ⟨by decide +kernel, ex_ok (by decide +kernel), ?_⟩
  decide +kernel

/-- That header as it is read, for the checks of it to be evaluated one table at a time. -/
def keyHdr : Header :=
  { magic := kctMagic, type := 5, scheme := 1, log2n := 12, limbs := 2, chain := 0, level := 0, domain := 1, layout := 0, scale := 0,
    slots := 0, noise := 0, parts := 2, flags := 1, owner := 0, seed := 0, hcrc := 1149885972, keyId := 7, keyKind := 1, digits := 1,
    galois := 0, plain := 0, lweDim := 0, lweCount := 0, request := 0, round := 0, direction := 0, raw := memReadN keyMem 0 128 }

theorem key_header : keyed.headerAt keyBuf 0 = keyHdr := by decide +kernel

theorem firstFail_append {a b : List (Bool × Status × Nat × Nat)} (ha : firstFail a = none) (hb : firstFail b = none) :
    firstFail (a ++ b) = none := by
  induction a with
  | nil => exact hb
  | cons x r ih =>
    obtain ⟨bad, st, step, byte⟩ := x
    cases bad
    · exact ih ha
    · cases ha

/-- The four groups of a container's checks, one by one. -/
theorem headerFail_none (s : Chip) (b : Buf) (o : Nat) (t : ModTable) (w : Option Nat)
    (h1 : 576 * b.bolts - o ≥ 576) (hr : s.regionRetired (b.addr + o) 576 = false) (hp : s.regionPoisoned (b.addr + o) 576 = false)
    (hm : (b.incomplete || (s.headerAt b o).magic != kctMagic) = false) (hc : (s.headerAt b o).hcrc = headerCrc (s.headerAt b o).raw)
    (h2 : firstFail (s.headerAt b o).checks67 = none) (h3 : firstFail ((s.headerAt b o).checks89 t) = none)
    (h4 : firstFail ((s.headerAt b o).checks1012 t (576 * b.bolts - o) w) = none) : s.headerFail b o t w = none :=
  by
  refine firstFail_append (firstFail_append (firstFail_append ?_ h2) h3) h4
  rw [hr, hp, hm, hc, decide_eq_false (by omega : ¬ 576 * b.bolts - o < 576)]
  simp [firstFail]

theorem checkContainer_none {s : Chip} {part handle : Nat} {b : Buf} (hb : s.bufOf handle = some b) (hp : b.part = part)
    (h : s.headerFail b 0 (s.part part).master none = none) : (s.checkContainer part handle 0 none).2 = none := by
  simp [Chip.checkContainer, hb, hp, h]

theorem key_table : (keyed.part 0).master = tab := by decide +kernel
theorem key_shape : firstFail (keyHdr.checks89 tab) = none := by decide +kernel

set_option maxRecDepth 100000 in
theorem key_crc : (keyed.headerAt keyBuf 0).hcrc = headerCrc (keyed.headerAt keyBuf 0).raw := by decide +kernel

theorem key_sound : (keyed.checkContainer 0 h0 0 none).2 = none := by
  refine checkContainer_none (by decide +kernel) (b := keyBuf) rfl (headerFail_none _ _ _ _ _ (by decide +kernel) (by decide +kernel)
    (by decide +kernel) (by decide +kernel) key_crc (by decide +kernel) ?_ (by decide +kernel))
  rw [key_header, key_table]
  exact key_shape

theorem test_met_keys : keyed.passes call { part := some 0 } [] ∧ keyed.bufOf h0 = some keyBuf
    ∧ (call.fn == .pf0 || keyBuf.part == 0) = true
    ∧ ∃ u t : Chip, keyed.checkContainer 0 h0 0 none = (u, none) ∧ keyBuf.kind = 0 ∧ (u.headerAt keyBuf 0).isKey = true
        ∧ u.trust.keySigning = false ∧ (u.part 0).keys.length < 4096 ∧ u.registerKey 0 (u.headerAt keyBuf 0).keyId h0 = some t :=
  ⟨by decide +kernel, by decide +kernel, rfl, (keyed.checkContainer 0 h0 0 none).1, _, Prod.ext rfl key_sound, rfl,
    by decide +kernel, by decide +kernel, by decide +kernel, Option.eq_some_of_isSome (by decide +kernel)⟩

def served : Partition :=
  { part0 with keys := [(7, { handle := h0 })], services := [(255, ⟨[0], 1, 1, {}⟩)],
               receipts := [(3, { request := 9, sigKind := 1, ready := true, doneAt := 0 })] }

theorem test_met_services : demo.passes call { pf0Only := true, part := some 0 } [((16384 : Nat) = 0 || 16384 < 16384, .bound)]
    ∧ ((List.range 8).any fun i => decide ((([] : List Nat)[i]?).getD 0 < demo.hbmUse 0 i)
        || decide ((([] : List Nat)[i]?).getD 0 < demo.liningUse 0 i)
        || decide ((([] : List Nat)[i]?).getD 0 < ((demo.keyBufs 0 i).map (·.2)).foldl max 0)
        || ((demo.part 0).keyRanges.any fun r => r.plate == i && decide ((([] : List Nat)[i]?).getD 0 < r.offset + r.lines))) = false
    ∧ (∀ i, i < 8 → (([] : List Nat)[i]?).getD 0 = mget 0 i (demo.part 0).quotas.keyLines) ∧ demo.controlUse 0 ≤ 0 ∧ demo.handleUse 0 ≤ 0 ∧ demo.openOf 0 ≤ 16384
    ∧ (ofPart served).passes call { part := some 0 } [] ∧ mfind 7 ((ofPart served).part 0).keys = some { handle := h0 }
    ∧ (ofPart served).keyNamed 0 7 = false
    ∧ demo.passes call { part := some 0 } [(decide (256 ≤ 255), .bound), (decide (8 < ([0] : List Nat).length), .bound), (([0] : List Nat).any (64 ≤ ·), .bound),
        (decide (1 = 0 ∨ 16384 < 1), .badShape), (decide (3 < 3), .notSupported), (!({} : HandoffPolicy).ok, .badShape)]
    ∧ (ofPart served).passes call { part := some 0 } [(decide (256 ≤ 255), .bound)]
    ∧ (mfind 255 ((ofPart served).part 0).services).isSome = true
    ∧ ((((ofPart served).part 0).receipts.reverse.find? fun e => e.2.request == 9 && e.2.sigKind != 0).map fun e => e.2.ready) = some true
    ∧ demo.passes call { pf0Only := true } [(decide (2 ^ 64 ≤ 2 ^ 64 - 1), .bound)]
    ∧ demo.passes call { expert := true, part := some 0 } [] := by
  decide +kernel

def sess0 : KrpSession := { id := 1, carrier := .net 0 0 0, half := false }
def sessioned : Chip := { demo with krp := { sessions := [sess0], clients := [client] } }

theorem test_met_krp_calls : demo.passes call { pf0Only := true }
        [(decide (1 < 1), .bound), (decide (2 ^ 32 ≤ 2 ^ 32 - 1), .bound), (decide (2 ^ 128 ≤ 0), .bound),
          (decide (65536 ≤ 65535), .bound), (decide (4096 ≤ 4095), .bound), (decide (2 ^ 32 ≤ 0), .bound)]
    ∧ demo.passes call { pf0Only := true, part := some client.part }
        [(decide (2 ^ 384 ≤ client.keyId), .bound), (decide (client.alg = 0 ∨ 4 < client.alg), .notSupported), (decide (2 ^ 32 ≤ client.owner), .bound),
          (decide (client.maxOpen = 0 ∨ 16384 < client.maxOpen), .bound), (decide (client.sessions = 0 ∨ 8192 < client.sessions), .bound),
          (decide (client.window = 0 ∨ 65536 ≤ client.window), .bound), (decide (2 ^ 32 ≤ client.idle), .bound)]
    ∧ (demo.krp.clients.filter fun x => x.keyId != client.keyId).length < 4096
    ∧ ({ demo with krp := { clients := [client] } } : Chip).krp.clients.any (fun x => x.keyId == 1) = true ∧ demo.krp.sessions = []
    ∧ demo.passes call { pf0Only := true } [] ∧ demo.passes call { part := some 0 } []
    ∧ sessioned.passes call {} [] ∧ sessioned.session? 1 = some sess0 ∧ sess0.half = false ∧ call.fn.owns sess0.part = true := by
  decide +kernel

def sealed : Chip :=
  { demo with trust := { identity := true, policyKeys := [(0, { hash := 1 })], trng := 1, drbg := { ready := true } } }

theorem test_met_seal : sealed.passes call {} [] ∧ sealed.trust.identity = true ∧ sealed.canSign 1 = true ∧ sealed.trust.low.length < 1024
    ∧ (let m : Chip := { sealed with life := .manufacturing, ledger := { factoryOk := true } }
      m.passes call { pf0Only := true } [(decide (3 < 1), .bound)] ∧ m.ledger.factoryOk = true ∧ m.trust.hukKilled = false
        ∧ m.trust.trng ≠ 0 ∧ m.sealDraw.isSome = true ∧ m.passes call { pf0Only := true } [(decide (3 < 3), .bound)])
    ∧ sealed.passes call { pf0Only := true } [(decide (3 < 2), .bound)] ∧ sealed.trust.enrolled = true
    ∧ (∀ x ∈ [PolicyOp.policy 1 false, .key 3 none, .signer false 15 7 [1] 0 true], sealed.changeFail x = none)
    ∧ sealed.life ≠ .deployed
    ∧ (∀ x ∈ [PolicyOp.policy 1 false, .key 3 none, .signer false 15 7 [1] 0 true],
        ({ sealed with life := .deployed } : Chip).changeFail x = none
          ∧ (({ sealed with life := .deployed } : Chip).sealSubmit (.token call 0x0D05 x {}) false
            (blockCycles ((signatureBlock ({} : Token).block).getD []))).2 = true)
    ∧ sealed.passes call { pf0Only := true } [] ∧ sealed.passes call { expert := true } []
    ∧ sealed.passes call { expert := true } [(decide (3 < 3), .bound), (decide (4096 < 4096), .bound)] := by
  decide +kernel

theorem test_met_seal_kat : (sealed.takeFree.2.sealSubmit (.kat call []) false (Config.freeNat sealed.free)).2 = true := rfl

def ring0 : Ring := { enabled := true, ownerPf0 := true, sqBase := 4096, cqBase := 8192, sqSize := 16, cqSize := 16, sqTail := 1 }
/-- The demo package with one ring of partition 0 of a wanted kind. -/
def ringed (r : Ring) : Chip := ofPart { part0 with rings := [(7, r)] }
/-- The demo package with a buffer in aperture 1023 of PF0. -/
def windowed (b : Buf) : Chip := withBuf b { demo with pci := { up := true, busMaster := true, windows := [(1023, ⟨some h0, 0⟩)] } }

theorem test_met_host : demo.passes call { part := some 0 } [(decide (8 ≤ 7), .bound)] ∧ ringSize 16 = true ∧ 4096 % 4096 = 0
    ∧ (demo.ring 0 7).taken = 0
    ∧ (withBuf buf0 demo).passes call (windowShape 0) [(decide (64 < 0), .bound), (decide (1024 ≤ 1023), .bound)]
    ∧ (withBuf buf0 demo).passes call (windowShape 1) [(decide (64 < 1), .bound), (decide (1024 ≤ 1023), .bound)]
    ∧ (withBuf buf0 demo).bufOf h0 = some buf0 ∧ (buf0.part + 1 = 1 ∧ buf0.view = none ∧ buf0.kind ≠ 1) ∧ 4096 ≤ 576 * buf0.bolts
    ∧ demo.passes call (windowShape 0) [(decide (64 < 0), .bound)]
    ∧ demo.passes call { expert := true } [(decide (1024 ≤ 1023), .bound)] ∧ windowRegion 0x7000000000 1 = true
    ∧ demo.passes call {} [] ∧ demo.passes call { pf0Only := true } [(decide (2 ^ 64 ≤ 2), .bound)] ∧ demo.boot.testFn = none
    ∧ (((List.range 64).filter fun sw => bit 2 sw).any fun sw => (demo.swatch sw).owner.isSome || (demo.swatch sw).testing) = false
    ∧ (((List.range 64).filter fun sw => bit 2 sw).any fun sw => (demo.swatch sw).resetting) = false
    ∧ (((List.range 64).filter fun sw => bit 2 sw).any fun sw => !(demo.plate (plateOf sw)).online) = false
    ∧ ((List.range 64).filter fun sw => bit 2 sw).isEmpty = false
    ∧ demo.held = false ∧ (({ demo with swatches := [(63, { testing := true })] } : Chip).swatch (63 : BitVec 6).toNat).testing = true
    ∧ demo.passes call {} [(decide (64 < 64), .bound)] ∧ demo.passes call { expert := true } [] := by
  decide +kernel

theorem test_met_registers : demo.admitsHost .pf0 = true ∧ demo.expertOn = true ∧ demo.tlr.mt.done = true ∧ 5 ≤ (5 : BitVec 3).toNat
    ∧ demo.held = false ∧ ({ demo with tlr := { mt := { running := some 2 } } } : Chip).tlr.mt.running = some 2
    ∧ ({ demo with tlr := { mt := { running := some 2 } } } : Chip).tlr.mt.applied = none
    ∧ (demo.part 0).present = true ∧ (demo.part 0).resetting = false
    ∧ demo.swatchAnswers 0 = true ∧ demo.engineBusy 0 .burin = false ∧ demo.padOpen 0 = true ∧ (demo.cell 0).pad.lands = []
    ∧ ((demo.cell 0).pad.ue.any fun k => k / 4 == 4095) = false
    ∧ (let m : Chip := { demo with swatches := [(63, { power := 4 })] }
      (m.plate (plateOf 63)).reset = false ∧ (m.swatch (63 : BitVec 6).toNat).power = 4)
    ∧ (demo.plate 0).reset = false ∧ (demo.plate 0).fLock = true ∧ seamConnected (portKey 0 3) = true ∧ demo.testBusy (portKey 0 3) = false
    ∧ (demo.plates = [(0, { online := true, off := false, fLock := true })]
      ∧ (({ demo with plates := [(7, { reset := true })] } : Chip).plate 7).reset = true) ∧ ({ demo with expert := false } : Chip).expertOn = false
    ∧ (0 : BitVec 4) ≠ 13 ∧ demo.padOpen 32767 = true ∧ (demo.cell 32767).pad.lands = []
    ∧ (demo.cell 32767).pad.ue.contains 4095 = false
    ∧ seamConnected (portKey (7 : BitVec 3).toNat (3 : BitVec 2).toNat) = true ∧ (15 : BitVec 4) ≠ 0
    ∧ demo.testBusy (portKey (7 : BitVec 3).toNat (3 : BitVec 2).toNat) = false
    ∧ 2 ≤ (2 : BitVec 4).toNat ∧ demo.linkHeld 15 = false ∧ (demo.link 15).state ≠ 11 ∧ (demo.plate 7).reset = false
    ∧ eventAssigned .pf0 21 = true ∧ 1 < (demo.swatch 63).power ∧ demo.ledgerOpen = true
    ∧ demo.ledgerBad ((0 : BitVec 4).toNat, (0 : BitVec 16).toNat, 0) = none := by
  decide +kernel

theorem test_met_host_registers : (let m : Chip := { demo with tlr := { mbx := { base := 4096 } } }
      m.admitsHost .pf0 = true ∧ (m.mbx .pf0).base ≠ 0 ∧ m.masterOf .pf0 = true)
    ∧ eventAssigned .pf0 21 = true ∧ (4 : BitVec 5).toNat ≤ 4 ∧ demo.admitsHost (.vf 0) = true
    ∧ (let m : Chip := { demo with tlr := { events := { count := [(21, 1)], route := [(21, (63, true))] }, msix := { enabled := true } } }
      m.held = false ∧ (63 : BitVec 6).toNat < vectorsOf .pf0 ∧ (m.eventsOf .pf0).asserted 63 = true
        ∧ 63 ∉ (m.eventsOf .pf0).disarmed ∧ (m.msixOf .pf0).enabled = true ∧ m.masterOf .pf0 = true) := by
  decide +kernel

theorem test_met_rings : demo.admitsHost .pf0 = true ∧ Fn.pf0.owns 0 = true ∧ (ringed ring0).ring 0 7 = ring0
    ∧ ring0.enabled = true ∧ ring0.ownedBy .pf0 = true ∧ 0 < ring0.sqSize ∧ 0 < ring0.cqSize
    ∧ ((0 : BitVec 12).toNat % ring0.cqSize + ring0.cqSize - ring0.cqHead) % ring0.cqSize ≤ ring0.written.length
    ∧ (ringed ring0).presents = true ∧ (ringed ring0).ringOpen 0 ring0 = true ∧ ring0.sqHead ≠ ring0.sqTail
    ∧ (ringed ring0).mayTake 0 7 = true
    ∧ (ringed { ring0 with krp := true }).mayTake 0 7 = true ∧ ((ringed ring0).part 0).resetting = false
    ∧ (let m : Chip := ofPart { part0 with rings := [(7, ring0)], resetting := true }
      m.presents = true ∧ m.mayTake 0 7 = true ∧ (m.part 0).resetting = true) := by
  decide +kernel

theorem test_met_ring_start : (let m : Chip := ofPart { part0 with rings := [(7, ring0)], plans := [(63, plan0)] }
    let v := m.took 0 7
    m.presents = true ∧ m.mayTake 0 7 = true ∧ (m.ring 0 7).krp = false ∧ (10 : Byte).toNat ≤ 10 ∧ (63 : BitVec 16).toNat < 64
      ∧ ∃ u, v.admitRequest { hostAdmission 0 (.slot 63) (.ring 7 0 (m.ring 0 7).seq) (v.targetOwner 0 (.slot 63) []) []
          with came := some (m.ring 0 7).stamp } = (u, .ok 0)) :=
  ⟨by decide +kernel, by decide +kernel, rfl, by decide, by decide, ex_pair rfl⟩

theorem test_met_windows : demo.admitsHost .pf0 = true ∧ demo.boot.gradeReported = true ∧ (4032 : BitVec 22).toNat % 4096 + 64 ≤ 4096
    ∧ (windowed buf0).winAddr .pf0 1023 4032 64 .read = .ok 4032 ∧ (windowed buf0).winAddr .pf0 1023 4032 64 .write = .ok 4032
    ∧ 4032 < 0x8000000000 ∧ (windowed tableBuf).winAddr .pf0 1023 0 8 .atomic = .ok controlBase ∧ controlBase % 8 = 0
    ∧ controlBase ≤ controlBase ∧ ((windowed tableBuf).touchControl controlBase 8).regionPoisoned controlBase 8 = false := by
  decide +kernel

theorem test_met_pcie : demo.held = false ∧ demo.reach .pf0 = true ∧ demo.reach (.vf 0) = true
    ∧ ({ demo with boot := { phase := 4 }, time := 0 } : Chip).retriesConfig = true ∧ ({ demo with boot := { phase := 4 }, time := 0 } : Chip).reach .pf0 = true
    ∧ demo.retriesConfig = false ∧ demo.pci.up = true ∧ (64 : BitVec 7).toNat ≤ 64
    ∧ (demo.part (0 : BitVec 6).toNat).present = true ∧ (demo.part (0 : BitVec 6).toNat).resetting = false ∧ demo.boot.phase ≠ 1 := by
  decide +kernel

/-- An open session of partition 0 with a transfer and a download, on Ethernet port 0. -/
def sessA : KrpSession :=
  { id := 1, carrier := .net 0 0 0, half := false, stage2 := true
    transfers := [{ id := 4, kind := .input 0, bytes := 3, header := [], handle := h0 }]
    downloads := [{ requestId := 5, request := 9, handoff := false, index := 0, handle := h0, bytes := 8193 }] }
def waitA : Request :=
  { id := 9, part := 0, service := some 0, slot := 0, handles := [], source := .krp 1 6, owner := 0, receiptKind := 1, admittedAt := 0
    phase := .handoff, round := 2, timer := some 100001, dest := some 1 }
def krpPart : Partition :=
  { part0 with plans := [(0, plan0)], services := [(0, ⟨[0], 16, 1, {}⟩)], quotas := quota0
               receipts := [(8, { request := 3, sigKind := 1, ready := true, doneAt := 0, session := some 1 })]
               gates := [{ slot := 63, token := 0, value := 1, timeout := 10, armedAt := 100000 }] }
def krpOf (x : KrpSession) : Chip :=
  withBuf buf0 { ofPart krpPart with krp := { sessions := [x], ports := [(0, { link := true, configured := true })] }
                                     hbm := [(0, { ready := true })], requests := [waitA] }

theorem test_met_sessions : demo.presents = true ∧ (krpOf sessA).carrierUp frame.carrier = true ∧ demo.booted = true ∧ frame.reservedZero = true
    ∧ ({ frame with session := 0 } : KrpFrame).session = 0 ∧ pieceFits 0 7 8 (List.replicate 1176 0) = true
    ∧ pieceFits sessA.id 7 8 (List.replicate 1160 0) = true
    ∧ (((krpOf sessA).countFrame frame).gather frame.carrier 0 0 1 (List.replicate 1176 0)).2.isSome = true
    ∧ (((krpOf sessA).countFrame frame).gather frame.carrier 0 1 2 []).2 = none
    ∧ (krpOf { sessA with half := true }).takesFrame frame false true { sessA with half := true } ∧ sessA.stage3 = false
    ∧ (krpOf sessA).takesFrame frame false false sessA ∧ (krpOf sessA).presents = true
    ∧ (krpOf { sessA with half := true }).session? 1 = some { sessA with half := true }
    ∧ (krpOf sessA).session? 1 = some sessA ∧ sessioned.session? 1 = some sess0 ∧ sessioned.openOn 1 = [] := by
  decide +kernel

theorem test_met_rekey : (krpOf { sessA with framesIn := 2 ^ 36 }).session? 1 = some { sessA with framesIn := 2 ^ 36 } := rfl

theorem test_met_stage_one : (let body : List Byte := [1, 13, 3, 0, 0, 0, 0, 0] ++ List.replicate 1248 0
    body.length = 1256 ∧ leAt body 0 1 = 1 ∧ 1 ≤ leAt body 2 1 ∧ leAt body 2 1 ≤ 3 ∧ zeroAt body 3 5 = true ∧ 10 ≤ leAt body 1 1)
    ∧ (∀ h ∈ sealed.krp.holdoff, h.1 = .net 0 0 0 → h.2 ≤ sealed.aTick) ∧ (sealed.krp.sessions.filter fun x => !x.half).length < 8192
    ∧ (sealed.krp.sessions.filter fun x => x.half).length < 512 ∧ sealed.trust.katFailed = [] ∧ sealed.trust.identity = true ∧ sealed.trust.trng ≠ 0 ∧ sealed.trust.drbg.ready = true
    ∧ sealed.trust.high.length < 256 := by
  decide +kernel

theorem test_met_transfers : (krpOf sessA).takesFrame frame false false sessA
    ∧ sessA.repeats 2 7 (natLE 8 7 ++ natLE 8 1 ++ []) = none ∧ (krpOf sessA).serving = true ∧ ((krpOf sessA).part 0).resetting = false
    ∧ sessA.repeats 3 2 (natLE 8 2 ++ natLE 1 0 ++ ([] : List (Nat × List Byte)).flatMap fun i => natLE 8 i.1 ++ i.2) = none
    ∧ (∀ r ∈ sessA.refusals, r.1 = 2 → r.2.1 ≤ (krpOf sessA).aTick) ∧ (((krpOf sessA).frameIn frame false sessA).openOn 1).length < sessA.maxOpen
    ∧ (krpOf sessA).takesFrame frame true false sessA ∧ chunkKind 0 0 = some (.input 0)
    ∧ ((sessA.transfers.find? fun r => r.id == 4 && r.kind == .input 0).map fun r => (sessA.chunks r.bytes, sessA.chunkSize r.bytes 0, r.reported, r.got))
        = some (1, 3, 0, [])
    ∧ (krpOf sessA).bufOf h0 = some buf0 := by
  decide +kernel

/-- The buffer of an announced container, and the admission of a request. -/
theorem test_met_announcement : ∃ x, ((krpOf sessA).frameIn frame false sessA).allocBuf 0 0 255 (cdiv 1 576) false = .ok x :=
  ex_ok (by decide +kernel)
theorem test_met_submission : ∃ u, ((krpOf sessA).frameIn frame false sessA).admitRequest (krpAdmission sessA 2 0 []) = (u, .ok 0) :=
  ex_admit (by decide +kernel)

theorem test_met_rounds : ((krpOf sessA).frameIn frame false sessA).roundOf 1 6 = some waitA ∧ waitA.round = 2
    ∧ (∀ d, waitA.timer = some d → (krpOf sessA).aTick < d) ∧ (∀ r ∈ sessA.transfers, ¬(r.id = 6 ∧ r.kind = .handoff))
    ∧ (sessA.downloads.find? fun d => d.requestId == 5 && d.index == 0 && d.handoff == false).isSome = true
    ∧ ((((krpOf sessA).part 0).receipts.find? fun e => e.2.request == 3 && e.2.session == some 1 && e.2.ready).map fun e => e.1) = some 8
    ∧ (∀ q ∈ (krpOf sessA).requests, q.id ≠ 8) := by
  refine ⟨by decide +kernel, rfl, fun d h => ?_, ?_⟩
  · cases h; decide +kernel
  · decide +kernel

theorem test_met_krp_timers : (krpOf sessA).held = false ∧ (krpOf sessA).boot.mute = false ∧ (krpOf sessA).session? 1 = some sessA
    ∧ ((sessA.downloads.findSome? fun d => (d.nextSeq sessA).map fun k => (d, k)).map fun x => (x.2, x.1.handoff, ((x.1.sent x.2.2).nextSeq sessA).isSome))
        = some ((0, false), false, true)
    ∧ (if (krpOf sessA).time < sessA.sendAt then (krpOf sessA).advance (sessA.sendAt - (krpOf sessA).time) else krpOf sessA).session? 1 = some sessA
    ∧ ((sessA.transfers.find? fun r => r.id == 4 && r.kind == .input 0).map fun r => (decide (r.nacks < 8),
        (((krpOf sessA).waitTick (r.due ((krpOf sessA).gapTicks sessA.carrier))).session? 1).isSome)) = some (true, true)
    ∧ ((krpOf sessA).requests.find? fun q => q.id == 9 && q.phase == .handoff) = some waitA ∧ waitA.timer = some 100001
    ∧ (krpOf sessA).carrierUp (.net (0 : BitVec 1).toNat 0 0) = true ∧ (mget {} 0 (krpOf sessA).krp.ports).configured = true
    ∧ (mfind 8 ((krpOf sessA).part 0).receipts).isSome = true
    ∧ ((((krpOf sessA).part 0).gates.find? fun g => g.slot == (63 : BitVec 6).toNat && !g.expired).map fun g =>
        (((krpOf sessA).waitTick (g.armedAt + g.timeout)).part 0).gateOpen g) = some false := by
  decide +kernel

/-- A run of partition 0 with a unit for the fabric, its link 15, and a packet each way. -/
def plan1 : Plan := { plan0 with io := [⟨3, 0, 0, 0, 0, 0, 0, false, 1, []⟩], engine := [], ganged := 1 }
def run0 : Run := { id := 0, part := 0, slot := 0, plan := plan1, handles := [2 ^ 32 + h0], slvTo := [(1, 15)], streams := [(0, {})] }
def unit0 : SpoolUnit := { thread := 0, k := 0, run := 0, kind := .hbmWrite, addr := 0, presentedAt := 0, due := 0, stage := .going, fabric := true }
def thread0 : Thread :=
  { run := 0, desc := 0, bundle := 0, kind := .hbmWrite, d := {}, off := 0, task := 0, ringRow := 0, idxRow := 0, startAt := 0, lastAdv := 0 }
def cell0 : Cell := { mode := .ganged, threads := [(0, thread0)], units := [unit0] }
def packet0 : SlvPacket := { kind := .write, dest := 1, part := 0 }
def fabricView : Buf :=
  { view0 with grants := [{ fabric := true, package := 0, part := 0, first := 0, bolts := 8, read := false, add := true, write := true,
                            token := some 0, handle := h0 }] }
def slv (x : SlvLink) : Chip :=
  { demo with runs := [run0], cells := [(0, cell0)], bufs := [(0, fabricView)], links := [(15, x)] }
def packetHead : PacketHead :=
  { link := 15, dest := 0, src := 0, srcPart := 0, handle := 0x1000000, bolt := 7, seq := 1, wellFormed := true }
def linkUp0 : SlvLink := { state := 6, mode := 0, packets := [packet0, { packet0 with sent := true, numbered := true, seq := 4, run := some 0 }] }

theorem test_met_packets : (slv linkUp0).held = false
    ∧ earliest ((slv linkUp0).fabricUnits 0) = some (0, unit0) ∧ (slv linkUp0).waitRun 0 unit0.due = some (slv linkUp0)
    ∧ (slv linkUp0).run? 0 = some run0
    ∧ (((slv linkUp0).packetOf run0 0 unit0).map fun p => (p.2.dest, mfind p.2.dest run0.slvTo)) = some (1, some 15)
    ∧ (slv linkUp0).posted 0 15 < (slv linkUp0).egressShare 0 15 ∧ ((slv linkUp0).link 15).packets.length < 512
    ∧ ((slv linkUp0).link (15 : BitVec 4).toNat).packets.find? (SlvPacket.waitsOf (0 : BitVec 6).toNat) = some packet0
    ∧ ((slv linkUp0).link (15 : BitVec 4).toNat).up = true ∧ ((slv linkUp0).part 0).resetting = false
    ∧ (((slv linkUp0).link (15 : BitVec 4).toNat).packets.filter (·.sent)).length < 512
    ∧ (((slv linkUp0).link (15 : BitVec 4).toNat).packets.filter fun x => x.kind != .control).length < 512
    ∧ packet0.numbered = false ∧ { packet0 with numbered := true, seq := 4 }.numbered = true
    ∧ (((slv linkUp0).link (15 : BitVec 4).toNat).packets.find? fun p => p.numbered && p.seq == 4).isSome = true
    ∧ (((slv linkUp0).answered 15 { packet0 with sent := true, numbered := true, seq := 4, run := some 0 }).run? 0).isSome = true
    ∧ ((slv linkUp0).link (15 : BitVec 4).toNat).tagFails = false
    ∧ 2 ^ 32 ≤ ((slv { linkUp0 with seqTx := 2 ^ 32 }).link (15 : BitVec 4).toNat).seqTx := by
  decide +kernel

theorem test_met_received : packetHead.dest.toNat = (slv linkUp0).fabric.active ∧ packetHead.wellFormed = true
    ∧ (((slv linkUp0).fabricGrant packetHead.handle.toNat).map fun x => (x.2.package, x.2.part, x.1.bolts, x.2.write, x.2.add)) = some (0, 0, 8, true, true)
    ∧ packetHead.bolt.toNat < fabricView.bolts
    ∧ (slv linkUp0).regionRetired (fabricView.addr + 576 * packetHead.bolt.toNat) 576 = false
    ∧ ((slv linkUp0).part fabricView.part).resetting = false ∧ (slv linkUp0).slvTaken packetHead = false
    ∧ tabled.bufOf ((2 : W32) ^ 24).toNat = some tableBuf ∧ tableBuf.kind = 2 ∧ 32 * ((17 : W32).toNat + 1) ≤ 576 * tableBuf.bolts := by
  decide +kernel

def seamed (p : SeamPort) : Chip := { demo with seams := [(31, p)] }

theorem test_met_links : ((slv { state := 1 }).link 15).state = 1 ∧ ((slv { state := 2 }).link 15).state = 2
    ∧ (let m : Chip := { (slv { state := 5 }) with fabric := { list := [(1, 9)] }, trust := sealed.trust }
      (m.link 15).state = 5 ∧ m.trust.identity = true ∧ m.peerOk 15 ⟨1, 9, 0⟩ = true)
    ∧ slvLimit ((slv { state := 9 }).link 15).state ≠ 0 ∧ ((slv { state := 9 }).link 15).retried = false
    ∧ ((slv linkUp0).link 15).mode = 0 ∧ (8 : BitVec 4).toNat < 9 ∧ ((slv linkUp0).link 15).bad false = []
    ∧ (((slv linkUp0).link 15).bad true).length ≤ 1
    ∧ ((slv { state := 11, testDone := false }).link 15).testDone = false ∧ ((slv { state := 11, testDone := false }).link 15).state = 11 := by
  decide +kernel

theorem test_met_ports : portKey (7 : BitVec 3).toNat (3 : BitVec 2).toNat = 31 ∧ seamConnected 31 = true
    ∧ (∀ k ∈ [1, 2, 3, 5, 6, 7, 9, 10], ((seamed { state := k, mode := 0 }).seam 31).state = k ∧ ((seamed { state := k, mode := 0 }).seam 31).retried = false)
    ∧ ((seamed { state := 7, mode := 0 }).seam 31).mode = 0 ∧ (67 : BitVec 7).toNat < 68
    ∧ 67 ∉ ((seamed { state := 7, mode := 0 }).seam 31).tx.failed ∧ 67 ∉ ((seamed { state := 7, mode := 0 }).seam 31).retiredTx
    ∧ ((seamed { state := 7, mode := 0 }).setPort 31 (SeamPort.fail [67] [])).portSettle 31 = none
    ∧ (((seamed { state := 9, mode := 0 }).waitTick (((seamed { state := 9, mode := 0 }).seam 31).stateAt + 64)).releasePort 31).portSettle 31 = none
    ∧ (let v := ((seamed { state := 10, mode := 0 }).waitTick (((seamed { state := 10, mode := 0 }).seam 31).stateAt + 1000)).setPort 31
          (SeamPort.pickHalves ((seamed { state := 10, mode := 0 }).seam 31).entering)
      clocksGone (v.seam 31).tx (v.seam 31).retiredTx = false ∧ clocksGone (v.seam 31).rx (v.seam 31).retiredRx = false
        ∧ (v.seam 31).halvesOk = true) := by
  decide +kernel

def spdmOf (x : Spdm) : Chip := { sealed with trust := { sealed.trust with spdm := x } }
def spdm0 : Spdm := { version := 0x12, capable := true, algorithms := true, session := some 1, certs := [(7, [1])] }

theorem test_met_management : ({ demo with life := .manufacturing } : Chip).tapOpen = true ∧ demo.held = false ∧ demo.presents = true
    ∧ demo.booted = true ∧ (spdmOf spdm0).booted = true ∧ (spdmOf spdm0).presents = true ∧ (spdmOf spdm0).trust.spdm.version ≠ 0
    ∧ (spdmOf spdm0).trust.spdm.capable = true ∧ (spdmOf spdm0).trust.spdm.algorithms = true
    ∧ mfind (7 : BitVec 3).toNat (spdmOf spdm0).trust.spdm.certs = some [1] ∧ (17 : Byte).toNat ≤ 17 ∧ (7 : BitVec 3) ≠ 0
    ∧ (spdmOf spdm0).life = .provisioned ∧ (spdmOf spdm0).trust.identity = true ∧ (spdmOf spdm0).algorithm 4 = true
    ∧ (spdmOf spdm0).trust.high.length < 256 ∧ (spdmOf spdm0).trust.drbg.ready = true ∧ (spdmOf spdm0).trust.trng ≠ 0
    ∧ (spdmOf spdm0).trust.spdm.session.isSome = true ∧ (spdmOf spdm0).trust.spdm.finished = false
    ∧ (spdmOf { spdm0 with finished := true }).trust.spdm.finished = true ∧ (3 : BitVec 2) ≠ 0 := by
  decide +kernel

def resting : Chip := { demo with parts := [], swatches := (List.range 64).map fun i => (i, { inService := true, power := 3, idleSince := 0 }),
                                  plates := [(7, { online := true, off := false, offAllowed := true })] }

theorem test_met_resets : demo.held = false
    ∧ (let m : Chip := ofPart { part0 with resetting := true, resetSt := { step := 2, startedAt := 100000 } }
      (m.part (0 : BitVec 6).toNat).resetting = true ∧ (m.part (0 : BitVec 6).toNat).resetSt.step = 2 ∧ m.undrained (0 : BitVec 6).toNat = 0
        ∧ m.takenOver (0 : BitVec 6).toNat = false)
    ∧ (({ demo with plates := [(7, { reset := true })] } : Chip).plate (7 : BitVec 3).toNat).reset = true
    ∧ (let m : Chip := { demo with boot := { phase := 5, collarReset := true } }
      m.held = false ∧ m.boot.collarReset = true ∧ m.booted = true)
    ∧ demo.boot.collarReset = false ∧ demo.tlr.accesses = []
    ∧ (({ demo with tlr := { accesses := [⟨.pf0, 0, 90000, true⟩] } } : Chip).tlr.accesses.find? fun a => a.fn == .pf0) = some ⟨.pf0, 0, 90000, true⟩
    ∧ (let m : Chip := { demo with boot := { phase := 1 } }
      m.held = false ∧ m.boot.recovery = false ∧ m.boot.phase = 1)
    ∧ ({ demo with boot := { phase := 2 } } : Chip).boot.phase = 2
    ∧ (demo.plate (0 : BitVec 3).toNat).reset = false ∧ (demo.plate (0 : BitVec 3).toNat).off = false
    ∧ (({ demo with plates := [(7, { dbgWait := true })] } : Chip).plate (7 : BitVec 3).toNat).dbgWait = true
    ∧ (({ demo with linings := [(7, { zeroing := true })] } : Chip).lining (7 : BitVec 3).toNat).zeroing = true ∧ (demo.plate 7).reset = false
    ∧ (({ demo with hbm := [(7, { zeroing := true })] } : Chip).stack (7 : BitVec 3).toNat).zeroing = true := by
  decide +kernel

theorem test_met_power : (demo.swatch (0 : BitVec 6).toNat).power = 0 ∧ demo.mayEnter (0 : BitVec 6).toNat 1 = true
    ∧ (({ demo with swatches := [(0, { owner := some 0, inService := true, power := 1 })] } : Chip).mayEnter (0 : BitVec 6).toNat 2 = true)
    ∧ (let m : Chip := { demo with parts := [(0, { part0 with floor := 3 })], swatches := [(0, { owner := some 0, inService := true, power := 2 })] }
      (m.swatch (0 : BitVec 6).toNat).owner.isSome = true ∧ m.mayEnter (0 : BitVec 6).toNat 3 = true)
    ∧ resting.held = false ∧ (resting.plate (7 : BitVec 3).toNat).offAllowed = true ∧ (resting.plate (7 : BitVec 3).toNat).off = false
    ∧ (resting.plate (7 : BitVec 3).toNat).reset = false
    ∧ (∀ sw ∈ plateSwatches (7 : BitVec 3).toNat, (resting.swatch sw).power = 3 ∧ (resting.swatch sw).waking = false)
    ∧ (∀ e ∈ resting.parts, e.2.plans = []) ∧ (∀ q, q < 8 → q ≠ (7 : BitVec 3).toNat → ((resting.controlRoute q).any fun path => path.contains (7 : BitVec 3).toNat) = false)
    ∧ (({ demo with swatches := [(63, { waking := true })] } : Chip).swatch (63 : BitVec 6).toNat).waking = true
    ∧ (({ demo with swatches := [(63, { waking := true })] } : Chip).swatch 63).forced ≠ 2 := by
  decide +kernel

theorem test_met_thermal : 8 ≤ (8 : BitVec 5).toNat ∧ (19 : BitVec 5).toNat ≤ 19 ∧ demo.held = false
    ∧ (demo.plate (7 : BitVec 3).toNat).railLow = false ∧ (demo.plate (7 : BitVec 3).toNat).tripped = false
    ∧ (mget {} (7 : BitVec 3).toNat demo.heat).tripped = false
    ∧ (({ demo with hbm := [(7, { ready := true })] } : Chip).stack (7 : BitVec 3).toNat).ready = true
    ∧ (mget {} (7 : BitVec 3).toNat ({ demo with heat := [(7, { tripped := true })] } : Chip).heat).tripped = true
    ∧ (({ demo with power := { withdrawals := [⟨63, 100000⟩] } } : Chip).power.withdrawals.find? fun w => w.part == (63 : BitVec 6).toNat).isSome = true
    ∧ sealed.trust.trng ≠ 0 ∧ (({ sealed with panels := [(511, { drbg := { ready := true } })] } : Chip).panel (511 : BitVec 9).toNat).drbg.ready = true := by
  decide +kernel

/-- The plan of slot 0 at work, and a request for it. -/
def run1 : Run := { id := 0, part := 0, slot := 0, plan := plan0, marks := [0, 1] }
def going (r : Run) : Chip := { planned with runs := [r] }
def request0 : Request := { id := 0, part := 0, service := none, slot := 0, handles := [], source := .call .pf0 0, owner := 0, receiptKind := 0, admittedAt := 0 }

theorem test_met_stitch : (going run1).held = false ∧ (going run1).run? 0 = some run1 ∧ run1.state = .issuing
    ∧ ((run1.plan.stitches[run1.nextStitch]?).map fun x => x.kind) = some 1
    ∧ (((going run1).waitFree 0 (run1.at 50)).map fun v => (v.run? 0).map fun y =>
        (y.broken, (v.missedMark y).commitFault y y.nextStitch, ((v.missedMark y).chooseLinks y).2, y.dueStop none)) = some (some (false, none, none, none))
    ∧ ((({ run1 with nextStitch := 2, cycle := 50 } : Run).plan.stitches[2]?).map fun x => x.kind) = some 2
    ∧ (((going { run1 with nextStitch := 2, cycle := 50 }).waitFree 0 (run1.at 100)).map fun v => (v.run? 0).map fun y =>
        (y.broken || v.breaksAt y.part y.nextStitch, y.dueStop ((v.missedMark y).commitFault y y.nextStitch))) = some (some (false, none)) := by
  decide +kernel

theorem test_met_start : (let m : Chip := { planned with requests := [request0] }
    let x := m.prepareStart request0 plan0
    (m.requests.find? fun q => q.part == (0 : BitVec 6).toNat && m.startable q) = some request0 ∧ m.planOf request0 = some plan0
      ∧ m.startFails request0 plan0 = none ∧ (((x.1.commitShadow 0 x.2.swatches).commitOwner 0 request0.handles).recheck request0 x.2).2 = none) := by
  decide +kernel

theorem test_met_splice : (let m : Chip := { going { run1 with nextStitch := 2, cycle := 50 } with requests := [request0] }
    let x := m.prepareStart request0 plan0
    m.run? 0 = some { run1 with nextStitch := 2, cycle := 50 }
      ∧ (({ run1 with nextStitch := 2, cycle := 50 } : Run).spliceOut.map fun out => m.spliceOk { run1 with nextStitch := 2, cycle := 50 } out request0 plan0) = some true
      ∧ (m.requests.find? fun q => q.part == 0 && q.phase == .queued) = some request0 ∧ m.planOf request0 = some plan0
      ∧ (∀ x ∈ m.runs, x.spliced ≠ some 0) ∧ m.readyButSwatches request0 plan0 = true ∧ m.startFails request0 plan0 = none
      ∧ (((x.1.commitShadow 0 x.2.swatches).commitOwner 0 request0.handles).recheck request0 x.2).2 = none) := by
  decide +kernel

/-- The demo package with the key of `keyed` registered and a plan of slot 0 that names it. -/
def planKey : Plan := { plan0 with keys := [⟨7, 0, 0, 0, 0⟩] }
def job0 : SealJob := { id := 5, use := .kat call [], high := false, length := 38400, since := 1056000000 }

theorem test_met_residency : (let m : Chip := withBuf keyBuf { demo with
        mem := keyMem, parts := [(0, { part0 with keys := [(7, { handle := h0 })], plans := [(0, planKey)] })], requests := [{ request0 with slot := 0 }] }
      (m.nextLoad (0 : BitVec 6).toNat) = some (planKey, ⟨7, 0, 0, 0, 0⟩, h0)
        ∧ m.rangeHeld 0 (planKey.plate 0) 0 (0 + m.keyLines 0 h0) h0 = false)
    ∧ (let m : Chip := withBuf buf0 (ofPart { part0 with keyRanges := [⟨7, 0, 0, 4, h0, false, none⟩] })
      ((m.part (0 : BitVec 6).toNat).keyRanges.find? fun r => !r.loaded) = some ⟨7, 0, 0, 4, h0, false, none⟩ ∧ m.bufOf h0 = some buf0)
    ∧ (let m : Chip := withBuf buf0 (ofPart { part0 with keyRanges := [⟨7, 0, 0, 4, h0, true, some [5]⟩] })
      m.runsOf 0 = [] ∧ (m.part 0).keyRanges = [⟨7, 0, 0, 4, h0, true, some [5]⟩])
    ∧ (let m : Chip := { demo with trust := { running := some job0, high := [{ job0 with id := 6, high := true }] } }
      m.held = false ∧ m.yieldMark = some (job0, 0) ∧ m.trust.high = { job0 with id := 6, high := true } :: [])
    ∧ (let m : Chip := { demo with trust := { running := some job0 } }
      m.held = false ∧ m.trust.running = some job0 ∧ m.yieldMark = none) := by
  decide +kernel

theorem test_met_queries : (let c : Call := { fn := .vf 0 }
      let m : Chip := { demo with parts := [(0, part0), (1, part0)] }
      m.accepts c = true ∧ c.fn = .vf 0 ∧ 0 ≠ 1 ∧ c.argLen ≤ 112 ∧ c.reservedZero = true)
    ∧ (going run1).passes call { part := some 0 } [] ∧ (∃ r ∈ (going run1).runsOf 0, r.broken = false)
    ∧ (∀ r ∈ (going { run1 with broken := true }).runsOf 0, r.broken = true)
    ∧ ((going run1).swatch (swatchOf 512)).owner ≠ some 0 ∧ ((going run1).swatch (swatchOf 511)).owner = some 0 := by
  decide +kernel

/-- A swatch whose table has a sound modulus with twiddles, a run on it, and cells with Pad room. -/
def tabT : ModTable :=
  { tab with entries := [(0, entryWord 147457 (2 ^ 36 / 147457) 147439 36184 0 13 1 true)]
             chains := [(0, { qcount := 1, index := [0] })] }
def desc0 : ThreadDesc := { kind := 1, nseg := 2, segRows := 16, count := 1 }
def planB : Plan :=
  { plan0 with weave := [⟨0, 1, 0, 0, 1, 0, 0⟩, ⟨0, 1, 0, 0, 1, 2, 0⟩], threads := [desc0], io := [⟨0, 0, 0, 0, 0, 0, 0, false, 8, []⟩]
               seam := [⟨0, 0, 0, 0⟩], resvs := [⟨1, 0, 4, false⟩, ⟨4, 0, 4, false⟩] }
def runL : Run := { run1 with plan := planB, loose := [0], handles := [h0] }
def cellB : Cell :=
  { mode := .loose
    scr := { regs := [(1, ⟨1 + 2 ^ 12, false⟩), (4, ⟨8192 + 3 * 2 ^ 29, false⟩), (5, ⟨32768, false⟩)], tasks := [{ padBound := 4096 }, {}, {}, {}] } }
def swatchB : Swatch := { owner := some 0, inService := true, power := 0, table := tabT }
def bench (c : Cell) : Chip := { demo with swatches := [(0, swatchB)], runs := [runL], cells := [(0, c)], bufs := [(0, buf0)] }
def iL : Issuer := { run := 0, sw := 0, cell := some 0 }
def kL : Slot := ⟨runL, [0], 0, bundleAddr iL {}, {}, iL⟩
theorem slotOf_ready {s : Chip} {i : Issuer} {r : Run} {st : Stream} {x l : Nat} (hr : s.run? i.run = some r)
    (hs : s.streamFor r i = some st) (hx : st.next = some x) (hw : s.waitRun i.run x = some s) (hl : s.limitOf r = some l)
    (hc : r.cycle < l) :
    s.slotOf i = (s, some ⟨r, s.issuers i, r.cycle, bundleAddr i st, st, i⟩) := by
  simp [Chip.slotOf, hr, hs, hx, hw, hl, Nat.not_le.mpr hc]

theorem slot_loose : (bench cellB).slotOf iL = (bench cellB, some kL) := rfl

def cellR : Cell := { cellB with scr := { cellB.scr with wdepth := 2, cdepth := 1, rets := [7] } }

theorem test_met_scriber : (bench cellB).held = false ∧ (bench cellB).slotOf iL = (bench cellB, some kL)
    ∧ (63 : W36).toNat < 64 ∧ ((kL.table (bench cellB)).use (0 : BitVec 10).toNat false false = none)
    ∧ kL.tagged (bench cellB) [0, 1] = none ∧ ((bench cellB).cell kL.lead).scr.wdepth ≠ 7
    ∧ (∀ cn ∈ kL.cells, ((bench cellB).cell cn).scr.wdepth ≠ 7) ∧ kL.cells.Nodup
    ∧ (((bench cellB).cell kL.lead).reg kL.now 0).val = 0 ∧ (((bench cellB).cell kL.lead).reg kL.now 1).val ≠ 0
    ∧ (∀ cn ∈ kL.cells, ((bench cellB).cell cn).scr.loops.length < 4)
    ∧ (∀ cn ∈ kL.cells, (((bench cellB).cell cn).narrow kL.now 0 32767).isSome = true) ∧ srReadable 0x25 = true
    ∧ srTask (0x3D : BitVec 8).toNat = some (3, 5) ∧ (0x3D : BitVec 8) ≠ 0x08 := by
  refine ⟨by decide +kernel, slot_loose, ?_⟩
  decide +kernel

theorem test_met_ret : (bench cellR).slotOf iL = (bench cellR, some kL) ∧ ((bench cellR).cell kL.lead).scr.wdepth ≠ 1
    ∧ ∀ cn ∈ kL.cells, ((bench cellR).cell cn).scr.wdepth ≠ 1 ∧ ((bench cellR).cell cn).scr.cdepth ≠ 0 := by
  refine ⟨rfl, ?_⟩
  decide +kernel

theorem test_met_writeback : (let c : Cell := { cellB with scr := { cellB.scr with lands := [⟨1, ⟨5, false⟩, 2, 0, none⟩] } }
    (bench c).run? iL.run = some runL ∧ iL.sw.toNat ∈ runL.plan.swatches
      ∧ (iL.cells.filterMap fun cn => (((bench c).cell cn).scr.lands.head?).map (·.due)).min? = some 2
      ∧ ((bench c).waitRun iL.run 3).isSome = true) := by
  decide +kernel

theorem test_met_result : cellB.scr.lands = [] ∧ cellB.scr.getKey 0 = ⟨0, false⟩ ∧ 1 ≤ 5 ∧ 31 < 32 := by decide +kernel

/-- The same swatch with every cell in the ganged stream. -/
def cellG : Cell := { cellB with mode := .ganged }
def runG : Run := { runL with loose := [], streams := [(0, {})] }
theorem mfind_map_mem {α : Type} (v : α) (l : List Nat) {n : Nat} (h : n ∈ l) : mfind n (l.map fun c => (c, v)) = some v := by
  induction l with
  | nil => cases h
  | cons a l ih =>
    rw [List.map_cons, mfind]
    split
    · rfl
    · rcases List.mem_cons.mp h with rfl | h'
      · contradiction
      · exact ih h'

@[irreducible] def gangCells : SMap Cell := (List.range 512).map fun c => (c, cellG)

theorem gangCells_find {cn : Nat} (h : cn < 512) : mfind cn gangCells = some cellG := by
  unfold gangCells
  exact mfind_map_mem _ _ (List.mem_range.mpr h)

def gang : Chip :=
  { demo with swatches := [(0, { swatchB with yoke := [(4095, [{ enabled := true, words := 1 }])] })], runs := [runG]
              cells := gangCells
              panels := (List.range 8).map fun q => (q, { drbg := { ready := true }, active := { seeds := [(31, 5)] } }) }
def iG : Issuer := { run := 0, sw := 0 }
@[irreducible] def gangOnes : List Nat := gang.issuers iG
def kG : Slot := ⟨runG, gangOnes, 0, 0, {}, iG⟩
theorem slot_ganged : gang.slotOf iG = (gang, some kG) := by
  rw [slotOf_ready (i := iG) (r := runG) (st := {}) (x := 0) (l := 50) rfl rfl rfl rfl rfl (by decide), kG]
  unfold gangOnes
  rfl

theorem gang_cell {cn : Nat} (h : cn < 512) : gang.cell cn = cellG := by
  rw [Chip.cell, mget, show gang.cells = gangCells from rfl, gangCells_find h]
  rfl

theorem issuers_ganged {s : Chip} {i : Issuer} (hi : i.cell = none) :
    s.issuers i = (swatchCells i.sw.toNat).filter fun cn => !(s.cell cn).scr.halted := by
  unfold Chip.issuers
  rw [hi]

theorem gangOnes_eq : gangOnes = (swatchCells iG.sw.toNat).filter fun cn => !(gang.cell cn).scr.halted := by
  unfold gangOnes
  rw [issuers_ganged (i := iG) rfl]

theorem mem_swatchCells {sw cn : Nat} (h : cn ∈ swatchCells sw) : cn < sw * 512 + 512 := by
  unfold swatchCells at h
  rw [List.mem_map] at h
  obtain ⟨c, -, rfl⟩ := h
  unfold cellNo
  omega

theorem gang_cells {cn : Nat} (h : cn ∈ kG.cells) : cn < 512 := by
  rw [show kG.cells = gangOnes from rfl, gangOnes_eq, List.mem_filter] at h
  exact mem_swatchCells h.1

theorem nodup_swatchCells (sw : Nat) : (swatchCells sw).Nodup := by
  unfold swatchCells
  rw [List.nodup_map_iff_inj_on List.nodup_range]
  intro a ha b hb h
  rw [List.mem_range] at ha hb
  unfold cellNo at h
  omega

theorem gang_nodup : kG.cells.Nodup := by
  rw [show kG.cells = gangOnes from rfl, gangOnes_eq]
  exact List.Nodup.filter _ (nodup_swatchCells _)

theorem test_met_sync : kL.r.plan.stitches[(0 : BitVec 12).toNat]? = some ⟨0, false, false, false, 0, 0, 0, 0⟩ ∧ kL.now = 0
    ∧ iG.cell = none ∧ iL.cell.isSome = true ∧ (1 : BitVec 2).toNat < 2
    ∧ ((mget [] (4095 : BitVec 12).toNat (gang.swatch iG.sw.toNat).yoke).zipIdx.filter fun l => l.1.enabled && l.1.words != 0)
        = [({ enabled := true, words := 1 }, 0)]
    ∧ kG.r.weaveEntry (0 : BitVec 12).toNat = some ⟨0, 1, 0, 0, 1, 0, 0⟩ ∧ swatchOf (kG.r.plan.cellOf 0) = iG.sw.toNat
    ∧ gang.run? kG.r.id = some runG ∧ kL.cells ≠ [] ∧ kL.r.plan.stitches[(5 : BitVec 12).toNat]? = none ∧ 2 ≤ (2 : BitVec 2).toNat
    ∧ (∀ c, iL.cell = some c → c.toNat = kL.r.plan.cellOf 0 % 512) ∧ kG.r.weaveEntry (2 : BitVec 12).toNat = none := by
  decide +kernel

theorem test_met_engines : mmaOk 1 = true ∧ kL.tagged (bench cellB) [0, 0] = none
    ∧ (∀ cn ∈ kL.cells, kL.g (bench cellB) cn 0 % 4 = 0
      ∧ (((bench cellB).cell cn).scr.task.row (kL.g (bench cellB) cn 0) (mmaRowsA 1)).isSome = true
      ∧ (((bench cellB).cell cn).scr.task.row (kL.g (bench cellB) cn 0) (mmaRowsB true 1)).isSome = true
      ∧ (((bench cellB).cell cn).scr.task.row (kL.g (bench cellB) cn 0) 12).isSome = true)
    ∧ drainOk false 0 = true
    ∧ ((List.replicate 12 0).map fun e => (kL.table (bench cellB)).use e true false)
        = (List.replicate 12 (Modulus.ofEntry (mget 0 0 tabT.entries))).map some
    ∧ (let f : StipFields := { m18 := true, count := 255 }
      stipOk .madd f = true ∧ f.count ≠ 0 ∧ f.tap = false
        ∧ (∀ cn ∈ kL.cells, stipBeyond (((bench cellB).cell cn).scr.task.padBound - ((bench cellB).cell cn).scr.task.padBase) f.count.toNat
            (stipBases kL (bench cellB) .madd f cn) = [])
        ∧ ((kL.table (bench cellB)).use f.entry.toNat f.m18 false).isSome = true ∧ kL.tagged (bench cellB) (stipRegs .madd f) = none) := by
  decide +kernel

theorem test_met_transforms : burinOk 1 0 = true ∧ kL.tagged (bench cellB) [0, 0, 4] = none
    ∧ (let v := kL.g (bench cellB) kL.lead 4
      bits v 0 10 = 0 ∧ bits v 10 12 = 8 ∧ bits v 22 6 = 0 ∧ bits v 29 4 = 3 ∧ bit v 28 = false)
    ∧ (Modulus.ofEntry (mget 0 0 (kL.table (bench cellB)).entries)).m18 = true
    ∧ ((List.range ((8 - 1) / 2 ^ 3 + 1)).map fun l => (kL.table (bench cellB)).use ((0 + l) % 1024) true true)
        = [Modulus.ofEntry (mget 0 0 tabT.entries)].map some
    ∧ 0 + 1 ≤ (Modulus.ofEntry (mget 0 0 tabT.entries)).logn ∧ (∀ cn ∈ kL.cells, kL.g (bench cellB) cn 0 = 0)
    ∧ 8 * 2 ^ 1 % 16 = 0 ∧ ∀ cn ∈ kL.cells, (((bench cellB).cell cn).scr.task.row (kL.g (bench cellB) cn 0) (8 * 2 ^ 1 / 16)).isSome = true := by
  decide +kernel

theorem kG_tagged : kG.tagged gang [0, 0, 1] = none := by
  unfold Slot.tagged
  rw [List.find?_eq_none]
  intro cn h
  rw [gang_cell (gang_cells h)]
  decide +kernel

theorem kG_g {cn : Nat} (h : cn < 512) (r : Nat) : kG.g gang cn r = (cellG.global 0 r).val.toNat := by
  rw [Slot.g, gang_cell h]
  rfl

theorem test_met_hatch : iG.cell = none ∧ HatchForm.brev.ok = true ∧ kG.tagged gang [0, 0, 1] = none
    ∧ (∀ q, q < 8 → HatchForm.brev.shapeOk (bits (kG.g gang ((iG.sw.toNat * 8 + q) * 64) 1) 0 12)
          (bits (kG.g gang ((iG.sw.toNat * 8 + q) * 64) 1) 12 18) (gang.panel (iG.sw.toNat * 8 + q)).active = true
        ∧ bits (kG.g gang ((iG.sw.toNat * 8 + q) * 64) 1) 0 12 ≠ 0)
    ∧ (∀ cn ∈ kG.cells, ((gang.cell cn).scr.task.row (kG.g gang cn 0) (bits (kG.g gang (panelOf cn * 64) 1) 0 12)).isSome = true) := by
  refine ⟨rfl, rfl, kG_tagged, fun q hq => ?_, fun cn hc => ?_⟩
  · have h0 : iG.sw.toNat = 0 := rfl
    have : (iG.sw.toNat * 8 + q) * 64 < 512 := by omega
    rw [kG_g this]
    exact ⟨rfl, by decide +kernel⟩
  · have hc := gang_cells hc
    have : panelOf cn * 64 < 512 := by unfold panelOf; omega
    rw [kG_g this, kG_g hc, gang_cell hc]
    decide +kernel

theorem test_met_weft : (WeftForm.expand 31).ok = true ∧ (WeftForm.sample 0).ok = true ∧ (∀ q, q < 8 →
      (gang.panel (iG.sw.toNat * 8 + q)).drbg.ready = true
      ∧ (mfind (31 : BitVec 5).toNat (gang.panel (iG.sw.toNat * 8 + q)).active.seeds).isSome = true
      ∧ ((gang.cell ((iG.sw.toNat * 8 + q) * 64)).global kG.now 0).poison = false
      ∧ ((gang.cell ((iG.sw.toNat * 8 + q) * 64)).global kG.now 5).poison = false
      ∧ (weftPlan gang kG (iG.sw.toNat * 8 + q) 0 5).count = 1 ∧ (weftPlan gang kG (iG.sw.toNat * 8 + q) 0 5).chainOk = true
      ∧ (weftPlan gang kG (iG.sw.toNat * 8 + q) 0 5).shapeOk = true
      ∧ (weftPlan gang kG (iG.sw.toNat * 8 + q) 0 5).gd + 1 * (weftPlan gang kG (iG.sw.toNat * 8 + q) 0 5).rowsPerLimb ≤ 4096)
    ∧ ∀ cn, cn < 512 → (gang.cell cn).scr.task.padBound = 4096 ∧ (gang.cell cn).scr.task.padBase = 0 := by
  refine ⟨rfl, by decide, by decide +kernel, fun cn h => ?_⟩
  rw [gang_cell h]
  exact ⟨rfl, rfl⟩

/-- The same swatch with every cell halted: its stream goes on, and no cell takes part. -/
def cellH : Cell := { cellG with scr := { cellG.scr with halted := true } }
@[irreducible] def haltCells : SMap Cell := (List.range 512).map fun c => (c, cellH)
def gangH : Chip := { gang with cells := haltCells }

theorem haltCells_find {cn : Nat} (h : cn < 512) : mfind cn haltCells = some cellH := by
  unfold haltCells
  exact mfind_map_mem _ _ (List.mem_range.mpr h)

theorem halted_cell {cn : Nat} (h : cn < 512) : gangH.cell cn = cellH := by
  rw [Chip.cell, mget, show gangH.cells = haltCells from rfl, haltCells_find h]
  rfl

theorem test_met_no_issuer : gangH.slotOf iG = (gangH, some ⟨runG, [], 0, 0, {}, iG⟩) := by
  have hn : gangH.issuers iG = [] := by
    rw [issuers_ganged (i := iG) rfl, List.filter_eq_nil_iff]
    intro cn h
    rw [halted_cell (mem_swatchCells h)]
    decide
  rw [slotOf_ready (i := iG) (r := runG) (st := {}) (x := 0) (l := 50) rfl rfl rfl rfl rfl (by decide), hn]
  rfl

def press0 : PressOp := { run := 0, seq := 0, bundle := 0, start := 0, occ := 1, kind := .mma, m18 := true, count := 1 }
def stip0 : StipOp :=
  { run := 0, seq := 0, bundle := 0, start := 0, kind := .move, m18 := true, rowD := 0, rowA := 0, rowB := 0, rowC := 0, mask := 0, count := 1 }
def burin0 : BurinOp :=
  { run := 0, seq := 0, bundle := 0, start := 0, occ := 8, inverse := false, final := false, rowD := 0, rows := 1, count := 8, m := 1, s := 0
    k0 := 0, kstep := 0, bplLog := 3, mods := [Modulus.ofEntry (mget 0 0 tabT.entries)], m18 := true }
def cellE : Cell := { cellB with press := { queue := [press0] }, stip := { queue := [stip0] }, burin := { queue := [burin0] } }

/-- The events of cell 0's queues, each with nothing in its way. -/
theorem test_met_press : (bench cellE).held = false ∧ (bench cellE).run? iL.run = some runL
    ∧ (let v := (bench cellE).pressQuick iL.cells runL.cycle
      v.pressHead iL .mma = some press0
        ∧ ((v.waitRun iL.run press0.dueAt).map fun t => let w := t.pressQuick iL.cells press0.dueAt
          (t.run? iL.run, w.pressLocked iL press0.dueAt, (w.mmaStepAll iL runL press0.dueAt).2)) = some (some runL, none, []))
    ∧ (let m : Chip := bench { cellE with press := { queue := [{ press0 with kind := .drain }] } }
      let v := (mmaStepsLeft iL 4096 m).pressQuick iL.cells runL.cycle
      (mmaStepsLeft iL 4096 m).run? iL.run = some runL ∧ v.pressHead iL .drain = some { press0 with kind := .drain }
        ∧ ((v.waitRun iL.run 0).map fun w => (w.pressLocked iL 0, (w.waitRun iL.run { press0 with kind := .drain }.dueAt).isSome))
          = some (none, true)) := by
  decide +kernel

theorem test_met_stipple : (bench cellE).stipHead iL = some stip0 ∧ (bench cellE).waitRun iL.run stip0.dueAt = some (bench cellE)
    ∧ (((bench cellE).updCells iL.cells fun _ c => { c with stip := c.stip.quick stip0.dueAt }).stipReadAll iL runL stip0.dueAt).2.2.1 = []
    ∧ ((bench cellE).starts iL 0 .stipple).filter (fun x => decide (runL.cycle ≤ x)) = [0]
    ∧ (let m : Chip := bench { cellB with press := { queue := [press0] } }
      (m.starts iL 0 .press).filter (fun x => decide (runL.cycle ≤ x)) = [0]
        ∧ ((m.waitRun iL.run 0).map fun t => (t.pressQuick iL.cells 0).pressLocked iL 0) = some none) := by
  decide +kernel

theorem test_met_burin : (bench cellE).burinHead iL = some burin0 ∧ (bench cellE).waitRun iL.run burin0.dueAt = some (bench cellE)
    ∧ (((bench cellE).burinQuick iL.cells burin0.dueAt).burinRowAll iL runL burin0.dueAt).2 = [] := by decide +kernel

def hatch0 : HatchOp :=
  { run := 0, seq := 0, bundle := 0, start := 0, kind := .brev, rows := 2, src := List.replicate 64 0, dst := List.replicate 64 0, latency := 0 }
def weft0 : WeftOp :=
  { run := 0, seq := 0, bundle := 0, start := 0, kind := .ternary, p0 := 0, layout := 0, count := 1, rowsPerLimb := 1
    mods := [Modulus.ofEntry (mget 0 0 tabT.entries)], dst := List.replicate 64 0 }

theorem test_met_panel : (let m : Chip := { bench cellB with panels := [(7, { hatch := [hatch0], weft := [weft0] })] }
    let p := iL.sw.toNat * 8 + (7 : BitVec 3).toNat
    (m.panel p).hatchNext iL.run = some (0, hatch0) ∧ m.waitRun iL.run (hatch0.start + hatch0.done) = some m
      ∧ (m.hatchReads runL p (hatch0.start + hatch0.done) hatch0).2.2 = none
      ∧ ((m.panel p).weft.dropWhile fun o => decide (o.total ≤ o.done)) = [weft0]
      ∧ m.waitRun iL.run (weft0.start + 2 * weft0.done) = some m) := by
  decide +kernel

/-- A run at plan cycle 30, to which the events below are due or past. -/
def runC : Run := { runL with cycle := 30 }
def unitL (kind : ThreadKind) (stage : UnitStage) (addr : Nat) : SpoolUnit :=
  { thread := 0, k := 0, run := 0, kind := kind, addr := addr, presentedAt := 0, due := 25, stage := stage }
def threadL : Thread :=
  { run := 0, desc := 0, bundle := 0, kind := .hbmRead, d := desc0, off := 0, task := 0, ringRow := 0, idxRow := 0, startAt := 0, lastAdv := 0 }
def spun (us : List SpoolUnit) : Chip :=
  { bench { cellB with threads := [(0, threadL)], units := us } with runs := [runC] }

theorem test_met_tstart : kL.r.plan.threads[(0 : BitVec 8).toNat]? = some desc0 ∧ threadKind desc0.kind = some .hbmRead
    ∧ desc0.shapeOk .hbmRead = true ∧ ThreadKind.hbmRead ≠ .tackRead ∧ desc0.count ≠ 0
    ∧ kL.r.ioEntry desc0.binding = some (⟨0, 0, 0, 0, 0, 0, 0, false, 8, []⟩, h0)
    ∧ (∀ b, (bench cellB).bufOf h0 = some b → isControl b.kind = false)
    ∧ (∀ cn ∈ kL.cells, (((bench cellB).cell cn).scr.task.row desc0.ringBase desc0.ring).isSome = true
      ∧ (∃ x, (bench cellB).unitCheck kL.r cn .hbmRead desc0 ((bench cellB).cell cn).scr.atask (unitNo desc0 0 cn 0) = .ok x)
      ∧ ∀ x, mfind 0 ((bench cellB).cell cn).threads = some x → x.idle kL.now = true)
    ∧ kL.tagged (bench cellB) [] = none := by
  refine ⟨rfl, rfl, by decide, by decide, by decide, rfl, fun b hb => ?_, fun cn hc => ?_, rfl⟩
  · have h : (bench cellB).bufOf h0 = some buf0 := by decide +kernel
    rw [h] at hb
    cases hb
    rfl
  · rw [show kL.cells = [0] from rfl, List.mem_singleton] at hc
    subst hc
    exact ⟨by decide +kernel, ex_ok (by decide +kernel), fun x hx => by cases hx⟩

/-- The other kinds: a tack thread with its index rows, a Lining thread, which names no IO entry, and a thread of no units. -/
def tackD : ThreadDesc := { desc0 with kind := 7, idxRow := 8 }
def liningD : ThreadDesc := { desc0 with kind := 4 }
def lined (c : Cell) : Cell := { c with scr := { c.scr with tasks := [{ padBound := 4096, lngBound := 64 }, {}, {}, {}] } }

theorem test_met_tstart_kinds : threadKind tackD.kind = some .tackRead ∧ tackD.shapeOk .tackRead = true ∧ tackD.count ≠ 0
    ∧ (kL.r.ioEntry tackD.binding).isSome = true
    ∧ ((((bench cellB).cell 0).scr.task.row tackD.ringBase tackD.ring).isSome
      && (((bench cellB).cell 0).scr.task.row tackD.idxRow (cdiv tackD.count 8)).isSome) = true
    ∧ threadKind liningD.kind = some .liningRead ∧ liningD.shapeOk .liningRead = true ∧ ThreadKind.liningRead.bound = false
    ∧ ((bench (lined cellB)).unitCheck kL.r 0 .liningRead liningD 0 (unitNo liningD 0 0 0)).toOption.isSome = true
    ∧ { liningD with count := 0 }.shapeOk .liningRead = true := by
  decide +kernel

theorem test_met_advance : (let m : Chip := bench { cellB with threads := [(0, threadL)] }
    m.slotOf iL = (m, some kL) ∧ kL.cells.Nodup ∧ mfind (0 : BitVec 4).toNat (m.cell 0).threads = some threadL
      ∧ threadL.idle kL.now = false) := by
  refine ⟨rfl, by decide, rfl, rfl⟩

theorem test_met_spool : (spun []).run? iL.run = some runC ∧ (spun []).presentNext runC iL (.boltRead 0) = some 30
    ∧ (spun []).waitRun iL.run 30 = some (spun []) ∧ ((spun []).presentAll runC iL 30 (.boltRead 0)).2 = none
    ∧ (∀ cn ∈ iL.cells, (((spun []).presentAll runC iL 30 (.boltRead 0)).1.cell cn).outstanding ≤ 32)
    ∧ (let m := spun [unitL .hbmRead .returning 0]
      (iL.cells.filterMap fun cn => (m.nextBack iL (0 : BitVec 4).toNat cn).map (·.due)).min? = some 25
        ∧ m.nextBack iL 0 0 = some (unitL .hbmRead .returning 0) ∧ m.waitRun iL.run 25 = some m ∧ m.run? iL.run = some runC
        ∧ mfind 0 (m.cell 0).threads = some threadL)
    ∧ (let m : Chip := { demo with runs := [{ runC with state := .draining }] }
      m.run? 0 = some { runC with state := .draining } ∧ m.drains { runC with state := .draining } = false) := by
  decide +kernel

theorem test_met_memory : (spun [unitL .liningRead .going 0]).held = false
    ∧ (let m := spun [unitL .liningRead .going (liningBase 0)]
      m.beatUnits iL 0 (fun u => u.kind.isRead && u.stage == .going) = [(0, unitL .liningRead .going (liningBase 0))]
        ∧ m.waitRun iL.run 25 = some m ∧ m.run? iL.run = some runC
        ∧ (m.readBeats (plateOf iL.sw.toNat) 25 [(0, unitL .liningRead .going (liningBase 0))]).2 = false)
    ∧ (let m := spun [unitL .liningWrite .going (liningBase 0)]
      m.beatUnits iL 0 (fun u => !u.kind.isRead && u.stage == .going) = [(0, unitL .liningWrite .going (liningBase 0))])
    ∧ (let m := spun [unitL .liningRead .returning (liningBase 0)]
      m.beatUnits iL 0 (fun u => u.kind.isRead && u.stage == .returning) = [(0, unitL .liningRead .returning (liningBase 0))])
    ∧ (let m := spun [unitL .hbmRead .going 0]
      earliest (m.arrivals 0 (0 : BitVec 3).toNat) = some (0, unitL .hbmRead .going 0) ∧ (m.waitRun 0 25).isSome = true)
    ∧ (let m := spun [unitL .tackRead .returning controlBase]
      (iL.cells.filterMap fun cn => (m.nextTack iL (0 : BitVec 4).toNat cn).map (·.due)).min? = some 25
        ∧ (iL.cells.findSome? fun cn => (m.nextTack iL (0 : BitVec 4).toNat cn).bind fun u => if u.due = 25 then some (cn, u) else none)
          = some (0, unitL .tackRead .returning controlBase)
        ∧ (m.waitRun iL.run 25).isSome = true) := by
  decide +kernel

def req0 : HbmReq := { part := 0, run := some 0, op := .read, cls := .read, addr := 0, arrived := 25 }

theorem test_met_slots : (let m : Chip := { spun [] with hbm := [(0, { queue := [{ req0 with run := none }] })] }
      ((m.stack (0 : BitVec 3).toNat).queue.findIdx? fun q => q.run.isNone && q.origin.isNone) = some 0)
    ∧ (let m : Chip := { spun [] with hbm := [(0, { queue := [req0] })] }
      let mine : HbmReq → Bool := fun q => q.run == some 0 && q.cls == .read
      m.run? 0 = some runC ∧ (m.stack (0 : BitVec 3).toNat).queue.findIdx? mine = some 0
        ∧ (m.stack (0 : BitVec 3).toNat).queue[0]? = some req0 ∧ req0.op ≠ .tack
        ∧ ((runC.takeSlot (resKey SlotClass.read.code 0) (11 * runC.plan.stackUnits SlotClass.read.code 0) 512 (max req0.arrived (req0.first.getD 0))).map
            fun x => (m.waitRun 0 x.2).map fun t =>
              ((t.updRun 0 fun r => { r with slots := x.1.slots }).stack 0).queue.findIdx? mine) = some (some (some 0)))
    ∧ (let m : Chip := { spun [] with hbm := [(0, { queue := [{ req0 with op := .tack }] })] }
      ((m.stack (0 : BitVec 3).toNat).queue.findIdx? fun q => q.run == some 0 && q.cls == .read) = some 0
        ∧ ((runC.takeSlot (resKey SlotClass.read.code 0) (11 * runC.plan.stackUnits SlotClass.read.code 0) 512 25).map
            fun x => (m.waitRun 0 x.2).isSome) = some true) := by
  decide +kernel

def move0 : YokeMove :=
  { run := 0, bundle := 0, panel := 0, lane := { enabled := true, words := 1 }, issued := 0, srcRoom := 4, dst := [(0, 0, 4)] }
/-- The same transfer begun one F-cycle after one of another panel to the same destination. -/
def late0 : YokeMove := { move0 with issued := 1 }
def first0 : YokeMove := { move0 with panel := 1, lane := { enabled := true, words := 2 } }
def yoked (ms : List YokeMove) : Chip := { spun [] with swatches := [(0, { swatchB with moves := ms })] }
def weave0 : WeaveMove := { entry := 0, bundle := 0, issued := 0, srcRoom := 4, dstRoom := 4 }
def entry0 : WeaveEntry := ⟨0, 1, 0, 0, 1, 0, 0⟩
def entry1 : WeaveEntry := ⟨0, 1, 0, 0, 1, 2, 0⟩
def runW (m : WeaveMove) : Run := { runC with weaves := [m] }
def weaver (m : WeaveMove) : Chip :=
  { bench cellB with runs := [runW m], cells := [(0, cellB), (1, cellB)], seams := [(0, { mode := 0 })] }

theorem test_met_control_flits : mget 0 0 ((demo.sendControl 511 0).panel (511 : BitVec 9).toNat).control = 1
    ∧ mget 0 0 (demo.panel (511 : BitVec 9).toNat).control = 0 := by decide +kernel

theorem test_met_yoke : (let m := yoked [move0]
      yokeNext (m.swatch iL.sw.toNat).moves iL.run (0 : BitVec 3).toNat = some (0, move0) ∧ m.waitRun iL.run 1 = some m
        ∧ m.run? iL.run = some runC ∧ move0.wins ((m.swatch iL.sw.toNat).moves.take 0) 0 = true ∧ 4 ≤ move0.srcRoom
        ∧ (∀ d ∈ move0.dst, 4 ≤ d.2.2) ∧ (m.yokeRead runC 0 1 0 move0).2.2.1 = false)
    ∧ (let m := yoked [first0, late0]
      yokeNext (m.swatch iL.sw.toNat).moves iL.run (0 : BitVec 3).toNat = some (1, late0) ∧ m.waitRun iL.run 2 = some m
        ∧ late0.wins ((m.swatch iL.sw.toNat).moves.take 1) 0 = false) := by
  decide +kernel

theorem test_met_weave : (weaver weave0).run? 0 = some (runW weave0)
    ∧ (runW weave0).weaveEntry (0 : BitVec 12).toNat = some entry0
    ∧ ((runW weave0).weaves.findIdx? fun m => m.entry == (0 : BitVec 12).toNat && m.landed < (runW weave0).words m) = some 0
    ∧ (weaver weave0).waitRun 0 1 = some (weaver weave0)
    ∧ weave0.outside ((runW weave0).plan.cellOf 0) ((runW weave0).plan.cellOf 1) 0 = none
    ∧ (weaver weave0).weaveWins (runW weave0) 0 0 = true ∧ entry0.route ≠ 1 := by
  decide +kernel

def flit0 : WeaveFlit := { entry := 1, issued := 0, word := 0, rows := [], poison := [], vlink := 0, departed := none, due := none }
def gone0 : WeaveFlit := { flit0 with departed := some 9 }
def due0 : WeaveFlit := { gone0 with due := some 30 }
def runF (f : WeaveFlit) : Run := { runC with flits := [f] }
def flier (f : WeaveFlit) : Chip := { weaver weave0 with runs := [runF f] }

theorem test_met_seam_flits : (runF flit0).weaveEntry 1 = some entry1 ∧ (runF flit0).departing (0 : BitVec 5).toNat = some flit0
    ∧ (((runF flit0).takeSlot (resKey 4 0) ((flier flit0).linkFrame (runF flit0) 0).1 ((flier flit0).linkFrame (runF flit0) 0).2 9).bind
        fun x => ((flier flit0).waitRun 0 x.2).bind fun t => (t.run? 0).bind fun r =>
          (r.takeSlot (resKey 4 0) ((flier flit0).linkFrame (runF flit0) 0).1 ((flier flit0).linkFrame (runF flit0) 0).2 9).map fun y =>
            y.2 == x.2) = some true
    ∧ (let m := flier gone0
      ((runF gone0).flits.find? fun f => f.vlink == (0 : BitVec 5).toNat && f.departed.isSome && f.due.isNone) = some gone0
        ∧ m.lambda (runF gone0) entry1 = 18 ∧ m.waitRun 0 27 = some m ∧ (m.seam (Chip.flitPort (runF gone0) entry1)).mode = 0
        ∧ m.seamMeets (runF gone0) ((runF gone0).plan.cellOf 1) 27 (m.startKey (runF gone0) (runF gone0) 1 0) = false
        ∧ m.expressMeets (runF gone0) ((runF gone0).plan.cellOf 1) 27 (m.startKey (runF gone0) (runF gone0) 1 0) = false)
    ∧ ((runF due0).flits.find? fun f => f.entry == (1 : BitVec 12).toNat && f.due.isSome) = some due0
    ∧ (flier due0).waitRun 0 30 = some (flier due0) := by
  decide +kernel

/-- A bundle in the store of a stream that is due, and one with a reserved encoding. -/
theorem test_met_fetch : (bench cellB).held = false ∧ (bench cellB).dueStreams = [(iL, {})] ∧ demo.dueStreams = []
    ∧ bundleCommands iL ((bench cellB).stored iL 0) = some [.nop iL] ∧ bundleCommands iL (BitVec.ofNat 256 (2 ^ 255)) = none := by
  decide +kernel

/-- A ganged bundle written from Tables 5.1, 5.2, 5.3, 6.1, 6.2, 7.1, 7.4, 7.6 and 9.3: the fields of every slot are read where the tables put them. -/
theorem test_bundle_slots : bundleCommands iG (BitVec.ofNat 256 (
      (0x01 * 2 ^ 56 + 17 * 2 ^ 51 + 2 * 2 ^ 46 + 3 * 2 ^ 41) * 2 ^ 192            -- ADD w1, g2, g3
      + (1 * 2 ^ 28 + 9 * 2 ^ 24 + 200 * 2 ^ 16 + 5 * 2 ^ 12) * 2 ^ 160             -- TSTART thread 9, descriptor 200, g5
      + (1 * 2 ^ 28 + 1 * 2 ^ 27 + 4 * 2 ^ 23 + 6 * 2 ^ 19 + 256 * 2 ^ 10) * 2 ^ 128 -- MMA M18 g4, g6, 256 steps
      + (4 * 2 ^ 42 + 1 * 2 ^ 37 + 2 * 2 ^ 33 + 3 * 2 ^ 29 + 777 * 2 ^ 15 + 5 * 2 ^ 11 + 129 * 2 ^ 3) * 2 ^ 80 -- MMUL
      + (2 * 2 ^ 21 + 7 * 2 ^ 17 + 8 * 2 ^ 13 + 9 * 2 ^ 9 + 6 * 2 ^ 5 + 16) * 2 ^ 56  -- INTT
      + (3 * 2 ^ 20 + 10 * 2 ^ 16 + 11 * 2 ^ 12 + 12 * 2 ^ 8) * 2 ^ 32               -- BREV
      + (1 * 2 ^ 13 + 13 * 2 ^ 9 + 14 * 2 ^ 5 + 31) * 2 ^ 16                         -- EXPAND seed slot 31
      + (1 * 2 ^ 12 + 4095)))                                                        -- STITCH 4 095
    = some [.tstart iG 9 200 5, .mma iG true 4 6 256, .mmul iG { gd := 1, ga := 2, gb := 3, entry := 777, gm := 5, count := 129 },
        .intt iG 7 8 9 6 16, .brev iG 10 11 12, .expand iG 31 13 14, .stitch iG 4095, .add iG 17 2 3] := by decide +kernel

/-- The forms I, X, M, S, B and C of Table 5.3, each with its fields at their own places, and a DRAIN to the tap. -/
theorem test_bundle_forms :
    scriberCommand iL (0x10 * 2 ^ 56 + 1 * 2 ^ 51 + 2 * 2 ^ 46 + 0x800000001 * 2 ^ 10) = .addi iL 1 2 0x800000001
    ∧ scriberCommand iL (0x18 * 2 ^ 56 + 1 * 2 ^ 51 + 2 * 2 ^ 46 + 3 * 2 ^ 41 + 1000 * 2 ^ 31) = .modadd iL 1 2 3 1000
    ∧ scriberCommand iL (0x21 * 2 ^ 56 + 2 * 2 ^ 46 + 3 * 2 ^ 41 + 0xFFFF * 2 ^ 25) = .stn iL 2 3 0xFFFF
    ∧ scriberCommand iL (0x28 * 2 ^ 56 + 5 * 2 ^ 51 + 0x81 * 2 ^ 33) = .mfs iL 5 0x81
    ∧ scriberCommand iL (0x33 * 2 ^ 56 + 5 * 2 ^ 46 + 6 * 2 ^ 41 + 0x1234 * 2 ^ 25) = .blt iL 5 6 0x1234
    ∧ scriberCommand iL (0x2C * 2 ^ 56 + 2 * 2 ^ 39) = .tsel iL 2 ∧ scriberCommand iL (0x38 * 2 ^ 56 + 7 * 2 ^ 25) = .idle iL 7
    ∧ pressCommand iL (2 * 2 ^ 28 + 1 * 2 ^ 26 + 1 * 2 ^ 25 + 1023 * 2 ^ 11) = [.drain iL false true true 0 1023] := by decide +kernel

theorem test_met_memory_frame : Memory.wf keyMem := by decide

/-! ### Results of single commands, from the spec and the published standards -/

/-- The check value of CRC-32C over the digits 1 to 9. -/
theorem test_crc32c : crc32c [0x31, 0x32, 0x33, 0x34, 0x35, 0x36, 0x37, 0x38, 0x39] = 0xE3069283 := by decide +kernel

/-- ADD in a loose cell: 2^36 − 1 plus 1 is 0 one F-cycle later, and until then the destination reads as before (Table 5.4, R131). -/
theorem test_add_wraps : (let c : Cell := { cellB with scr := { cellB.scr with regs := [(1, ⟨1, false⟩), (2, ⟨0xFFFFFFFFF, false⟩)] } }
    (match exec (.add iL 3 1 2) ⟨bench c, []⟩ with
      | .next t => some ((t.chip.cell 0).reg 1 3, (t.chip.cell 0).reg 0 3)
      | _ => none) = some (⟨0, false⟩, ⟨0, false⟩)) := by decide +kernel

/-- SUB carries the poison tag of a source (R133), and SLT is signed: the most negative value is below 0. -/
theorem test_sub_slt : (let c : Cell := { cellB with scr := { cellB.scr with regs := [(1, ⟨5, true⟩), (2, ⟨0x800000000, false⟩)] } }
    (match exec (.sub iL 3 1 1) ⟨bench c, []⟩, exec (.slt iL 3 2 0) ⟨bench c, []⟩ with
      | .next t, .next u => some ((t.chip.cell 0).reg 1 3, (u.chip.cell 0).reg 1 3)
      | _, _ => none) = some (⟨0, true⟩, ⟨1, false⟩)) := by decide +kernel

/-- An empty queue lets one F-cycle pass: 110 units of 1/10 560 A-tick at the Full grade. -/
theorem test_idle_tick : (match step s0 with
    | .next t => some (t.chip.time - s0.chip.time, t.pending)
    | _ => none) = some (s0.chip.fUnit, []) := by decide +kernel

/-- Lifecycle runs forward only: Deployed does not go back to Provisioned, and with no policy key enrolled it goes to Returned (R17,
Table 18.6). -/
theorem test_lifecycle_forward : (match exec (.tcLifecycleSet call 1 {}) ⟨{ demo with life := .deployed }, []⟩,
      exec (.tcLifecycleSet call 3 {}) ⟨{ demo with life := .deployed }, []⟩ with
    | .next t, .next u => some (t.chip.life, (t.chip.mbx .pf0).responses.map fun (x : Response) => x.status, u.chip.life)
    | _, _ => none) = some (.deployed, [.lifecycle], .returned) := by decide +kernel

end Sys2Proof.Tests
end

section
/-! # Scope of the model: steps and the command queue (chapter 00)

Every command acts on the package alone (`exec_eq_commandEffect`), so a queue runs as one function on the package, whatever waits behind it
(`run_queue`): completion, order and splitting of a run all follow from these two. -/

namespace Sys2Proof.Machine

/-! ### One step -/

/-- A command's effect on the package, read off a state in which nothing else waits. -/
def commandEffect (c : Instr) (t : Chip) : Chip :=
  match exec c { chip := t } with
  | .next u => u.chip
  | _ => t

/-- A command is a function on the package: it neither reads nor changes the queue, and it never stops a step (log entry 3). -/
theorem exec_eq_commandEffect (c : Instr) (s : State) : exec c s = .next (s.put (commandEffect c s.chip)) := by
  cases c <;> rfl

theorem step_of_cons {s : State} {c : Instr} {rest : List Instr} (h : s.pending = c :: rest) :
    step s = exec c { s with pending := rest } := by
  unfold step; rw [h]

theorem step_of_nil {s : State} (h : s.pending = []) : step s = .next s.idle := by
  unfold step; rw [h]

/-! ### A step with no command waiting (log entries 1 and 90) -/

theorem State.idle_eq_tick {s : State} (h : s.chip.held = true ∨ s.chip.dueStreams = []) : s.idle = s.put s.chip.tick := by
  unfold State.idle
  split
  · rfl
  · rename_i hlive
    rw [h.resolve_left hlive]
    rfl

section DueStream

variable {s : State} {i : Issuer} {st : Stream} {rest : List (Issuer × Stream)}

theorem State.idle_eq_issued {cs : List Instr} (hlive : s.chip.held = false) (hdue : s.chip.dueStreams = (i, st) :: rest)
    (hcs : bundleCommands i (s.chip.stored i st.pc) = some cs) : s.idle = { s with pending := s.pending ++ cs } := by
  simp [State.idle, hlive, hdue, hcs]

theorem State.idle_eq_reserved (hlive : s.chip.held = false) (hdue : s.chip.dueStreams = (i, st) :: rest)
    (hcs : bundleCommands i (s.chip.stored i st.pc) = none) : s.idle = s.put (s.chip.issue i fun k => k.reserved) := by
  simp [State.idle, State.put, hlive, hdue, hcs]

end DueStream

/-- Settles O1: a queue's front command by `step_of_cons`, an empty queue by the three cases of an idle step. -/
theorem stepRunsFrontCommand : Obligations.StepRunsFrontCommand := by
  refine fun s => ⟨fun _ _ hq => step_of_cons hq, fun hq => ?_⟩
  rw [step_of_nil hq]
  refine ⟨fun h => by rw [State.idle_eq_tick h], fun i st rest hlive hdue => ⟨fun cs hcs => ?_, fun hcs => ?_⟩⟩
  · rw [State.idle_eq_issued hlive hdue hcs, hq, List.nil_append]
  · rw [State.idle_eq_reserved hlive hdue hcs]

/-- Settles O2: the command is the function on the package that `exec_eq_commandEffect` gives. -/
theorem everyCommandCompletes : Obligations.EveryCommandCompletes :=
  fun c s => ⟨s.put (commandEffect c s.chip), exec_eq_commandEffect c s, rfl,
    fun q => exec_eq_commandEffect c { s with pending := q }⟩

/-! ### Running a queue -/

theorem run_zero (s : State) : Host.Core.run Sys2Proof.core 0 s = .next s := rfl

theorem run_succ_of_step {s u : State} (n : Nat) (h : step s = .next u) :
    Host.Core.run Sys2Proof.core (n + 1) s = Host.Core.run Sys2Proof.core n u := by
  have hstep : Sys2Proof.core.step s = .next u := h
  simp only [Host.Core.run, hstep]

/-- A queue runs as one function on the package, and what waits behind it stays as it is. -/
theorem run_queue (front : List Instr) : ∃ f : Chip → Chip, ∀ (chip : Chip) (back : List Instr),
    Host.Core.run Sys2Proof.core front.length { chip := chip, pending := front ++ back }
      = .next { chip := f chip, pending := back } := by
  induction front with
  | nil => exact ⟨id, fun chip back => run_zero { chip := chip, pending := back }⟩
  | cons c rest ih =>
    obtain ⟨f, hf⟩ := ih
    refine ⟨fun chip => f (commandEffect c chip), fun chip back => ?_⟩
    have hstep : step { chip := chip, pending := c :: (rest ++ back) }
        = .next { chip := commandEffect c chip, pending := rest ++ back } :=
      (step_of_cons rfl).trans (exec_eq_commandEffect c _)
    exact (run_succ_of_step rest.length hstep).trans (hf (commandEffect c chip) back)

/-- Settles O3: `run_queue` for the first n commands of the queue, and for a queue with and without more commands behind it. -/
theorem queueRunsOut : Obligations.QueueRunsOut := by
  refine fun s => ⟨fun n hn => ?_, fun front back t hq hrun => ?_⟩
  · obtain ⟨f, hf⟩ := run_queue (s.pending.take n)
    have h := hf s.chip (s.pending.drop n)
    rw [List.take_append_drop, List.length_take, Nat.min_eq_left hn] at h
    exact ⟨_, h, rfl⟩
  · obtain ⟨f, hf⟩ := run_queue front
    have hs : s = { chip := s.chip, pending := front ++ [] } := by rw [List.append_nil, ← hq]
    have ht : t = { chip := f s.chip, pending := [] } := by
      rw [hs, hf] at hrun
      exact (Host.Outcome.next.inj hrun).symm
    rw [hf, ht]

/-! ### The state after reset -/

/-- Settles O6: every clause reads a field of the reset state; an empty memory is in canonical form by `memory_wf_nil`. -/
theorem resetState : Obligations.ResetState := by
  have hqueue : State.reset.queueOk := fun _ hc => absurd hc List.not_mem_nil
  have hrunning : ¬ State.reset.stopped := fun h => Bool.false_ne_true h.1
  exact ⟨rfl, hqueue, hrunning, memory_wf_nil, rfl, rfl, rfl, rfl, rfl, rfl, rfl, rfl⟩

end Sys2Proof.Machine
end

section
/-! # The lifecycle (R17, R521): what TC_LIFECYCLE_SET and the end of its Seal job do to it -/

namespace Sys2Proof.Machine

/-! ### What the shared operations of the Seal do to the lifecycle -/

@[simp] theorem Chip.remeasure_life (s : Chip) (i : Nat) : (s.remeasure i).life = s.life := rfl

@[simp] theorem Chip.sealSubmit_life (s : Chip) (use : SealUse) (high : Bool) (length : Nat) :
    (s.sealSubmit use high length).1.life = s.life := by
  unfold Chip.sealSubmit
  dsimp only
  split <;> rfl

/-- The erasure ends in Returned (R522). -/
@[simp] theorem Chip.erase_life (s : Chip) : s.erase.life = .returned := by
  simp [Chip.erase, Chip.eraseRest]

/-- Entry into Returned under a token: refused, left to the Seal, or made at once (R521). -/
theorem Chip.policyCall_returned_life (s : Chip) (c : Call) (code : Nat) (t : Token) :
    (s.policyCall c code .returned t).life = s.life ∨ (s.policyCall c code .returned t).life = .returned := by
  unfold Chip.policyCall
  split
  · simp
  · split
    · simp
    · simp only [BEq.rfl, if_true]
      split
      · simp [Chip.applyChange]
      · split <;> simp

/-- The end of the Seal job that makes the identity keys: refused, failed, or Provisioned (R512, R521). -/
theorem Chip.makeIdentity_life (s : Chip) (c : Call) :
    (s.makeIdentity c).life = s.life ∨ (s.life = .manufacturing ∧ (s.makeIdentity c).life = .provisioned) := by
  unfold Chip.makeIdentity
  split
  · simp
  · rename_i hlife
    split
    · simp
    · exact .inr ⟨by simpa using hlife, by simp⟩

/-! ### TC_LIFECYCLE_SET -/

theorem tcLifecycleSet_life (c : Call) (target : Nat) (token : Token) (s : Chip) :
    (tcLifecycleSet c target token s).life = s.life
      ∨ (s.life = .provisioned ∧ (tcLifecycleSet c target token s).life = .deployed)
      ∨ (tcLifecycleSet c target token s).life = .returned := by
  unfold tcLifecycleSet
  dsimp only
  split
  · simp
  · split
    next =>
      refine .inl ?_
      split
      · simp
      · split
        · simp
        · split
          · simp
          · split <;> simp
    next hlife _ =>
      split
      · simp [hlife]
      · simp
    next => simp
    next => exact (Chip.policyCall_returned_life s c _ token).imp_right .inr
    next => exact (Chip.policyCall_returned_life s c _ token).imp_right .inr
    next => simp

/-- A call that passes the common checks answers ST_LIFECYCLE unless R17 has its transition. -/
theorem tcLifecycleSet_eq_refusal {c : Call} {target : Nat} (token : Token) {s : Chip}
    (hok : s.common c { pf0Only := true } [(decide (3 < target), .bound)] = none)
    (hpair : (s.life, target) ∉
      [(.manufacturing, 1), (.provisioned, 2), (.manufacturing, 3), (.provisioned, 3), (.deployed, 3)]) :
    tcLifecycleSet c target token s = s.respond c 0x0D04 .lifecycle 8 [] := by
  unfold tcLifecycleSet
  rw [hok]
  dsimp only
  split
  case h_6 => rfl
  all_goals
    rename_i hlife
    simp [hlife] at hpair

theorem exec_tcLifecycleSet (c : Call) (target : Nat) (token : Token) (s : State) :
    exec (.tcLifecycleSet c target token) s = .next (s.put (s.chip.served c (tcLifecycleSet c target token))) := rfl

/-- A call that is not served changes nothing. -/
theorem Chip.served_eq_or (s : Chip) (c : Call) (f : Chip → Chip) : s.served c f = f s ∨ s.served c f = s := by
  cases hlive : s.held with
  | true => exact .inr (s.served_held c hlive)
  | false =>
    cases hs : s.serves c.fn with
    | true => exact .inl (s.served_of c hlive hs)
    | false => exact .inr (by simp [Chip.served, Chip.live, hlive, hs])

/-- Settles O7: `tcLifecycleSet_life` for a call that is served, `Chip.makeIdentity_life` for the Seal job, `tcLifecycleSet_eq_refusal`
for a transition that R17 does not have. -/
theorem lifecycleRunsForward : Obligations.LifecycleRunsForward := by
  refine fun s c target token => ⟨fun t ht => ?_, fun u => Chip.makeIdentity_life u c, fun hpass hpair => ?_⟩
  · rw [exec_tcLifecycleSet] at ht
    obtain rfl := Host.Outcome.next.inj ht
    rw [State.put_chip]
    rcases s.chip.served_eq_or c (tcLifecycleSet c target token) with h | h
    · rw [h]; exact tcLifecycleSet_life c target token s.chip
    · rw [h]; exact .inl rfl
  · rw [exec_tcLifecycleSet, Chip.served_passes hpass, tcLifecycleSet_eq_refusal token hpass.2 hpair]

end Sys2Proof.Machine
end

section
/-! # Register access codes (Table 0.4, R8, R9, R15): what a write finds at its register -/

namespace Sys2Proof.Machine

/-! ### Who reaches a register -/

/-- A write by PF0 that the package admits reaches its register. -/
theorem exec_registerWrite_pf0 {s : State} (h : s.chip.admitsHost .pf0 = true) (w : RegWrite) :
    exec (.registerWrite .pf0 w) s = .next (s.put (s.chip.regWrite .pf0 w)) := by
  calc exec (.registerWrite .pf0 w) s
      = .next (s.put (s.chip.host .pf0 fun t => t.regWrite .pf0 w)) := rfl
    _ = .next (s.put (s.chip.regWrite .pf0 w)) := by rw [Chip.host_admits h]

/-- A VF's write to a register of another partition changes nothing (R14, R566). -/
theorem exec_registerWrite_other_partition {s : State} {n p : Nat} {w : RegWrite} (h : s.chip.admitsHost (.vf n) = true)
    (hp : w.part? = some p) (hn : n ≠ p) : exec (.registerWrite (.vf n) w) s = .next s := by
  have hw : s.chip.shown (registerWrite (.vf n) w) = s.chip := by
    obtain ⟨hlive, hmute, hreach, hhost⟩ := Chip.admits_parts h
    simp [Chip.shown_of _ hlive hmute, registerWrite, Chip.fromHost, hreach, Chip.hostAccess, hhost, hp, hn]
  calc exec (.registerWrite (.vf n) w) s
      = .next (s.put (s.chip.shown (registerWrite (.vf n) w))) := rfl
    _ = .next s := by rw [hw, State.put_self]

/-! ### Access codes -/

/-- Write-one-to-clear touches VALID alone, and clears it only for a 1 (R8). -/
theorem Latch.w1c_eq (clear : Bool) (l : Latch) : l.w1c clear = { l with valid := l.valid && !clear } := by
  cases clear <;> simp [Latch.w1c]

section Gates

variable {s : Chip} {f : Chip → Chip}

theorem Chip.expertWrite_on (h : s.expertOn = true) : s.expertWrite f = f s := by simp [Chip.expertWrite, h]

theorem Chip.expertWrite_off (h : s.expertOn = false) :
    s.expertWrite f = { s with tlr := { s.tlr with lockedWrites := s.tlr.lockedWrites + 1 } } := by
  simp [Chip.expertWrite, h]

theorem Chip.reachPlate_reset {plate : Nat} (fn : Fn) (h : (s.plate plate).reset = true) :
    s.reachPlate fn plate f = s.xingFail fn .resetInProgress := by
  simp [Chip.reachPlate, h]

theorem Chip.reachPlate_clocked {plate : Nat} (fn : Fn) (h : (s.plate plate).reset = false)
    (hlock : (s.plate plate).fLock = true) : s.reachPlate fn plate f = f s := by
  simp [Chip.reachPlate, h, hlock]

end Gates

/-! ### The registers of the statement -/

section Registers

variable (s : Chip) (fn : Fn)

theorem Chip.regWrite_ptnPlanFault (p : BitVec 6) (d : W32) :
    s.regWrite fn (.ptnPlanFault p d)
      = s.updRegs p.toNat fun r => { r with fault := { r.fault with valid := r.fault.valid && !d.getLsbD 31 } } := by
  simp only [Chip.regWrite, Latch.w1c_eq, top]

theorem Chip.regWrite_hbmCeThresh (h : BitVec 3) (d : W32) :
    s.regWrite fn (.hbmCeThresh h d)
      = s.expertWrite fun t => t.reachPlate fn h.toNat fun t => t.updStack h.toNat fun x =>
          { x with threshCount := bits d.toNat 0 8, threshWindow := bits d.toNat 8 8 } := rfl

end Registers

/-- Settles O29: PTN_PLAN_FAULT as a write-one-to-clear record, HBM_CE_THRESH as an Expert read-write field of a plate, and a VF's write
outside its partition. -/
theorem registerAccessCodes : Obligations.RegisterAccessCodes := by
  refine fun s hs => ⟨fun p d => ⟨_, exec_registerWrite_pf0 hs _, ?_⟩, fun h d => ⟨_, exec_registerWrite_pf0 hs _, ?_⟩,
    fun p d n hvf hn => exec_registerWrite_other_partition hvf rfl hn⟩
  · rw [State.put_chip, Chip.regWrite_ptnPlanFault]
    exact ⟨by simp, by simp, fun n hn => s.chip.part_updRegs_other hn _⟩
  · rw [State.put_chip, Chip.regWrite_hbmCeThresh]
    refine ⟨fun hon hreset hlock => ?_, fun hon hreset => ?_, fun hoff => ?_⟩
    · rw [Chip.expertWrite_on hon, Chip.reachPlate_clocked _ hreset hlock]
      simp
    · rw [Chip.expertWrite_on hon, Chip.reachPlate_reset _ hreset]
      exact ⟨rfl, rfl⟩
    · rw [Chip.expertWrite_off hoff]
      exact ⟨rfl, rfl⟩

end Sys2Proof.Machine
end

section
/-! # The Modulus Table (R43 to R61): its Tailor calls and the Expert command path -/

namespace Sys2Proof.Machine

/-! ### What a write of the shadow table leaves alone -/

theorem Chip.foldl_updSwatch_tlr (f : Nat → Swatch → Swatch) (ns : List Nat) (s : Chip) :
    (ns.foldl (fun t n => t.updSwatch n (f n)) s).tlr = s.tlr := by
  induction ns generalizing s with
  | nil => rfl
  | cons n rest ih => rw [List.foldl_cons, ih, Chip.updSwatch_tlr]

@[simp] theorem Chip.updSwatches_tlr (s : Chip) (ns : List Nat) (f : Swatch → Swatch) : (s.updSwatches ns f).tlr = s.tlr :=
  Chip.foldl_updSwatch_tlr (fun _ => f) ns s

@[simp] theorem Chip.keepShadow_tlr (s : Chip) (p : Nat) : (s.keepShadow p).tlr = s.tlr := rfl

@[simp] theorem Chip.takeEffect_tlr (s : Chip) (p : Nat) : (s.takeEffect p).tlr = s.tlr := by
  unfold Chip.takeEffect
  dsimp only
  split <;> simp

@[simp] theorem Chip.sweepTwiddles_tlr (s : Chip) (p : Nat) : (s.sweepTwiddles p).tlr = s.tlr :=
  Chip.foldl_updSwatch_tlr _ _ _

@[simp] theorem Chip.writeShadow_tlr (s : Chip) (p : Nat) (f : ModTable → ModTable) : (s.writeShadow p f).tlr = s.tlr := by
  simp [Chip.writeShadow]

@[simp] theorem Chip.clearEntry_tlr (s : Chip) (p i : Nat) : (s.clearEntry p i).tlr = s.tlr := by
  unfold Chip.clearEntry
  dsimp only
  split <;> simp

/-! ### The Tailor calls -/

section Calls

variable {s v : Chip} {c : Call} {part index : Nat}

/-- A prime that passes Table 2.2 and asks for no twiddle set is written with twiddle set 255, none (R43). -/
theorem tcModulusSet_without_twiddle {q logn fmt psi : Nat} (hv : v = s.mtEarlier part)
    (hpass : v.passes c { part := some part } [(decide (1024 ≤ index), .bound)]) (hfmt : fmt < 2) (hlo : 12 ≤ logn) (hhi : logn ≤ 17)
    (hq : q < 2 ^ 36) (hpsi : psi < 2 ^ 36) (hrange : qInRange q logn (fmt == 1) = true) (hprime : isPrimeMR q = true)
    (hfields : checkEntryFields fmt logn q (2 ^ (2 * redWidth (fmt == 1)) / q) (powMod q (2 ^ logn % q) 40 (q - 2))
      (if psi = 0 then canonicalPsi q logn else psi) 0 = .ok) :
    tcModulusSet c part index q logn fmt psi 0 s = (v.writeShadow part fun t => { t with
      entries := mput index (entryWord q (2 ^ (2 * redWidth (fmt == 1)) / q) (powMod q (2 ^ logn % q) 40 (q - 2))
        (if psi = 0 then canonicalPsi q logn else psi) 255 logn fmt true) t.entries }).respond c 0x0101 .ok 0 [255] := by
  have hformat : (decide (2 ≤ fmt) || decide (2 ≤ 0)) = false := by simp [hfmt]
  have hshape : (decide (logn < 12) || decide (17 < logn)) = false := by simp [hlo, hhi]
  rw [tcModulusSet, ← hv, Chip.call_passes hpass]
  simp only [hformat, hshape, hq, hpsi, hrange, hprime, hfields, succeeds, decide_true, Bool.and_self, Bool.not_true, Bool.or_self,
    Bool.false_eq_true, if_true, if_false]

theorem tcModulusClear_eq (hv : v = s.mtEarlier part)
    (hpass : v.passes c { part := some part } [(decide (1024 ≤ index), .bound)]) :
    tcModulusClear c part index s = (v.clearEntry part index).respond c 0x0102 .ok 0 [] := by
  rw [tcModulusClear, ← hv, Chip.call_passes hpass]
  rfl

/-- A chain that meets R46 against the shadow table is written to it. -/
theorem tcChainSet_of_checked {qcount pcount : Nat} {idx : List Nat} (hv : v = s.mtEarlier part)
    (hpass : v.passes c { part := some part } [(decide (16 ≤ index), .bound), (idx.any fun i => decide (1024 ≤ i), .bound)])
    (hchain : (v.part part).shadow.checkChain (chainOf qcount pcount idx) = .ok) :
    tcChainSet c part index qcount pcount idx s = (v.writeShadow part fun t => { t with
      chains := mput index (chainOf qcount pcount idx) t.chains }).respond c 0x0103 .ok 0 [] := by
  rw [tcChainSet, ← hv, Chip.call_passes hpass]
  simp only [hchain, succeeds]

theorem tcChainClear_of_set (hv : v = s.mtEarlier part)
    (hpass : v.passes c { part := some part } [(decide (16 ≤ index), .bound)])
    (hset : (mfind index (v.part part).shadow.chains).isSome = true) :
    tcChainClear c part index s = (v.writeShadow part fun t => { t with
      chains := mdel index t.chains }).respond c 0x0104 .ok 0 [] := by
  have hkept : (mfind index (v.part part).shadow.chains).isNone = false := by simpa using hset
  rw [tcChainClear, ← hv, Chip.call_passes hpass]
  simp only [hkept, succeeds, Bool.false_eq_true, if_false]

/-- TC_MODULUS_GET of an entry answers with both copies of it and changes nothing else (R48). -/
theorem tcModulusGet_entry (hpass : s.passes c { part := some part } [(decide (1024 ≤ index), .bound)]) :
    tcModulusGet c part index false s = s.respond c 0x0105 .ok 0
      [(mget 0 index (s.part part).master.entries).toNat, (mget 0 index (s.part part).shadow.entries).toNat] := by
  rw [tcModulusGet]
  exact Chip.call_passes hpass

end Calls

/-- A call that the package takes is its function on the package. -/
theorem State.on_served {s : State} {c : Call} (h : s.chip.accepts c = true) (f : Chip → Chip) :
    s.on (fun t => t.served c f) = .next (s.put (f s.chip)) := by
  rw [State.on_eq, Chip.served_accepts h]

/-- Settles O11: by `State.on_served` each call is its function on the package, whose outcome that function's own lemma gives. -/
theorem modulusCallsComplete : Obligations.ModulusCallsComplete := by
  intro s c part index v hserved hv
  refine ⟨fun q logn fmt psi hpass hfmt hlo hhi hq hpsi hrange hprime hfields => ?_, fun hpass => ?_,
    fun qcount pcount idx hpass hchain => ?_, fun hpass hset => ?_, fun hpass => ?_⟩
  · rw [← tcModulusSet_without_twiddle hv hpass hfmt hlo hhi hq hpsi hrange hprime hfields]
    exact State.on_served hserved _
  · rw [← tcModulusClear_eq hv hpass]
    exact State.on_served hserved _
  · rw [← tcChainSet_of_checked hv hpass hchain]
    exact State.on_served hserved _
  · rw [← tcChainClear_of_set hv hpass hset]
    exact State.on_served hserved _
  · rw [← tcModulusGet_entry hpass]
    exact State.on_served hserved _

/-! ### The Expert command path (R61) -/

/-- The command path once OP has started: the target and the staging registers are latched, and DONE reads 0. -/
def MtStage.started (op : Nat) (m : MtStage) : MtStage :=
  let n := m.chainStage.qcount + m.chainStage.pcount
  { m with
    done := false, running := some op, applied := none, runIndex := m.index, runPart := m.part, runChain := m.chain, runEntry := m.stage
    runDesc := { m.chainStage with
      index := (m.chainStage.index ++ List.replicate (n - m.chainStage.index.length) 0).take n } }

/-- The command path once its command has completed with a status. -/
def MtStage.finished (st : Status) (m : MtStage) : MtStage := { m with done := true, status := st, running := none, applied := none }

@[simp] theorem Chip.updMt_held (s : Chip) (f : MtStage → MtStage) : (s.updMt f).held = s.held := rfl

section CommandPath

variable {s : Chip} {op : Nat}

theorem mtCommand_starts (hexpert : s.expertOn = true) (hidle : s.tlr.mt.done = true) :
    mtCommand op s = s.updMt (MtStage.started op) := by
  simp [mtCommand, hexpert, hidle, Chip.updMt, MtStage.started]

/-- OP 101, 110 and 111 start a command as the others do. -/
theorem mtReserved_eq_mtCommand {op : BitVec 3} (h : 5 ≤ op.toNat) : mtReserved op = mtCommand op.toNat := by
  funext s
  have hnonzero : op ≠ 0 := by rintro rfl; simp at h
  rw [mtReserved, if_neg hnonzero, if_neg (Nat.not_lt.mpr h)]

/-- A reserved OP is refused whatever its partition (log entry 71). -/
theorem Chip.mtApply_reserved (hrun : s.tlr.mt.running = some op) (happ : s.tlr.mt.applied = none) (h : 5 ≤ op) :
    s.mtApply = s.updMt fun m => { m with applied := some .notSupported } := by
  simp [Chip.mtApply, hrun, happ, h, Chip.updMt]

theorem Chip.mtApply_clearEntry (hrun : s.tlr.mt.running = some 2) (happ : s.tlr.mt.applied = none)
    (hpresent : (s.part s.tlr.mt.runPart).present = true) (hreset : (s.part s.tlr.mt.runPart).resetting = false) :
    s.mtApply = (s.clearEntry s.tlr.mt.runPart s.tlr.mt.runIndex).updMt fun m => { m with applied := some .ok } := by
  simp [Chip.mtApply, hrun, happ, hpresent, hreset, Chip.updMt]

/-- A command that has been applied completes with the status it was applied with. -/
theorem mtDone_of_applied {u : Chip} {st : Status} (happly : s.mtApply = u.updMt fun m => { m with applied := some st })
    (hrun : u.tlr.mt.running = some op) : mtDone s = u.updMt (MtStage.finished st) := by
  simp [mtDone, happly, hrun, Chip.updMt, MtStage.finished]

end CommandPath

theorem exec_mtCmdDone {s : State} (h : s.chip.held = false) : exec .mtCmdDone s = .next (s.put (mtDone s.chip)) := by
  calc exec .mtCmdDone s
      = .next (s.put (s.chip.live mtDone)) := rfl
    _ = .next (s.put (mtDone s.chip)) := by rw [s.chip.live_of h]

/-- A write of an OP that starts a command, on an idle command path with Expert control on. -/
theorem host_mtCommand_starts {s : Chip} (hadmits : s.admitsHost .pf0 = true) (hexpert : s.expertOn = true)
    (hidle : s.tlr.mt.done = true) (op : Nat) : s.host .pf0 (mtCommand op) = s.updMt (MtStage.started op) := by
  rw [Chip.host_admits hadmits, mtCommand_starts hexpert hidle]

theorem exec_mtCmd {i : Instr} {op : Nat}
    (h : (i, op) ∈ [(Instr.mtCmdWriteEntry, 1), (Instr.mtCmdClearEntry, 2), (Instr.mtCmdWriteChain, 3), (Instr.mtCmdClearChain, 4)])
    (s : State) : exec i s = .next (s.put (s.chip.host .pf0 (mtCommand op))) := by
  simp only [List.mem_cons, Prod.mk.injEq, List.not_mem_nil, or_false] at h
  rcases h with ⟨rfl, rfl⟩ | ⟨rfl, rfl⟩ | ⟨rfl, rfl⟩ | ⟨rfl, rfl⟩ <;> rfl

theorem exec_mtCmdReserved {op : BitVec 3} (h : 5 ≤ op.toNat) (s : State) :
    exec (.mtCmdReserved op) s = .next (s.put (s.chip.host .pf0 (mtCommand op.toNat))) := by
  calc exec (.mtCmdReserved op) s
      = .next (s.put (s.chip.host .pf0 (mtReserved op))) := rfl
    _ = .next (s.put (s.chip.host .pf0 (mtCommand op.toNat))) := by
        rw [mtReserved_eq_mtCommand h]

/-- Settles O25: `mtCommand_starts` for the writes of TLR_MT_CMD, `mtDone_of_applied` for the completions, on `Chip.mtApply_reserved` and
`Chip.mtApply_clearEntry`. -/
theorem modulusRegisterCommandsComplete : Obligations.ModulusRegisterCommandsComplete := by
  refine fun s => ⟨fun hadmits hexpert hidle => ⟨fun i op hop => ?_, fun op hop => ?_⟩, fun hlive hrun happ hpresent hreset => ?_⟩
  · rw [exec_mtCmd hop, host_mtCommand_starts hadmits hexpert hidle]
    exact ⟨_, rfl, rfl, rfl, rfl, rfl, rfl, rfl, rfl⟩
  · rw [exec_mtCmdReserved hop, host_mtCommand_starts hadmits hexpert hidle]
    have hlive : (s.chip.updMt (MtStage.started op.toNat)).held = false := by
      rw [Chip.updMt_held, (Chip.admits_parts hadmits).1]
    have hdone := mtDone_of_applied (Chip.mtApply_reserved (s := s.chip.updMt (MtStage.started op.toNat)) rfl rfl hop) rfl
    refine ⟨_, _, rfl, rfl, exec_mtCmdDone hlive, ?_⟩
    rw [State.put_chip, State.put_chip, hdone]
    exact ⟨rfl, rfl, rfl⟩
  · have hdone := mtDone_of_applied (Chip.mtApply_clearEntry hrun happ hpresent hreset) (by rw [Chip.clearEntry_tlr, hrun])
    refine ⟨_, exec_mtCmdDone hlive, ?_⟩
    rw [State.put_chip, hdone]
    exact ⟨rfl, rfl, rfl, rfl⟩

end Sys2Proof.Machine
end

section
/-! # Containers (R72 to R83): their Tailor calls -/

namespace Sys2Proof.Machine

variable {s : Chip} {c : Call} {part handle : Nat} {b : Buf}

/-- A current handle of the caller's own partition passes both handle checks and leaves no trace (R448). -/
theorem Chip.checkHandle_own (hbuf : s.bufOf handle = some b) (hown : b.part = part) (code : Nat) :
    s.checkHandle c part code handle = (s, .ok b) := by
  simp [Chip.checkHandle, hbuf, hown]

/-- On a handle that passes steps 1 and 2 of Table 3.8 the outcome is that of steps 3 to 12. -/
theorem Chip.checkContainer_own (hbuf : s.bufOf handle = some b) (hown : b.part = part) (offset : Nat) (owner : Option Nat) :
    s.checkContainer part handle offset owner
      = (s.noteCheck part (s.headerFail b offset (s.part part).master owner), s.headerFail b offset (s.part part).master owner) := by
  simp [Chip.checkContainer, hbuf, hown]

/-- TC_CONTAINER_CHECK of an own current handle answers with the first failing step of Table 3.8, ST_OK if there is none (R83). -/
theorem tcContainerCheck_own {offset : Nat} (hpass : s.passes c { part := some part } [(decide (2 ^ 32 ≤ handle), .bound)])
    (hbuf : s.bufOf handle = some b) (hown : b.part = part) {fail : Option (Status × Nat × Nat)}
    (hfail : s.headerFail b offset (s.part part).master none = fail) :
    tcContainerCheck c part handle offset s = (s.noteCheck part fail).respond c 0x0201
      ((fail.map fun x => x.1).getD .ok) ((fail.map fun x => x.2.1).getD 0) ((fail.map fun x => [x.2.1]).getD []) := by
  rw [tcContainerCheck, Chip.call_passes hpass]
  simp only [Chip.checkHandle_own hbuf hown, Chip.checkContainer_own hbuf hown, hfail]
  cases fail with
  | none => rfl
  | some failure => rfl

/-- TC_CONTAINER_SIZE of a whole header that passes steps 6 to 9 answers its size under the caller's own table (R72, log entry 81). -/
theorem tcContainerSize_of_checked {header : List Byte} (hpass : s.passes c {} []) (hlen : header.length = 128)
    (hchecks : firstFail ((Header.ofBytes header).checks67
      ++ (Header.ofBytes header).checks89 (s.part c.fn.part).master) = none) :
    tcContainerSize c header s = s.respond c 0x0202 .ok 0
      [(Header.ofBytes header).size ((Header.ofBytes header).m18 (s.part c.fn.part).master)] := by
  have hpadded : header ++ List.replicate (128 - header.length) 0 = header := by simp [hlen]
  rw [tcContainerSize, Chip.call_passes hpass]
  simp only [hpadded, hchecks, succeeds]

/-- Settles O12: `tcContainerCheck_own` for the check of a handle, `tcContainerSize_of_checked` for the size of a header. -/
theorem containerCallsComplete : Obligations.ContainerCallsComplete := by
  refine fun s c part => ⟨fun handle offset b hpass hbuf hown => ?_, fun header hpass hlen hchecks => ?_⟩
  · rw [← tcContainerCheck_own hpass hbuf hown rfl]
    exact State.on_served hpass.1 _
  · rw [← tcContainerSize_of_checked hpass hlen hchecks]
    exact State.on_served hpass.1 _

end Sys2Proof.Machine
end

section
/-! # Plan and cell calls (R88, R109, R120, R157, R180, R211, R267, R453): installation, start, removal and the queries of a quiet partition -/

namespace Sys2Proof.Machine

section Calls

variable {s u : Chip} {c : Call} {part image table slot n : Nat} {plateMap hs out : List Nat}

/-! ### Installation and removal -/

/-- An installation outside debug mode answers at once with what it gives, with no plate to wait for (R109). -/
theorem Chip.finishInstall_outside_debug {signed : Option Signed} {st : Status}
    (hinstall : s.dropDebugLocks.installPlan c part image plateMap table false signed = (u, st, n, out)) :
    s.finishInstall c part image plateMap table false signed = u.respond c 0x0301 st n out := by
  simp [Chip.finishInstall, hinstall]

/-- An image with no signature to verify is installed at once. -/
theorem tcPlanInstall_without_verification {st : Status} (hpass : s.passes c { part := some part } [])
    (hverify : s.toVerify c part image = none)
    (hinstall : s.dropDebugLocks.installPlan c part image plateMap table false none = (u, st, n, out)) :
    tcPlanInstall c part image plateMap table false s = u.respond c 0x0301 st n out := by
  rw [tcPlanInstall, hpass.2]
  simp only [hverify, Chip.finishInstall_outside_debug hinstall]

/-- Signatures that the Seal can check are submitted to it first, and the installation waits for its verdict (R530, log entry 101). -/
theorem tcPlanInstall_submits {g : Image} {es : List (Nat × Nat × List Byte)} {debug : Bool}
    (hpass : s.passes c { part := some part } []) (hverify : s.toVerify c part image = some (g, es))
    (hcheckable : ∀ e ∈ es, s.checkable e.1 e.2.2.length = true)
    (hsubmit : s.sealSubmit (.install c part image plateMap table debug g.hash (s.acceptors g part)) false (blockCycles es) = (u, true)) :
    tcPlanInstall c part image plateMap table debug s = u := by
  have hall : (es.any fun e => !s.checkable e.1 e.2.2.length) = false :=
    List.any_eq_false.2 fun e he => by simp [hcheckable e he]
  rw [tcPlanInstall, hpass.2]
  simp only [hverify, hall, hsubmit, Bool.false_eq_true, if_false, if_true]

/-- The owner that the first candidate plan of a slot gives a host request, 0 where it gives none. -/
def Chip.startOwner (s : Chip) (part slot : Nat) (hs : List Nat) : Nat :=
  match (s.candidates part (.slot slot)).bind fun l => l.head?.bind fun i => mfind i (s.part part).plans with
  | some pl => (s.hostOwner pl hs).getD 0
  | none => 0

/-- An admitted start is queued and not answered yet (R453). -/
theorem tcPlanStart_slot_admitted {id : Nat}
    (hpass : s.passes c { part := some part } [(decide (64 ≤ slot), .bound), (decide (64 < hs.length), .badShape)])
    (hadmit : s.admitRequest (hostAdmission part (.slot slot) (.call c.fn c.tag) (s.startOwner part slot hs) hs) = (u, .ok id)) :
    tcPlanStart c part (.slot slot) hs s = u := by
  simp only [tcPlanStart, hpass.2]
  split
  next admitted => cases admitted.symm.trans hadmit; rfl
  next refused => cases refused.symm.trans hadmit

/-- Where nothing runs and nothing waits, a plan is removed at once: logged and dropped (R120). -/
theorem tcPlanRemove_idle {p : Plan} (hpass : s.passes c { part := some part } [(decide (64 ≤ slot), .bound)])
    (hplan : mfind slot (s.part part).plans = some p) (hkept : p.removing = false) (hruns : s.runs = []) (hrequests : s.requests = []) :
    tcPlanRemove c part slot s = ((s.planEvent 2 part slot p.hash).dropPlan part slot).respond c 0x0303 .ok 0 [] := by
  have hstill : (s.planEvent 2 part slot p.hash).runs = [] := hruns
  rw [tcPlanRemove, Chip.call_passes hpass]
  simp only [hplan, hkept, hrequests, hstill, succeeds, List.filter_nil, List.map_nil, List.foldl_nil, List.any_nil,
    Bool.false_eq_true, if_false]

/-! ### Queries -/

theorem tcPlanQuery_installed {p : Plan} (hpass : s.passes c { part := some part } [(decide (64 ≤ slot), .bound)])
    (hplan : mfind slot (s.part part).plans = some p) :
    tcPlanQuery c part slot s = s.respond c 0x0304 .ok 0
      ([p.hash.toNat, b2n p.exact, if p.removing then 2 else b2n (s.runs.any fun r => r.part == part && r.slot == slot),
        b2n (!p.exact || p.configId == s.configId), p.lastStatus.code] ++ p.signers) := by
  rw [tcPlanQuery, Chip.call_passes hpass]
  simp only [hplan, succeeds]

/-- A cell query of a quiet partition's own cell reports what it reads there and changes nothing. -/
theorem cellQuery_of_quiet {cell : Nat} (hquiet : s.quiet part = true) (hcell : cell < 32768)
    (howner : (s.swatch (swatchOf cell)).owner = some part) (f : Cell → List Nat) :
    cellQuery s part cell f = (s, .ok, 0, f (s.cell cell)) := by
  simp [cellQuery, hquiet, Nat.not_le.2 hcell, howner, succeeds]

theorem tcScriberQuery_of_quiet {cell : Nat} (hpass : s.passes c { part := some part } []) (hquiet : s.quiet part = true)
    (hcell : cell < 32768) (howner : (s.swatch (swatchOf cell)).owner = some part) :
    ∃ rest, tcScriberQuery c part cell s = s.respond c 0x0401 .ok 0
      ([(s.cell cell).scr.cwp, (s.cell cell).scr.wdepth, (s.cell cell).scr.cdepth, (s.cell cell).scr.atask] ++ rest) := by
  rw [tcScriberQuery, Chip.call_passes hpass]
  simp only [cellQuery_of_quiet hquiet hcell howner, List.append_assoc]
  exact ⟨_, rfl⟩

theorem tcPsQuery_of_quiet {cell : Nat} (hpass : s.passes c { part := some part } []) (hquiet : s.quiet part = true)
    (hcell : cell < 32768) (howner : (s.swatch (swatchOf cell)).owner = some part) :
    ∃ rest, tcPsQuery c part cell s = s.respond c 0x0402 .ok 0
      ([(s.cell cell).press.queue.length, (s.cell cell).stip.queue.length] ++ rest) := by
  rw [tcPsQuery, Chip.call_passes hpass]
  simp only [cellQuery_of_quiet hquiet hcell howner]
  exact ⟨[_, _, _, _, _, _], rfl⟩

theorem tcSpoolQuery_of_quiet {cell : Nat} (hpass : s.passes c { part := some part } []) (hquiet : s.quiet part = true)
    (hcell : cell < 32768) (howner : (s.swatch (swatchOf cell)).owner = some part) :
    ∃ threads, tcSpoolQuery c part cell s = s.respond c 0x0405 .ok 0
      (threads ++ [((s.cell cell).units.map fun u => u.kind.rows).sum]) := by
  rw [tcSpoolQuery, Chip.call_passes hpass]
  simp only [cellQuery_of_quiet hquiet hcell howner]
  exact ⟨_, rfl⟩

/-- TC_ENGINE_QUERY of a quiet partition's own swatch: its deepest queues, its moves, its stores and the partition's counts (R211). -/
theorem tcEngineQuery_of_quiet {sw : Nat} (hpass : s.passes c { part := some part } [(decide (64 ≤ sw), .bound)])
    (hquiet : s.quiet part = true) (howner : (s.swatch sw).owner = some part) :
    ∃ queues stores, tcEngineQuery c part sw s = s.respond c 0x0404 .ok 0
      (queues ++ [(s.swatch sw).moves.length] ++ stores ++ [(s.part part).cnt.burinBfly.toNat, (s.part part).cnt.hatchRows.toNat,
        (s.part part).cnt.yokeWords.toNat, (s.part part).cnt.yokeDrop.toNat, (s.part part).cnt.weftRows.toNat]) := by
  rw [tcEngineQuery, Chip.call_passes hpass]
  simp only [hquiet, howner, succeeds, Bool.not_true, Bool.false_eq_true, if_false, bne_self_eq_false]
  exact ⟨[_, _, _], [_, _, _, _], rfl⟩

end Calls

/-- Settles O13: by `State.on_served` each call is its function on the package, whose outcome that function's own lemma gives; the three
cell queries rest on `cellQuery_of_quiet`. -/
theorem planCallsComplete : Obligations.PlanCallsComplete := by
  refine fun s c part => ⟨fun image plateMap table hpass => ⟨fun u n slot hverify hinstall => ?_, fun g es u hverify hcheck hsubmit => ?_⟩,
    fun slot hs u id hpass hadmit => ?_, fun slot p hpass hplan hkept hruns hrequests => ?_, fun slot p hpass hplan => ?_,
    fun cell hpass hquiet hcell howner => ?_, fun sw hpass hquiet howner => ?_⟩
  · rw [← tcPlanInstall_without_verification hpass hverify hinstall]
    exact State.on_served hpass.1 _
  · refine (State.on_served hpass.1 _).trans ?_
    rw [tcPlanInstall_submits hpass hverify hcheck hsubmit]
  · refine (State.on_served hpass.1 _).trans ?_
    rw [tcPlanStart_slot_admitted hpass hadmit]
  · rw [← tcPlanRemove_idle hpass hplan hkept hruns hrequests]
    exact State.on_served hpass.1 _
  · rw [← tcPlanQuery_installed hpass hplan]
    exact State.on_served hpass.1 _
  · obtain ⟨scriber, hscriber⟩ := tcScriberQuery_of_quiet hpass hquiet hcell howner
    obtain ⟨press, hpress⟩ := tcPsQuery_of_quiet hpass hquiet hcell howner
    obtain ⟨threads, hspool⟩ := tcSpoolQuery_of_quiet hpass hquiet hcell howner
    refine ⟨⟨scriber, ?_⟩, ⟨press, ?_⟩, ⟨threads, ?_⟩⟩
    · rw [← hscriber]; exact State.on_served hpass.1 _
    · rw [← hpress]; exact State.on_served hpass.1 _
    · rw [← hspool]; exact State.on_served hpass.1 _
  · obtain ⟨queues, stores, hquery⟩ := tcEngineQuery_of_quiet hpass hquiet howner
    refine ⟨queues, stores, ?_⟩
    rw [← hquery]
    exact State.on_served hpass.1 _

end Sys2Proof.Machine
end

section
/-! # Debug commands of PF0 (R126, R181, R212, R224, R392) under Expert control -/

namespace Sys2Proof.Machine

/-- A host command that the package takes is its function on the package. -/
theorem State.on_host {s : State} {fn : Fn} (h : s.chip.admitsHost fn = true) (f : Chip → Chip) :
    s.on (fun t => t.host fn f) = .next (s.put (f s.chip)) := by
  rw [State.on_eq, Chip.host_admits h]

theorem Chip.moved.dbg {s t : Chip} (h : s.moved t) : t.dbg = s.dbg := by
  unfold Chip.moved at h; rw [h]

/-! ### The debug window of a swatch -/

/-- The package as a debug command finds it: the command's operands stand in the debug registers, and its control flit is on its way. -/
def Chip.windowed (s : Chip) (panel : Nat) (select : Dbg → Dbg) : Chip := Chip.sendControl { s with dbg := select s.dbg } panel 0

section Reach

variable {s : Chip} {panel sw : Nat} {read : Bool} {select : Dbg → Dbg} {act : Chip → Chip}

/-- A swatch that answers takes the command at once (R390). -/
theorem Chip.debugWindow_answers (hexpert : s.expertOn = true) (hsw : panel / 8 = sw) (hanswers : s.swatchAnswers sw = true) :
    Chip.debugWindow panel read select act s = act (s.windowed panel select) := by
  obtain ⟨⟨hreset, hlock⟩, hpower⟩ : ((s.plate (plateOf sw)).reset = false ∧ (s.plate (plateOf sw)).fLock = true)
      ∧ (s.swatch sw).power = 0 := by simpa [Chip.swatchAnswers] using hanswers
  have hr : (Chip.plate { s with dbg := select s.dbg } (plateOf sw)).reset = false := hreset
  have hl : (Chip.plate { s with dbg := select s.dbg } (plateOf sw)).fLock = true := hlock
  have hp : (Chip.swatch { s with dbg := select s.dbg } sw).power = 0 := hpower
  rw [Chip.debugWindow, if_pos hexpert, Chip.reachSwatch, hsw]
  simp [hr, hl, hp, Chip.reachPanel, Chip.windowed]

/-- A command to a swatch in Plate Off stays in flight, and the swatch begins to wake (R392). -/
theorem Chip.debugWindow_plateOff (hexpert : s.expertOn = true) (hsw : panel / 8 = sw)
    (hreset : (s.plate (plateOf sw)).reset = false) (hoff : (s.swatch sw).power = 4) :
    Chip.debugWindow panel read select act s
      = Chip.updSwatch { s with
          dbg := select s.dbg
          tlr := { s.tlr with accesses := s.tlr.accesses ++ [⟨.pf0, sw, s.aTick, read⟩] } } sw (Swatch.startWake s.aTick) := by
  have hr : (Chip.plate { s with dbg := select s.dbg } (plateOf sw)).reset = false := hreset
  have hp : (Chip.swatch { s with dbg := select s.dbg } sw).power = 4 := hoff
  rw [Chip.debugWindow, if_pos hexpert, Chip.reachSwatch, hsw]
  simp only [hr, hp, decide_true, Bool.true_or, Bool.false_eq_true, if_false, if_true]
  rfl

end Reach

theorem Swatch.startWake_waking (now : Nat) (w : Swatch) : (w.startWake now).waking = true := by
  unfold Swatch.startWake
  split
  · assumption
  · rfl

/-! ### DBG_PS_ABORT (R181) -/

theorem Chip.poisonRows_moved (s : Chip) (cn : Nat) (rows : List Nat) : s.moved (s.poisonRows cn rows) :=
  Chip.foldl_moved _ (fun t _ => t.updCell_moved cn _) rows s

theorem Chip.abortPress_moved (s : Chip) (cn : Nat) : s.moved (s.abortPress cn) := by
  unfold Chip.abortPress
  exact Chip.moved_trans (s.poisonRows_moved cn _) (Chip.updCell_moved ..)

theorem Chip.abortStipple_moved (s : Chip) (cn : Nat) : s.moved (s.abortStipple cn) := by
  unfold Chip.abortStipple
  exact Chip.moved_trans (s.poisonRows_moved cn _) (Chip.updCell_moved ..)

/-- The engines of a cell that an abort names are discarded. -/
theorem Chip.abortEngines_moved (press stip : Bool) (s : Chip) (cn : Nat) :
    s.moved (let t := if press then s.abortPress cn else s; if stip then t.abortStipple cn else t) := by
  have hpress : s.moved (if press then s.abortPress cn else s) := by
    split
    · exact s.abortPress_moved cn
    · exact s.moved_refl
  dsimp only
  split
  · exact Chip.moved_trans hpress (Chip.abortStipple_moved ..)
  · exact hpress

/-- The abort's report: ST_OK where a break holds the swatch's partition, ST_ENGINE_BUSY elsewhere. -/
theorem dbgPsAbort_reports {s : Chip} (hexpert : s.expertOn = true) (swatch : BitVec 6) (engine : BitVec 2) :
    (dbgPsAbort swatch engine s).dbg.psSwatch = swatch.toNat
      ∧ (dbgPsAbort swatch engine s).dbg.psResult
        = ⟨if (s.swatch swatch.toNat).owner.any fun p => s.heldAtBreak p then .ok else .engineBusy, true⟩ := by
  have hheld (d : Dbg) : (Chip.swatch { s with dbg := d } swatch.toNat).owner.any (fun p => Chip.heldAtBreak { s with dbg := d } p)
      = (s.swatch swatch.toNat).owner.any fun p => s.heldAtBreak p := rfl
  rw [dbgPsAbort, Chip.expertWrite_on hexpert]
  dsimp only
  rw [hheld]
  cases hany : (s.swatch swatch.toNat).owner.any fun p => s.heldAtBreak p with
  | false => exact ⟨rfl, rfl⟩
  | true =>
    simp only [Bool.not_true, Bool.false_eq_true, if_false, if_true, and_true]
    rw [Chip.moved.dbg (Chip.foldl_moved _ (Chip.abortEngines_moved _ _) _ _)]

/-! ### DBG_ENG_CMD (R212) -/

theorem dbgEngSwapNow_idle_burin {s : Chip} (hexpert : s.expertOn = true) {swatch : BitVec 6}
    (hidle : s.engineBusy swatch.toNat .burin = false) :
    dbgEngSwapNow swatch .burin s
      = (s.updSwatch swatch.toNat fun w => { w with twiddle := w.twShadow }).engResult swatch.toNat .burin 1 .ok := by
  rw [dbgEngSwapNow, Chip.expertWrite_on hexpert]
  simp only [hidle, Bool.false_eq_true, if_false]

theorem dbgEngAbort_reports {s : Chip} (hexpert : s.expertOn = true) (swatch : BitVec 6) (e : DbgEngine) :
    ∃ u : Chip, dbgEngAbort swatch e s = u.engResult swatch.toNat e 2 .ok := by
  rw [dbgEngAbort, Chip.expertWrite_on hexpert]
  exact ⟨_, rfl⟩

/-! ### The Pad window (R224) -/

section Pad

variable {s : Chip}

theorem Pad.settle_nil {p : Pad} (h : p.lands = []) (now : Nat) : p.settle now = p := by
  cases p
  cases h
  rfl

/-- A read of a row with no uncorrectable error in it finds the row's data and poison. -/
theorem Pad.read_sound {p : Pad} {row : Nat} (hlands : p.lands = []) (hue : (p.ue.any fun k => k / 4 == row) = false) (now : Nat) :
    ∃ q e, p.read now row = (q, mget 0 row p.rows, p.poison.contains row, e) := by
  have hmine : (p.ue.any fun k => k / 4 == row && [0, 1, 2, 3].contains (k % 4)) = false := by
    rw [List.any_eq_false] at hue ⊢
    exact fun k hk hboth => hue k hk (Bool.and_eq_true_iff.1 hboth).1
  rw [Pad.read, Pad.settle_nil hlands, Pad.sense]
  simp only [hmine, Bool.and_false, Bool.false_eq_true, if_false]
  exact ⟨_, _, rfl⟩

/-- The eight samples of a step agree (R389). -/
theorem crossRead_samplesOf {α : Type} [DecidableEq α] (v : α) : crossRead v (samplesOf v) = (v, true) := by
  simp [samplesOf, crossRead]

theorem dbgPadRead_open (hexpert : s.expertOn = true) {cell : BitVec 15} {row : BitVec 12} (hopen : s.padOpen cell.toNat = true)
    (hlands : (s.cell cell.toNat).pad.lands = [])
    (hue : ((s.cell cell.toNat).pad.ue.any fun k => k / 4 == row.toNat) = false) :
    (dbgPadRead cell row s).dbg.padData = mget 0 row.toNat (s.cell cell.toNat).pad.rows
      ∧ (dbgPadRead cell row s).dbg.padPoison = (s.cell cell.toNat).pad.poison.contains row.toNat
      ∧ (dbgPadRead cell row s).dbg.padValid = true := by
  have hopen' (d : Dbg) : Chip.padOpen { s with dbg := d } cell.toNat = true := hopen
  have hcell (d : Dbg) : Chip.cell { s with dbg := d } cell.toNat = s.cell cell.toNat := rfl
  obtain ⟨q, e, hread⟩ := Pad.read_sound hlands hue (s.countNow (swatchOf cell.toNat))
  have hread' (d : Dbg) : (s.cell cell.toNat).pad.read (Chip.countNow { s with dbg := d } (swatchOf cell.toNat)) row.toNat = _ := hread
  rw [dbgPadRead, Chip.expertWrite_on hexpert]
  simp only [hopen', hcell, hread', crossRead_samplesOf, if_true, and_self]

theorem dbgPadWrite_eq (hexpert : s.expertOn = true) {cell : BitVec 15} (row : BitVec 12) (hopen : s.padOpen cell.toNat = true) :
    dbgPadWrite cell row s = ((s.updDbg (Dbg.selectPad cell row 2)).updCell cell.toNat fun x => { x with
        pad := (x.pad.settle (s.countNow (swatchOf cell.toNat))).apply
          { due := s.countNow (swatchOf cell.toNat), order := 0, seq := 0, row := row.toNat, mask := BitVec.allOnes 8,
            data := s.dbg.padData, poison := s.dbg.padPoison } }).updDbg fun d => { d with padValid := true } := by
  have hopen' (d : Dbg) : Chip.padOpen { s with dbg := d } cell.toNat = true := hopen
  rw [dbgPadWrite, Chip.expertWrite_on hexpert]
  dsimp only
  rw [if_pos (hopen' _)]
  rfl

theorem Chip.cell_updDbg (s : Chip) (f : Dbg → Dbg) (n : Nat) : (s.updDbg f).cell n = s.cell n := rfl

theorem dbgPadWrite_open (hexpert : s.expertOn = true) {cell : BitVec 15} (row : BitVec 12) (hopen : s.padOpen cell.toNat = true)
    {now : Nat} (hnow : now = s.countNow (swatchOf cell.toNat)) :
    (dbgPadWrite cell row s).dbg.padValid = true
      ∧ ((dbgPadWrite cell row s).cell cell.toNat).pad = ((s.cell cell.toNat).pad.settle now).apply
          { due := now, order := 0, seq := 0, row := row.toNat, mask := BitVec.allOnes 8, data := s.dbg.padData,
            poison := s.dbg.padPoison }
      ∧ ∀ n, n ≠ cell.toNat → (dbgPadWrite cell row s).cell n = s.cell n := by
  rw [dbgPadWrite_eq hexpert row hopen, ← hnow]
  refine ⟨rfl, ?_, fun n hn => ?_⟩
  · rw [Chip.cell_updDbg, Chip.cell_updCell, Chip.cell_updDbg]
  · rw [Chip.cell_updDbg, Chip.cell_updCell_other _ hn, Chip.cell_updDbg]

end Pad

/-- Settles O26: a swatch that answers takes each command in its window (`Chip.debugWindow_answers`), whose outcome the command's own lemma
gives; one in Plate Off by `Chip.debugWindow_plateOff`. -/
theorem debugCommandsComplete : Obligations.DebugCommandsComplete := by
  intro s hadmits hexpert
  have hpanel (swatch : BitVec 6) : 8 * swatch.toNat / 8 = swatch.toNat := Nat.mul_div_cancel_left _ (by decide)
  have hcell (cell : BitVec 15) : cell.toNat / 64 / 8 = swatchOf cell.toNat := Nat.div_div_eq_div_mul ..
  refine ⟨?_, fun swatch engine hanswers => ?_, fun swatch v hanswers hidle hv => ?_, fun swatch e hanswers => ?_,
    fun swatch e op11 => ?_, fun cell row hanswers hopen hlands hue => ?_, fun cell row now hanswers hopen hnow => ?_,
    fun swatch engine hreset hoff => ?_⟩
  · refine (State.on_host hadmits _).trans ?_
    rw [dbgStitchGo, Chip.expertWrite_on hexpert]
  · refine ⟨_, State.on_host hadmits _, ?_⟩
    rw [State.put_chip, Chip.debugWindow_answers hexpert (hpanel swatch) hanswers]
    obtain ⟨hswatch, hresult⟩ := dbgPsAbort_reports (s := s.chip.windowed _ _) hexpert swatch engine
    exact ⟨by rw [hresult], hswatch, by rw [hresult]; rfl⟩
  · refine (State.on_host hadmits _).trans ?_
    rw [Chip.debugWindow_answers hexpert (hpanel swatch) hanswers,
      dbgEngSwapNow_idle_burin (s := s.chip.windowed _ _) hexpert hidle, hv]
    rfl
  · obtain ⟨u, hu⟩ := dbgEngAbort_reports (s := s.chip.windowed (8 * swatch.toNat) (Dbg.selectEng swatch e 2)) hexpert swatch e
    refine ⟨u, (State.on_host hadmits _).trans ?_⟩
    rw [Chip.debugWindow_answers hexpert (hpanel swatch) hanswers, hu]
  · refine (State.on_host hadmits _).trans ?_
    rw [dbgEngReserved, Chip.expertWrite_on hexpert]
  · refine ⟨_, State.on_host hadmits _, ?_⟩
    rw [State.put_chip, Chip.debugWindow_answers hexpert (hcell cell) hanswers]
    exact dbgPadRead_open (s := s.chip.windowed _ _) hexpert hopen hlands hue
  · refine ⟨_, State.on_host hadmits _, ?_⟩
    rw [State.put_chip, Chip.debugWindow_answers hexpert (hcell cell) hanswers]
    exact dbgPadWrite_open (s := s.chip.windowed _ _) hexpert row hopen hnow
  · refine ⟨_, State.on_host hadmits _, ?_⟩
    rw [State.put_chip, Chip.debugWindow_plateOff hexpert (hpanel swatch) hreset hoff, Chip.swatch_updSwatch]
    exact ⟨Swatch.startWake_waking _ _, rfl, rfl⟩

end Sys2Proof.Machine
end

section
/-! # The frame of a plan's life: no time passes at a stitch point or at the end of a plan, and few of its steps touch a run

`Chip.still` states that frame, once per shared operation; the exceptions (`Chip.keepShadow`, `Chip.endRun`) have laws of their own. -/

namespace Sys2Proof.Machine

/-- No time passes and no run changes. -/
@[simp] abbrev Chip.still (s t : Chip) : Prop := t.time = s.time ∧ t.runs = s.runs

theorem Chip.still_trans {s t u : Chip} (h : s.still t) (k : t.still u) : s.still u := ⟨k.1.trans h.1, k.2.trans h.2⟩

@[simp] theorem Chip.time_ite (p : Prop) [Decidable p] (s t : Chip) :
    (if p then s else t).time = if p then s.time else t.time := apply_ite ..

@[simp] theorem Chip.runs_ite (p : Prop) [Decidable p] (s t : Chip) :
    (if p then s else t).runs = if p then s.runs else t.runs := apply_ite ..

@[simp] theorem Chip.foldl_still {α : Type} {f : Chip → α → Chip} (h : ∀ (t : Chip) (x : α), t.still (f t x)) (l : List α) (s : Chip) :
    s.still (l.foldl f s) := by
  induction l generalizing s with
  | nil => exact ⟨rfl, rfl⟩
  | cons x rest ih => exact Chip.still_trans (h s x) (ih _)

section Still

variable (s : Chip)

/-! ### Cells, panels, swatches -/

@[simp] theorem Chip.updCells_still (ns : List Nat) (f : Nat → Cell → Cell) : s.still (s.updCells ns f) := by simp [Chip.updCells]
@[simp] theorem Chip.updSwatches_still (ns : List Nat) (f : Swatch → Swatch) : s.still (s.updSwatches ns f) := by
  simp [Chip.updSwatches]
@[simp] theorem Chip.freePadRow_still (cn row : Nat) : s.still (s.freePadRow cn row) := ⟨rfl, rfl⟩
@[simp] theorem Chip.freePadRows_still (cn : Nat) (rows : List Nat) : s.still (s.freePadRows cn rows) := by simp [Chip.freePadRows]
@[simp] theorem Chip.setTasks_still (cn : Nat) (ts : List TaskSlot) : s.still (s.setTasks cn ts) := by simp [Chip.setTasks]
@[simp] theorem Chip.commitTasks_still (sws : List Nat) : s.still (s.commitTasks sws) := by simp [Chip.commitTasks]
@[simp] theorem Chip.commitStores_still (sw : Nat) : s.still (s.commitStores sw) := by simp [Chip.commitStores]
@[simp] theorem Chip.settleStores_still (sw : Nat) : s.still (s.settleStores sw) := by simp [Chip.settleStores]
@[simp] theorem Chip.startCells_still (p : Plan) (fresh : Bool) (sw : Nat) : s.still (s.startCells p fresh sw) :=
  Chip.foldl_still (fun t _ => Chip.still_trans (t.setTasks_still _ _) ⟨Chip.updCell_time .., Chip.updCell_runs ..⟩) _ s
@[simp] theorem Chip.stopThreads_still (r : Run) (keep : Nat) : s.still (s.stopThreads r keep) := by simp [Chip.stopThreads]
@[simp] theorem Chip.discardPanel_still (id p : Nat) : s.still (s.discardPanel id p) := by simp [Chip.discardPanel]
@[simp] theorem Chip.discardPanels_still (id sw : Nat) : s.still (s.discardPanels id sw) := by simp [Chip.discardPanels]

@[simp] theorem Chip.strandWeaves_still (r : Run) : s.still (s.strandWeaves r) := by
  refine Chip.foldl_still (fun t m => ?_) r.weaves s
  split <;> simp

@[simp] theorem Chip.finalWork_still (r : Run) : s.still (s.finalWork r) := by simp [Chip.finalWork]

@[simp] theorem Chip.startNext_still (r : Run) : s.still (s.startNext r) := by
  unfold Chip.startNext
  split <;> simp

@[simp] theorem Chip.sweepTwiddles_still (p : Nat) : s.still (s.sweepTwiddles p) := by simp [Chip.sweepTwiddles]
@[simp] theorem Chip.takeEffect_still (p : Nat) : s.still (s.takeEffect p) := by simp [Chip.takeEffect]

@[simp] theorem Chip.dropEngines_still (sw : Nat) (pl : Plan) (others : List Plan) : s.still (s.dropEngines sw pl others) := by
  refine Chip.foldl_still (fun t e => ?_) pl.engine s
  cases e <;> simp

@[simp] theorem Chip.fieldSlots_still (sw : Nat) (used : Plan → Nat → Bool) (p : Plan) (others : List Plan)
    (field : Nat → Nat → TaskSlot) : s.still (s.fieldSlots sw used p others field) := by
  simp [Chip.fieldSlots]

/-! ### Events, counts, answers -/

@[simp] theorem Chip.hazard_still (r : Run) (kind cell bundle : Nat) : s.still (s.hazard r kind cell bundle) := by
  simp [Chip.hazard]
@[simp] theorem Chip.missedMark_still (r : Run) : s.still (s.missedMark r) := by simp [Chip.missedMark]
@[simp] theorem Chip.noteArrival_still (p h : Nat) : s.still (s.noteArrival p h) := by simp [Chip.noteArrival]
@[simp] theorem Chip.noteArrivals_still (p : Nat) : s.still (s.noteArrivals p) := by simp [Chip.noteArrivals]
@[simp] theorem Chip.regrade_still : s.still s.regrade := by simp [Chip.regrade]
@[simp] theorem Chip.dropDebugLocks_still : s.still s.dropDebugLocks := ⟨rfl, rfl⟩
@[simp] theorem Chip.complete_still (p n : Nat) (c : Completion) : s.still (s.complete p n c) := by simp [Chip.complete]

@[simp] theorem Chip.frameOut_still (c : Carrier) (len : Nat) : s.still (s.frameOut c len) := by
  unfold Chip.frameOut
  split
  · simp
  · dsimp only
    split <;> simp

@[simp] theorem Chip.krpSend_still (id : Nat) (m : KrpSent) (len : Nat) : s.still (s.krpSend id m len) := by
  unfold Chip.krpSend
  split <;> simp

@[simp] theorem Chip.sealSubmit_still (use : SealUse) (high : Bool) (length : Nat) : s.still (s.sealSubmit use high length).1 := by
  unfold Chip.sealSubmit
  dsimp only
  split <;> simp

@[simp] theorem Chip.submitReceipt_still (part id kind : Nat) : s.still (s.submitReceipt part id kind) := by
  simp [Chip.submitReceipt, Chip.signLength, Chip.takeFree]

/-! ### Memory and buffers -/

@[simp] theorem Chip.markAtoms_still (h off n : Nat) (bad : List Nat) : s.still (s.markAtoms h off n bad) := ⟨rfl, rfl⟩
@[simp] theorem Chip.writeBolt_still (addr : Nat) (rows : List Row) (poison : List Bool) : s.still (s.writeBolt addr rows poison) :=
  ⟨rfl, rfl⟩
@[simp] theorem Chip.pageCe_still (h page : Nat) : s.still (s.pageCe h page) := by simp [Chip.pageCe]

@[simp] theorem Chip.atomUe_still (h atom : Nat) : s.still (s.atomUe h atom) := by
  unfold Chip.atomUe
  dsimp only
  split <;> simp

@[simp] theorem Chip.atomCe_still (h atom : Nat) : s.still (s.atomCe h atom) := by
  unfold Chip.atomCe
  dsimp only
  split <;> simp

@[simp] theorem Chip.touchAtoms_still (h off n : Nat) : s.still (s.touchAtoms h off n) := by simp [Chip.touchAtoms]
@[simp] theorem Chip.addBolt_still (addr : Nat) (integer : Bool) (m : Modulus) (rows : List Row) (poison : List Bool) :
    s.still (s.addBolt addr integer m rows poison) := by
  simp [Chip.addBolt]

@[simp] theorem Chip.completeOutput_still (handle : Nat) (template : List Byte) : s.still (s.completeOutput handle template) := by
  unfold Chip.completeOutput
  split
  · exact ⟨rfl, rfl⟩
  · dsimp only
    split <;> exact ⟨rfl, rfl⟩

@[simp] theorem Chip.finishOutputs_still (r : Run) : s.still (s.finishOutputs r) := by simp [Chip.finishOutputs]

@[simp] theorem Chip.killHandle_still (i : Nat) : s.still (s.killHandle i) := by
  unfold Chip.killHandle
  split <;> simp

@[simp] theorem Chip.revokeAll_still (i : Nat) : s.still (s.revokeAll i) := by
  unfold Chip.revokeAll
  split <;> simp

@[simp] theorem Chip.clearRegion_still (a n : Nat) : s.still (s.clearRegion a n) := by
  simp [Chip.clearRegion, Chip.clearBacking]

@[simp] theorem Chip.releaseBuf_still (handle : Nat) : s.still (s.releaseBuf handle) := by
  unfold Chip.releaseBuf
  split
  · simp
  next b =>
    dsimp only
    split
    · split <;> simp
    · simp

@[simp] theorem Chip.stampEnvelope_still (handle request round : Nat) : s.still (s.stampEnvelope handle request round) := by
  unfold Chip.stampEnvelope
  split <;> exact ⟨rfl, rfl⟩

@[simp] theorem Chip.putKey_still (plate line n : Nat) (bytes : List Byte) : s.still (s.putKey plate line n bytes) := ⟨rfl, rfl⟩

@[simp] theorem Chip.commitKeys_still (part : Nat) (new : SMap KeyWin) : s.still (s.commitKeys part new) := by
  unfold Chip.commitKeys
  dsimp only
  simp only [Chip.still, Chip.updPart_time, Chip.updPart_runs]
  refine Chip.foldl_still (fun t r => ?_) _ s
  split <;> simp

@[simp] theorem Chip.settleKeyWin_still (part : Nat) : s.still (s.settleKeyWin part) := by simp [Chip.settleKeyWin]
@[simp] theorem Chip.dropOldKeys_still (part : Nat) : s.still (s.dropOldKeys part) := by simp [Chip.dropOldKeys]

@[simp] theorem Chip.commitShadow_still (part : Nat) (sws : List Nat) (snap : Option Snapshot) :
    s.still (s.commitShadow part sws snap) := by
  unfold Chip.commitShadow
  dsimp only
  cases snap <;> simp

@[simp] theorem Chip.commitOwner_still (part : Nat) (handles : List Nat) : s.still (s.commitOwner part handles) := by
  simp [Chip.commitOwner]

/-! ### Units, queues and links -/

@[simp] theorem Chip.unitMoved_still (r : Run) (cn th last : Nat) (count : Bool) : s.still (s.unitMoved r cn th last count) := by
  unfold Chip.unitMoved
  split <;> simp

@[simp] theorem Chip.finishWrite_still (q : HbmReq) (c : Nat) : s.still (s.finishWrite q c) := by
  unfold Chip.finishWrite
  dsimp only
  split
  · split <;> simp
  · split
    · split <;> simp [Chip.dropUnit]
    · split <;> simp

@[simp] theorem Chip.acceptWrites_still (id : Nat) : s.still (s.acceptWrites id) := by simp [Chip.acceptWrites]
@[simp] theorem Chip.joinQueues_still (r : Run) : s.still (s.joinQueues r) := by simp [Chip.joinQueues, Chip.setUnit]
@[simp] theorem Chip.orphanQueues_still (id : Nat) : s.still (s.orphanQueues id) := ⟨rfl, rfl⟩
@[simp] theorem Chip.sendTokens_still (r : Run) : s.still (s.sendTokens r) := by simp [Chip.sendTokens]
@[simp] theorem Chip.moveResends_still (r : Run) : s.still (s.moveResends r) := by simp [Chip.moveResends]

/-! ### Requests -/

@[simp] theorem Chip.dropRequest_still (id : Nat) : s.still (s.dropRequest id) := ⟨rfl, rfl⟩
@[simp] theorem Chip.dropHandles_still (id : Nat) (hs : List Nat) : s.still (s.dropHandles id hs) := by simp [Chip.dropHandles]

@[simp] theorem Chip.holdRequest_still (q : Request) (st : Status) : s.still (s.holdRequest q st) := by
  simp [Chip.holdRequest]

@[simp] theorem Chip.tryReceipt_still (id : Nat) : s.still (s.tryReceipt id) := by
  unfold Chip.tryReceipt
  split
  · simp
  · split <;> simp [Chip.sendReceipt, Chip.receiptOut]

@[simp] theorem Chip.completeRequest_still (id : Nat) (st : Status) : s.still (s.completeRequest id st) := by
  unfold Chip.completeRequest
  split
  · simp
  · dsimp only
    split <;> simp

@[simp] theorem Chip.failRound_still (id : Nat) : s.still (s.failRound id) := by
  unfold Chip.failRound
  split <;> simp

@[simp] theorem Chip.beginRound_still (q : Request) (h : HandoffPolicy) : s.still (s.beginRound q h) := by
  unfold Chip.beginRound
  dsimp only
  generalize (s.planOf q).getD {} = pl
  split <;> split <;> simp

@[simp] theorem Chip.endRequest_still (id : Nat) (st : Status) : s.still (s.endRequest id st) := by
  unfold Chip.endRequest
  split <;> simp

end Still

end Sys2Proof.Machine
end

section
/-! # Plan events (R106, R108, R458): start, splice, stitch points, end -/

namespace Sys2Proof.Machine

/-- An event of a package that is not held is its function on the package. -/
theorem State.on_live {s : State} (h : s.chip.held = false) (f : Chip → Chip) : s.on (fun t => t.live f) = .next (s.put (f s.chip)) := by
  rw [State.on_eq, s.chip.live_of h]

/-! ### Finding a run -/

theorem Chip.run?_id {s : Chip} {id : Nat} {r : Run} (h : s.run? id = some r) : r.id = id := by
  simpa using List.find?_some h

theorem Chip.run?_congr {s t : Chip} (h : t.runs = s.runs) (id : Nat) : t.run? id = s.run? id := by rw [Chip.run?, h, Chip.run?]

/-- An update of a run that keeps its number is what the next look finds. -/
theorem Chip.run?_updRun {s : Chip} {id : Nat} {r : Run} {f : Run → Run} (h : s.run? id = some r) (hf : ∀ x, (f x).id = x.id) :
    (s.updRun id f).run? id = some (f r) := by
  have hkey : ((fun r : Run => r.id == id) ∘ fun x => if x.id == id then f x else x) = fun r => r.id == id := by
    funext x
    by_cases hx : x.id = id <;> simp [hx, hf]
  unfold Chip.run? at h
  simp only [Chip.run?, Chip.updRun, List.find?_map, hkey, h, Option.map_some, Chip.run?_id h, BEq.rfl, if_true]

/-! ### The place of a run -/

/-- No time passes, and a run keeps its partition and its next stitch point. -/
def Chip.keepsPlace (id : Nat) (s t : Chip) : Prop :=
  t.time = s.time ∧ ∀ z, s.run? id = some z → ∃ z', t.run? id = some z' ∧ z'.nextStitch = z.nextStitch ∧ z'.part = z.part

theorem Chip.keepsPlace_of_still {s t : Chip} (h : s.still t) (id : Nat) : Chip.keepsPlace id s t :=
  ⟨h.1, fun z hz => ⟨z, by rw [Chip.run?_congr h.2, hz], rfl, rfl⟩⟩

theorem Chip.keepsPlace_trans {id : Nat} {s t u : Chip} (h : Chip.keepsPlace id s t) (k : Chip.keepsPlace id t u) :
    Chip.keepsPlace id s u := by
  refine ⟨k.1.trans h.1, fun z hz => ?_⟩
  obtain ⟨z', hz', hn', hp'⟩ := h.2 z hz
  obtain ⟨z'', hz'', hn'', hp''⟩ := k.2 z' hz'
  exact ⟨z'', hz'', hn''.trans hn', hp''.trans hp'⟩

theorem Chip.foldl_keepsPlace {α : Type} {id : Nat} {f : Chip → α → Chip} (h : ∀ (t : Chip) (x : α), Chip.keepsPlace id t (f t x))
    (l : List α) (s : Chip) : Chip.keepsPlace id s (l.foldl f s) := by
  induction l generalizing s with
  | nil => exact Chip.keepsPlace_of_still ⟨rfl, rfl⟩ id
  | cons x rest ih => exact Chip.keepsPlace_trans (h s x) (ih _)

theorem Chip.updRun_keepsPlace (s : Chip) {id : Nat} {f : Run → Run} (hid : ∀ x, (f x).id = x.id)
    (hnext : ∀ x, (f x).nextStitch = x.nextStitch) (hpart : ∀ x, (f x).part = x.part) : Chip.keepsPlace id s (s.updRun id f) :=
  ⟨rfl, fun z hz => ⟨f z, Chip.run?_updRun hz hid, hnext z, hpart z⟩⟩

theorem Chip.leaveLoose_keepsPlace (s : Chip) (id sw c : Nat) : Chip.keepsPlace id s (s.leaveLoose id sw c) := by
  unfold Chip.leaveLoose
  split
  · exact Chip.keepsPlace_of_still ⟨rfl, rfl⟩ id
  · exact Chip.keepsPlace_trans (Chip.keepsPlace_of_still (s.updCells_still _ _) id)
      (Chip.updRun_keepsPlace _ (fun _ => rfl) (fun _ => rfl) (fun _ => rfl))

theorem Chip.enterLoose_keepsPlace (s : Chip) (id sw target c : Nat) : Chip.keepsPlace id s (s.enterLoose id sw target c) := by
  unfold Chip.enterLoose
  split
  · exact Chip.keepsPlace_of_still ⟨rfl, rfl⟩ id
  · exact Chip.keepsPlace_trans (Chip.keepsPlace_of_still (s.updCells_still _ _) id)
      (Chip.updRun_keepsPlace _ (fun _ => rfl) (fun _ => rfl) (fun _ => rfl))

theorem Chip.switchModes_keepsPlace (s : Chip) (r : Run) (c : Nat) : Chip.keepsPlace r.id s (s.switchModes r c) :=
  Chip.keepsPlace_trans (Chip.foldl_keepsPlace (fun t sw => t.leaveLoose_keepsPlace r.id sw c) r.loose s)
    (Chip.foldl_keepsPlace (fun t a => t.enterLoose_keepsPlace r.id a.1 a.2 c) r.armed _)

theorem Chip.commitAll_keepsPlace (s : Chip) (r : Run) : Chip.keepsPlace r.id s (s.commitAll r) := by
  unfold Chip.commitAll
  refine Chip.keepsPlace_trans (Chip.keepsPlace_of_still ?_ r.id)
    (Chip.updRun_keepsPlace _ (fun _ => rfl) (fun _ => rfl) (fun _ => rfl))
  simp

/-! ### A stitch point (R106) -/

section Stitch

variable {s v : Chip} {run : Nat} {r y : Run} {rec_ : StitchRec}

@[simp] theorem Run.repace_id (p : Nat) (r : Run) : (r.repace p).id = r.id := by unfold Run.repace; split <;> rfl
@[simp] theorem Run.repace_part (p : Nat) (r : Run) : (r.repace p).part = r.part := by unfold Run.repace; split <;> rfl
@[simp] theorem Run.repace_nextStitch (p : Nat) (r : Run) : (r.repace p).nextStitch = r.nextStitch := by
  unfold Run.repace; split <;> rfl

/-- A stitch point that finds nothing to stop the plan moves the run to the next one. -/
theorem Chip.commitStitch_advances (hrun : v.run? y.id = some y) (hfault : (v.missedMark y).commitFault y y.nextStitch = none)
    (hlinks : ((v.missedMark y).chooseLinks y).2 = none) (hstop : y.dueStop none = none) :
    (v.commitStitch y rec_).time = v.time
      ∧ ∃ z, (v.commitStitch y rec_).run? y.id = some z ∧ z.nextStitch = y.nextStitch + 1 ∧ z.part = y.part := by
  obtain ⟨y', hchosen⟩ : ∃ y', (v.missedMark y).chooseLinks y = (y', none) := ⟨_, Prod.ext rfl hlinks⟩
  unfold Chip.commitStitch
  simp only [hfault, hchosen, hstop]
  generalize hu : (if rec_.outputDone then _ else _ : Chip) = u
  have hplace : Chip.keepsPlace y.id v u := by
    have hcommit : Chip.keepsPlace y.id v (((v.missedMark y).commitAll y).moveResends y') :=
      Chip.keepsPlace_trans (Chip.keepsPlace_trans (Chip.keepsPlace_of_still (v.missedMark_still y) y.id)
        (Chip.commitAll_keepsPlace _ y)) (Chip.keepsPlace_of_still (Chip.moveResends_still _ y') y.id)
    refine Chip.keepsPlace_trans hcommit (Chip.keepsPlace_of_still ?_ y.id)
    rw [← hu]
    simp
  obtain ⟨htime, hfound⟩ := hplace
  obtain ⟨z, hz, hnext, hpart⟩ := hfound y hrun
  generalize hw : u.updRun y.id _ = w
  have hnow : w.time = v.time ∧ ∃ z', w.run? y.id = some z' ∧ z'.nextStitch = y.nextStitch + 1 ∧ z'.part = y.part := by
    rw [← hw]
    exact ⟨htime, _, Chip.run?_updRun hz (by simp [Chip.retiredNow]), by simp, by simp [Chip.retiredNow, hpart]⟩
  obtain ⟨hwtime, z', hz', hnext', hpart'⟩ := hnow
  obtain ⟨hstime, hkept⟩ := w.switchModes_keepsPlace y (y.at rec_.cycle)
  obtain ⟨z'', hz'', hnext'', hpart''⟩ := hkept z' hz'
  exact ⟨hstime.trans hwtime, z'', hz'', hnext''.trans hnext', hpart''.trans hpart'⟩

/-- The commit waits for the plan cycle of its stitch point. -/
theorem stitchCommit_eq (hrun : s.run? run = some r) (hissuing : r.state = .issuing)
    (hrec : r.plan.stitches[r.nextStitch]? = some rec_) (hkind : rec_.kind ≠ 2) (hwait : s.waitFree run (r.at rec_.cycle) = some v)
    (hy : v.run? run = some y) (hheld : y.broken = false) : stitchCommit run s = v.commitStitch y rec_ := by
  simp [stitchCommit, hrun, hissuing, hrec, hkind, Chip.atCommit, hwait, hy, hheld]

end Stitch

/-! ### The end of a plan (R108, R126) -/

section Final

variable {s v : Chip} {run : Nat} {r y : Run} {rec_ : StitchRec}

theorem planFinal_eq (hrun : s.run? run = some r) (hissuing : r.state = .issuing)
    (hrec : r.plan.stitches[r.nextStitch]? = some rec_) (hkind : rec_.kind = 2) (hwait : s.waitFree run (r.at rec_.cycle) = some v)
    (hy : v.run? run = some y) (hheld : y.broken = false) (hbreak : v.breaksAt y.part y.nextStitch = true → y.breakDone = true) :
    planFinal run s = v.finalStitch y := by
  have hpassed : ¬ (v.breaksAt y.part y.nextStitch = true ∧ y.breakDone = false) :=
    fun h => absurd (hbreak h.1) (by simp [h.2])
  simp [planFinal, hrun, hissuing, hrec, hkind, Chip.atCommit, hwait, hy, hheld, hpassed]

/-- A removed plan's store slots go; no time passes, and runs keep their numbers. -/
theorem Chip.dropPlan_ids (s : Chip) (p slot : Nat) :
    (s.dropPlan p slot).time = s.time ∧ (s.dropPlan p slot).runs.map Run.id = s.runs.map Run.id := by
  unfold Chip.dropPlan
  split
  · exact ⟨rfl, rfl⟩
  next pl hplan =>
    dsimp only
    generalize hkeep : Chip.updPart (s.keepShadow p) p _ = k
    have hids : k.time = s.time ∧ k.runs.map Run.id = s.runs.map Run.id := by
      rw [← hkeep]
      refine ⟨rfl, ?_⟩
      rw [Chip.updPart_runs, Chip.keepShadow, List.map_map]
      refine List.map_congr_left fun x _ => ?_
      simp only [Function.comp_apply]
      split <;> rfl
    simp [hids]

/-- A run that ends is no longer among the runs. -/
theorem Chip.endRun_gone (s : Chip) (r : Run) (st : Status) :
    (s.endRun r st).time = s.time ∧ r.id ∉ (s.endRun r st).runs.map Run.id := by
  unfold Chip.endRun
  dsimp only
  generalize hleft : Chip.updPart _ r.part _ = u
  have hu : u.time = s.time ∧ r.id ∉ u.runs.map Run.id := by
    rw [← hleft]
    have hother (x : Run) (hx : ¬ x.id = r.id) : ¬ (if x.spliced = some r.id then { x with spliced := none } else x).id = r.id := by
      split <;> exact hx
    simpa using fun x _ => hother x
  split
  · split
    · obtain ⟨htime, hids⟩ := u.dropPlan_ids r.part r.slot
      rw [htime, hids]
      exact hu
    · exact hu
  · exact hu

theorem Chip.finishRun_gone (s : Chip) (r : Run) : (s.finishRun r).time = s.time ∧ r.id ∉ (s.finishRun r).runs.map Run.id := by
  unfold Chip.finishRun
  dsimp only
  generalize hend : Chip.endRun _ r _ = u
  have hu : u.time = s.time ∧ r.id ∉ u.runs.map Run.id := by
    rw [← hend]
    refine ⟨(Chip.endRun_gone ..).1.trans ?_, (Chip.endRun_gone ..).2⟩
    simp
  split
  · simp [hu]
  · simp [hu]

theorem Chip.run?_of_gone {s : Chip} {id : Nat} (h : id ∉ s.runs.map Run.id) : s.run? id = none := by
  rw [Chip.run?, List.find?_eq_none]
  exact fun x hx hid => h (List.mem_map.2 ⟨x, hx, by simpa using hid⟩)

/-- FINAL with no stop due: no time passes, and the run drains or is over. -/
theorem Chip.finalStitch_drains (hrun : v.run? y.id = some y)
    (hstop : y.dueStop ((v.missedMark y).commitFault y y.nextStitch) = none) :
    (v.finalStitch y).time = v.time ∧ ∀ z, (v.finalStitch y).run? y.id = some z → z.state = .draining := by
  unfold Chip.finalStitch
  simp only [hstop]
  generalize hu : Chip.finalWork _ y = u
  have hplace : Chip.keepsPlace y.id v u := by
    refine Chip.keepsPlace_trans (Chip.keepsPlace_of_still (v.missedMark_still y) y.id)
      (Chip.keepsPlace_trans (Chip.commitAll_keepsPlace _ y) (Chip.keepsPlace_of_still ?_ y.id))
    rw [← hu]
    simp
  obtain ⟨htime, hfound⟩ := hplace
  obtain ⟨x, hx, -, -⟩ := hfound y hrun
  generalize hw : Chip.startNext _ y = w
  obtain ⟨hwtime, d, hd, hdrains⟩ : w.time = v.time ∧ ∃ d, w.run? y.id = some d ∧ d.state = .draining := by
    rw [← hw]
    refine ⟨(Chip.startNext_still _ y).1.trans htime, ?_⟩
    rw [Chip.run?_congr (Chip.startNext_still _ y).2]
    exact ⟨_, Chip.run?_updRun hx fun _ => rfl, rfl⟩
  rw [hd]
  dsimp only
  split
  · exact ⟨hwtime, fun z hz => by rw [hd] at hz; cases hz; exact hdrains⟩
  · obtain ⟨hftime, hgone⟩ := w.finishRun_gone d
    rw [Chip.run?_id hd] at hgone
    exact ⟨hftime.trans hwtime, fun z hz => by rw [Chip.run?_of_gone hgone] at hz; cases hz⟩

end Final

/-! ### Starts and splices (R108, R458) -/

section Start

variable {s u v w : Chip} {q : Request} {p p' : Plan}

/-- A request that nothing fails starts its plan on its swatches, in their start state. -/
theorem Chip.startRequest_begins (hfails : s.startFails q p = none) (hprepare : s.prepareStart q p = (u, p'))
    (hcommit : (u.commitShadow q.part p'.swatches).commitOwner q.part q.handles = v) (hrecheck : v.recheck q p' = (w, none)) :
    s.startRequest q p = (p'.swatches.foldl (fun t sw => (t.startCells p' true sw).idlePanels sw) w).beginRun q p' none := by
  simp only [Chip.startRequest, hfails, hprepare, hcommit, hrecheck]

/-- The first startable request of a partition's queue starts (R458). -/
theorem planStartEvent_begins {part : BitVec 6}
    (hfirst : (s.requests.find? fun q => q.part == part.toNat && s.startable q) = some q) (hplan : s.planOf q = some p)
    (hfails : s.startFails q p = none) (hprepare : s.prepareStart q p = (u, p'))
    (hcommit : (u.commitShadow q.part p'.swatches).commitOwner q.part q.handles = v) (hrecheck : v.recheck q p' = (w, none)) :
    planStartEvent part s = (p'.swatches.foldl (fun t sw => (t.startCells p' true sw).idlePanels sw) w).beginRun q p' none := by
  rw [← Chip.startRequest_begins hfails hprepare hcommit hrecheck]
  simp only [planStartEvent, hfirst, hplan]

/-- A fold of updates that each leave a reading alone leaves it alone. -/
theorem Chip.foldl_reads {α β : Type} (g : Chip → β) {f : Chip → α → Chip} (h : ∀ t x, g (f t x) = g t) (l : List α) (s : Chip) :
    g (l.foldl f s) = g s := by
  induction l generalizing s with
  | nil => rfl
  | cons x rest ih => exact (ih _).trans (h s x)

theorem Chip.setTasks_parts (s : Chip) (cn : Nat) (ts : List TaskSlot) : (s.setTasks cn ts).parts = s.parts := by
  rw [Chip.setTasks, Chip.updCell_parts]
  exact Chip.foldl_reads Chip.parts (f := fun t row => t.freePadRow cn row) (fun _ _ => rfl) _ s

/-- A ready request whose plan splices onto a run starts beside it, and the splice is counted. -/
theorem planSplice_begins {run : Nat} {r : Run} {out : StitchRec} (hrun : s.run? run = some r) (hout : r.spliceOut = some out)
    (hfirst : (s.requests.find? fun q => q.part == r.part && q.phase == .queued) = some q) (hplan : s.planOf q = some p)
    (hunspliced : ∀ x ∈ s.runs, x.spliced ≠ some r.id) (hready : s.readyButSwatches q p = true) (hok : s.spliceOk r out q p = true)
    (hfails : s.startFails q p = none) (hprepare : s.prepareStart q p = (u, p'))
    (hcommit : (u.commitShadow q.part p'.swatches).commitOwner q.part q.handles = v) (hrecheck : v.recheck q p' = (w, none)) :
    ∃ x : Chip, planSplice run s = x.beginRun q p' (some r) ∧ (x.part q.part).cnt.splices = (w.part q.part).cnt.splices + 1 := by
  have hnone : (s.runs.any fun x => x.spliced == some r.id) = false :=
    List.any_eq_false.2 fun x hx => by simpa using hunspliced x hx
  simp only [planSplice, hrun, hout, hfirst, hplan, hnone, hready, hok, hfails, hprepare, hcommit, hrecheck, Option.isSome_none,
    Bool.not_true, Bool.or_self, Bool.false_eq_true, if_false]
  refine ⟨_, rfl, ?_⟩
  rw [Chip.part_updCnt]
  refine congrArg (fun x : Partition => x.cnt.splices + 1)
    (Chip.part_congr (Chip.foldl_reads Chip.parts (fun t sw => ?_) p'.swatches w) q.part)
  exact Chip.foldl_reads Chip.parts (fun t _ => t.setTasks_parts _ _) _ t

end Start

/-- Settles O48: each event is its function on the package, whose outcome `planStartEvent_begins`, `planSplice_begins`,
`Chip.commitStitch_advances` and `Chip.finalStitch_drains` give. -/
theorem planEventsComplete : Obligations.PlanEventsComplete := by
  intro s hlive
  refine ⟨fun run r y rec_ v hrun hissuing hrec hkind hwait hy hheld hfault hlinks hstop => ?_,
    fun run r y rec_ v hrun hissuing hrec hkind hwait hy hheld hbreak hstop => ?_,
    fun part q p p' u v w hfirst hplan hfails hprepare hcommit hrecheck => ?_,
    fun run r out q p p' u v w hrun hout hfirst hplan hunspliced hready hok hfails hprepare hcommit hrecheck => ?_⟩
  · have heq := stitchCommit_eq hrun hissuing hrec hkind hwait hy hheld
    obtain rfl := Chip.run?_id hy
    obtain ⟨htime, z, hz, hnext, hpart⟩ := Chip.commitStitch_advances (rec_ := rec_) hy hfault hlinks hstop
    rw [← heq] at htime hz
    exact ⟨_, z, State.on_live hlive _, hz, hnext, hpart, htime⟩
  · have heq := planFinal_eq hrun hissuing hrec hkind hwait hy hheld hbreak
    obtain rfl := Chip.run?_id hy
    obtain ⟨htime, hdrains⟩ := Chip.finalStitch_drains hy hstop
    rw [← heq] at htime hdrains
    exact ⟨_, State.on_live hlive _, htime, hdrains⟩
  · rw [← planStartEvent_begins hfirst hplan hfails hprepare hcommit hrecheck]
    exact State.on_live hlive _
  · obtain ⟨x, heq, hcount⟩ := planSplice_begins hrun hout hfirst hplan hunspliced hready hok hfails hprepare hcommit hrecheck
    exact ⟨x, (State.on_live hlive _).trans (by rw [heq]), hcount⟩

end Sys2Proof.Machine
end

section
/-! # The Sync slot (R101, R107, R145, R195): STITCH, BARRIER, YOKE, WEAVE and EVENT of a slot that issues -/

namespace Sys2Proof.Machine

section Sync

variable {s t : Chip} {i : Issuer} {k : Slot}

/-- A slot issues in the run that its issuer names. -/
theorem Chip.slotOf_run (hslot : s.slotOf i = (t, some k)) : t.run? k.r.id = some k.r := by
  obtain ⟨-, -, -, hrun, -⟩ := Chip.slotOf_some hslot
  rw [Chip.run?_id hrun, hrun]

theorem Chip.slotOf_issuer (hslot : s.slotOf i = (t, some k)) : k.i = i := (Chip.slotOf_some hslot).2.1

/-! ### STITCH (R107) -/

theorem syncStitch_marks (hslot : s.slotOf i = (t, some k)) {index : BitVec 12} {x : StitchRec}
    (hrec : k.r.plan.stitches[index.toNat]? = some x) (hcycle : x.cycle = k.r.planCycle) :
    syncStitch i index s = t.updRun k.r.id fun r => { r with marks := sinsert index.toNat r.marks } := by
  rw [syncStitch, Chip.issue_some _ hslot]
  simp only [hrec, hcycle, if_true]

theorem syncStitch_misses (hslot : s.slotOf i = (t, some k)) {index : BitVec 12}
    (hmiss : ∀ x, k.r.plan.stitches[index.toNat]? = some x → x.cycle ≠ k.r.planCycle) :
    syncStitch i index s
      = (t.updRegs k.r.part fun g => { g with stitchMiss := g.stitchMiss + 1 }).hazard k.r 3 k.lead k.bundle := by
  rw [syncStitch, Chip.issue_some _ hslot]
  cases hrec : k.r.plan.stitches[index.toNat]? with
  | none => rfl
  | some x => simp only [hmiss x hrec, if_false]

/-! ### BARRIER (R145) -/

theorem syncBarrier_ganged (hslot : s.slotOf i = (t, some k)) {scope : BitVec 2} (hscope : scope.toNat < 2) (hganged : i.cell = none) :
    syncBarrier i scope false s = t := by
  have hloose : k.isLoose = false := by rw [Slot.isLoose, Chip.slotOf_issuer hslot, hganged, Option.isSome_none]
  rw [syncBarrier, Chip.issue_some _ hslot]
  simp [Nat.not_le.2 hscope, hloose]

/-- A loose BARRIER parks its cell, and releases the scope once every cell of it has arrived. -/
theorem syncBarrier_loose (hslot : s.slotOf i = (t, some k)) {scope : BitVec 2} {atEnd : Bool} (hscope : scope.toNat < 2)
    (hloose : i.cell.isSome = true) {u : Chip}
    (hu : u = t.updCell k.lead fun c => { c with mode := .waiting (scope.toNat == 1) atEnd }) :
    syncBarrier i scope atEnd s
      = if (barrierScope k.lead (scope.toNat == 1)).all fun c => (u.cell c).arrived (scope.toNat == 1)
        then u.updCells (barrierScope k.lead (scope.toNat == 1)) fun _ c => c.release (k.now + if scope.toNat == 1 then 10 else 6)
        else u := by
  have hk : k.isLoose = true := by rw [Slot.isLoose, Chip.slotOf_issuer hslot, hloose]
  rw [syncBarrier, Chip.issue_some _ hslot, hu]
  simp only [Nat.not_le.2 hscope, hk, decide_false, Bool.not_true, Bool.false_and, Bool.or_self, Bool.false_eq_true, if_false]

theorem syncBarrier_reserved (hslot : s.slotOf i = (t, some k)) {scope : BitVec 2} {atEnd : Bool}
    (hform : 2 ≤ scope.toNat ∨ i.cell = none ∧ atEnd = true) : syncBarrier i scope atEnd s = k.reserved t := by
  rw [syncBarrier, Chip.issue_some _ hslot]
  rcases hform with hscope | ⟨hganged, hend⟩
  · simp [hscope]
  · have hloose : k.isLoose = false := by rw [Slot.isLoose, Chip.slotOf_issuer hslot, hganged, Option.isSome_none]
    simp [hloose, hend]

/-! ### YOKE (R195) -/

/-- The moves of a swatch once a slot has taken lanes of a Yoke entry: those still live, then the lanes' own. -/
def Slot.movesWith (k : Slot) (t : Chip) (lanes : List (YokeLane × Nat)) : List YokeMove :=
  ((t.swatch k.i.sw.toNat).moves.filter fun m => m.live k.now) ++ lanes.map fun l => k.yokeMove t k.i.sw.toNat l.2 l.1

/-- The transfers of lanes start; beyond the bound of 16 they hold the plan (R195). -/
def Slot.takeLanes (k : Slot) (t : Chip) (lanes : List (YokeLane × Nat)) : Chip :=
  (if lanes.isEmpty then t
    else t.overflow k.r.id (queueDemand 16 k.now ((k.movesWith t lanes).map fun m => m.lastLand + 1)) k.lead k.bundle).updSwatch
    k.i.sw.toNat fun w => { w with moves := k.movesWith t lanes }

theorem Slot.takeLanes_frame (k : Slot) (t : Chip) (lanes : List (YokeLane × Nat)) :
    (k.takeLanes t lanes).mem = t.mem ∧ (k.takeLanes t lanes).cells = t.cells
      ∧ ((k.takeLanes t lanes).swatch k.i.sw.toNat).moves = k.movesWith t lanes := by
  have hheld (demand : List (Nat × Nat)) : t.counted (if lanes.isEmpty then t else t.overflow k.r.id demand k.lead k.bundle) := by
    split
    · exact t.counted_refl
    · exact Chip.overflow_counted ..
  exact ⟨(hheld _).moved.mem, (hheld _).cells, by rw [Slot.takeLanes, Chip.swatch_updSwatch]⟩

/-- YOKE takes the enabled lanes of its entry; a loose issuer those of the panel whose local cell 0 it is. -/
theorem syncYoke_eq (hslot : s.slotOf i = (t, some k)) (entry : BitVec 12) :
    syncYoke i entry s = k.takeLanes t ((mget [] entry.toNat (t.swatch i.sw.toNat).yoke).zipIdx.filter fun l =>
      l.1.enabled && l.1.words != 0 && i.cell.all fun c => c.toNat % 64 == 0 && l.2 == c.toNat / 64) := by
  obtain rfl := Chip.slotOf_issuer hslot
  rw [syncYoke, Chip.issue_some _ hslot]
  cases hcell : k.i.cell with
  | none =>
    simp only [Option.all_none, Bool.and_true]
    rfl
  | some c =>
    simp only [Option.all_some, List.filter_filter, Bool.and_comm]
    rfl

/-! ### WEAVE (R101) -/

theorem syncWeave_starts (hslot : s.slotOf i = (t, some k)) {entry : BitVec 12} {e : WeaveEntry}
    (hentry : k.r.weaveEntry entry.toNat = some e) (hswatch : swatchOf (k.r.plan.cellOf e.src) = i.sw.toNat)
    (hcell : ∀ c, i.cell = some c → c.toNat = k.r.plan.cellOf e.src % 512) (hwords : e.words ≠ 0) :
    ∃ (z : Run) (m : WeaveMove), (syncWeave i entry s).run? k.r.id = some z
      ∧ z.weaves = k.r.weaves.filter (k.r.keepsMove k.now) ++ [m] ∧ m.entry = entry.toNat ∧ m.bundle = k.bundle ∧ m.issued = k.now
      ∧ m.landed = 0 ∧ (m.src, m.srcRoom) = t.weaveRows (k.r.plan.cellOf e.src) e.srow
      ∧ (m.dst, m.dstRoom) = t.weaveRows (k.r.plan.cellOf e.dst) e.drow ∧ (syncWeave i entry s).cells = t.cells
      ∧ (syncWeave i entry s).mem = t.mem := by
  have hsource : (i.cell.map (·.toNat)).all (fun c => c == k.r.plan.cellOf e.src % 512) = true := by
    cases hc : i.cell with
    | none => rfl
    | some c => simpa using hcell c hc
  rw [syncWeave, Chip.issue_some _ hslot]
  simp only [hentry, hswatch, hsource, hwords, BEq.rfl, Bool.and_self, Bool.not_true, decide_false, Bool.or_self, Bool.false_eq_true,
    if_false]
  exact ⟨_, _, Chip.run?_updRun (Chip.slotOf_run hslot) fun _ => rfl, rfl, rfl, rfl, rfl, rfl, rfl, rfl, rfl, rfl⟩

/-- WEAVE does nothing on a swatch that is not its entry's source. -/
theorem syncWeave_elsewhere (hslot : s.slotOf i = (t, some k)) {entry : BitVec 12}
    (helse : ∀ e, k.r.weaveEntry entry.toNat = some e → swatchOf (k.r.plan.cellOf e.src) ≠ i.sw.toNat ∨ e.words = 0) :
    syncWeave i entry s = t := by
  rw [syncWeave, Chip.issue_some _ hslot]
  cases hentry : k.r.weaveEntry entry.toNat with
  | none => rfl
  | some e =>
    rcases helse e hentry with hswatch | hwords
    · simp [hswatch]
    · simp [hwords]

/-! ### EVENT -/

theorem syncEvent_lands (hslot : s.slotOf i = (t, some k)) (counter : BitVec 3) (hcells : k.cells ≠ []) :
    syncEvent i counter s = t.updRun k.r.id fun r => { r with evs := r.evs ++ [(k.now + 3, counter.toNat)] } := by
  rw [syncEvent, Chip.issue_some _ hslot]
  simp [hcells]

/-- An EVENT that no cell issues does nothing. -/
theorem syncEvent_unissued (hslot : s.slotOf i = (t, some k)) (counter : BitVec 3) (hcells : k.cells = []) :
    syncEvent i counter s = t := by
  rw [syncEvent, Chip.issue_some _ hslot]
  simp [hcells]

end Sync

/-- Settles O55: each Sync command is its function on the package, whose outcome that function's own lemmas give. -/
theorem syncCommandsComplete : Obligations.SyncCommandsComplete := by
  intro s i k t hlive hslot
  refine ⟨fun index x hrec hcycle => ?_, fun index hmiss => ?_, fun scope hscope hganged => ?_, fun scope atEnd u hscope hloose hu => ?_,
    fun scope atEnd hform => ?_, fun entry lanes hlanes => ⟨_, State.on_live hlive _, ?_⟩,
    fun entry e hentry hswatch hcell hwords => ?_, fun entry helse => ?_, fun counter hcells => ?_, fun counter hcells => ?_⟩
  · rw [← syncStitch_marks hslot hrec hcycle]
    exact State.on_live hlive _
  · rw [← syncStitch_misses hslot hmiss]
    exact State.on_live hlive _
  · exact (State.on_live hlive _).trans (by rw [syncBarrier_ganged hslot hscope hganged])
  · rw [← syncBarrier_loose hslot hscope hloose hu]
    exact State.on_live hlive _
  · rw [← syncBarrier_reserved hslot hform]
    exact State.on_live hlive _
  · obtain rfl := Chip.slotOf_issuer hslot
    rw [State.put_chip, syncYoke_eq hslot, ← hlanes]
    exact k.takeLanes_frame t lanes
  · obtain ⟨z, m, hstarts⟩ := syncWeave_starts hslot hentry hswatch hcell hwords
    exact ⟨_, z, m, State.on_live hlive _, hstarts⟩
  · exact (State.on_live hlive _).trans (by rw [syncWeave_elsewhere hslot helse])
  · rw [← syncEvent_lands hslot counter hcells]
    exact State.on_live hlive _
  · exact (State.on_live hlive _).trans (by rw [syncEvent_unissued hslot counter hcells])

end Sys2Proof.Machine
end

section
/-! # Flits (R101, R105, R195, R300, R303): Yoke words, Weave words, Seam flits and control flits at their cycles -/

namespace Sys2Proof.Machine

theorem Chip.atCycle_eq {s t : Chip} {id c : Nat} (h : s.waitRun id c = some t) (f : Chip → Chip) : s.atCycle id c f = f t := by
  simp only [Chip.atCycle, h]

/-! ### Control flits (R105) -/

section Control

variable (s : Chip) (panel : BitVec 9)

theorem Panel.flying_eq_zero {p : Panel} {dir : Nat} : p.flying dir = 0 ↔ mget 0 dir p.control = 0 := by
  simp only [Panel.flying]
  omega

/-- A flit that reaches its panel leaves the inward direction, and one answers it outward. -/
theorem controlFlitDeliver_reaches (h : mget 0 0 (s.panel panel.toNat).control ≠ 0) :
    controlFlitDeliver panel s
      = Chip.sendControl (s.updPanel panel.toNat fun p => { p with control := mupd 0 0 (· - 1) p.control }) panel.toNat 1 := by
  have hflying : ((s.panel panel.toNat).flying 0 != 0) = true := by simpa [Panel.flying_eq_zero] using h
  simp only [controlFlitDeliver, hflying, if_true]

/-- With none inward, a flit leaves the outward direction. -/
theorem controlFlitDeliver_leaves (h : mget 0 0 (s.panel panel.toNat).control = 0) :
    controlFlitDeliver panel s = s.updPanel panel.toNat fun p => { p with control := mupd 0 1 (· - 1) p.control } := by
  have hflying : ((s.panel panel.toNat).flying 0 != 0) = false := by simpa [Panel.flying_eq_zero] using h
  simp only [controlFlitDeliver, hflying, Bool.false_eq_true, if_false]

/-- A control flit touches the control network of its panel alone. -/
theorem controlFlitDeliver_moves (c : SMap Nat) (hc : c = (s.panel panel.toNat).control) :
    (controlFlitDeliver panel s).cells = s.cells ∧ (controlFlitDeliver panel s).runs = s.runs
      ∧ (controlFlitDeliver panel s).mem = s.mem ∧ (controlFlitDeliver panel s).time = s.time
      ∧ (mget 0 0 c ≠ 0 → mget 0 0 ((controlFlitDeliver panel s).panel panel.toNat).control = mget 0 0 c - 1
          ∧ mget 0 1 ((controlFlitDeliver panel s).panel panel.toNat).control = mget 0 1 c + 1)
      ∧ (mget 0 0 c = 0 → mget 0 1 ((controlFlitDeliver panel s).panel panel.toNat).control = mget 0 1 c - 1) := by
  subst hc
  by_cases hin : mget 0 0 (s.panel panel.toNat).control = 0
  · rw [controlFlitDeliver_leaves s panel hin]
    refine ⟨rfl, rfl, rfl, rfl, fun h => absurd hin h, fun _ => ?_⟩
    rw [Chip.panel_updPanel, mget_mupd_self]
  · rw [controlFlitDeliver_reaches s panel hin]
    refine ⟨rfl, rfl, rfl, rfl, fun _ => ?_, fun h => absurd h hin⟩
    rw [Chip.sendControl, Chip.panel_updPanel, Chip.panel_updPanel]
    exact ⟨by rw [mget_mupd_other _ (by decide), mget_mupd_self], by rw [mget_mupd_self, mget_mupd_other _ (by decide)]⟩

end Control

/-! ### Yoke words (R195) -/

/-- The next word of a Yoke move has passed its source, and a counter of the partition says what became of it. -/
def Chip.yokePassed (t : Chip) (sw idx : Nat) (m : YokeMove) (part : Nat) (count : PtnCounters → PtnCounters) : Chip :=
  (t.updSwatch sw fun w => { w with moves := lset w.moves idx { m with done := m.done + 1 } }).updCnt part count

theorem Chip.yokePassed_frame (t : Chip) (sw idx : Nat) (m : YokeMove) (part : Nat) (count : PtnCounters → PtnCounters) :
    (t.yokePassed sw idx m part count).cells = t.cells
      ∧ ((t.yokePassed sw idx m part count).part part).cnt = count (t.part part).cnt
      ∧ ((t.yokePassed sw idx m part count).swatch sw).moves = lset (t.swatch sw).moves idx { m with done := m.done + 1 } := by
  refine ⟨rfl, ?_, ?_⟩
  · rw [Chip.yokePassed, Chip.part_updCnt]
    rfl
  · have hcount (u : Chip) : (u.updCnt part count).swatch sw = u.swatch sw := rfl
    rw [Chip.yokePassed, hcount, Chip.swatch_updSwatch]

section Yoke

variable {s t : Chip} {i : Issuer} {panel : BitVec 3} {idx src : Nat} {m : YokeMove} {r : Run}

/-- A word that loses its ports is dropped, counted and noted as a hazard. -/
theorem yokeWordEvent_drops (hnext : yokeNext (s.swatch i.sw.toNat).moves i.run panel.toNat = some (idx, m))
    (hwait : s.waitRun i.run (m.issued + 1 + m.done) = some t) (hrun : t.run? i.run = some r)
    (hsrc : src = i.sw.toNat * 512 + panel.toNat * 64 + m.lane.scell)
    (hloses : m.wins ((t.swatch i.sw.toNat).moves.take idx) m.done = false) :
    yokeWordEvent i panel s
      = (t.yokePassed i.sw.toNat idx m r.part fun c => { c with yokeDrop := c.yokeDrop + 1 }).hazard r 4 src m.bundle := by
  simp only [yokeWordEvent, hnext, Chip.atCycle_eq hwait, hrun, hloses, hsrc, Bool.not_false, if_true]
  rfl

/-- A word that wins its ports, whose rows lie inside their tasks and hold no poison, is read and written to its destinations. -/
theorem yokeWordEvent_moves {v : Chip} {rows : List Row} {origin : Option AutoTag}
    (hnext : yokeNext (s.swatch i.sw.toNat).moves i.run panel.toNat = some (idx, m))
    (hwait : s.waitRun i.run (m.issued + 1 + m.done) = some t) (hrun : t.run? i.run = some r)
    (hsrc : src = i.sw.toNat * 512 + panel.toNat * 64 + m.lane.scell)
    (hwins : m.wins ((t.swatch i.sw.toNat).moves.take idx) m.done = true) (hroom : 4 * m.done + 4 ≤ m.srcRoom)
    (hdst : ∀ d ∈ m.dst, 4 * m.done + 4 ≤ d.2.2) (hread : t.yokeRead r src (m.issued + 1 + m.done) m.done m = (v, rows, false, origin)) :
    yokeWordEvent i panel s
      = (v.yokePassed i.sw.toNat idx m r.part fun c => { c with yokeWords := c.yokeWords + 1 }).yokeWrite r m m.done rows
        origin := by
  have hinside : (m.dst.find? fun d => decide (d.2.2 < 4 * m.done + 4)) = none :=
    List.find?_eq_none.2 fun d hd => by simpa using hdst d hd
  subst hsrc
  simp only [yokeWordEvent, hnext, Chip.atCycle_eq hwait, hrun, hwins, Nat.not_lt.2 hroom, hinside, hread, Bool.not_true,
    Bool.false_eq_true, if_false]
  rfl

end Yoke

/-! ### Weave words (R101) -/

section Weave

variable {s t u : Chip} {run idx : Nat} {entry : BitVec 12} {r0 r : Run} {e : WeaveEntry} {m : WeaveMove}

theorem weaveFlitLand_word (hrun0 : s.run? run = some r0) (hentry : r0.weaveEntry entry.toNat = some e) (hroute : e.route ≠ 2)
    (hfirst : (r0.weaves.findIdx? fun m => m.entry == entry.toNat && m.landed < r0.words m) = some idx) (hmove : r0.weaves[idx]? = some m)
    (hwait : s.waitRun run (m.issued + 1 + m.landed) = some t) (hrun : t.run? run = some r) :
    weaveFlitLand run entry s = t.landWord r idx e m := by
  simp only [weaveFlitLand, hrun0, hentry, hroute, hfirst, hmove, Chip.atCycle_eq hwait, hrun, if_false]

theorem weaveFlitLand_flit {f : WeaveFlit} (hrun0 : s.run? run = some r0) (hentry : r0.weaveEntry entry.toNat = some e)
    (hroute : e.route = 2) (hfirst : (r0.flits.find? fun f => f.entry == entry.toNat && f.due.isSome) = some f)
    (hwait : s.waitRun run (f.due.getD 0) = some t) (hrun : t.run? run = some r) :
    weaveFlitLand run entry s = t.landFlit r e f := by
  simp only [weaveFlitLand, hrun0, hentry, hroute, hfirst, Chip.atCycle_eq hwait, hrun, if_true]

/-- A word inside its tasks that meets no Seam flit and wins its links is read and written after its route's latency. -/
theorem Chip.landWord_lands {rows : List Row} {ps : List Bool} (hinside : m.outside (r.plan.cellOf e.src) (r.plan.cellOf e.dst) m.landed = none)
    (hmeets : e.route = 1 → t.seamMeets r (r.plan.cellOf e.dst) (m.issued + 11 + m.landed) (t.startKey r r m.entry m.issued) = false)
    (hwins : t.weaveWins r idx m.landed = true)
    (hread : (t.updMove r.id idx fun x => { x with landed := m.landed + 1, sent := m.landed + 1, read := m.landed + 1 }).weaveRead r e m
      m.landed = (u, rows, ps)) :
    t.landWord r idx e m = u.weaveWrite r e m m.landed (m.issued + 1 + m.landed
      + if e.route = 0 then meshLatency (r.plan.cellOf e.src) (r.plan.cellOf e.dst) else 18) rows ps := by
  have hkept : (e.route == 1 && t.seamMeets r (r.plan.cellOf e.dst) (m.issued + 11 + m.landed) (t.startKey r r m.entry m.issued))
      = false := by
    by_cases hroute : e.route = 1
    · rw [hmeets hroute, Bool.and_false]
    · simp [hroute]
  simp only [Chip.landWord, hinside, hkept, hwins, hread, Bool.not_true, Bool.or_self, Bool.false_eq_true, if_false]

end Weave

/-! ### Seam flits (R300, R303) -/

section Seam

variable {s t : Chip} {run : Nat} {vlink : BitVec 5} {r0 r : Run} {f : WeaveFlit}

/-- A flit that is ready takes the next slot of its plan's frame on the link (R300). -/
theorem Chip.departFlit_departs {v c : Nat} {r1 r2 : Run} (hrun0 : s.run? run = some r0) (hready : r0.departing v = some f)
    (hslot : r0.takeSlot (resKey 4 v) (s.linkFrame r0 v).1 (s.linkFrame r0 v).2 (f.issued + 9 + f.word) = some (r1, c))
    (hwait : s.waitRun run c = some t) (hrun : t.run? run = some r)
    (hslot' : r.takeSlot (resKey 4 v) (s.linkFrame r0 v).1 (s.linkFrame r0 v).2 (f.issued + 9 + f.word) = some (r2, c)) :
    s.departFlit run v = t.updRun run fun r => { r with
      slots := r2.slots, flits := r.flits.map fun x => if x == f then { x with departed := some c } else x } := by
  simp only [Chip.departFlit, hrun0, hready, hslot, Chip.atCycle_eq hwait, hrun, hslot']

theorem seamFlitDepart_departs {c : Nat} {r1 r2 : Run} (hrun0 : s.run? run = some r0) (hready : r0.departing vlink.toNat = some f)
    (hslot : r0.takeSlot (resKey 4 vlink.toNat) (s.linkFrame r0 vlink.toNat).1 (s.linkFrame r0 vlink.toNat).2
      (f.issued + 9 + f.word) = some (r1, c))
    (hwait : s.waitRun run c = some t) (hrun : t.run? run = some r)
    (hslot' : r.takeSlot (resKey 4 vlink.toNat) (s.linkFrame r0 vlink.toNat).1 (s.linkFrame r0 vlink.toNat).2
      (f.issued + 9 + f.word) = some (r2, c)) :
    seamFlitDepart run vlink s = (t.updRun run fun r => { r with
      slots := r2.slots, flits := r.flits.map fun x => if x == f then { x with departed := some c } else x }).watch run
        (.credits vlink.toNat) r0.markAt.1 r0.markAt.2 := by
  simp only [seamFlitDepart, hrun0, hready, Option.isSome_some, if_true,
    Chip.departFlit_departs hrun0 hready hslot hwait hrun hslot']

/-- A flit that no other meets on its way is to land 8 cycles after its delivery, λ after it departed (R303). -/
theorem seamFlitDeliver_delivers {lam : Nat} {e : WeaveEntry} (hrun0 : s.run? run = some r0)
    (hflying : (r0.flits.find? fun f => f.vlink == vlink.toNat && f.departed.isSome && f.due.isNone) = some f)
    (hentry : r0.weaveEntry f.entry = some e) (hlam : lam = s.lambda r0 e)
    (hwait : s.waitRun run (f.departed.getD 0 + lam) = some t) (hrun : t.run? run = some r)
    (hmode : (t.seam (Chip.flitPort r0 e)).mode = 0
      ∨ (t.seam (Chip.flitPort r0 e)).mode = 1 ∧ ((r0.plan.seam[vlink.toNat]?).map (·.assumed)).getD 0 ≠ 0)
    (hseam : t.seamMeets r (r.plan.cellOf e.dst) (f.departed.getD 0 + lam) (t.startKey r r f.entry f.issued) = false)
    (hexpress : t.expressMeets r (r.plan.cellOf e.dst) (f.departed.getD 0 + lam) (t.startKey r r f.entry f.issued) = false) :
    seamFlitDeliver run vlink false s = t.updRun run fun r => { r with
      flits := r.flits.map fun x => if x == f then { x with due := some (f.departed.getD 0 + lam + 8) } else x } := by
  have hopen : ((t.seam (Chip.flitPort r0 e)).mode == 2
      || ((t.seam (Chip.flitPort r0 e)).mode == 1 && ((r0.plan.seam[vlink.toNat]?).map (·.assumed)).getD 0 == 0)) = false := by
    rcases hmode with hmode | ⟨hmode, hassumed⟩
    · simp [hmode]
    · simp [hmode, hassumed]
  subst hlam
  simp only [seamFlitDeliver, hrun0, hflying, hentry, Chip.atCycle_eq hwait, hrun, hopen, hseam, hexpress, Bool.or_self,
    Bool.false_eq_true, if_false]

/-- Without corrected lanes, an arrival is its delivery. -/
theorem seamFlitArrive_without_corrections : seamFlitArrive run vlink false [] s = seamFlitDeliver run vlink false s := by
  unfold seamFlitArrive
  dsimp only
  split <;> rfl

end Seam

/-- Settles O60: each event is its function on the package, whose outcome that function's own lemmas give. -/
theorem flitCommandsComplete : Obligations.FlitCommandsComplete := by
  intro s hlive
  refine ⟨fun panel => ⟨_, State.on_live hlive _, controlFlitDeliver_moves s.chip panel _ rfl⟩,
    fun i panel idx src m t r hnext hwait hrun hsrc => ⟨fun hloses => ?_, fun v rows origin hwins hroom hdst hread => ?_⟩,
    fun run idx entry r0 r e m t hrun0 hentry hroute hfirst hmove hwait hrun => ?_,
    fun run entry r0 r e f t hrun0 hentry hroute hfirst hwait hrun => ?_,
    fun t r idx e m u rows ps hinside hmeets hwins hread => Chip.landWord_lands hinside hmeets hwins hread,
    fun run c vlink r0 r r1 r2 f t u hrun0 hready hslot hwait hrun hslot' hu => ?_,
    fun run lam vlink r0 r f e t hrun0 hflying hentry hlam hwait hrun hmode hseam hexpress => ?_⟩
  · have hdrops := yokeWordEvent_drops hnext hwait hrun hsrc hloses
    obtain ⟨hcells, hcount, hmoves⟩ := t.yokePassed_frame i.sw.toNat idx m r.part fun c => { c with yokeDrop := c.yokeDrop + 1 }
    exact ⟨_, (State.on_live hlive _).trans (by rw [hdrops]), hcells, congrArg PtnCounters.yokeDrop hcount, hmoves⟩
  · have hmoved := yokeWordEvent_moves hnext hwait hrun hsrc hwins hroom hdst hread
    obtain ⟨hcells, hcount, hmoves⟩ := v.yokePassed_frame i.sw.toNat idx m r.part fun c => { c with yokeWords := c.yokeWords + 1 }
    exact ⟨_, (State.on_live hlive _).trans (by rw [hmoved]), hcells, congrArg PtnCounters.yokeWords hcount, hmoves⟩
  · rw [← weaveFlitLand_word hrun0 hentry hroute hfirst hmove hwait hrun]
    exact State.on_live hlive _
  · rw [← weaveFlitLand_flit hrun0 hentry hroute hfirst hwait hrun]
    exact State.on_live hlive _
  · rw [hu, ← seamFlitDepart_departs hrun0 hready hslot hwait hrun hslot']
    exact State.on_live hlive _
  · rw [← seamFlitDeliver_delivers hrun0 hflying hentry hlam hwait hrun hmode hseam hexpress, ← seamFlitArrive_without_corrections]
    exact State.on_live hlive _

end Sys2Proof.Machine
end

section
/-! # Scriber results (R131, R132, R136): when a result is read from its destination, and what a computation leaves alone -/

namespace Sys2Proof.Machine

/-! ### Register keys (R131) -/

@[simp] theorem regKey_zero (cwp : Nat) : regKey cwp 0 = 0 := rfl

theorem regKey_eq_zero {cwp r : Nat} : regKey cwp r = 0 ↔ r = 0 := by
  unfold regKey; split <;> omega

theorem regKey_inj {cwp a b : Nat} : regKey cwp a = regKey cwp b ↔ a = b := by
  unfold regKey; split <;> split <;> omega

section Keys

variable (c : Scriber)

/-- A write to g0 is discarded. -/
theorem Scriber.putKey_zero (v : Tagged) : c.putKey 0 v = c := if_pos rfl

theorem Scriber.putKey_eq (k : Nat) (v : Tagged) : ∃ regs, c.putKey k v = { c with regs := regs } := by
  unfold Scriber.putKey
  split
  · exact ⟨c.regs, rfl⟩
  · exact ⟨_, rfl⟩

@[simp] theorem Scriber.putKey_cwp (k : Nat) (v : Tagged) : (c.putKey k v).cwp = c.cwp := by
  obtain ⟨regs, h⟩ := c.putKey_eq k v
  rw [h]

theorem Scriber.getKey_putKey_self {k : Nat} (hk : k ≠ 0) (v : Tagged) : (c.putKey k v).getKey k = v := by
  simp [Scriber.putKey, Scriber.getKey, hk]

theorem Scriber.getKey_putKey_other {j k : Nat} (h : j ≠ k) (v : Tagged) : (c.putKey k v).getKey j = c.getKey j := by
  unfold Scriber.putKey
  split
  · rfl
  · exact mget_mset_other _ h _ _

end Keys

/-! ### One result in flight (R132) -/

theorem Scriber.settle_nil {c : Scriber} (h : c.lands = []) (now : Nat) : c.settle now = c := by
  cases c; subst h; rfl

theorem Scriber.settle_singleton (c : Scriber) (l : RegLand) (now : Nat) :
    Scriber.settle now { c with lands := [l] }
      = if l.due < now then ({ c with lands := [] } : Scriber).putKey l.reg l.val else { c with lands := [l] } := by
  by_cases hdue : l.due < now <;> simp [Scriber.settle, hdue]

section OneResult

variable {c : Cell} {now lat rd x : Nat} {v : Tagged}

theorem Cell.reg_of_nil (hnil : c.scr.lands = []) (r : Nat) : c.reg now r = c.scr.getKey (regKey c.scr.cwp r) := by
  simp only [Cell.reg, Scriber.settle_nil hnil]

theorem Cell.land_scr_of_nil (hnil : c.scr.lands = []) :
    (c.land now lat rd v).scr = { c.scr with lands := [⟨regKey c.scr.cwp rd, v, now + lat - 1, c.seq, none⟩] } := by
  simp only [Cell.land, Scriber.settle_nil hnil, hnil, regInsert]

/-- From now + lat on the result is in its register. -/
theorem Cell.reg_land_landed (hnil : c.scr.lands = []) (hlat : 1 ≤ lat) (hx : now + lat ≤ x) (r : Nat) :
    (c.land now lat rd v).reg x r = (c.scr.putKey (regKey c.scr.cwp rd) v).getKey (regKey c.scr.cwp r) := by
  have hdue : now + lat - 1 < x := by omega
  have hscr : ({ c.scr with lands := [] } : Scriber) = c.scr := by rw [← hnil]
  simp only [Cell.reg, Cell.land_scr_of_nil hnil, Scriber.settle_singleton, hdue, if_true, hscr, Scriber.putKey_cwp]

/-- Before now + lat every register reads as it did at issue. -/
theorem Cell.reg_land_pending (hnil : c.scr.lands = []) (hx : x < now + lat) (r : Nat) :
    (c.land now lat rd v).reg x r = c.reg now r := by
  have hdue : ¬ now + lat - 1 < x := by omega
  rw [Cell.reg_of_nil hnil]
  simp only [Cell.reg, Cell.land_scr_of_nil hnil, Scriber.settle_singleton, hdue, if_false]
  rfl

/-- A result leaves every other register of the window alone. -/
theorem Cell.reg_land_other (hnil : c.scr.lands = []) (hlat : 1 ≤ lat) {r : Nat} (hr : r ≠ rd) :
    (c.land now lat rd v).reg x r = c.reg now r := by
  rcases Nat.lt_or_ge x (now + lat) with hx | hx
  · exact Cell.reg_land_pending hnil hx r
  · rw [Cell.reg_land_landed hnil hlat hx, c.scr.getKey_putKey_other (mt regKey_inj.1 hr), Cell.reg_of_nil hnil]

end OneResult

/-- Settles O53: a landed result by `Cell.reg_land_landed`, one in flight by `Cell.reg_land_pending`; g0 is a register that no result is
written to, or another one than rd. -/
theorem resultLandsAfterItsLatency : Obligations.ResultLandsAfterItsLatency := by
  intro c now lat rd x r v hnil hlat _ _ hzero
  have hg0 : c.reg now 0 = ⟨0, false⟩ := by rw [Cell.reg_of_nil hnil, regKey_zero, hzero]
  have hlands : now + lat ≤ x → (c.land now lat rd v).reg x rd = if rd = 0 then ⟨0, false⟩ else v := by
    intro hx
    rw [Cell.reg_land_landed hnil hlat hx]
    split
    next hrd => rw [hrd, regKey_zero, Scriber.putKey_zero, hzero]
    next hrd => exact c.scr.getKey_putKey_self (mt regKey_eq_zero.1 hrd) v
  have hpending : x < now + lat → (c.land now lat rd v).reg x rd = c.reg now rd := fun hx => Cell.reg_land_pending hnil hx rd
  refine ⟨hlands, hpending, Cell.reg_land_other hnil hlat, ?_⟩
  by_cases hrd : rd = 0
  · subst hrd
    rcases Nat.lt_or_ge x (now + lat) with hx | hx
    · rw [hpending hx, hg0]
    · rw [hlands hx, if_pos rfl]
  · rw [Cell.reg_land_other hnil hlat (Ne.symm hrd), hg0]

/-! ### The frame of an issue (R128, R141) -/

/-- Only cells and runs differ: what the issue of a bundle changes. -/
def Chip.issued (s t : Chip) : Prop := t = { s with cells := t.cells, runs := t.runs }

theorem Chip.issued_trans {s t u : Chip} (h : s.issued t) (k : t.issued u) : s.issued u := by
  unfold Chip.issued at *; rw [k, h]

theorem Chip.issued.moved {s t : Chip} (h : s.issued t) : s.moved t := by
  unfold Chip.issued at h; unfold Chip.moved; rw [h]

theorem Chip.issued.parts {s t : Chip} (h : s.issued t) : t.parts = s.parts := by unfold Chip.issued at h; rw [h]
theorem Chip.issued.tlr {s t : Chip} (h : s.issued t) : t.tlr = s.tlr := by unfold Chip.issued at h; rw [h]
theorem Chip.issued.time {s t : Chip} (h : s.issued t) : t.time = s.time := by unfold Chip.issued at h; rw [h]

theorem Chip.updCells_issued (s : Chip) (ns : List Nat) (f : Nat → Cell → Cell) : s.issued (s.updCells ns f) := by
  unfold Chip.updCells
  induction ns generalizing s with
  | nil => rfl
  | cons n rest ih => exact Chip.issued_trans (show s.issued (s.updCell n (f n)) from rfl) (ih _)

/-- Only the loop stack and the stream differ: what the choice of the next bundle changes in a cell. -/
def Cell.follows (c d : Cell) : Prop := d = { c with scr := { c.scr with loops := d.scr.loops }, stream := d.stream }

theorem Cell.follows_trans {c d e : Cell} (h : c.follows d) (k : d.follows e) : c.follows e := by
  unfold Cell.follows at *; rw [k, h]

namespace Slot

variable (k : Slot) (s : Chip)

theorem setStream_issued (st : Stream) : s.issued (k.setStream st s) := by
  unfold setStream; split <;> rfl

theorem setStream_cell_follows (st : Stream) (n : Nat) : (s.cell n).follows ((k.setStream st s).cell n) := by
  unfold setStream
  split
  · rfl
  · by_cases hn : n = k.lead
    · subst hn; rw [Chip.cell_updCell]; rfl
    · rw [Chip.cell_updCell_other _ hn]; rfl

/-- A stream is the swatch's, or that of the cell that issues. -/
theorem setStream_cell_other (st : Stream) {n : Nat} (hn : k.isLoose = true → n ≠ k.lead) :
    (k.setStream st s).cell n = s.cell n := by
  unfold setStream
  split
  next => rfl
  next hcell => exact Chip.cell_updCell_other _ (hn (by rw [isLoose, hcell, Option.isSome_some])) _

variable (gap : Nat) (busy : Bool)

/-- The next bundle follows: by one address while a spliced plan shares the swatches, else by the loop rule. -/
theorem follow_eq : k.follow gap s busy
    = if s.overlapped k.r then k.goOn ((k.st.pc + 1) % 65536) gap busy s
      else k.goOn ((loopStep k.st.pc (s.cell k.lead).scr.loops).2.getD ((k.st.pc + 1) % 65536)) gap busy
        (s.updCells k.cells fun _ c => { c with scr := { c.scr with loops := (loopStep k.st.pc (s.cell k.lead).scr.loops).1 } }) := rfl

theorem follow_issued : s.issued (k.follow gap s busy) := by
  rw [follow_eq]
  split
  · exact k.setStream_issued s _
  · exact Chip.issued_trans (s.updCells_issued _ _) (k.setStream_issued _ _)

theorem follow_cell_follows (hnodup : k.cells.Nodup) (n : Nat) : (s.cell n).follows ((k.follow gap s busy).cell n) := by
  rw [follow_eq]
  split
  · exact k.setStream_cell_follows s _ n
  · refine Cell.follows_trans ?_ (k.setStream_cell_follows _ _ n)
    by_cases hn : n ∈ k.cells
    · rw [s.updCells_cell _ _ hnodup hn]; rfl
    · rw [s.updCells_cell_other _ _ hn]; rfl

theorem follow_cell_other {n : Nat} (hn : n ∉ k.cells) (hlead : k.isLoose = true → k.lead ∈ k.cells) :
    (k.follow gap s busy).cell n = s.cell n := by
  have hstream : k.isLoose = true → n ≠ k.lead := fun hloose hn' => hn (hn' ▸ hlead hloose)
  rw [follow_eq]
  split
  · exact k.setStream_cell_other s _ hstream
  · exact (k.setStream_cell_other _ _ hstream).trans (s.updCells_cell_other _ _ hn)

/-! ### A computation -/

variable (lat rd : Nat) (v : Cell → Tagged)

theorem compute_issued : s.issued (k.compute lat rd v s) :=
  Chip.issued_trans (s.updCells_issued _ _) (k.follow_issued _ 1 false)

theorem compute_cell_other {n : Nat} (hn : n ∉ k.cells) (hlead : k.isLoose = true → k.lead ∈ k.cells) :
    (k.compute lat rd v s).cell n = s.cell n :=
  (k.follow_cell_other _ 1 false hn hlead).trans (s.updCells_cell_other _ _ hn)

/-- An issuing cell schedules its result and follows the stream. -/
theorem compute_cell (hnodup : k.cells.Nodup) {n : Nat} (hn : n ∈ k.cells) :
    ((s.cell n).land k.now lat rd (v (s.cell n))).follows ((k.compute lat rd v s).cell n) := by
  have h := k.follow_cell_follows (s.updCells k.cells fun _ c => c.land k.now lat rd (v c)) 1 false hnodup n
  rwa [s.updCells_cell _ _ hnodup hn] at h

end Slot

/-- Settles O54: the package's frame by `Slot.compute_issued`, the cells by `Slot.compute_cell_other` and `Slot.compute_cell`. -/
theorem computationFrame : Obligations.ComputationFrame := by
  intro k t lat rd v hnodup hlead
  have hframe := k.compute_issued t lat rd v
  refine ⟨_, rfl, hframe.moved.mem, hframe.parts, hframe.moved.bufs, hframe.moved.panels, hframe.moved.swatches, hframe.moved.hbm,
    hframe.moved.linings, hframe.tlr, hframe.time, fun n hn => k.compute_cell_other t lat rd v hn hlead, fun n hn => ?_⟩
  rw [k.compute_cell t lat rd v hnodup hn]
  exact ⟨rfl, rfl, rfl, rfl, rfl⟩

end Sys2Proof.Machine
end

section
/-! # Cell queries (R157, R180): whose query is answered, and when -/

namespace Sys2Proof.Machine

section CellQuery

variable {s : Chip} {c : Call} {part cell : Nat}

/-- A VF that names another partition fails check 3 of Table 16.3, once the header's own check passes. -/
theorem Chip.common_foreign_partition {n : Nat} (hvf : c.fn = .vf n) (hn : n ≠ part) (hlen : c.argLen ≤ 112)
    (hzero : c.reservedZero = true) (ranges : List (Bool × Status)) :
    s.common c { part := some part } ranges = some (.notOwner, 3) := by
  simp [Chip.common, firstBad, hvf, hn.symm, Nat.not_lt.2 hlen, hzero]

/-- A call outside the Expert set that fails a common check answers that check's status and number. -/
theorem Chip.call_refused {k : CallShape} {ranges : List (Bool × Status)} {st : Status} {n : Nat}
    (h : s.common c k ranges = some (st, n)) (hexpert : k.expert = false) (code : Nat)
    (effect : Chip → Chip × Status × Nat × List Nat) : s.call c code k ranges effect = s.respond c code st n [] := by
  simp [Chip.call, h, hexpert]

theorem Chip.quiet_eq_false_of_running (h : ∃ r ∈ s.runsOf part, r.broken = false) : s.quiet part = false := by
  simpa [Chip.quiet] using h

theorem Chip.quiet_of_broken (h : ∀ r ∈ s.runsOf part, r.broken = true) : s.quiet part = true := by
  simpa [Chip.quiet] using h

theorem cellQuery_of_running (hbusy : s.quiet part = false) (f : Cell → List Nat) :
    cellQuery s part cell f = (s, .busy, 8, []) := by
  simp [cellQuery, hbusy, fails]

theorem cellQuery_outside (hquiet : s.quiet part = true)
    (houtside : 32768 ≤ cell ∨ (s.swatch (swatchOf cell)).owner ≠ some part) (f : Cell → List Nat) :
    cellQuery s part cell f = (s, .bound, 8, []) := by
  simp [cellQuery, hquiet, houtside, fails]

end CellQuery

/-- TC_SCRIBER_QUERY and TC_PS_QUERY are cell queries of the partition they name. -/
theorem exec_cellQuery {c : Call} {part cell : Nat} {x : Instr} {code : Nat}
    (hx : (x, code) ∈ [(Instr.tcScriberQuery c part cell, 0x0401), (Instr.tcPsQuery c part cell, 0x0402)]) (s : State) :
    ∃ report : Chip → Cell → List Nat, exec x s = s.on fun t => t.served c fun t =>
      t.call c code { part := some part } [] fun u => cellQuery u part cell (report u) := by
  simp only [List.mem_cons, Prod.mk.injEq, List.not_mem_nil, or_false] at hx
  rcases hx with ⟨rfl, rfl⟩ | ⟨rfl, rfl⟩
  · exact ⟨_, rfl⟩
  · exact ⟨_, rfl⟩

/-- Settles O10: both commands are cell queries (`exec_cellQuery`), refused by the common checks, while a plan runs and outside the
partition, and answered otherwise. -/
theorem cellQueryOutcomes : Obligations.CellQueryOutcomes := by
  intro s c part cell x code haccepts hx
  obtain ⟨report, hexec⟩ := exec_cellQuery hx s
  rw [hexec, State.on_served haccepts]
  refine ⟨fun n hvf hn hlen hzero => ?_, fun hpass => ⟨fun hrunning => ?_, fun hbroken => ⟨fun houtside => ?_, fun hcell howner => ?_⟩⟩⟩
  · rw [Chip.call_refused (Chip.common_foreign_partition hvf hn hlen hzero []) rfl]
  · rw [Chip.call_passes hpass, cellQuery_of_running (Chip.quiet_eq_false_of_running hrunning)]
  · rw [Chip.call_passes hpass, cellQuery_outside (Chip.quiet_of_broken hbroken) houtside]
  · refine ⟨report s.chip (s.chip.cell cell), ?_⟩
    rw [Chip.call_passes hpass, cellQuery_of_quiet (Chip.quiet_of_broken hbroken) hcell howner]

end Sys2Proof.Machine
end

section
/-! # Scriber arithmetic (R133, R147): each instruction's value, tag and latency -/

namespace Sys2Proof.Machine

/-- A command of a package that is not held has its function's effect. -/
theorem exec_of_effect {s : State} {c : Instr} {effect : Chip → Chip} {u : Chip} (hlive : s.chip.held = false)
    (hexec : exec c s = s.on fun t => t.live effect) (heffect : effect s.chip = u) : exec c s = .next (s.put u) := by
  rw [hexec, State.on_live hlive, heffect]

/-! ### Values and tags (R133, Table 5.4) -/

/-- Outside the logical shifts a tag comes from any operand. -/
theorem Alu.apply_of_not_shift {o : Alu} (hshl : o ≠ .shl) (hshr : o ≠ .shr) (a b : Tagged) :
    o.apply a b = ⟨o.eval a.val b.val, a.poison || b.poison⟩ := by
  cases o
  case shl => contradiction
  case shr => contradiction
  all_goals rfl

/-- A logical shift of 36 or more gives zero, whatever is shifted. -/
theorem Alu.apply_shl (a b : Tagged) : Alu.shl.apply a b
    = ⟨if b.val.toNat % 64 < 36 then a.val <<< (b.val.toNat % 64) else 0, b.poison || (a.poison && decide (b.val.toNat % 64 < 36))⟩ := by
  simp only [Alu.apply, Alu.eval, Alu.poison, ← Nat.not_lt, ite_not]

theorem Alu.apply_shr (a b : Tagged) : Alu.shr.apply a b
    = ⟨if b.val.toNat % 64 < 36 then a.val >>> (b.val.toNat % 64) else 0, b.poison || (a.poison && decide (b.val.toNat % 64 < 36))⟩ := by
  simp only [Alu.apply, Alu.eval, Alu.poison, ← Nat.not_lt, ite_not]

/-! ### What issues -/

section Issue

variable {s t : Chip} {i : Issuer} {k : Slot} (hslot : s.slotOf i = (t, some k)) {rd ra rb : BitVec 5} {imm : W36}
include hslot

theorem scrAlu_computes (o : Alu) : scrAlu o i rd ra rb s
    = k.compute o.latency rd.toNat (fun c => o.apply (c.reg k.now ra.toNat) (c.reg k.now rb.toNat)) t :=
  Chip.issue_some _ hslot

theorem scrSel_computes : scrSel i rd ra rb s
    = k.compute 1 rd.toNat (fun c =>
        let v := if (c.reg k.now ra.toNat).val = 0 then c.reg k.now rd.toNat else c.reg k.now rb.toNat
        ⟨v.val, (c.reg k.now ra.toNat).poison || v.poison⟩) t :=
  Chip.issue_some _ hslot

/-- An immediate carries no tag. -/
theorem scrAluImm_computes {o : Alu} (hshl : o ≠ .shl) (hshr : o ≠ .shr) : scrAluImm o i rd ra imm s
    = k.compute 1 rd.toNat (fun c => ⟨o.eval (c.reg k.now ra.toNat).val imm, (c.reg k.now ra.toNat).poison⟩) t := by
  rw [scrAluImm, Chip.issue_some _ hslot]
  simp only [Alu.apply_of_not_shift hshl hshr, Bool.or_false]

/-- An amount below 64 is no reserved encoding. -/
theorem scrShiftImm_computes (o : Alu) (himm : imm.toNat < 64) : scrShiftImm o i rd ra imm s
    = k.compute 1 rd.toNat (fun c => o.apply (c.reg k.now ra.toNat) ⟨imm, false⟩) t := by
  rw [scrShiftImm, Chip.issue_some _ hslot, if_neg (Nat.not_le.2 himm)]

theorem scrLi_computes : scrLi i rd imm s = k.compute 1 rd.toNat (fun _ => ⟨imm, false⟩) t := Chip.issue_some _ hslot

/-- MODADD and MODMUL under an entry that passes the check of R55. -/
theorem scrMod_computes (mul : Bool) {entry : BitVec 10} {m : Modulus} (huse : (k.table t).use entry.toNat false false = some m) :
    scrMod mul i rd ra rb entry s
      = k.compute (if mul then 5 else 2) rd.toNat (fun c =>
          ⟨BitVec.ofNat 36 (if mul then m.mul (c.reg k.now ra.toNat).val.toNat (c.reg k.now rb.toNat).val.toNat
              else m.add (c.reg k.now ra.toNat).val.toNat (c.reg k.now rb.toNat).val.toNat),
            (c.reg k.now ra.toNat).poison || (c.reg k.now rb.toNat).poison⟩) t := by
  rw [scrMod, Chip.issue_some _ hslot]
  simp only [huse]

end Issue

/-- The register form of an operation (Table 5.3). -/
def Alu.command : Alu → Issuer → BitVec 5 → BitVec 5 → BitVec 5 → Instr
  | .add => .add
  | .sub => .sub
  | .and => .and
  | .or => .or
  | .xor => .xor
  | .shl => .shl
  | .shr => .shr
  | .sra => .sra
  | .mul => .mul
  | .mulhu => .mulhu
  | .slt => .slt
  | .sltu => .sltu

theorem exec_aluCommand (o : Alu) (i : Issuer) (rd ra rb : BitVec 5) (s : State) :
    exec (o.command i rd ra rb) s = s.on fun t => t.live (scrAlu o i rd ra rb) := by
  cases o <;> rfl

/-- Settles O50: each instruction issues its operation of Table 5.4, whose tag `Alu.apply_of_not_shift`, `Alu.apply_shl` and
`Alu.apply_shr` give. -/
theorem scriberArithmeticCompletes : Obligations.ScriberArithmeticCompletes := by
  intro s i k t rd ra rb imm hlive hslot
  have hregister := fun o : Alu => exec_of_effect hlive (exec_aluCommand o i rd ra rb s) (scrAlu_computes hslot o)
  refine ⟨fun op lat f hop => ?_, fun op f hop => ?_, exec_of_effect hlive rfl (scrSel_computes hslot), fun op f hop => ?_,
    fun op f hop himm => ?_, exec_of_effect hlive rfl (scrLi_computes hslot),
    fun entry m huse => ⟨exec_of_effect hlive rfl (scrMod_computes hslot false huse),
      exec_of_effect hlive rfl (scrMod_computes hslot true huse)⟩⟩
  · simp only [List.mem_cons, Prod.mk.injEq, List.not_mem_nil, or_false] at hop
    rcases hop with ⟨rfl, rfl, rfl⟩ | ⟨rfl, rfl, rfl⟩ | ⟨rfl, rfl, rfl⟩ | ⟨rfl, rfl, rfl⟩ | ⟨rfl, rfl, rfl⟩ | ⟨rfl, rfl, rfl⟩
      | ⟨rfl, rfl, rfl⟩ | ⟨rfl, rfl, rfl⟩ | ⟨rfl, rfl, rfl⟩ | ⟨rfl, rfl, rfl⟩
    exacts [hregister .add, hregister .sub, hregister .and, hregister .or, hregister .xor, hregister .sra, hregister .mul,
      hregister .mulhu, hregister .slt, hregister .sltu]
  · have hshl := hregister .shl
    have hshr := hregister .shr
    simp only [Alu.apply_shl, Alu.apply_shr] at hshl hshr
    simp only [List.mem_cons, Prod.mk.injEq, List.not_mem_nil, or_false] at hop
    rcases hop with ⟨rfl, rfl⟩ | ⟨rfl, rfl⟩
    exacts [hshl, hshr]
  · have himmediate {o : Alu} (hshl : o ≠ .shl) (hshr : o ≠ .shr) := scrAluImm_computes hslot (rd := rd) (ra := ra) (imm := imm) hshl hshr
    simp only [List.mem_cons, Prod.mk.injEq, List.not_mem_nil, or_false] at hop
    rcases hop with ⟨rfl, rfl⟩ | ⟨rfl, rfl⟩ | ⟨rfl, rfl⟩ | ⟨rfl, rfl⟩
    exacts [exec_of_effect hlive rfl (himmediate (o := .add) nofun nofun), exec_of_effect hlive rfl (himmediate (o := .and) nofun nofun),
      exec_of_effect hlive rfl (himmediate (o := .or) nofun nofun), exec_of_effect hlive rfl (himmediate (o := .xor) nofun nofun)]
  · have hamount : imm.toNat % 64 = imm.toNat := Nat.mod_eq_of_lt himm
    have hshl := scrShiftImm_computes hslot (rd := rd) (ra := ra) .shl himm
    have hshr := scrShiftImm_computes hslot (rd := rd) (ra := ra) .shr himm
    simp only [Alu.apply_shl, Alu.apply_shr, hamount, Bool.false_or] at hshl hshr
    simp only [List.mem_cons, Prod.mk.injEq, List.not_mem_nil, or_false] at hop
    rcases hop with ⟨rfl, rfl⟩ | ⟨rfl, rfl⟩
    exacts [exec_of_effect hlive rfl hshl, exec_of_effect hlive rfl hshr]

end Sys2Proof.Machine
end

section
/-! # Scriber control flow (R134, R140, R141, R143, R147): branches, windows, loops -/

namespace Sys2Proof.Machine

/-! ### Checks of a slot (Table 5.7) -/

namespace Slot

variable (k : Slot) (s : Chip)

theorem tagged_nil : k.tagged s [] = none := by simp [tagged]

/-- A slot whose issuing cells all meet the bound and whose registers are untagged acts. -/
theorem bounded_of_met {ok : Cell → Bool} {regs : List Nat} (hok : ∀ cn ∈ k.cells, ok (s.cell cn) = true)
    (htagged : k.tagged s regs = none) (f : Chip → Chip) : k.bounded ok regs f s = f s := by
  have hnone : (k.cells.find? fun cn => !ok (s.cell cn)) = none := by simpa using hok
  simp only [bounded, untagged, hnone, htagged]

end Slot

/-- In loose execution the named cell alone issues, and decides. -/
theorem Chip.slotOf_cells_of_loose {s t : Chip} {i : Issuer} {k : Slot} (hslot : s.slotOf i = (t, some k)) (hloose : k.isLoose = true) :
    k.cells = [k.lead] := by
  obtain ⟨-, rfl, hcells, -, -⟩ := Chip.slotOf_some hslot
  obtain ⟨c, hc⟩ := Option.isSome_iff_exists.1 hloose
  simp only [hcells, Chip.issuers, Slot.lead, hc]

section Branch

variable {s t : Chip} {i : Issuer} {k : Slot} (hslot : s.slotOf i = (t, some k)) {ra rb : BitVec 5} {target : BitVec 16}
include hslot

theorem scrNop_follows : scrNop i s = k.follow 1 t := Chip.issue_some _ hslot

/-- A branch with no tagged register goes where local cell 0 decides; a target that a loose stream cannot go to stops the plan at the one
cell that issues, as `Slot.goto` does. -/
theorem scrBranch_goes {c : Cond} (htagged : k.tagged t (c.regs ra.toNat rb.toNat) = none) : scrBranch c i ra rb target s
    = if c.holds ((t.cell k.lead).reg k.now ra.toNat).val ((t.cell k.lead).reg k.now rb.toNat).val
      then k.goto target.toNat 3 t else k.follow 1 t := by
  rw [scrBranch, Chip.issue_some _ hslot]
  dsimp only
  cases hcond : c.holds ((t.cell k.lead).reg k.now ra.toNat).val ((t.cell k.lead).reg k.now rb.toNat).val
  case false =>
    simp [Slot.bounded_of_met, htagged]
  case true =>
    cases hfar : k.farTarget target.toNat
    case false => simp [Slot.bounded_of_met, htagged]
    case true =>
      have hloose : k.isLoose = true := by
        rw [Slot.farTarget, Bool.and_eq_true] at hfar
        exact hfar.1
      simp [Slot.bounded, Slot.goto, hfar, Chip.slotOf_cells_of_loose hslot hloose]

/-! ### Loops, IDLE, LOOSE (R141, R143, R147) -/

/-- LOOP with count 0 skips its body. -/
theorem scrLoop_skips (htagged : k.tagged t [ra.toNat] = none) (hcount : ((t.cell k.lead).reg k.now ra.toNat).val = 0)
    (hnear : k.farTarget target.toNat = false) : scrLoop i ra target s = k.goto (target.toNat + 1) 3 t := by
  rw [scrLoop, Chip.issue_some _ hslot]
  simp [hcount, hnear, Slot.bounded_of_met, htagged]

/-- LOOP with a count pushes its entry where the loop stack has room. -/
theorem scrLoop_pushes (htagged : k.tagged t [ra.toNat] = none) (hcount : ((t.cell k.lead).reg k.now ra.toNat).val ≠ 0)
    (hroom : (t.cell k.lead).scr.loops.length < 4) : scrLoop i ra target s
      = (k.follow 1 t).updCells k.cells fun _ c => { c with scr := { c.scr with
          loops := ⟨(k.st.pc + 1) % 65536, target.toNat, ((t.cell k.lead).reg k.now ra.toNat).val.toNat⟩ :: c.scr.loops } } := by
  have hpos : ((t.cell k.lead).reg k.now ra.toNat).val.toNat ≠ 0 := fun h => hcount (BitVec.eq_of_toNat_eq h)
  rw [scrLoop, Chip.issue_some _ hslot]
  simp [hpos, hroom, Slot.bounded_of_met, htagged]

theorem scrIdle_follows : scrIdle i target s = k.follow (1 + target.toNat) t true := Chip.issue_some _ hslot

theorem scrLoose_arms (hganged : i.cell = none) (hstore : target.toNat < 8192) :
    scrLoose i target s = k.follow 1 (t.updRun k.r.id fun r => { r with armed := mput i.sw.toNat target.toNat r.armed }) := by
  have hloose : k.isLoose = false := by rw [Slot.isLoose, Chip.slotOf_issuer hslot, hganged, Option.isSome_none]
  rw [scrLoose, Chip.issue_some _ hslot]
  simp only [hloose, Nat.not_le.2 hstore, Bool.false_eq_true, if_false]

end Branch

/-! ### Windows (R134, R622) -/

/-- A fold over cells, each named once, that changes in each step the cell of that step: what the step does to its cell holds in the end. -/
theorem Chip.foldl_cell {g : Chip → Nat → Chip} {R : Cell → Cell → Prop} (hother : ∀ u n m, m ≠ n → (g u n).cell m = u.cell m)
    (hcell : ∀ u n, R (u.cell n) ((g u n).cell n)) {ns : List Nat} (hnodup : ns.Nodup) {n : Nat} (hn : n ∈ ns) (s : Chip) :
    R (s.cell n) ((ns.foldl g s).cell n) := by
  have hrest (ms : List Nat) (hms : n ∉ ms) (u : Chip) : (ms.foldl g u).cell n = u.cell n := by
    induction ms generalizing u with
    | nil => rfl
    | cons m rest ih =>
      rw [List.mem_cons, not_or] at hms
      rw [List.foldl_cons, ih hms.2, hother u m n hms.1]
  induction ns generalizing s with
  | nil => cases hn
  | cons m rest ih =>
    obtain ⟨hm, hnodup'⟩ := List.nodup_cons.1 hnodup
    rw [List.foldl_cons]
    rcases List.mem_cons.1 hn with rfl | hn'
    · rw [hrest rest hm]
      exact hcell s n
    · have hne : n ≠ m := fun h => hm (h ▸ hn')
      rw [← hother s m n hne]
      exact ih hnodup' hn' _

/-- Only the registers of a Scriber differ. -/
def Scriber.rewritten (c d : Scriber) : Prop := d = { c with regs := d.regs }

theorem Scriber.rewritten_trans {c d e : Scriber} (h : c.rewritten d) (k : d.rewritten e) : c.rewritten e := by
  unfold Scriber.rewritten at *; rw [k, h]

theorem Scriber.putKey_rewritten (c : Scriber) (k : Nat) (v : Tagged) : c.rewritten (c.putKey k v) := by
  obtain ⟨regs, h⟩ := c.putKey_eq k v
  rw [h]; rfl

/-- One register of a window takes an unspecified value. -/
def Chip.freeKey (cn win : Nat) (s : Chip) (w : Nat) : Chip :=
  s.takeFree.2.updCell cn fun c =>
    { c with scr := c.scr.putKey (16 + 16 * win + w) ⟨BitVec.ofNat 36 (Config.freeNat s.takeFree.1), false⟩ }

theorem Chip.freeWindow_eq (s : Chip) (cn win : Nat) : s.freeWindow cn win = (List.range 16).foldl (Chip.freeKey cn win) s := rfl

theorem Chip.freeWindow_frame (s : Chip) (cn win : Nat) :
    (s.freeWindow cn win).mem = s.mem ∧ (s.freeWindow cn win).parts = s.parts
      ∧ ∀ n, n ≠ cn → (s.freeWindow cn win).cell n = s.cell n := by
  rw [Chip.freeWindow_eq]
  generalize List.range 16 = ws
  have hmem (u : Chip) (w : Nat) : (u.freeKey cn win w).mem = u.mem := rfl
  have hparts (u : Chip) (w : Nat) : (u.freeKey cn win w).parts = u.parts := rfl
  have hother (n : Nat) (hn : n ≠ cn) (u : Chip) (w : Nat) : (u.freeKey cn win w).cell n = u.cell n :=
    Chip.cell_updCell_other _ hn _
  exact ⟨Chip.foldl_reads Chip.mem hmem ws s, Chip.foldl_reads Chip.parts hparts ws s,
    fun n hn => Chip.foldl_reads (fun u => u.cell n) (hother n hn) ws s⟩

theorem Chip.freeWindow_rewritten (s : Chip) (cn win : Nat) : (s.cell cn).scr.rewritten ((s.freeWindow cn win).cell cn).scr := by
  rw [Chip.freeWindow_eq]
  induction List.range 16 generalizing s with
  | nil => rfl
  | cons w rest ih =>
    refine Scriber.rewritten_trans ?_ (ih _)
    rw [Chip.freeKey, Chip.cell_updCell]
    exact Scriber.putKey_rewritten ..

/-- A CALL or RET without a trap in one cell: the new window state, the new window's registers unspecified where the cell's own window
state differed from that of local cell 0 (R622). -/
def Chip.rotate (lead : Scriber) (win : Nat) (enter : Bool → Scriber → Scriber) (s : Chip) (cn : Nat) : Chip :=
  let odd := (s.cell cn).scr.differs lead
  let u := s.updCell cn fun c => { c with scr := enter odd c.scr }
  if odd then u.freeWindow cn win else u

section Rotate

variable (lead : Scriber) (win : Nat) (enter : Bool → Scriber → Scriber)

theorem Chip.rotate_frame (s : Chip) (cn : Nat) :
    (s.rotate lead win enter cn).mem = s.mem ∧ (s.rotate lead win enter cn).parts = s.parts
      ∧ ∀ n, n ≠ cn → (s.rotate lead win enter cn).cell n = s.cell n := by
  unfold Chip.rotate
  dsimp only
  split
  · obtain ⟨hmem, hparts, hcell⟩ :=
      (s.updCell cn fun c => { c with scr := enter ((s.cell cn).scr.differs lead) c.scr }).freeWindow_frame cn win
    exact ⟨hmem, hparts, fun n hn => (hcell n hn).trans (Chip.cell_updCell_other s hn _)⟩
  · exact ⟨rfl, rfl, fun n hn => Chip.cell_updCell_other s hn _⟩

/-- What a rotation does to the Scriber of its cell. -/
def Scriber.rotates (c d : Scriber) : Prop :=
  (enter (c.differs lead) c).rewritten d ∧ (c.differs lead = false → d = enter false c)

theorem Chip.rotate_cell (s : Chip) (cn : Nat) :
    Scriber.rotates lead enter (s.cell cn).scr ((s.rotate lead win enter cn).cell cn).scr := by
  unfold Chip.rotate Scriber.rotates
  dsimp only
  cases hodd : (s.cell cn).scr.differs lead
  case false =>
    rw [if_neg Bool.false_ne_true, Chip.cell_updCell]
    exact ⟨rfl, fun _ => rfl⟩
  case true =>
    have h := (s.updCell cn fun c => { c with scr := enter true c.scr }).freeWindow_rewritten cn win
    rw [Chip.cell_updCell] at h
    exact ⟨h, nofun⟩

end Rotate

/-- The Scriber after a CALL without a trap, by the window state of local cell 0. -/
def Scriber.called (ret : Nat) (lead c : Scriber) : Scriber :=
  { c with cwp := (lead.cwp + 1) % 7, wdepth := lead.wdepth + 1, cdepth := lead.cdepth + 1, rets := ret :: lead.rets }

/-- The Scriber after a RET without a trap; where its own window state differed, words of a fill are dropped with the window (R622). -/
def Scriber.returned (lead : Scriber) (odd : Bool) (c : Scriber) : Scriber :=
  { c with cwp := (lead.cwp + 6) % 7, cdepth := lead.cdepth - 1, rets := lead.rets.tail, wdepth := lead.wdepth - 1
           lands := if odd then c.lands.filter fun l => l.src.isNone else c.lands }

namespace Slot

variable (k : Slot) (t : Chip)

/-- Every issuing cell rotates as local cell 0 does. -/
def rotated (win : Nat) (enter : Bool → Scriber → Scriber) : Chip := k.cells.foldl (Chip.rotate (t.cell k.lead).scr win enter) t

variable (win : Nat) (enter : Bool → Scriber → Scriber)

theorem rotated_mem : (k.rotated t win enter).mem = t.mem := Chip.foldl_reads Chip.mem (fun u n => (u.rotate_frame _ win enter n).1) k.cells t

theorem rotated_parts : (k.rotated t win enter).parts = t.parts :=
  Chip.foldl_reads Chip.parts (fun u n => (u.rotate_frame _ win enter n).2.1) k.cells t

theorem rotated_cell (hnodup : k.cells.Nodup) {cn : Nat} (hcn : cn ∈ k.cells) :
    Scriber.rotates (t.cell k.lead).scr enter (t.cell cn).scr ((k.rotated t win enter).cell cn).scr :=
  Chip.foldl_cell (R := fun c d => Scriber.rotates (t.cell k.lead).scr enter c.scr d.scr)
    (fun u n => (u.rotate_frame _ win enter n).2.2) (fun u n => u.rotate_cell _ win enter n) hnodup hcn t

end Slot

section Windows

variable {s t : Chip} {i : Issuer} {k : Slot} (hslot : s.slotOf i = (t, some k))
include hslot

theorem scrCall_rotates {target : BitVec 16} (hroom : (t.cell k.lead).scr.wdepth ≠ 7) (hnear : k.farTarget target.toNat = false) :
    scrCall i target s = k.goto target.toNat 3 (k.rotated t (((t.cell k.lead).scr.cwp + 1) % 7) fun _ =>
      Scriber.called ((k.st.pc + 1) % 65536) (t.cell k.lead).scr) := by
  have hnotrap : ((t.cell k.lead).scr.wdepth == 7) = false := beq_eq_false_iff_ne.2 hroom
  have hnone : (k.cells.find? fun _ => false) = none := by simp
  rw [scrCall, Chip.issue_some _ hslot]
  simp only [hnear, hnotrap, hnone, Bool.false_and, Bool.false_eq_true, if_false]
  rfl

theorem scrRet_rotates (hresident : (t.cell k.lead).scr.wdepth ≠ 1) (hcalled : (t.cell k.lead).scr.cdepth ≠ 0) :
    scrRet i s = k.goto ((t.cell k.lead).scr.rets.headD 0) 3
      (k.rotated t (((t.cell k.lead).scr.cwp + 6) % 7) (Scriber.returned (t.cell k.lead).scr)) := by
  have hnotrap : ((t.cell k.lead).scr.wdepth == 1) = false := beq_eq_false_iff_ne.2 hresident
  have hnone : (k.cells.find? fun _ => false) = none := by simp
  rw [scrRet, Chip.issue_some _ hslot]
  simp only [hcalled, hnotrap, hnone, Bool.false_and, Bool.false_eq_true, if_false]
  rfl

end Windows

/-- Settles O51: branches by `scrBranch_goes`, CALL and RET by `Slot.rotated`, whose cells `Slot.rotated_cell` gives, and each other
instruction by its function's own lemma. -/
theorem scriberControlCompletes : Obligations.ScriberControlCompletes := by
  intro s i k t ra rb target hlive hslot
  refine ⟨exec_of_effect hlive rfl (scrNop_follows hslot), exec_of_effect hlive rfl (scrBranch_goes hslot (k.tagged_nil t)),
    fun op f hop htagged => ?_, fun hroom hnear hnodup => ?_, fun hresident hcalled hnodup => ?_,
    fun htagged hcount hnear => exec_of_effect hlive rfl (scrLoop_skips hslot htagged hcount hnear),
    fun htagged hcount hroom => exec_of_effect hlive rfl (scrLoop_pushes hslot htagged hcount hroom),
    exec_of_effect hlive rfl (scrIdle_follows hslot),
    fun hganged hstore => exec_of_effect hlive rfl (scrLoose_arms hslot hganged hstore)⟩
  · simp only [List.mem_cons, Prod.mk.injEq, List.not_mem_nil, or_false] at hop
    rcases hop with ⟨rfl, rfl⟩ | ⟨rfl, rfl⟩ | ⟨rfl, rfl⟩ | ⟨rfl, rfl⟩
    exacts [exec_of_effect hlive rfl (scrBranch_goes hslot (c := .eq) htagged), exec_of_effect hlive rfl (scrBranch_goes hslot (c := .ne) htagged),
      exec_of_effect hlive rfl (scrBranch_goes hslot (c := .lt) htagged), exec_of_effect hlive rfl (scrBranch_goes hslot (c := .ltu) htagged)]
  · refine ⟨_, exec_of_effect hlive rfl (scrCall_rotates hslot hroom hnear), fun cn hcn => ?_, k.rotated_mem .., k.rotated_parts ..⟩
    obtain ⟨hscr, hsame⟩ := k.rotated_cell t _ _ hnodup hcn
    exact ⟨congrArg Scriber.cwp hscr, congrArg Scriber.wdepth hscr, congrArg Scriber.cdepth hscr, congrArg Scriber.rets hscr,
      fun heven => by rw [hsame heven]; rfl⟩
  · refine ⟨_, exec_of_effect hlive rfl (scrRet_rotates hslot hresident hcalled), fun cn hcn => ?_, k.rotated_mem .., k.rotated_parts ..⟩
    obtain ⟨hscr, hsame⟩ := k.rotated_cell t _ _ hnodup hcn
    exact ⟨congrArg Scriber.cwp hscr, congrArg Scriber.wdepth hscr, congrArg Scriber.cdepth hscr, congrArg Scriber.rets hscr,
      fun heven => by rw [hsame heven]; rfl⟩

end Sys2Proof.Machine
end

section
/-! # Scriber moves (R132, R137 to R139, R148): loads, stores, special registers, task slots, landing results -/

namespace Sys2Proof.Machine

section Moves

variable {s t : Chip} {i : Issuer} {k : Slot} (hslot : s.slotOf i = (t, some k)) {rd ra rb : BitVec 5} {off : BitVec 16}
include hslot

/-! ### Loads and stores (R139) -/

section Narrow

variable (htagged : k.tagged t [ra.toNat] = none) (hinside : ∀ cn ∈ k.cells, ((t.cell cn).narrow k.now ra.toNat off).isSome = true)
include htagged hinside

theorem scrLdn_loads : scrLdn i rd ra off s = k.follow 1 (k.cells.foldl (fun u cn => k.loadOne rd.toNat ra.toNat off cn u) t) := by
  rw [scrLdn, Chip.issue_some _ hslot, k.bounded_of_met t hinside htagged]

theorem scrStn_stores : scrStn i ra rb off s
    = k.follow 1 (k.cells.foldl (fun u cn => k.storeOne ra.toNat rb.toNat off cn u) t) := by
  rw [scrStn, Chip.issue_some _ hslot, k.bounded_of_met t hinside htagged]

end Narrow

/-! ### Special registers (R138, R148) -/

variable {sr : BitVec 8}

theorem scrMfs_reads (hreadable : srReadable sr.toNat = true) : scrMfs i rd sr s
    = k.follow 1 (t.updCells k.cells fun cn c => c.land k.now 2 rd.toNat
        ⟨BitVec.ofNat 36 ((c.special k.r.plan cn k.now k.r.planCycle sr.toNat k.isLoose).getD 0), false⟩) := by
  rw [scrMfs, Chip.issue_some _ hslot]
  simp only [hreadable, Bool.not_true, Bool.false_eq_true, if_false]

/-- Special register 8 is SPILLP of the task slot in use. -/
theorem scrMts_writes_spillp (htagged : k.tagged t [ra.toNat] = none) : scrMts i ra 0x08 s
    = k.follow 1 (t.updCells k.cells fun _ c =>
        { c with scr := { c.scr with spillp := lset c.scr.spillp c.scr.atask (c.reg k.now ra.toNat).val.toNat } }) := by
  have hwritable : srWritable (0x08 : BitVec 8).toNat = true := rfl
  have hspillp : srTask (0x08 : BitVec 8).toNat = none := rfl
  rw [scrMts, Chip.issue_some _ hslot]
  simp only [hwritable, hspillp, Slot.untagged, htagged, Bool.not_true, Bool.false_eq_true, if_false]

theorem scrMts_writes_task {slot field : Nat} (htagged : k.tagged t [ra.toNat] = none) (hsr : srTask sr.toNat = some (slot, field)) :
    scrMts i ra sr s = k.follow 1 (t.updCells k.cells fun _ c => { c with scr := { c.scr with
      shadowTasks := lupd c.scr.shadowTasks slot fun x => x.setField field (c.reg k.now ra.toNat).val.toNat } }) := by
  have hwritable : srWritable sr.toNat = true := by simp [srWritable, hsr]
  rw [scrMts, Chip.issue_some _ hslot]
  simp only [hwritable, hsr, Slot.untagged, htagged, Bool.not_true, Bool.false_eq_true, if_false]

theorem scrTsel_selects (slot : BitVec 2) : scrTsel i slot s
    = k.follow 1 (t.updCells k.cells fun _ c => { c with scr := { c.scr with atask := slot.toNat } }) := Chip.issue_some _ hslot

end Moves

/-! ### Landing (R132) -/

/-- SCRIBER_WRITEBACK runs time past the oldest result in flight, and all that is due has landed. -/
theorem scrWriteback_lands {s t : Chip} {i : Issuer} {r : Run} {d : Nat} (hrun : s.run? i.run = some r)
    (hplan : i.sw.toNat ∈ r.plan.swatches)
    (hdue : (i.cells.filterMap fun cn => ((s.cell cn).scr.lands.head?).map (·.due)).min? = some d)
    (hwait : s.waitRun i.run (d + 1) = some t) :
    scrWriteback i s = t.updCells i.cells fun _ c => { c with scr := c.scr.settle (d + 1) } := by
  have hcontains : r.plan.swatches.contains i.sw.toNat = true := by simpa using hplan
  simp only [scrWriteback, hrun, hcontains, Bool.not_true, Bool.false_eq_true, if_false]
  split
  next hnone => cases hnone.symm.trans hdue
  next hsome => cases hsome.symm.trans hdue; exact Chip.atCycle_eq hwait _

/-- Settles O52: each instruction is its function on the package, whose outcome that function's own lemma gives. -/
theorem scriberMovesComplete : Obligations.ScriberMovesComplete := by
  intro s i hlive
  refine ⟨fun k t rd ra rb off sr hslot => ⟨fun htagged hinside => ⟨?_, ?_⟩, fun hreadable => ?_, fun htagged => ?_,
    fun slot field htagged hsr _ => ?_, fun slot => ?_⟩, fun r d t hrun hplan hdue hwait => ?_⟩
  · exact exec_of_effect hlive rfl (scrLdn_loads hslot htagged hinside)
  · exact exec_of_effect hlive rfl (scrStn_stores hslot htagged hinside)
  · exact exec_of_effect hlive rfl (scrMfs_reads hslot hreadable)
  · exact exec_of_effect hlive rfl (scrMts_writes_spillp hslot htagged)
  · exact exec_of_effect hlive rfl (scrMts_writes_task hslot htagged hsr)
  · exact exec_of_effect hlive rfl (scrTsel_selects hslot slot)
  · exact exec_of_effect hlive rfl (scrWriteback_lands hrun hplan hdue hwait)

end Sys2Proof.Machine
end

section
/-! # Engine events (R161, R162, R164, R167, R188, R193, R200): a Press step and a drained word, a Stipple group, a Burin row, an F-cycle of a
Hatch, a Weft row, the start of a queued instruction -/

namespace Sys2Proof.Machine

/-! ### The run of an event -/

theorem Chip.updCells_run? (s : Chip) (ns : List Nat) (f : Nat → Cell → Cell) (id : Nat) : (s.updCells ns f).run? id = s.run? id :=
  Chip.run?_congr (s.updCells_still ns f).2 id

theorem Chip.pressQuick_run? (s : Chip) (ns : List Nat) (now id : Nat) : (s.pressQuick ns now).run? id = s.run? id :=
  s.updCells_run? ns _ id

theorem Chip.burinQuick_run? (s : Chip) (ns : List Nat) (now id : Nat) : (s.burinQuick ns now).run? id = s.run? id :=
  s.updCells_run? ns _ id

section CellEvents

variable {s t : Chip} {i : Issuer} {r : Run} (hrun : t.run? i.run = some r)
include hrun

/-! ### The Press (R162, R164) -/

/-- The MMA that comes next takes its step in every cell where it is due. -/
theorem mmaStepEvent_steps {r0 : Run} {o : PressOp} {u : Chip} (hrun0 : s.run? i.run = some r0)
    (hhead : (s.pressQuick i.cells r0.cycle).pressHead i .mma = some o)
    (hwait : (s.pressQuick i.cells r0.cycle).waitRun i.run o.dueAt = some t)
    (hfree : (t.pressQuick i.cells o.dueAt).pressLocked i o.dueAt = none)
    (hsteps : (t.pressQuick i.cells o.dueAt).mmaStepAll i r o.dueAt = (u, [])) :
    mmaStepEvent i s = u.updCnt r.part fun c => { c with pressSteps := c.pressSteps + 1 } := by
  simp only [mmaStepEvent, hrun0, hhead, Chip.atCycle_eq hwait, Chip.pressQuick_run?, hrun, hfree, hsteps]

/-- Once the MMAs ahead of it have taken their steps, the DRAIN that comes next delivers a word in every cell where it is due; its first word
counts the instruction. -/
theorem drainWordEvent_drains {r0 : Run} {o : PressOp} {w : Chip} (hrun0 : (mmaStepsLeft i 4096 s).run? i.run = some r0)
    (hhead : ((mmaStepsLeft i 4096 s).pressQuick i.cells r0.cycle).pressHead i .drain = some o)
    (hstart : ((mmaStepsLeft i 4096 s).pressQuick i.cells r0.cycle).waitRun i.run o.start = some w)
    (hfree : w.pressLocked i o.start = none) (hwait : w.waitRun i.run o.dueAt = some t) :
    drainWordEvent i s = Chip.drainAll (if o.done = 0 then
      t.updCnt r.part fun c => { c with pressDrains := c.pressDrains + 1 } else t) i r o.dueAt := by
  simp only [drainWordEvent, hrun0, hhead, Chip.atCycle_eq hstart, hfree, Chip.atCycle_eq hwait, hrun]

/-! ### The Stipple and the Burin (R167, R188) -/

/-- A group whose sources hold no poison is written in every cell where it is due. -/
theorem stipGroupEvent_writes {o : StipOp} {u : Chip} {out : List (Nat × StipOp × List (Option Row))} {sup : List Nat}
    (hhead : s.stipHead i = some o) (hwait : s.waitRun i.run o.dueAt = some t)
    (hreads : (t.updCells i.cells fun _ c => { c with stip := c.stip.quick o.dueAt }).stipReadAll i r o.dueAt = (u, out, [], sup)) :
    stipGroupEvent i s = (out.foldl (fun (t : Chip) x => t.stipWrite r o.dueAt x) u).updCnt r.part fun c =>
      { c with stpGroups := c.stpGroups + 1, stpSuppressed := c.stpSuppressed + BitVec.ofNat 32 (8 * sup.length) } := by
  simp only [stipGroupEvent, hhead, Chip.atCycle_eq hwait, Chip.updCells_run?, hrun, hreads]

/-- A Burin row is taken in every cell where it is due; the last one counts the butterflies of the instruction. -/
theorem burinRowEvent_takes {o : BurinOp} {u : Chip} (hhead : s.burinHead i = some o) (hwait : s.waitRun i.run o.dueAt = some t)
    (hrows : (t.burinQuick i.cells o.dueAt).burinRowAll i r o.dueAt = (u, [])) :
    burinRowEvent i s = if o.rows ≤ o.done + 1 then u.updCnt r.part fun c =>
      { c with burinBfly := c.burinBfly + BitVec.ofNat 64 (o.count * o.m * 2 ^ (o.m - 1)) } else u := by
  simp only [burinRowEvent, hhead, Chip.atCycle_eq hwait, Chip.burinQuick_run?, hrun, hrows]

end CellEvents

/-! ### The Hatch (R193) -/

/-- A Hatch instruction with the reads of its F-cycle: those of a column are kept until the rows are formed. -/
def HatchOp.withReads (o : HatchOp) (vals : List (Option Row)) : HatchOp :=
  if o.byColumn && o.done < o.rows then { o with reads := o.reads ++ [vals] } else o

/-- The F-cycle of a panel's Hatch instruction is over, the last one counted for the partition. -/
def Chip.hatchPassed (t : Chip) (p idx part : Nat) (o : HatchOp) (vals : List (Option Row)) : Chip :=
  let u := t.updPanel p fun pn => { pn with hatch := lset pn.hatch idx { o with done := o.done + 1 }, autos := o.keep vals pn.autos }
  if o.done + 1 = o.cycles && o.counts then u.updCnt part fun c => { c with hatchRows := c.hatchRows + BitVec.ofNat 64 o.rows } else u

theorem Chip.hatchPassed_frame (t : Chip) (p idx part : Nat) (o : HatchOp) (vals : List (Option Row)) :
    ((t.hatchPassed p idx part o vals).panel p).hatch = lset (t.panel p).hatch idx { o with done := o.done + 1 }
      ∧ (t.hatchPassed p idx part o vals).cells = t.cells
      ∧ ((t.hatchPassed p idx part o vals).part part).cnt.hatchRows = (t.part part).cnt.hatchRows
        + (if o.done + 1 = o.cycles ∧ o.counts = true then BitVec.ofNat 64 o.rows else 0) := by
  have hcount (u : Chip) (f : PtnCounters → PtnCounters) : (u.updCnt part f).panel p = u.panel p := rfl
  have hpart (f : Panel → Panel) : (t.updPanel p f).part part = t.part part := rfl
  unfold Chip.hatchPassed
  by_cases hlast : o.done + 1 = o.cycles ∧ o.counts = true
  · simp [hlast, hcount, hpart]
  · simp [hlast, hpart]

section PanelEvents

variable {s t : Chip} {i : Issuer} {panel : BitVec 3} {r : Run} {p : Nat} (hp : p = i.sw.toNat * 8 + panel.toNat)
  (hrun : t.run? i.run = some r)
include hp hrun

/-- The Hatch instruction of a panel that comes next makes the reads of its F-cycle, and the rows that have their words are on their way. -/
theorem hatchRowEvent_lands {idx : Nat} {o : HatchOp} {u : Chip} {vals : List (Option Row)}
    (hnext : (s.panel p).hatchNext i.run = some (idx, o)) (hwait : s.waitRun i.run (o.start + o.done) = some t)
    (hreads : t.hatchReads r p (o.start + o.done) o = (u, vals, none)) :
    hatchRowEvent i panel s
      = (u.hatchPassed p idx r.part (o.withReads vals) vals).hatchLand p (o.start + o.done) r (o.withReads vals) vals := by
  subst hp
  simp only [hatchRowEvent, hnext, Chip.atCycle_eq hwait, hrun, hreads]
  rfl

end PanelEvents

/-! ### The Weft (R200) -/

/-- The next row of a panel's first Weft instruction is taken, counted for the partition where the instruction counts. -/
def Chip.weftPassed (t : Chip) (p part : Nat) (o : WeftOp) (rest : List WeftOp) : Chip :=
  let u := t.updPanel p fun pn => { pn with weft := { o with done := o.done + 1 } :: rest }
  if o.counts then u.updCnt part fun c => { c with weftRows := c.weftRows + 1 } else u

theorem Chip.weftPassed_frame (t : Chip) (p part : Nat) (o : WeftOp) (rest : List WeftOp) :
    ((t.weftPassed p part o rest).panel p).weft = { o with done := o.done + 1 } :: rest
      ∧ (t.weftPassed p part o rest).cells = t.cells
      ∧ ((t.weftPassed p part o rest).part part).cnt.weftRows
        = (t.part part).cnt.weftRows + (if o.counts = true then 1 else 0) := by
  have hcount (u : Chip) (f : PtnCounters → PtnCounters) : (u.updCnt part f).panel p = u.panel p := rfl
  have hpart (f : Panel → Panel) : (t.updPanel p f).part part = t.part part := rfl
  unfold Chip.weftPassed
  cases hcounts : o.counts <;> simp [hcount, hpart]

/-- The first Weft instruction of a panel that has rows left has its next row on the way to every cell. -/
theorem weftRowEvent_lands {s t : Chip} {i : Issuer} {panel : BitVec 3} {r : Run} {p : Nat} {o : WeftOp} {rest : List WeftOp}
    (hp : p = i.sw.toNat * 8 + panel.toNat) (hrun : t.run? i.run = some r)
    (hnext : ((s.panel p).weft.dropWhile fun o => decide (o.total ≤ o.done)) = o :: rest) (howner : o.run = i.run)
    (hwait : s.waitRun i.run (o.start + 2 * o.done) = some t) :
    weftRowEvent i panel s = (t.weftPassed p r.part o rest).weftLand p r o := by
  have hmine : (o.run != i.run) = false := bne_eq_false_iff_eq.2 howner
  subst hp
  simp only [weftRowEvent, hnext, hmine, Chip.atCycle_eq hwait, hrun, Bool.false_eq_true, if_false]
  rfl

/-! ### The next start (R161, R166) -/

section Start

variable {s t : Chip} {i : Issuer} {panel : BitVec 3} {r : Run} {x : Nat} {rest : List Nat}

/-- Time runs on to the first start of what another engine than the Press has queued. -/
theorem engineStart_waits {e : EngineName} (hrun : s.run? i.run = some r)
    (hahead : ((s.starts i panel e).filter fun x => decide (r.cycle ≤ x)) = x :: rest)
    (hwait : s.waitRun i.run (rest.foldl min x) = some t) (hother : e ≠ .press) : engineStart i panel e s = t := by
  cases e
  case press => contradiction
  all_goals simp only [engineStart, hrun, hahead, Chip.atCycle_eq hwait]

/-- A Press instruction that no tap lock keeps out starts. -/
theorem engineStart_press (hrun : s.run? i.run = some r)
    (hahead : ((s.starts i panel .press).filter fun x => decide (r.cycle ≤ x)) = x :: rest)
    (hwait : s.waitRun i.run (rest.foldl min x) = some t)
    (hfree : (t.pressQuick i.cells (rest.foldl min x)).pressLocked i (rest.foldl min x) = none) :
    engineStart i panel .press s = t.pressQuick i.cells (rest.foldl min x) := by
  simp only [engineStart, hrun, hahead, Chip.atCycle_eq hwait, hfree]

end Start

/-- Settles O57: each event is its function on the package, whose outcome that function's own lemma gives; `Chip.hatchPassed_frame` and
`Chip.weftPassed_frame` give what a panel's event counts. -/
theorem engineEventsComplete : Obligations.EngineEventsComplete := by
  intro s i t r hlive hrun
  refine ⟨fun o r0 v w u hrun0 hv hhead hwait hw hfree hsteps => ?_, fun o r0 v w hrun0 hv hhead hstart hfree hwait => ?_,
    fun o u out sup hhead hwait hreads => exec_of_effect hlive rfl (stipGroupEvent_writes hrun hhead hwait hreads),
    fun o u hhead hwait hrows => exec_of_effect hlive rfl (burinRowEvent_takes hrun hhead hwait hrows),
    fun panel idx p o o' u vals hp hnext hwait hreads ho' => ?_, fun panel p o rest hp hnext howner hwait => ?_,
    fun panel e r0 x rest hrun0 hahead hwait => ⟨fun hother => ?_, fun hpress hfree => ?_⟩⟩
  · subst hv hw
    exact exec_of_effect hlive rfl (mmaStepEvent_steps hrun hrun0 hhead hwait hfree hsteps)
  · subst hv
    exact exec_of_effect hlive rfl (drainWordEvent_drains hrun hrun0 hhead hstart hfree hwait)
  · obtain rfl : o' = o.withReads vals := ho'
    exact ⟨_, exec_of_effect hlive rfl (hatchRowEvent_lands hp hrun hnext hwait hreads), u.hatchPassed_frame p idx r.part _ vals⟩
  · exact ⟨_, exec_of_effect hlive rfl (weftRowEvent_lands hp hrun hnext howner hwait), t.weftPassed_frame p r.part o rest⟩
  · exact exec_of_effect hlive rfl (engineStart_waits hrun0 hahead hwait hother)
  · subst hpress
    exact exec_of_effect hlive rfl (engineStart_press hrun0 hahead hwait hfree)

end Sys2Proof.Machine
end

section
/-! # Engine instructions at issue (R161 to R167, R177, R183, R187, R191 to R194, R200, R201): those that pass their checks join their
engine's queue -/

namespace Sys2Proof.Machine

/-! ### Checks of a slot -/

namespace Slot

variable {k : Slot} {s : Chip}

theorem check_of_met {st : Status} {bad : Nat → Cell → Bool} (h : ∀ cn ∈ k.cells, bad cn (s.cell cn) = false) (f : Chip → Chip) :
    k.check st bad f s = f s := by
  have hnone : k.failing s bad = none := by simpa [failing] using h
  simp only [check, hnone]

theorem untagged_of_none {regs : List Nat} (h : k.tagged s regs = none) (f : Chip → Chip) : k.untagged regs f s = f s := by
  simp only [untagged, h]

/-- An engine's queue bound holds the runs and changes nothing else (R161). -/
theorem queueBound_counted (k : Slot) (n : Nat) (queues : List (List Nat)) (s : Chip) : s.counted (k.queueBound n queues s) :=
  Chip.foldl_counted _ (fun _ _ => Chip.overflow_counted ..) _ _

end Slot

/-- Two changes of every issuing cell, with nothing but counts between them, make one. -/
theorem Chip.updCells_counted_updCells {t u : Chip} {ns : List Nat} {f g : Nat → Cell → Cell} (hcount : (t.updCells ns f).counted u)
    (hnodup : ns.Nodup) {cn : Nat} (hcn : cn ∈ ns) : (u.updCells ns g).cell cn = g cn (f cn (t.cell cn)) := by
  rw [u.updCells_cell _ _ hnodup hcn, hcount.cell, t.updCells_cell _ _ hnodup hcn]

/-! ### The registers and the checks of a Stipple slot (R160, R177) -/

theorem stipRegs_lt {kind : StipKind} {f : StipFields} {v : Nat} (hv : v ∈ stipRegs kind f) : v < 16 := by
  have hfield : v ∈ [f.gd, f.ga, f.gb, f.gc, f.gm].map BitVec.toNat := by
    simp only [stipRegs, List.mem_append, List.mem_ite_nil_left, List.mem_ite_nil_right, List.mem_singleton] at hv
    simp only [List.map_cons, List.map_nil, List.mem_cons, List.not_mem_nil, or_false]
    tauto
  obtain ⟨field, -, rfl⟩ := List.mem_map.1 hfield
  exact field.isLt

/-- An engine slot's registers are globals: none is tagged in a cell of an untagged slot. -/
theorem Slot.global_untagged {k : Slot} {t : Chip} {regs : List Nat} (htagged : k.tagged t regs = none) (hregs : ∀ v ∈ regs, v < 16)
    {cn : Nat} (hcn : cn ∈ k.cells) : (regs.any fun v => ((t.cell cn).global k.now v).poison) = false := by
  have hclear := List.find?_eq_none.1 htagged cn hcn
  simp only [Bool.not_eq_true, List.any_eq_false] at hclear ⊢
  intro v hv
  rw [Cell.global, Nat.mod_eq_of_lt (hregs v hv)]
  exact hclear v hv

/-- Checks that every cell meets stop none. -/
theorem findSome?_checks_eq_none {checks : List (Status × (Nat → Bool))} {cells : List Nat}
    (h : ∀ x ∈ checks, ∀ cn ∈ cells, x.2 cn = false) :
    (checks.findSome? fun x => (cells.find? x.2).map fun cn => (x.1, cn)) = none := by
  refine List.findSome?_eq_none_iff.2 fun x hx => Option.map_eq_none_iff.2 (List.find?_eq_none.2 fun cn hcn => ?_)
  rw [h x hx cn hcn]
  exact Bool.false_ne_true

/-! ### What a Burin slot asks for (R186 to R189, R206) -/

/-- The format of the first entry that the parameter register of a Burin slot names. -/
def Slot.burinM18 (k : Slot) (t : Chip) (param : Nat) : Bool := (Modulus.ofEntry (mget 0 (bits param 0 10) (k.table t).entries)).m18

/-- The rows of the region of a Burin slot. -/
def Slot.burinRows (k : Slot) (t : Chip) (param : Nat) (logm : BitVec 4) : Nat :=
  bits param 10 12 * 2 ^ logm.toNat / if k.burinM18 t param then 16 else 8

/-- A Burin slot passes its checks, under a parameter register that local cell 0 decides (R183, R186, R189, R208). -/
structure Slot.BurinPasses (k : Slot) (t : Chip) (inverse : Bool) (gd gk gp logm : BitVec 4) (ss : BitVec 5) (param : Nat)
    (ms : List Modulus) : Prop where
  lead : k.g t k.lead gp.toNat = param
  untagged : k.tagged t [gd.toNat, gk.toNat, gp.toNat] = none
  sized : logm ≠ 0
  scaled : bit param 28 = true → inverse = true
  loaded : ((List.range (if bits param 10 12 = 0 then 0 else (bits param 10 12 - 1) / 2 ^ bits param 29 4 + 1)).map fun l =>
    (k.table t).use ((bits param 0 10 + l) % 1024) (k.burinM18 t param) true) = ms.map some
  stages : ∀ m ∈ ms, ss.toNat + logm.toNat ≤ m.logn
  blocks : ∀ cn ∈ k.cells, ∀ b, b < min (bits param 10 12) (2 ^ bits param 29 4) →
    k.g t cn gk.toNat + b * bits param 22 6 < 2 ^ ss.toNat
  whole : bits param 10 12 * 2 ^ logm.toNat % (if k.burinM18 t param then 16 else 8) = 0
  inside : bits param 10 12 ≠ 0 → ∀ cn ∈ k.cells, ((t.cell cn).scr.task.row (k.g t cn gd.toNat) (k.burinRows t param logm)).isSome = true

/-- Writes on their way spoil rows of a Burin instruction and change nothing else of it. -/
theorem BurinOp.foldl_hit_eq (lands : List PadLand) (o : BurinOp) : ∃ spoiled,
    lands.foldl (fun (o : BurinOp) l => if l.order = 5 then o else o.hit l.row l.due) o = { o with spoiled := spoiled } := by
  induction lands generalizing o with
  | nil => exact ⟨o.spoiled, rfl⟩
  | cons l rest ih =>
    have hstep : ∃ spoiled, (if l.order = 5 then o else o.hit l.row l.due) = { o with spoiled := spoiled } := by
      unfold BurinOp.hit
      split
      · exact ⟨o.spoiled, rfl⟩
      · split
        · exact ⟨_, rfl⟩
        · exact ⟨o.spoiled, rfl⟩
    obtain ⟨spoiled, hstep⟩ := hstep
    rw [List.foldl_cons, hstep]
    exact ih _

section Cells

variable {s t : Chip} {i : Issuer} {k : Slot} (hslot : s.slotOf i = (t, some k))
include hslot

/-! ### The Press (R162 to R166, R177) -/

theorem pressMma_joins {m18 : Bool} {ga gb : BitVec 4} {n : BitVec 9} (hform : mmaOk n = true)
    (htagged : k.tagged t [ga.toNat, gb.toNat] = none)
    (hrows : ∀ cn ∈ k.cells, k.g t cn ga.toNat % 4 = 0 ∧ k.g t cn gb.toNat % 4 = 0
      ∧ (n ≠ 0 → ((t.cell cn).scr.task.row (k.g t cn ga.toNat) (mmaRowsA n.toNat)).isSome = true
        ∧ ((t.cell cn).scr.task.row (k.g t cn gb.toNat) (mmaRowsB m18 n.toNat)).isSome = true)) :
    pressMma i m18 ga gb n s = k.pressPut (fun cn c => { k.pressOp .mma (max n.toNat 1) with
      m18 := m18, rowA := c.scr.task.padBase + k.g t cn ga.toNat, rowB := c.scr.task.padBase + k.g t cn gb.toNat, count := n.toNat }) t := by
  have hinside : ∀ cn ∈ k.cells, (n.toNat != 0 && (((t.cell cn).scr.task.row (k.g t cn ga.toNat) (mmaRowsA n.toNat)).isNone
      || ((t.cell cn).scr.task.row (k.g t cn gb.toNat) (mmaRowsB m18 n.toNat)).isNone)) = false := by
    intro cn hcn
    obtain ⟨-, -, hinside⟩ := hrows cn hcn
    by_cases hn : n = 0
    · simp [hn]
    · simp [Option.isNone_eq_false_iff, hinside hn]
  have haligned : ∀ cn ∈ k.cells, (k.g t cn ga.toNat % 4 != 0 || k.g t cn gb.toNat % 4 != 0) = false := by
    intro cn hcn
    obtain ⟨ha, hb, -⟩ := hrows cn hcn
    simp [ha, hb]
  rw [pressMma, Chip.issue_some _ hslot]
  simp only [hform, Bool.not_true, Bool.false_eq_true, if_false]
  rw [Slot.check_of_met hinside, Slot.check_of_met haligned, Slot.untagged_of_none htagged]

theorem pressDrain_joins {m18 tap rowmod : Bool} {gd : BitVec 4} {entry : BitVec 10} {ms : List Modulus} (hform : drainOk tap gd = true)
    (hmods : ((if rowmod then (List.range 12).map fun r => (entry.toNat + r) % 1024 else List.replicate 12 entry.toNat).map
      fun e => (k.table t).use e m18 false) = ms.map some) (htagged : k.tagged t [gd.toNat] = none)
    (hrows : tap = false → ∀ cn ∈ k.cells, k.g t cn gd.toNat % 4 = 0 ∧ ((t.cell cn).scr.task.row (k.g t cn gd.toNat) 12).isSome = true) :
    pressDrain i m18 tap rowmod gd entry s = k.pressPut (fun cn c => { k.pressOp .drain 3 with
      m18 := m18, tap := tap, rowD := c.scr.task.padBase + k.g t cn gd.toNat, mods := ms }) t := by
  have hinside : ∀ cn ∈ k.cells, (!tap && ((t.cell cn).scr.task.row (k.g t cn gd.toNat) 12).isNone) = false := by
    intro cn hcn
    cases htap : tap
    · simp [Option.isNone_eq_false_iff, hrows htap cn hcn]
    · rfl
  have haligned : ∀ cn ∈ k.cells, (!tap && k.g t cn gd.toNat % 4 != 0) = false := by
    intro cn hcn
    cases htap : tap
    · simp [hrows htap cn hcn]
    · rfl
  have hloaded : ∀ cn ∈ k.cells, (ms.map some).any Option.isNone = false := by simp
  rw [pressDrain, Chip.issue_some _ hslot]
  simp only [hform, hmods, Bool.not_true, Bool.false_eq_true, if_false]
  rw [Slot.check_of_met hinside, Slot.check_of_met haligned, Slot.check_of_met hloaded, Slot.untagged_of_none htagged]
  simp

theorem pressZero_joins : pressZero i s = k.pressPut (fun _ _ => k.pressOp .zero 1) t := Chip.issue_some _ hslot

theorem pressTapRel_joins : pressTapRel i s = k.pressPut (fun _ _ => k.pressOp .tapRel 1) t := Chip.issue_some _ hslot

/-! ### The Stipple (R167, R168, R177) -/

/-- A Stipple slot whose rows lie inside the bound, whose tap and entry pass their checks and whose registers are untagged puts its operation
in the queue of every issuing cell. -/
theorem stipIssue_joins {kind : StipKind} {f : StipFields} (hnodup : k.cells.Nodup) (hform : stipOk kind f = true)
    (hinside : ∀ cn ∈ k.cells, stipBeyond ((t.cell cn).scr.task.padBound - (t.cell cn).scr.task.padBase) f.count.toNat
      (stipBases k t kind f cn) = [])
    (htap : f.tap = true → f.count ≠ 0 → f.ga.toNat + f.count.toNat ≤ 3
      ∧ ∀ cn ∈ k.cells, ∃ l, (t.cell cn).press.lockAt k.now = some l ∧ l.m18 = f.m18)
    (hentry : kind.modular = true → f.count ≠ 0 → ((k.table t).use f.entry.toNat f.m18 false).isSome = true)
    (htagged : k.tagged t (stipRegs kind f) = none) {cn : Nat} (hcn : cn ∈ k.cells) :
    ∃ o, ((stipIssue kind i f s).cell cn).stip.queue = ((t.cell cn).stip.quick k.now).queue ++ [o] ∧ o.kind = kind
      ∧ o.count = f.count.toNat ∧ o.start = max k.now (t.cell cn).stip.freeAt
      ∧ o.rowD = (t.cell cn).scr.task.padBase + k.g t cn f.gd.toNat ∧ ((stipIssue kind i f s).cell cn).pad = (t.cell cn).pad := by
  have hclear := fun n hn => Slot.global_untagged (cn := n) htagged (fun _ => stipRegs_lt) hn
  rw [stipIssue, Chip.issue_some _ hslot]
  simp only [hform, Bool.not_true, Bool.false_eq_true, if_false]
  rw [findSome?_checks_eq_none, List.find?_eq_none.2]
  · dsimp only
    rw [Chip.updCells_counted_updCells (Chip.counted_trans (k.queueBound_counted ..) (Chip.updCnt_counted ..)) hnodup hcn]
    exact ⟨_, rfl, rfl, rfl, rfl, rfl, rfl⟩
  · intro n hn
    have hissuing : n ∈ k.cells := by
      split at hn
      · exact hn
      · exact List.mem_of_mem_filter hn
    simp [hclear n hissuing]
  · intro x hx n hn
    have hissuing : n ∈ k.cells := List.mem_of_mem_filter hn
    split at hx
    · cases hx
    next hcount =>
      have hsome : f.count ≠ 0 := fun h => hcount (by simp [h])
      simp only [List.mem_cons, List.not_mem_nil, or_false] at hx
      rcases hx with rfl | rfl | rfl | rfl
      · cases htapped : f.tap
        · rfl
        · obtain ⟨-, hlocked⟩ := htap htapped hsome
          obtain ⟨l, hlock, hwidth⟩ := hlocked n hissuing
          simp [hlock, hwidth]
      · simp [hinside n hissuing]
      · cases htapped : f.tap
        · rfl
        · obtain ⟨hgroups, hlocked⟩ := htap htapped hsome
          obtain ⟨l, hlock, -⟩ := hlocked n hissuing
          simp [hlock, hgroups]
      · cases hmodular : kind.modular
        · rfl
        · simp [hentry hmodular hsome]

/-! ### The Burin (R187) -/

/-- A Burin slot that passes its checks puts its operation in the queue of every issuing cell, behind those that have not left. -/
theorem burinIssue_joins {inverse : Bool} {gd gk gp logm : BitVec 4} {ss : BitVec 5} {param : Nat} {ms : List Modulus}
    (hnodup : k.cells.Nodup) (hform : burinOk logm ss = true) (hpass : k.BurinPasses t inverse gd gk gp logm ss param ms) {cn : Nat}
    (hcn : cn ∈ k.cells) :
    ∃ o, ((burinIssue inverse i gd gk gp logm ss s).cell cn).burin.queue
        = ((t.cell cn).burin.queue.dropWhile (BurinOp.left k.now)) ++ [o]
      ∧ o.inverse = inverse ∧ o.count = bits param 10 12 ∧ o.m = logm.toNat ∧ o.s = ss.toNat
      ∧ o.start = max k.now (t.cell cn).burin.freeAt := by
  obtain ⟨hlead, htagged, hsized, hscaled, hloaded, hstages, hblocks, hwhole, hinside⟩ := hpass
  unfold Slot.burinRows at hinside
  unfold Slot.burinM18 at hloaded hwhole hinside
  have hshape : (decide (logm.toNat = 0) || (bit param 28 && !inverse)) = false := by
    have hlogm : logm.toNat ≠ 0 := fun h => hsized (BitVec.eq_of_toNat_eq h)
    cases hfinal : bit param 28
    · simp [hlogm]
    · simp [hlogm, hscaled hfinal]
  have hentries : (ms.map some).any Option.isNone = false := by simp
  have hmods : ((ms.map some).map fun x => x.getD {}) = ms := by simp
  have hdegree : (ms.any fun x => decide (x.logn < ss.toNat + logm.toNat)) = false := by
    simpa [List.any_eq_false] using hstages
  rw [burinIssue, Chip.issue_some _ hslot]
  simp only [hform, Bool.not_true, Bool.false_eq_true, if_false]
  rw [Slot.untagged_of_none htagged]
  simp only [hlead, hshape, hloaded, hentries, hmods, hdegree, hwhole, bne_self_eq_false, Bool.false_eq_true, if_false]
  rw [Slot.check_of_met, Slot.check_of_met]
  · simp only [Chip.burinQuick]
    rw [Chip.updCells_counted_updCells (k.queueBound_counted ..) hnodup hcn]
    dsimp only
    obtain ⟨spoiled, hhit⟩ := BurinOp.foldl_hit_eq (t.cell cn).pad.lands _
    rw [hhit]
    exact ⟨_, rfl, rfl, rfl, rfl, rfl, rfl⟩
  · intro n hn
    by_cases hcount : bits param 10 12 = 0
    · simp [hcount]
    · rw [Option.isNone_eq_false_iff.2 (hinside hcount n hn), Bool.and_false]
  · intro n hn
    rw [List.any_eq_false.2 fun b hb => by simpa using hblocks n hn b (List.mem_range.1 hb), Bool.and_false]

end Cells

/-! ### The panels of a swatch (R183) -/

/-- The panels of an issuer's swatch. -/
def Issuer.panels (i : Issuer) : List Nat := (List.range 8).map fun q => i.sw.toNat * 8 + q

theorem Issuer.panels_nodup (i : Issuer) : i.panels.Nodup :=
  List.Nodup.map (fun a b (h : i.sw.toNat * 8 + a = i.sw.toNat * 8 + b) => Nat.add_left_cancel h) List.nodup_range

theorem Issuer.mem_panels (i : Issuer) {q : Nat} (hq : q < 8) : i.sw.toNat * 8 + q ∈ i.panels :=
  List.mem_map.2 ⟨q, List.mem_range.2 hq, rfl⟩

theorem Issuer.forall_panels {i : Issuer} {P : Nat → Prop} (h : ∀ q, q < 8 → P (i.sw.toNat * 8 + q)) : ∀ p ∈ i.panels, P p := by
  intro p hp
  obtain ⟨q, hq, rfl⟩ := List.mem_map.1 hp
  exact h q (List.mem_range.1 hq)

theorem panelOf_of_mem_panelCells {p cn : Nat} (h : cn ∈ panelCells p) : panelOf cn = p := by
  obtain ⟨c, hc, rfl⟩ := List.mem_map.1 h
  rw [List.mem_range] at hc
  unfold panelOf
  omega

/-- A fold over parts of the package, each named once, that changes in each step the part of that step: what the step does to its part holds
in the end. -/
theorem Chip.foldl_part {α : Type} {part : Chip → Nat → α} {g : Chip → Nat → Chip} {R : Nat → α → α → Prop}
    (hother : ∀ u p n, n ≠ p → part (g u p) n = part u n) (hpart : ∀ u p, R p (part u p) (part (g u p) p)) {ps : List Nat}
    (hnodup : ps.Nodup) {p : Nat} (hp : p ∈ ps) (s : Chip) : R p (part s p) (part (ps.foldl g s) p) := by
  have hrest (ms : List Nat) (hms : p ∉ ms) (u : Chip) : part (ms.foldl g u) p = part u p := by
    induction ms generalizing u with
    | nil => rfl
    | cons m rest ih =>
      rw [List.mem_cons, not_or] at hms
      rw [List.foldl_cons, ih hms.2, hother u m p hms.1]
  induction ps generalizing s with
  | nil => cases hp
  | cons m rest ih =>
    obtain ⟨hm, hnodup'⟩ := List.nodup_cons.1 hnodup
    rw [List.foldl_cons]
    rcases List.mem_cons.1 hp with rfl | hp'
    · rw [hrest rest hm]
      exact hpart s p
    · have hne : p ≠ m := fun h => hm (h ▸ hp')
      rw [← hother s m p hne]
      exact ih hnodup' hp' _

theorem Chip.foldl_updPanel {f : Panel → Panel} {ps : List Nat} (hnodup : ps.Nodup) {p : Nat} (hp : p ∈ ps) (s : Chip) :
    (ps.foldl (fun u p => u.updPanel p f) s).panel p = f (s.panel p) :=
  Chip.foldl_part (part := Chip.panel) (R := fun _ a b => b = f a) (fun u _ _ hn => u.panel_updPanel_other hn f)
    (fun u m => u.panel_updPanel m f) hnodup hp s

theorem Chip.counted.panel {s t : Chip} (h : s.counted t) (n : Nat) : t.panel n = s.panel n := by
  rw [Chip.panel, h.moved.panels, Chip.panel]

/-- Panels changed one by one, then counts, then panels changed one by one: what becomes of a panel. -/
theorem Chip.foldl_updPanel_counted_foldl {t u : Chip} {f : Panel → Panel} {g : Chip → Nat → Chip} {R : Nat → Panel → Panel → Prop}
    {ps : List Nat} (hcount : (ps.foldl (fun u p => u.updPanel p f) t).counted u)
    (hother : ∀ u p n, n ≠ p → (g u p).panel n = u.panel n) (hpanel : ∀ u p, R p (u.panel p) ((g u p).panel p)) (hnodup : ps.Nodup)
    {p : Nat} (hp : p ∈ ps) : R p (f (t.panel p)) ((ps.foldl g u).panel p) := by
  rw [← Chip.foldl_updPanel (f := f) hnodup hp t, ← hcount.panel]
  exact Chip.foldl_part hother hpanel hnodup hp u

theorem Chip.panel_ite_seeds (u : Chip) (c : Prop) [Decidable c] (x n : Nat) :
    (if c then { u with seeds := x } else u).panel n = u.panel n := by
  split <;> rfl

/-- A panel's part of a Weft slot passes its checks (R183, R201, R208). -/
structure Slot.WeftPasses (k : Slot) (t : Chip) (gd gp : BitVec 4) (p : Nat) : Prop where
  destination : ((t.cell (p * 64)).global k.now gd.toNat).poison = false
  parameter : ((t.cell (p * 64)).global k.now gp.toNat).poison = false
  count : (weftPlan t k p gd gp).count ≤ 64
  loaded : (weftPlan t k p gd gp).count ≠ 0 → (weftPlan t k p gd gp).chainOk = true
  shaped : (weftPlan t k p gd gp).count ≠ 0 → (weftPlan t k p gd gp).shapeOk = true
  inside : (weftPlan t k p gd gp).count ≠ 0 → ∀ cn ∈ panelCells p, ((t.cell cn).scr.task.row (weftPlan t k p gd gp).gd
    ((weftPlan t k p gd gp).count * (weftPlan t k p gd gp).rowsPerLimb)).isSome = true

/-- What a Weft slot draws on is at hand in a panel: the seed, or random bytes (R198, R200). -/
def WeftForm.supplied (t : Chip) (p count : Nat) : WeftForm → Prop
  | .expand slot => count ≠ 0 → (mfind slot.toNat (t.panel p).active.seeds).isSome = true
  | .sample _ => t.trust.trng ≠ 0 ∧ (t.panel p).drbg.ready = true

section Panels

variable {s t : Chip} {i : Issuer} {k : Slot} (hslot : s.slotOf i = (t, some k)) (hganged : i.cell = none)
include hslot hganged

theorem Chip.slotOf_isLoose_of_ganged : k.isLoose = false := by
  rw [Slot.isLoose, Chip.slotOf_issuer hslot, hganged, Option.isSome_none]

/-! ### The Hatch (R191 to R194) -/

/-- A Hatch slot that passes its checks puts its operation in the queue of every panel of the swatch, behind those that have not left. -/
theorem hatchIssue_joins {form : HatchForm} {gs gd gp : BitVec 4} (hform : form.ok = true)
    (htagged : k.tagged t [gs.toNat, gd.toNat, gp.toNat] = none)
    (hshape : ∀ p ∈ i.panels, form.shapeOk (bits (k.g t (p * 64) gp.toNat) 0 12) (bits (k.g t (p * 64) gp.toNat) 12 18)
      (t.panel p).active = true)
    (hinside : ∀ cn ∈ k.cells, ∀ n, n = bits (k.g t (panelOf cn * 64) gp.toNat) 0 12 → n ≠ 0 →
      ((t.cell cn).scr.task.row (k.g t cn gs.toNat) n).isSome = true ∧ ((t.cell cn).scr.task.row (k.g t cn gd.toNat) n).isSome = true)
    {p : Nat} (hp : p ∈ i.panels) :
    ∃ o, ((hatchIssue form i gs gd gp s).panel p).hatch = ((t.panel p).hatch.filter fun x => !x.left k.now) ++ [o]
      ∧ o.rows = bits (k.g t (p * 64) gp.toNat) 0 12 ∧ o.start = max k.now (t.panel p).hatchFree := by
  have hpanels : (List.range 8).map (fun q => i.sw.toNat * 8 + q) = i.panels := rfl
  have hshapes : (i.panels.find? fun p => !form.shapeOk (bits (k.g t (p * 64) gp.toNat) 0 12) (bits (k.g t (p * 64) gp.toNat) 12 18)
      (t.panel p).active) = none := by
    simpa using hshape
  have hregions : (k.cells.find? fun cn => bits (k.g t (panelOf cn * 64) gp.toNat) 0 12 != 0
      && (((t.cell cn).scr.task.row (k.g t cn gs.toNat) (bits (k.g t (panelOf cn * 64) gp.toNat) 0 12)).isNone
        || ((t.cell cn).scr.task.row (k.g t cn gd.toNat) (bits (k.g t (panelOf cn * 64) gp.toNat) 0 12)).isNone)) = none := by
    refine List.find?_eq_none.2 fun cn hcn => ?_
    by_cases hrows : bits (k.g t (panelOf cn * 64) gp.toNat) 0 12 = 0
    · simp [hrows]
    · obtain ⟨hsrc, hdst⟩ := hinside cn hcn _ rfl hrows
      simp [Option.isNone_eq_false_iff.2 hsrc, Option.isNone_eq_false_iff.2 hdst]
  rw [hatchIssue, Chip.issue_some _ hslot]
  simp only [hpanels, Chip.slotOf_isLoose_of_ganged hslot hganged, hform, Bool.not_true, Bool.or_self, Bool.false_eq_true, if_false]
  rw [Slot.untagged_of_none htagged]
  simp only [hshapes, hregions]
  refine Chip.foldl_updPanel_counted_foldl
    (R := fun p a b => ∃ o : HatchOp, b.hatch = a.hatch ++ [o] ∧ o.rows = bits (k.g t (p * 64) gp.toNat) 0 12 ∧ o.start = max k.now a.hatchFree)
    (k.queueBound_counted ..) (fun u p n hn => u.panel_updPanel_other hn _) (fun u p => ?_) i.panels_nodup hp
  rw [Chip.panel_updPanel]
  exact ⟨_, rfl, rfl, rfl⟩

/-! ### The Weft (R198 to R201) -/

/-- A Weft slot that passes its checks in every panel puts its operation in their queues, behind those that have not left. -/
theorem weftIssue_joins {form : WeftForm} {gd gp : BitVec 4} (hform : form.ok = true) (hpass : ∀ p ∈ i.panels, k.WeftPasses t gd gp p)
    (hsupplied : ∀ p ∈ i.panels, form.supplied t p (weftPlan t k p gd gp).count) {p : Nat} (hp : p ∈ i.panels) :
    ∃ o, ((weftIssue form i gd gp s).panel p).weft = ((t.panel p).weft.filter fun x => !x.left k.now) ++ [o]
      ∧ o.count = (weftPlan t k p gd gp).count ∧ o.start = max k.now (t.panel p).weftFree := by
  have hpanels : (List.range 8).map (fun q => i.sw.toNat * 8 + q) = i.panels := rfl
  have hbusy {p : Nat} (h : p ∈ i.panels.filter fun p => (weftPlan t k p gd gp).count != 0) :
      p ∈ i.panels ∧ (weftPlan t k p gd gp).count ≠ 0 := by
    simpa using h
  have huntagged : (i.panels.find? fun p => ((t.cell (p * 64)).global k.now gd.toNat).poison
      || ((t.cell (p * 64)).global k.now gp.toNat).poison) = none :=
    List.find?_eq_none.2 fun p hp => by simp [(hpass p hp).destination, (hpass p hp).parameter]
  have hcounts : (i.panels.find? fun p => decide (64 < (weftPlan t k p gd gp).count)) = none :=
    List.find?_eq_none.2 fun p hp => by simpa using (hpass p hp).count
  have hchains : ((i.panels.filter fun p => (weftPlan t k p gd gp).count != 0).find? fun p => !(weftPlan t k p gd gp).chainOk) = none :=
    List.find?_eq_none.2 fun p hp => by simp [(hpass p (hbusy hp).1).loaded (hbusy hp).2]
  have hshapes : ((i.panels.filter fun p => (weftPlan t k p gd gp).count != 0).find? fun p => !(weftPlan t k p gd gp).shapeOk) = none :=
    List.find?_eq_none.2 fun p hp => by simp [(hpass p (hbusy hp).1).shaped (hbusy hp).2]
  have hregions : (((i.panels.filter fun p => (weftPlan t k p gd gp).count != 0).flatMap fun p => panelCells p).find? fun cn =>
      ((t.cell cn).scr.task.row (weftPlan t k (panelOf cn) gd gp).gd
        ((weftPlan t k (panelOf cn) gd gp).count * (weftPlan t k (panelOf cn) gd gp).rowsPerLimb)).isNone) = none := by
    refine List.find?_eq_none.2 fun cn hcn => ?_
    obtain ⟨p, hp, hcell⟩ := List.mem_flatMap.1 hcn
    rw [panelOf_of_mem_panelCells hcell, Option.isNone_eq_false_iff.2 ((hpass p (hbusy hp).1).inside (hbusy hp).2 cn hcell)]
    exact Bool.false_ne_true
  rw [weftIssue, Chip.issue_some _ hslot]
  simp only [hpanels, Chip.slotOf_isLoose_of_ganged hslot hganged, hform, huntagged, hcounts, hchains, hshapes, hregions, Bool.not_true,
    Bool.or_self, Bool.false_eq_true, if_false]
  split
  next q hunseeded =>
    cases form with
    | expand slot =>
      have hmissing := List.find?_some hunseeded
      change (mfind slot.toNat (t.panel q).active.seeds).isNone = true at hmissing
      obtain ⟨hq, hcount⟩ := hbusy (List.mem_of_find?_eq_some hunseeded)
      rw [Option.isNone_eq_false_iff.2 (hsupplied q hq hcount)] at hmissing
      cases hmissing
    | sample dist => cases hunseeded
  next q _ hundrawn =>
    cases form with
    | expand slot => cases hundrawn
    | sample dist =>
      have hshort := List.find?_some hundrawn
      obtain ⟨htrng, hready⟩ := hsupplied q (hbusy (List.mem_of_find?_eq_some hundrawn)).1
      simp only [hready, beq_eq_false_iff_ne.2 htrng, Bool.not_true, Bool.false_and, Bool.or_self, Bool.false_eq_true] at hshort
  next =>
    refine Chip.foldl_updPanel_counted_foldl
      (R := fun p a b => ∃ o : WeftOp, b.weft = a.weft ++ [o] ∧ o.count = (weftPlan t k p gd gp).count ∧ o.start = max k.now a.weftFree)
      (k.queueBound_counted ..) (fun u p n hn => ?_) (fun u p => ?_) i.panels_nodup hp
    · rw [Chip.panel_updPanel_other _ hn, Chip.panel_ite_seeds]
    · rw [Chip.panel_updPanel, Chip.panel_ite_seeds]
      exact ⟨_, rfl, rfl, rfl⟩

end Panels

/-! ### The commands -/

theorem exec_stipple {op : Issuer → StipFields → Instr} {kind : StipKind}
    (h : (op, kind) ∈ ([(Instr.madd, .madd), (Instr.msub, .msub), (Instr.mneg, .mneg), (Instr.mmul, .mmul), (Instr.mmad, .mmad),
      (Instr.mmsb, .mmsb), (Instr.resc, .resc), (Instr.red, .red), (Instr.move, .move), (Instr.digit, .digit)]
      : List ((Issuer → StipFields → Instr) × StipKind))) (i : Issuer) (f : StipFields) (s : State) :
    exec (op i f) s = s.on fun t => t.live (stipIssue kind i f) := by
  simp only [List.mem_cons, Prod.mk.injEq, List.not_mem_nil, or_false] at h
  rcases h with ⟨rfl, rfl⟩ | ⟨rfl, rfl⟩ | ⟨rfl, rfl⟩ | ⟨rfl, rfl⟩ | ⟨rfl, rfl⟩ | ⟨rfl, rfl⟩ | ⟨rfl, rfl⟩ | ⟨rfl, rfl⟩ | ⟨rfl, rfl⟩
    | ⟨rfl, rfl⟩ <;> rfl

theorem exec_transform {op : Issuer → BitVec 4 → BitVec 4 → BitVec 4 → BitVec 4 → BitVec 5 → Instr} {inverse : Bool}
    (h : (op, inverse) ∈ ([(Instr.ntt, false), (Instr.intt, true)]
      : List ((Issuer → BitVec 4 → BitVec 4 → BitVec 4 → BitVec 4 → BitVec 5 → Instr) × Bool)))
    (i : Issuer) (gd gk gp logm : BitVec 4) (ss : BitVec 5) (s : State) :
    exec (op i gd gk gp logm ss) s = s.on fun t => t.live (burinIssue inverse i gd gk gp logm ss) := by
  simp only [List.mem_cons, Prod.mk.injEq, List.not_mem_nil, or_false] at h
  rcases h with ⟨rfl, rfl⟩ | ⟨rfl, rfl⟩ <;> rfl

theorem exec_hatch {x : Instr} {form : HatchForm} {i : Issuer} {gs gd gp : BitVec 4}
    (h : (∃ stage span m18 logn, x = Instr.auto i stage span m18 logn gs gd gp ∧ form = .auto stage span m18 logn)
      ∨ (∃ beta pos oc, x = Instr.trans i beta pos oc gs gd gp ∧ form = .trans beta pos oc)
      ∨ (x = Instr.brev i gs gd gp ∧ form = .brev) ∨ (∃ table, x = Instr.gather i table gs gd gp ∧ form = .gather table)) (s : State) :
    exec x s = s.on fun t => t.live (hatchIssue form i gs gd gp) := by
  rcases h with ⟨stage, span, m18, logn, rfl, rfl⟩ | ⟨beta, pos, oc, rfl, rfl⟩ | ⟨rfl, rfl⟩ | ⟨table, rfl, rfl⟩ <;> rfl

/-- Settles O56: each instruction is its engine's issue function, by whose own lemma it joins the queues. -/
theorem engineCommandsIssue : Obligations.EngineCommandsIssue := by
  intro s i k t hlive hslot hnodup
  refine ⟨fun m18 ga gb n hform htagged hrows => exec_of_effect hlive rfl (pressMma_joins hslot hform htagged hrows),
    fun m18 tap rowmod gd entry ms hform hmods htagged hrows =>
      exec_of_effect hlive rfl (pressDrain_joins hslot hform hmods htagged hrows),
    exec_of_effect hlive rfl (pressZero_joins hslot), exec_of_effect hlive rfl (pressTapRel_joins hslot),
    fun op kind f hop hform hinside htap hentry htagged => ?_,
    fun op inverse gd gk gp logm ss gpv entry count bpl m18 ms hop hform htagged hgpv hentry hcount hbpl hm18 hsized hscaled hloaded
      hstages hblocks hwhole hinside => ?_,
    fun x form gs gd gp hx hganged hform htagged hshape hinside => ?_, fun x form gd gp hx hganged hform hpass => ?_⟩
  · exact ⟨_, exec_of_effect hlive (exec_stipple hop i f s) rfl, fun cn hcn =>
      stipIssue_joins hslot hnodup hform hinside htap hentry htagged hcn⟩
  · subst hm18 hbpl hcount hentry hgpv
    exact ⟨_, exec_of_effect hlive (exec_transform hop i gd gk gp logm ss s) rfl, fun cn hcn => burinIssue_joins hslot hnodup hform
      ⟨rfl, htagged, hsized, hscaled, hloaded, hstages, hblocks, hwhole, hinside⟩ hcn⟩
  · exact ⟨_, exec_of_effect hlive (exec_hatch hx s) rfl, fun q hq => hatchIssue_joins hslot hganged hform htagged
      (Issuer.forall_panels hshape) hinside (i.mem_panels hq)⟩
  · have hpasses : ∀ p ∈ i.panels, k.WeftPasses t gd gp p := Issuer.forall_panels fun q hq => by
      obtain ⟨hgd, hgp, hcount, hbusy⟩ := hpass q hq
      exact ⟨hgd, hgp, hcount, fun h => (hbusy h).1, fun h => (hbusy h).2.1, fun h => (hbusy h).2.2⟩
    rcases hx with ⟨slot, rfl, rfl, hseeds⟩ | ⟨dist, rfl, rfl, htrng, hready⟩
    · exact ⟨_, exec_of_effect hlive rfl rfl, fun q hq => weftIssue_joins hslot hganged (form := .expand slot) hform hpasses
        (Issuer.forall_panels hseeds) (i.mem_panels hq)⟩
    · exact ⟨_, exec_of_effect hlive rfl rfl, fun q hq => weftIssue_joins hslot hganged (form := .sample dist) hform hpasses
        (Issuer.forall_panels fun q hq => ⟨htrng, hready q hq⟩) (i.mem_panels hq)⟩

end Sys2Proof.Machine
end

section
/-! # Store, retirement and memory calls (R202, R233, R244, R284, R285, R295): seeds and tables into shadow banks, blocks and pages out of
use, and the two memory reports -/

namespace Sys2Proof.Machine

/-- The number of ids in an item's store on a panel: 16 table ids, 32 seed slots (Program stores, before R202). -/
def storeSlots : StoreItem → Nat
  | .gather _ => 16
  | _ => 32

section Calls

variable {s u : Chip} {c : Call} {part mask id plate block stack first count : Nat} {item : StoreItem}

/-! ### Engine stores -/

/-- An item of its own data that fits the shadow bank of every swatch named is written there, and becomes active on the swatches with
no plan running (R202). -/
theorem tcEngineStore_of_stored
    (hpass : s.passes c { part := some part } [(item == .twiddle, .notSupported), (decide (storeSlots item ≤ id), .bound)])
    (hdata : ∀ k, item ≠ .seedOfKey k) (hrows : ∀ rows, item = .gather rows → rows.length ≤ 256)
    (howner : ((maskSwatches mask).any fun sw => (s.swatch sw).owner != some part) = false)
    (hstored : (maskSwatches mask).foldl (fun (t : Option Chip) sw => t.bind fun t => t.storeItem part id item sw) (some s) = some u) :
    tcEngineStore c part mask id item s
      = ((maskSwatches mask).foldl (fun (t : Chip) sw => t.settleStores sw) u).respond c 0x0403 .ok 0 [] := by
  unfold tcEngineStore
  refine (Chip.call_passes hpass).trans ?_
  simp only [howner, hstored, Bool.false_eq_true, if_false]
  cases item with
  | gather rows => simp [Nat.not_lt.2 (hrows rows rfl), succeeds]
  | seed value => simp [succeeds]
  | seedOfKey k => exact absurd rfl (hdata k)
  | twiddle => simp [succeeds]

/-! ### Retirements -/

@[simp] theorem Chip.lining_respond (code : Nat) (st : Status) (detail : Nat) (result : List Nat) (q : Nat) :
    (s.respond c code st detail result).lining q = s.lining q := by
  simp only [Chip.lining, Chip.respond_linings]

/-- A block that is in use joins a list that has room (R233). -/
theorem tcLiningRetire_of_new (hpass : s.passes c { pf0Only := true } [(decide (8 ≤ plate), .bound), (decide (1820 < block), .bound)])
    (hnew : (s.lining plate).retired.contains block = false) (hroom : (s.lining plate).retired.length < 64) :
    tcLiningRetire c plate block s
      = (s.updLining plate fun x => { x with retired := x.retired ++ [block] }).respond c 0x0501 .ok 0 [] := by
  rw [tcLiningRetire, Chip.call_passes hpass]
  simp only [hnew, Nat.not_le.2 hroom, succeeds, Bool.false_eq_true, if_false]

/-- The maximal new runs of a run inside a stack join a list that has room; a stack that is Degraded stays so with no further event
(R284, R285, R288). -/
theorem tcPageRetire_of_degraded (hpass : s.passes c { pf0Only := true } [(decide (8 ≤ stack), .bound)]) (hcount : count ≤ 256)
    (hfirst : first < 589824) (hlast : first + count ≤ 589824) (hdegraded : (s.stack stack).degraded = true)
    (hroom : (s.stack stack).retired.length + (newRuns (s.stack stack).retired first count).length ≤ 8192) :
    tcPageRetire c stack first count s = (s.updStack stack fun x => Stack.redirectAll
      { x with retired := x.retired ++ newRuns (s.stack stack).retired first count }).respond c 0x0503 .ok 0 [] := by
  have hinside : ¬(589823 < first ∨ 589824 < first + count) := by omega
  rw [tcPageRetire, Chip.call_passes hpass]
  simp [Nat.not_lt.2 hcount, hinside, Nat.not_lt.2 hroom, hdegraded, succeeds]

/-! ### Queries -/

theorem tcMemQuery_reports (hpass : s.passes c { part := some part } [(decide (8 ≤ plate), .bound)]) :
    ∃ keyRoom, tcMemQuery c part plate s = s.respond c 0x0502 .ok 0
      ([(s.part part).cnt.padCe.toNat, (s.part part).cnt.padUe.toNat, (s.part part).cnt.lngCe.toNat, (s.part part).cnt.lngUe.toNat,
        (mget {} plate (s.part part).keyWin).base, (mget {} plate (s.part part).keyWin).bound,
        mget 0 plate (s.part part).quotas.lining - s.liningUse part plate, keyRoom] ++ (s.lining plate).retired) :=
  ⟨_, Chip.call_passes hpass⟩

theorem tcHbmQuery_reports (hpass : s.passes c {} [(decide (8 ≤ stack), .bound)]) :
    ∃ records, tcHbmQuery c stack s = s.respond c 0x0504 .ok 0
      ((s.stack stack).status ++ [(s.stack stack).ce.toNat, (s.stack stack).ue.toNat] ++ records) := by
  rw [tcHbmQuery, Chip.call_passes hpass]
  simp only [succeeds, List.append_assoc]
  exact ⟨_, rfl⟩

end Calls

/-- Settles O14: by `State.on_served` each call is its function on the package, whose outcome that function's own lemma gives; the frame of
a retired block is that of `Chip.updLining` and `Chip.respond`. -/
theorem storeAndRetireCallsComplete : Obligations.StoreAndRetireCallsComplete := by
  refine fun s c => ⟨fun part mask id item u hpass hdata hrows howner hstored => ?_, fun plate block hpass hnew hroom => ?_,
    fun part plate hpass => ?_, fun stack first count hpass hcount hfirst hlast hdegraded hroom => ?_, fun stack hpass => ?_⟩
  · rw [← tcEngineStore_of_stored hpass hdata hrows howner hstored]
    exact State.on_served hpass.1 _
  · refine ⟨_, State.on_served hpass.1 _, ?_⟩
    rw [State.put_chip, tcLiningRetire_of_new hpass hnew hroom]
    exact ⟨by simp, fun q hq => by rw [Chip.lining_respond, Chip.lining_updLining_other _ hq], by simp, by simp⟩
  · obtain ⟨keyRoom, hquery⟩ := tcMemQuery_reports hpass
    refine ⟨keyRoom, ?_⟩
    rw [← hquery]
    exact State.on_served hpass.1 _
  · rw [← tcPageRetire_of_degraded hpass hcount hfirst hlast hdegraded hroom]
    exact State.on_served hpass.1 _
  · obtain ⟨records, hquery⟩ := tcHbmQuery_reports hpass
    refine ⟨records, ?_⟩
    rw [← hquery]
    exact State.on_served hpass.1 _

end Sys2Proof.Machine
end

section
/-! # Spool threads (R246 to R256): TSTART, ADVANCE and TSTOP at issue, the next presentation, the unit that comes back, the end of a
drain -/

namespace Sys2Proof.Machine

/-! ### The checks of TSTART (R250, R264, Table 9.6) -/

/-- The ring of a descriptor, or the index rows of a TACK_READ that has units, lie outside the task's Pad region. -/
def ThreadDesc.outside (d : ThreadDesc) (kind : ThreadKind) (c : Cell) : Bool :=
  (c.scr.task.row d.ringBase d.ring).isNone
    || (kind == .tackRead && d.count != 0 && (c.scr.task.row d.idxRow (cdiv d.count 8)).isNone)

theorem ThreadDesc.outside_of_rows {d : ThreadDesc} {kind : ThreadKind} {c : Cell}
    (hring : (c.scr.task.row d.ringBase d.ring).isSome = true)
    (hindex : kind = .tackRead → d.count ≠ 0 → (c.scr.task.row d.idxRow (cdiv d.count 8)).isSome = true) :
    d.outside kind c = false := by
  rw [outside, Option.isNone_eq_false_iff.2 hring, Bool.false_or]
  by_cases htack : kind = .tackRead
  · by_cases hcount : d.count = 0
    · simp [hcount]
    · rw [Option.isNone_eq_false_iff.2 (hindex htack hcount), Bool.and_false]
  · simp [htack]

namespace Slot

/-- OFF of a thread in a cell: the value of gGR at issue (R250). -/
def spoolOff (k : Slot) (t : Chip) (gr : BitVec 4) (cn : Nat) : Nat := if gr == 0 then 0 else k.g t cn gr.toNat

/-- A descriptor names an absent IO entry, or binds a kind that moves bolts to a CONTROL buffer (R246, R276). -/
def misbound (k : Slot) (t : Chip) (d : ThreadDesc) (kind : ThreadKind) : Bool :=
  (kind.bound && (k.r.ioEntry d.binding).isNone) || match k.r.ioEntry d.binding with
    | some (e, h) => kind.bound && e.dir != 3 && kind != .tackRead && ((t.bufOf h).any fun b => isControl b.kind)
    | none => false

/-- The fault of the first unit of a thread in a cell: that of a TACK_READ and that of a thread of no units are not checked (R264, R265). -/
def firstUnitFault (k : Slot) (t : Chip) (gr : BitVec 4) (d : ThreadDesc) (kind : ThreadKind) (cn : Nat) : Option Status :=
  if kind == .tackRead || d.count = 0 then none else
    match t.unitCheck k.r cn kind d (t.cell cn).scr.atask (unitNo d (k.spoolOff t gr cn) cn 0) with
    | .error st => some st
    | .ok _ => none

/-- TSTART of a descriptor passes its checks in every issuing cell (Table 9.6). -/
structure SpoolPasses (k : Slot) (t : Chip) (th gr : BitVec 4) (d : ThreadDesc) (kind : ThreadKind) : Prop where
  shaped : d.shapeOk kind = true
  inside : ∀ cn ∈ k.cells, d.outside kind (t.cell cn) = false
  reachable : ∀ cn ∈ k.cells, k.firstUnitFault t gr d kind cn = none
  bound : k.misbound t d kind = false
  idle : ∀ cn ∈ k.cells, ((mfind th.toNat (t.cell cn).threads).any fun x => !x.idle k.now) = false
  untagged : k.tagged t (if gr = 0 then [] else [gr.toNat]) = none

/-- The thread that TSTART starts in a cell. -/
def newThread (k : Slot) (t : Chip) (desc : BitVec 8) (gr : BitVec 4) (d : ThreadDesc) (kind : ThreadKind) (cn : Nat) (c : Cell) : Thread :=
  { run := k.r.id, desc := desc.toNat, bundle := k.bundle, kind := kind, d := d, off := k.spoolOff t gr cn, task := c.scr.atask,
    ringRow := c.scr.task.padBase + d.ringBase, idxRow := c.scr.task.padBase + d.idxRow, startAt := k.now + 4, lastAdv := k.now + 4,
    endAt := if d.count = 0 then some (k.now + 4) else none }

variable {k : Slot} {t : Chip}

theorem failing_eq_none {bad : Nat → Cell → Bool} (h : ∀ cn ∈ k.cells, bad cn (t.cell cn) = false) : k.failing t bad = none := by
  simpa [failing] using h

theorem misbound_of_entry {d : ThreadDesc} {kind : ThreadKind}
    (h : kind.bound = true → ∃ (e : IoEntry) (handle : Nat), k.r.ioEntry d.binding = some (e, handle)
      ∧ (kind = .tackRead ∨ e.dir = 3 ∨ ∀ b, t.bufOf handle = some b → isControl b.kind = false)) :
    k.misbound t d kind = false := by
  unfold misbound
  cases hbound : kind.bound
  · cases k.r.ioEntry d.binding <;> rfl
  · obtain ⟨e, handle, hentry, htack | hfabric | hplain⟩ := h hbound
    · simp [hentry, htack]
    · simp [hentry, hfabric]
    · have hbuf : ((t.bufOf handle).any fun b => isControl b.kind) = false := (Option.any_eq_false _ _).2 hplain
      simp [hentry, hbuf]

theorem firstUnitFault_of_checked {gr : BitVec 4} {d : ThreadDesc} {kind : ThreadKind} {cn : Nat}
    (h : kind ≠ .tackRead → d.count ≠ 0 →
      ∃ x, t.unitCheck k.r cn kind d (t.cell cn).scr.atask (unitNo d (if gr = 0 then 0 else k.g t cn gr.toNat) cn 0) = .ok x) :
    k.firstUnitFault t gr d kind cn = none := by
  unfold firstUnitFault
  split
  · rfl
  next hunits =>
    simp only [Bool.or_eq_true, beq_iff_eq, decide_eq_true_eq, not_or] at hunits
    obtain ⟨x, hx⟩ := h hunits.1 hunits.2
    simp only [spoolOff, beq_iff_eq, hx]

end Slot

/-! ### What issues -/

theorem Chip.updCnt_ite_counted (p : Prop) [Decidable p] (s : Chip) (n : Nat) (f : PtnCounters → PtnCounters) :
    s.counted (if p then s.updCnt n f else s) := by
  split
  · exact s.updCnt_counted n f
  · rfl

section Issue

variable {s t : Chip} {i : Issuer} {k : Slot} (hslot : s.slotOf i = (t, some k)) {th : BitVec 4}
include hslot

/-- TSTART that passes its checks puts the new thread in every issuing cell, and only counts beside that (R250). -/
theorem spoolTstart_of_passes {desc : BitVec 8} {gr : BitVec 4} {d : ThreadDesc} {kind : ThreadKind}
    (hdesc : k.r.plan.threads[desc.toNat]? = some d) (hkind : threadKind d.kind = some kind) (hpass : k.SpoolPasses t th gr d kind) :
    (t.updCells k.cells fun cn c => { c with threads := mput th.toNat (k.newThread t desc gr d kind cn c) c.threads }).counted
      (spoolTstart i th desc gr s) := by
  obtain ⟨hshape, hinside, hunit, hbound, hidle, htagged⟩ := hpass
  have hring : k.failing t (fun _ c => d.outside kind c) = none := Slot.failing_eq_none hinside
  have hfirst : k.failing t (fun cn _ => (k.firstUnitFault t gr d kind cn).isSome) = none :=
    Slot.failing_eq_none fun cn hcn => by rw [hunit cn hcn, Option.isSome_none]
  have huntagged : k.tagged t (if gr == 0 then [] else [gr.toNat]) = none := by simpa only [beq_iff_eq] using htagged
  rw [spoolTstart, Chip.issue_some _ hslot]
  simp only [hdesc, hkind]
  split
  next hbad => cases hshape.symm.trans hbad
  next hbad => cases hring.symm.trans hbad
  next hbad => cases hfirst.symm.trans hbad
  next =>
    change Chip.counted _ (if k.misbound t d kind then _ else _)
    rw [hbound, if_neg Bool.false_ne_true, Slot.check_of_met hidle, Slot.untagged_of_none huntagged]
    exact Chip.updCnt_ite_counted ..

/-- The thread that TSTART loads starts 4 F-cycles later, with no unit moved and the Pad as it was (R250). -/
theorem spoolTstart_starts {desc : BitVec 8} {gr : BitVec 4} {d : ThreadDesc} {kind : ThreadKind} (hnodup : k.cells.Nodup)
    (hdesc : k.r.plan.threads[desc.toNat]? = some d) (hkind : threadKind d.kind = some kind) (hpass : k.SpoolPasses t th gr d kind)
    {cn : Nat} (hcn : cn ∈ k.cells) :
    ∃ x, mfind th.toNat ((spoolTstart i th desc gr s).cell cn).threads = some x ∧ x.run = k.r.id ∧ x.d = d ∧ x.startAt = k.now + 4
      ∧ x.moved = 0 ∧ ((spoolTstart i th desc gr s).cell cn).pad = (t.cell cn).pad := by
  rw [(spoolTstart_of_passes hslot hdesc hkind hpass).cell, t.updCells_cell _ _ hnodup hcn]
  exact ⟨_, mfind_mput_self .., rfl, rfl, rfl, rfl, rfl⟩

/-- ADVANCE marks segments of a live thread of every issuing cell, and leaves memory as it was (R249, R250). -/
theorem spoolAdvance_marks {segs : BitVec 2} (hnodup : k.cells.Nodup) :
    (spoolAdvance i th segs s).mem = t.mem ∧ ∀ cn ∈ k.cells, ∀ x, mfind th.toNat (t.cell cn).threads = some x →
      x.idle k.now = false → mfind th.toNat ((spoolAdvance i th segs s).cell cn).threads
        = some ((x.settle k.now).advance k.now segs.toNat ((t.cell cn).reading th.toNat k.now)).1 := by
  rw [spoolAdvance, Chip.issue_some _ hslot]
  refine ⟨(Chip.moved_trans (t.updCells_moved ..) (Chip.updCnt_ite_counted ..).moved).mem, fun cn hcn x hx hlive => ?_⟩
  rw [(Chip.updCnt_ite_counted ..).cell, t.updCells_cell _ _ hnodup hcn]
  simp only [hx, hlive, Bool.false_eq_true, if_false, mfind_mput_self]

/-- TSTOP stops a live thread of every issuing cell, and leaves memory as it was (R250). -/
theorem spoolTstop_stops (hnodup : k.cells.Nodup) :
    (spoolTstop i th s).mem = t.mem ∧ ∀ cn ∈ k.cells, ∀ x, mfind th.toNat (t.cell cn).threads = some x →
      x.idle k.now = false → mfind th.toNat ((spoolTstop i th s).cell cn).threads = some (({ x with stopping := true }).stopNow k.now) := by
  rw [spoolTstop, Chip.issue_some _ hslot]
  refine ⟨(Chip.moved_trans (t.updCells_moved ..) (Chip.updCnt_ite_counted ..).moved).mem, fun cn hcn x hx hlive => ?_⟩
  rw [(Chip.updCnt_ite_counted ..).cell, t.updCells_cell _ _ hnodup hcn]
  simp only [hx, hlive, Bool.false_eq_true, if_false, mfind_mput_self]

end Issue

/-! ### What happens by itself -/

section Events

variable {s t : Chip} {i : Issuer}

/-- A presentation whose units pass their checks takes each cell's chosen thread; a cell within its 32 rows is not held for them (R252,
R257). -/
theorem spoolPresent_presents {x : Resource} {r r' : Run} {m : Nat} {u : Chip} (hrun0 : s.run? i.run = some r)
    (hnext : s.presentNext r i x = some m) (hwait : s.waitRun i.run m = some t) (hrun : t.run? i.run = some r')
    (hpresent : t.presentAll r' i m x = (u, none)) (hroom : ∀ cn ∈ i.cells, (u.cell cn).outstanding ≤ 32) :
    spoolPresent i x s = u := by
  simp only [spoolPresent, hrun0, hnext, Chip.atCycle_eq hwait, hrun, hpresent]
  refine List.foldlRecOn i.cells _ (motive := (· = u)) rfl fun v hv cn hcn => ?_
  rw [hv, if_neg (Nat.not_lt.2 (hroom cn hcn))]

/-- The units of a thread that come back first land, each in its cell (R251). -/
theorem unitLand_lands {th : BitVec 4} {d : Nat}
    (hfirst : (i.cells.filterMap fun cn => (s.nextBack i th.toNat cn).map (·.due)).min? = some d) :
    unitLand i th s = (i.cells.filter fun cn => (s.nextBack i th.toNat cn).map (·.due) == some d).foldl
      (fun (t : Chip) cn => t.landUnit i th.toNat cn) s := by
  simp only [unitLand, hfirst]

/-- A returned unit is written to its ring rows, row j in A + 1 + j, and has moved after the last of them (R251). -/
theorem Chip.landUnit_writes {th cn : Nat} {u : SpoolUnit} {r : Run} {x : Thread} (hback : s.nextBack i th cn = some u)
    (hwait : s.waitRun i.run u.due = some t) (hrun : t.run? i.run = some r) (hthread : mfind u.thread (t.cell cn).threads = some x) :
    s.landUnit i th cn = ((x.rowsOf u.k).zipIdx.foldl (fun t rj => t.writePad r cn rj.1 (u.due + 1 + rj.2) 8 (BitVec.allOnes 8)
      ((u.data[rj.2]?).getD 0) ((u.poison[rj.2]?).getD false) x.bundle) t).settleUnit r cn u (u.due + 1 + u.kind.rows) := by
  simp only [landUnit, hback, Chip.atCycle_eq hwait, hrun, hthread]

/-- A draining run with nothing left to drain ends (R256). -/
theorem writeDrainDone_finishes {run : Nat} {r : Run} (hrun : s.run? run = some r) (hstate : r.state = .draining)
    (hdrained : s.drains r = false) : writeDrainDone run s = s.finishRun r := by
  have hdone : (r.state != .draining || s.drains r) = false := by rw [hstate, hdrained]; rfl
  simp only [writeDrainDone, hrun, hdone, Bool.false_eq_true, if_false]

end Events

/-- Settles O58: each command is its function on the package, whose outcome that function's own lemma gives; the checks of TSTART by
`ThreadDesc.outside_of_rows`, `Slot.firstUnitFault_of_checked` and `Slot.misbound_of_entry`. -/
theorem spoolCommandsComplete : Obligations.SpoolCommandsComplete := by
  intro s i hlive
  refine ⟨fun k t th desc gr d kind hslot hnodup hdesc hkind hshape hbound hcells htagged => ?_,
    fun k t th segs hslot hnodup => ⟨_, exec_of_effect hlive rfl rfl, spoolAdvance_marks hslot hnodup⟩,
    fun k t th hslot hnodup => ⟨_, exec_of_effect hlive rfl rfl, spoolTstop_stops hslot hnodup⟩,
    fun x r r' m t u hrun0 hnext hwait hrun hpresent hroom =>
      exec_of_effect hlive rfl (spoolPresent_presents hrun0 hnext hwait hrun hpresent hroom),
    fun th d hfirst => exec_of_effect hlive rfl (unitLand_lands hfirst),
    fun v t th cn u r x hback hwait hrun hthread => Chip.landUnit_writes hback hwait hrun hthread,
    fun run r hrun hstate hdrained => exec_of_effect hlive rfl (writeDrainDone_finishes hrun hstate hdrained)⟩
  have hpass : k.SpoolPasses t th gr d kind :=
    { shaped := hshape
      inside := fun cn hcn => by
        obtain ⟨hring, hindex, -, -⟩ := hcells cn hcn
        exact ThreadDesc.outside_of_rows hring hindex
      reachable := fun cn hcn => by
        obtain ⟨-, -, hunit, -⟩ := hcells cn hcn
        exact Slot.firstUnitFault_of_checked hunit
      bound := Slot.misbound_of_entry hbound
      idle := fun cn hcn => by
        obtain ⟨-, -, -, hidle⟩ := hcells cn hcn
        exact (Option.any_eq_false _ _).2 fun x hx => by rw [hidle x hx, Bool.not_true]
      untagged := htagged }
  exact ⟨_, exec_of_effect hlive rfl rfl, fun cn hcn => spoolTstart_starts hslot hnodup hdesc hkind hpass hcn⟩

end Sys2Proof.Machine
end

section
/-! # The control registers of PF0 under Expert control (R296, R324, R354, R383, R410, R441): error injection, interconnect tests, resets,
injected events, forced power states, the User Ledger, the capacity override -/

namespace Sys2Proof.Machine

section Controls

variable {s : Chip}

/-! ### Registers of a plate -/

/-- An Expert command reaches a plate that is out of reset and has its clock (R390, R405). -/
theorem Chip.platePort_clocked {plate : Nat} {act : Chip → Chip} (hexpert : s.expertOn = true) (hreset : (s.plate plate).reset = false)
    (hlock : (s.plate plate).fLock = true) : s.platePort plate act = act s := by
  rw [Chip.platePort, if_pos hexpert, Chip.reachPlate_clocked _ hreset hlock]

/-- Kinds 01 and 10 arm an error; the two others keep what is armed (R296). -/
theorem hbmInjectGo_eq (hexpert : s.expertOn = true) (stack : BitVec 3) (atom : BitVec 30) (kind : BitVec 2) :
    hbmInjectGo stack atom kind s = s.updStack stack.toNat fun x =>
      { x with injAtom := atom.toNat, injKind := kind.toNat, injArmed := kind == 1 || kind == 2 || x.injArmed } := by
  rw [hbmInjectGo, Chip.expertWrite_on hexpert]
  simp only [Bool.if_true_left, Bool.decide_eq_true]

theorem seamTestCtrlGo_starts {plate : BitVec 3} {port : BitVec 2} {phases : BitVec 4} (d : BitVec 5) (hexpert : s.expertOn = true)
    (hconnected : seamConnected (portKey plate.toNat port.toNat) = true) (hphases : phases ≠ 0)
    (hidle : s.testBusy (portKey plate.toNat port.toNat) = false) :
    seamTestCtrlGo plate port phases d s = s.startTest (portKey plate.toNat port.toNat) phases.toNat d.toNat none 0 := by
  rw [seamTestCtrlGo, Chip.expertWrite_on hexpert]
  simp only [hconnected, beq_false_of_ne hphases, hidle, Bool.not_true, Bool.false_eq_true, if_false]

/-! ### Link tests -/

/-- Bit 0 of the phase mask selects nothing (log entry 42), so a mask of at least 2 selects a phase. -/
theorem slvTestCtrlGo_starts {link phases : BitVec 4} (d : BitVec 5) (hexpert : s.expertOn = true) (hphases : 2 ≤ phases.toNat)
    (hfree : s.linkHeld link.toNat = false) (hidle : (s.link link.toNat).state ≠ 11) :
    slvTestCtrlGo link phases d s = s.startLinkTest link.toNat (phases.toNat / 2 * 2) d.toNat none 0 := by
  have hselects : phases.toNat / 2 ≠ 0 := by omega
  rw [slvTestCtrlGo, Chip.expertWrite_on hexpert]
  simp only [if_neg hselects, hfree, beq_false_of_ne hidle, Bool.or_self, Bool.false_eq_true, if_false]

/-! ### Resets and injected events (R410) -/

theorem pwrResetPlate_begins {plate : BitVec 3} (hexpert : s.expertOn = true) (hreset : (s.plate plate.toNat).reset = false) :
    pwrResetPlate plate s
      = Chip.beginPlateReset { s with power := { s.power with resetLevel := 1, resetPlate := plate.toNat } } plate.toNat none 0 false := by
  have hreset' (p : Power) : (Chip.plate { s with power := p } plate.toNat).reset = false := hreset
  rw [pwrResetPlate, Chip.expertWrite_on hexpert]
  simp only [hreset', Bool.false_eq_true, if_false]

theorem dbgEvInject_counts {ev : BitVec 7} (hexpert : s.expertOn = true) (hev : eventAssigned .pf0 ev.toNat = true) :
    dbgEvInject ev 0 s
      = (s.updDbg fun d => { d with evIndex := ev.toNat, evFunction := 0 }).updEvents .pf0 fun x => x.bump ev.toNat 1 := by
  rw [dbgEvInject, Chip.expertWrite_on hexpert]
  exact if_pos hev

/-! ### PWR_FORCE (R441) -/

@[simp] theorem Swatch.startWake_forced (now : Nat) (w : Swatch) : (w.startWake now).forced = w.forced := by
  unfold Swatch.startWake
  split <;> rfl

/-- A swatch held in Run: one in a deeper state starts to wake. -/
def Swatch.forceRun (now : Nat) (w : Swatch) : Swatch :=
  if w.power = 0 then { w with forced := 1 } else Swatch.startWake now { w with forced := 1 }

theorem Swatch.forceRun_forced (now : Nat) (w : Swatch) : (w.forceRun now).forced = 1 := by
  unfold Swatch.forceRun
  split
  · rfl
  · exact Swatch.startWake_forced ..

theorem Swatch.forceRun_waking (now : Nat) (w : Swatch) : (w.forceRun now).waking = (w.waking || w.power != 0) := by
  unfold Swatch.forceRun
  split
  next hrun => simp [hrun]
  next hdeep => rw [Swatch.startWake_waking, bne_iff_ne.2 hdeep, Bool.or_true]

theorem pwrForceRun_eq (hexpert : s.expertOn = true) (swatch : BitVec 6) :
    pwrForceRun swatch s = Chip.updSwatch { s with power := { s.power with forceSwatch := swatch.toNat, forceMode := 1 } } swatch.toNat
      (Swatch.forceRun s.aTick) := by
  rw [pwrForceRun, Chip.expertWrite_on hexpert]
  rfl

/-- A swatch deeper than Doze starts to wake. -/
theorem pwrForceDoze_deep {swatch : BitVec 6} (hexpert : s.expertOn = true) (hdeep : 1 < (s.swatch swatch.toNat).power) :
    pwrForceDoze swatch s
      = (Chip.updSwatch { s with power := { s.power with forceSwatch := swatch.toNat, forceMode := 2 } } swatch.toNat
          fun w => { w with forced := 2 }).updSwatch swatch.toNat (Swatch.startWake s.aTick) := by
  have hpower (p : Power) : (Chip.swatch { s with power := p } swatch.toNat).power = (s.swatch swatch.toNat).power := rfl
  rw [pwrForceDoze, Chip.expertWrite_on hexpert]
  simp only [Chip.swatch_updSwatch, hpower]
  rw [if_neg (by omega), if_neg (by omega)]
  rfl

/-! ### LDG_USER (R441) -/

/-- An entry that passes the checks is taken. Item 13, the retired cells, is not written through the window (log entry 33). -/
theorem ldgUserWrite_puts {item : BitVec 4} {index : BitVec 16} {value : Int} (hexpert : s.expertOn = true) (hopen : s.ledgerOpen = true)
    (hitem : item ≠ 13) (hgood : s.ledgerBad (item.toNat, index.toNat, value) = none) :
    ldgUserWrite item index value s = s.ledgerPut (item.toNat, index.toNat, value) := by
  have hwritable : (item.toNat == 13) = false := beq_false_of_ne fun h => hitem (BitVec.eq_of_toNat_eq h)
  rw [ldgUserWrite, Chip.expertWrite_on hexpert]
  simp only [hopen, hwritable, hgood, Option.isSome_none, Bool.not_true, Bool.or_self, Bool.false_eq_true, if_false]

/-! ### DBG_CAP_OVERRIDE (R383) -/

/-- The resource whose capacity the override lowers, if there is one. -/
def Dbg.capLowered (d : Dbg) : List Nat := if d.capEnable && d.capRes < 40 then [d.capRes] else []

/-- The capacity changes on the resources that the old and the new override lower, in increasing id. -/
theorem capOverrideWrite_changes (hexpert : s.expertOn = true) (res cap : Nat) (enable : Bool) {d : Dbg}
    (hd : d = { s.dbg with capRes := res % 64, capCap := cap % 64, capEnable := enable }) :
    capOverrideWrite res cap enable s
      = Chip.capacityChange { s with dbg := d }
          ((s.dbg.capLowered ++ d.capLowered.filter fun r => !s.dbg.capLowered.contains r).mergeSort fun a b => decide (a ≤ b)) true := by
  subst hd
  rw [capOverrideWrite, hexpert]
  rfl

end Controls

/-- Settles O27: PF0's host commands are their functions on the package (`State.on_host`), and each function's own lemma gives its effect
under Expert control. -/
theorem controlRegisterCommandsComplete : Obligations.ControlRegisterCommandsComplete := by
  intro s hadmits hexpert
  refine ⟨fun stack atom kind hreset hlock => ?_, fun plate port phases d hconnected hreset hlock hphases hidle => ?_,
    fun link phases d hphases hfree hidle => ?_, fun plate hreset => ?_, ?_, fun ev hev => ?_, fun swatch => ?_,
    fun swatch hdeep => ?_, fun item index value hopen hitem hgood => ?_, fun resource cap enable => ?_⟩
  · refine ⟨_, State.on_host hadmits _, ?_⟩
    rw [State.put_chip, Chip.platePort_clocked hexpert hreset hlock, hbmInjectGo_eq hexpert, Chip.stack_updStack]
    exact ⟨rfl, rfl, rfl, rfl, Chip.updStack_mem ..⟩
  · refine (State.on_host hadmits _).trans ?_
    rw [Chip.platePort_clocked hexpert hreset hlock, seamTestCtrlGo_starts d hexpert hconnected hphases hidle]
  · refine (State.on_host hadmits _).trans ?_
    rw [slvTestCtrlGo_starts d hexpert hphases hfree hidle]
  · refine (State.on_host hadmits _).trans ?_
    rw [pwrResetPlate_begins hexpert hreset]
  · refine (State.on_host hadmits _).trans ?_
    rw [pwrResetCollarWarm, Chip.expertWrite_on hexpert]
  · refine ⟨_, State.on_host hadmits _, ?_⟩
    rw [State.put_chip, dbgEvInject_counts hexpert hev]
    exact ⟨rfl, rfl, rfl, rfl⟩
  · refine ⟨_, State.on_host hadmits _, ?_⟩
    rw [State.put_chip, pwrForceRun_eq hexpert, Chip.swatch_updSwatch]
    exact ⟨Swatch.forceRun_forced .., Swatch.forceRun_waking .., rfl, rfl, fun n hn => Chip.swatch_updSwatch_other _ hn _⟩
  · refine ⟨_, State.on_host hadmits _, ?_⟩
    rw [State.put_chip, pwrForceDoze_deep hexpert hdeep, Chip.swatch_updSwatch, Chip.swatch_updSwatch]
    exact ⟨Swatch.startWake_forced .., Swatch.startWake_waking .., rfl⟩
  · refine (State.on_host hadmits _).trans ?_
    rw [ldgUserWrite_puts hexpert hopen hitem hgood]
  · have hexec := State.on_host hadmits (capOverrideWrite resource.toNat cap.toNat enable)
    rw [capOverrideWrite_changes hexpert _ _ _ rfl] at hexec
    exact ⟨_, _, hexec, Nat.mod_eq_of_lt resource.isLt, Nat.mod_eq_of_lt cap.isLt, rfl, rfl⟩

end Sys2Proof.Machine
end

section
/-! # The Test Access Port and the management endpoints (Table 11.4, R313, R314, R516, R565) -/

namespace Sys2Proof.Machine

/-! ### Instructions of the port (Table 11.4) -/

section TestPort

variable {s : Chip}

/-- A gated instruction that is not open is decoded as BYPASS, whose number is 0. -/
theorem Chip.tap_decodes_iff {isOpen : Bool} {code out : Nat} (hcode : code ≠ 0) :
    (s.tap isOpen code out).mgmt.tapInstr = code ↔ isOpen = true := by
  cases isOpen with
  | false => exact iff_of_false hcode.symm Bool.false_ne_true
  | true => exact iff_of_true rfl rfl

theorem Chip.tap_tapOut (code out : Nat) : (s.tap true code out).mgmt.tapOut = out := rfl

theorem Chip.tapOpen_iff : s.tapOpen = true ↔ s.life = .manufacturing ∨ s.life = .returned := by
  simp [Chip.tapOpen]

/-- EXTEST is open in service as well, in Management-only mode with the Expert enable set. -/
theorem tapExtest_decodes_iff :
    (tapExtest s).mgmt.tapInstr = 3 ↔ s.life = .manufacturing ∨ s.life = .returned ∨ s.grade = .mgmt ∧ s.expertOn = true := by
  rw [tapExtest, Chip.tap_decodes_iff (by decide), Bool.or_eq_true, Chip.tapOpen_iff, Bool.and_eq_true, beq_iff_eq, or_assoc]

theorem tapDieAccess_decodes_iff : (tapDieAccess s).mgmt.tapInstr = 4 ↔ s.life = .manufacturing ∨ s.life = .returned := by
  rw [tapDieAccess, Chip.tap_decodes_iff (by decide), Chip.tapOpen_iff]

/-- Where the port is open, the test of a connected idle port starts as one that no call waits for. -/
theorem tapSeamInterconnectTest_starts {plate : BitVec 3} {port : BitVec 2} {phases : BitVec 4} (d : BitVec 5) (hopen : s.tapOpen = true)
    (hconnected : seamConnected (portKey plate.toNat port.toNat) = true) (hphases : phases ≠ 0)
    (hidle : s.testBusy (portKey plate.toNat port.toNat) = false) :
    tapSeamInterconnectTest plate port phases d s
      = (s.tap true 5 0).startTest (portKey plate.toNat port.toNat) phases.toNat d.toNat none 0 := by
  have hgo : (s.tapOpen && seamConnected (portKey plate.toNat port.toNat) && phases != 0
      && !s.testBusy (portKey plate.toNat port.toNat)) = true := by
    simp only [hopen, hconnected, bne_iff_ne.2 hphases, hidle, Bool.not_false, Bool.and_self]
  rw [tapSeamInterconnectTest, if_pos hgo, hopen]

end TestPort

/-! ### Firmware updates (R513, R516) -/

section Update

variable (k : BitVec 3) (ok : Bool) (svn : BitVec 6) (s : Chip)

/-- The inactive copy is kept only for the image of a boot step that verifies and does not go back behind the security version held. -/
theorem pldmFirmwareUpdate_update : (pldmFirmwareUpdate k ok svn s).mgmt.update
    = if 2 ≤ k.toNat ∧ k.toNat ≤ 6 ∧ ok = true ∧ mget 0 k.toNat s.trust.svn ≤ svn.toNat
      then mput k.toNat svn.toNat s.mgmt.update else s.mgmt.update := by
  simp only [pldmFirmwareUpdate, Bool.and_eq_true, decide_eq_true_eq, and_assoc]
  split <;> rfl

/-- The security versions held stay as they are: an update writes the inactive copy alone. -/
theorem pldmFirmwareUpdate_trust : (pldmFirmwareUpdate k ok svn s).trust = s.trust := by
  unfold pldmFirmwareUpdate
  dsimp only
  split <;> rfl

end Update

/-- A command to an interface that the package presents is its function on the package. -/
theorem State.on_shown {s : State} (h : s.chip.presents = true) (f : Chip → Chip) :
    s.on (fun t => t.shown f) = .next (s.put (f s.chip)) := by
  rw [State.on_eq, Chip.shown_presents h]

/-- Settles O42: a public instruction is decoded in every state, a gated one by `Chip.tap_decodes_iff` where it is open, and each management
command is its function on the package (`State.on_shown`). -/
theorem testPortAndManagementCommandsComplete : Obligations.TestPortAndManagementCommandsComplete := by
  refine fun s => ⟨⟨_, State.on_eq s tapBypass, rfl, rfl⟩, ⟨_, State.on_eq s tapIdcode, rfl, Chip.tap_tapOut 1 idcode⟩,
    ⟨_, State.on_eq s tapSamplePreload, rfl⟩, ⟨_, State.on_eq s tapExtest, tapExtest_decodes_iff⟩,
    ⟨_, State.on_eq s tapDieAccess, tapDieAccess_decodes_iff⟩, fun plate port phases d hlive hopen hconnected hphases hidle => ?_,
    fun hpresents => ⟨fun sensor => State.on_shown hpresents _, fun eid => State.on_shown hpresents _, fun k ok svn => ?_⟩⟩
  · exact exec_of_effect hlive rfl (tapSeamInterconnectTest_starts d hopen hconnected hphases hidle)
  · exact ⟨_, State.on_shown hpresents _, pldmFirmwareUpdate_update k ok svn s.chip, pldmFirmwareUpdate_trust k ok svn s.chip⟩

end Sys2Proof.Machine
end

section
/-! # The end of an interconnect test (R314, R317): which results join the port's lane map

A port that trains makes the package settle its control routes, shares and grade again (`Chip.portChanged`), none of which touches a Seam
port; so the lanes of its map are those that it had and those that `SeamPort.fail` put there. -/

namespace Sys2Proof.Machine

section SeamFrames

variable {s : Chip}

/-! ### What a change of a port's mode leaves alone -/

@[simp] theorem Chip.updSwatches_seams (ns : List Nat) (f : Swatch → Swatch) : (s.updSwatches ns f).seams = s.seams :=
  Chip.foldl_reads Chip.seams (fun t n => t.updSwatch_seams n f) ns s

@[simp] theorem Chip.noteArrivals_seams (p : Nat) : (s.noteArrivals p).seams = s.seams := by
  refine Chip.foldl_reads Chip.seams (fun t h => ?_) _ s
  unfold Chip.noteArrival
  dsimp only
  split <;> rfl

@[simp] theorem Chip.plateLost_seams (plate : Nat) : (s.plateLost plate).seams = s.seams := by
  refine (Chip.foldl_reads Chip.seams (fun t p => ?_) _ _).trans ?_
  · rw [Chip.noteArrivals_seams, Chip.raisePart_seams]
  · simp

@[simp] theorem Chip.reroute_seams : s.reroute.seams = s.seams :=
  Chip.foldl_reads Chip.seams (fun t p => t.plateLost_seams p) _ s

@[simp] theorem Chip.regrade_seams : s.regrade.seams = s.seams := by
  unfold Chip.regrade
  dsimp only
  split
  · rfl
  · exact Chip.raiseDev_seams ..

@[simp] theorem Chip.suspend_seams (p r : Nat) : (s.suspend p r).seams = s.seams := Chip.raiseBoth_seams ..

@[simp] theorem Chip.fitStrict_seams (r n : Nat) : (s.fitStrict r n).seams = s.seams := by
  induction n generalizing s with
  | zero => rfl
  | succ n ih =>
    unfold Chip.fitStrict
    split
    · rfl
    · dsimp only
      split
      · rfl
      · split
        · rw [ih, Chip.suspend_seams]
        · rfl

@[simp] theorem Chip.repace_seams (p : Nat) : (s.repace p).seams = s.seams := by
  unfold Chip.repace
  dsimp only
  split
  · rfl
  · exact Chip.raiseBoth_seams ..

@[simp] theorem Chip.reshare_seams : s.reshare.seams = s.seams := by
  refine (Chip.foldl_reads Chip.seams (fun t p => t.repace_seams p) _ _).trans (Chip.foldl_reads Chip.seams (fun t r => ?_) _ s)
  split
  · rfl
  · exact Chip.foldl_reads Chip.seams (fun u pe => u.updPart_seams pe.1 _) (t.shares r) t

/-- A fall of capacities rebalances the resources. -/
@[simp] theorem Chip.capacityChange_fall_seams (rs : List Nat) : (s.capacityChange rs false).seams = s.seams :=
  Chip.foldl_reads Chip.seams (fun t r => by rw [Chip.rebalance, Chip.reshare_seams, Chip.fitStrict_seams]) rs s

@[simp] theorem Chip.portChanged_fall_seams (key : Nat) : (s.portChanged key false).seams = s.seams := by
  simp [Chip.portChanged]

/-! ### A port and its other end -/

/-- No ring port is its own other end (R19): W faces E, and V faces the V of another plate. -/
theorem seamPeer_ne {plate port plate' port' : Nat} (h : seamPeer plate port = some (plate', port')) :
    portKey plate' port' ≠ portKey plate port := by
  unfold seamPeer at h
  unfold portKey
  split at h
  · obtain ⟨-, ⟨⟩⟩ := Option.ite_none_left_eq_some.1 h
    omega
  · obtain ⟨-, ⟨⟩⟩ := Option.ite_none_left_eq_some.1 h
    omega
  · split at h
    · cases h
      omega
    · obtain ⟨hplate, ⟨⟩⟩ := Option.ite_none_right_eq_some.1 h
      simp only [Bool.or_eq_true, decide_eq_true_eq] at hplate
      omega
  · cases h

theorem seamPeerKey_ne {key k : Nat} (h : seamPeerKey key = some k) : k ≠ key := by
  obtain ⟨⟨plate, port⟩, hpeer, rfl⟩ := Option.map_eq_some_iff.1 h
  have hkey : key = portKey (key / 4) (key % 4) := (Nat.div_add_mod key 4).symm
  rw [hkey]
  exact seamPeer_ne hpeer

@[simp] theorem Chip.seam_setPort (key : Nat) (f : SeamPort → SeamPort) : (s.setPort key f).seam key = f (s.seam key) := by
  unfold Chip.setPort
  dsimp only
  split
  next k hpeer => rw [Chip.seam_updSeam_other _ (seamPeerKey_ne hpeer).symm, Chip.seam_updSeam]
  next => rw [Chip.seam_updSeam]

/-- After a test a port trains with the lane map it has (R317). -/
theorem Chip.trainPort_keeps_tx (key : Nat) : ((s.trainPort key true).seam key).tx = (s.seam key).tx := by
  have hseams (t : Chip) : (t.portChanged key false).seam key = t.seam key := by
    rw [Chip.seam, Chip.portChanged_fall_seams, Chip.seam]
  rw [Chip.trainPort, hseams, Chip.seam_setPort]
  rfl

end SeamFrames

/-! ### The lanes that fail -/

theorem mem_sinsert {x k : Nat} {l : List Nat} : x ∈ sinsert k l ↔ x = k ∨ x ∈ l := by
  induction l with
  | nil => rw [sinsert, List.mem_singleton, or_iff_left List.not_mem_nil]
  | cons j rest ih =>
    unfold sinsert
    split
    · exact List.mem_cons
    · split
      next hkj => rw [hkj, List.mem_cons, or_self_left]
      next => rw [List.mem_cons, ih, List.mem_cons, or_left_comm]

theorem mem_foldl_sinsert {x : Nat} {lanes l : List Nat} : x ∈ lanes.foldl (fun l y => sinsert y l) l ↔ x ∈ lanes ∨ x ∈ l := by
  induction lanes generalizing l with
  | nil => rw [List.foldl_nil, or_iff_right List.not_mem_nil]
  | cons y rest ih => rw [List.foldl_cons, ih, mem_sinsert, List.mem_cons, or_left_comm, or_assoc]

/-- A port that trains after lanes have failed has them in its map. -/
theorem Chip.failed_of_trainPort_fail (s : Chip) (key : Nat) {lane : Nat} {tx : List Nat} (rx : List Nat) (h : lane ∈ tx) :
    lane ∈ (((s.setPort key (SeamPort.fail tx rx)).trainPort key true).seam key).tx.failed := by
  rw [Chip.trainPort_keeps_tx, Chip.seam_setPort]
  exact mem_foldl_sinsert.2 (.inl h)

/-! ### A result that names no lane of the port -/

/-- Port C of plate 0 runs phase 1 of a test that no call waits for. -/
def portUnderTest : Chip := { seams := [(0, { state := 12, mode := 2, testPhases := 1, testDone := false })] }

/-- A result for lane 70: a Seam port has the lanes 0 to 69 (R314). -/
def resultOffPort : LaneResult := { lane := 70, rx := false, phase := 1 }

/-- The result does not count (`LaneResult.counts`), so the port trains with an empty map. -/
theorem seamTestDone_resultOffPort :
    70 ∉ ((seamTestDone 0 0 [resultOffPort] [] portUnderTest).seam (portKey (0 : BitVec 3).toNat (0 : BitVec 2).toNat)).tx.failed := by
  decide +kernel

/-- Refutes O15: its clause on SEAM_TEST_DONE puts every reported lane into the port's map, where the model takes only the results that
the test can have. With a result for lane 70 the port trains with an empty map, and the clause wants lane 70 in it. -/
theorem not_seamCallsComplete : ¬ Obligations.SeamCallsComplete := by
  intro h
  obtain ⟨-, -, -, -, hdone⟩ := h { chip := portUnderTest, pending := [] } { fn := .pf0, tag := 0 } 0 0
  obtain ⟨u, hexec, -⟩ := hdone 0 0 [resultOffPort] [] rfl rfl rfl rfl rfl
  have hsame := congrArg State.chip (Host.Outcome.next.inj ((State.on_live rfl _).symm.trans hexec))
  rw [State.put_chip, State.put_chip] at hsame
  refine seamTestDone_resultOffPort ?_
  rw [hsame]
  exact u.failed_of_trainPort_fail _ _ (by decide)

end Sys2Proof.Machine
end

section
/-! # Time leaves links and ports alone (R100): what passes on the package by itself touches no Selvage link and no Seam port

`Chip.steady` states that frame, once per shared operation, up to the clocks themselves (`Chip.advance_ports`). -/

namespace Sys2Proof.Machine

/-- No time passes, and no Selvage link and no Seam port changes. -/
@[simp] abbrev Chip.steady (s t : Chip) : Prop := t.time = s.time ∧ t.links = s.links ∧ t.seams = s.seams

theorem Chip.steady_refl (s : Chip) : s.steady s := ⟨rfl, rfl, rfl⟩

theorem Chip.steady_trans {s t u : Chip} (h : s.steady t) (k : t.steady u) : s.steady u :=
  ⟨k.1.trans h.1, k.2.1.trans h.2.1, k.2.2.trans h.2.2⟩

@[simp] theorem Chip.links_ite (p : Prop) [Decidable p] (s t : Chip) :
    (if p then s else t).links = if p then s.links else t.links := apply_ite ..

@[simp] theorem Chip.seams_ite (p : Prop) [Decidable p] (s t : Chip) :
    (if p then s else t).seams = if p then s.seams else t.seams := apply_ite ..

@[simp] theorem Chip.foldl_steady {α : Type} {f : Chip → α → Chip} (h : ∀ (t : Chip) (x : α), t.steady (f t x)) (l : List α)
    (s : Chip) : s.steady (l.foldl f s) := by
  induction l generalizing s with
  | nil => exact s.steady_refl
  | cons x rest ih => exact Chip.steady_trans (h s x) (ih _)

theorem Chip.counted.links {s t : Chip} (h : s.counted t) : t.links = s.links := by unfold Chip.counted at h; rw [h]
theorem Chip.counted.seams {s t : Chip} (h : s.counted t) : t.seams = s.seams := by unfold Chip.counted at h; rw [h]

theorem Chip.counted.steady {s t : Chip} (h : s.counted t) : s.steady t := ⟨h.time, h.links, h.seams⟩

section Steady

variable (s : Chip)

/-! ### Counts, events and holds -/

@[simp] theorem Chip.hazard_steady (r : Run) (kind cell bundle : Nat) : s.steady (s.hazard r kind cell bundle) :=
  (s.hazard_counted r kind cell bundle).steady
@[simp] theorem Chip.notePad_steady (id part cn now : Nat) (e : PadErr) (bundle : Nat) :
    s.steady (s.notePad id part cn now e bundle) := (s.notePad_counted id part cn now e bundle).steady
@[simp] theorem Chip.overflow_steady (id : Nat) (demand : List (Nat × Nat)) (cell bundle : Nat) :
    s.steady (s.overflow id demand cell bundle) := (s.overflow_counted id demand cell bundle).steady
@[simp] theorem Chip.countStalls_steady (r : Run) (stalls cycles cell bundle : Nat) :
    s.steady (s.countStalls r stalls cycles cell bundle) := (s.countStalls_counted r stalls cycles cell bundle).steady

@[simp] theorem Chip.regrade_steady : s.steady s.regrade := by simp [Chip.regrade]
@[simp] theorem Chip.noteArrival_steady (p h : Nat) : s.steady (s.noteArrival p h) := by simp [Chip.noteArrival]
@[simp] theorem Chip.noteArrivals_steady (p : Nat) : s.steady (s.noteArrivals p) := by simp [Chip.noteArrivals]

/-! ### Pads, panels, swatches -/

@[simp] theorem Chip.updSwatches_steady (ns : List Nat) (f : Swatch → Swatch) : s.steady (s.updSwatches ns f) := by
  simp [Chip.updSwatches]
@[simp] theorem Chip.freePadRow_steady (cn row : Nat) : s.steady (s.freePadRow cn row) := ⟨rfl, rfl, rfl⟩
@[simp] theorem Chip.freePadRows_steady (cn : Nat) (rows : List Nat) : s.steady (s.freePadRows cn rows) := by
  simp [Chip.freePadRows]
@[simp] theorem Chip.setTasks_steady (cn : Nat) (ts : List TaskSlot) : s.steady (s.setTasks cn ts) := by simp [Chip.setTasks]
@[simp] theorem Chip.commitStores_steady (sw : Nat) : s.steady (s.commitStores sw) := by simp [Chip.commitStores]
@[simp] theorem Chip.settleStores_steady (sw : Nat) : s.steady (s.settleStores sw) := by simp [Chip.settleStores]
@[simp] theorem Chip.discardPanel_steady (id p : Nat) : s.steady (s.discardPanel id p) := by simp [Chip.discardPanel]
@[simp] theorem Chip.discardPanels_steady (id sw : Nat) : s.steady (s.discardPanels id sw) := by simp [Chip.discardPanels]

@[simp] theorem Chip.noteBank_steady (id cn row cycle now bundle : Nat) : s.steady (s.noteBank id cn row cycle now bundle) := by
  simp [Chip.noteBank]

/-- A Pad read counts what it finds and holds the runs. -/
theorem Chip.readPad_steady (r : Run) (cn row now bundle : Nat) (mask : BitVec 8) :
    s.steady (s.readPad r cn row now bundle mask).1 := by
  unfold Chip.readPad
  dsimp only
  generalize hu : s.checkRead r cn row now bundle mask = u
  have hcheck : s.steady u := hu ▸ (s.checkRead_counted r cn row now bundle mask).steady
  generalize (u.cell cn).pad.read now row (maskPairs mask) = x
  generalize hv : u.setCell cn { u.cell cn with pad := x.1 } = v
  have hread : u.steady v := hv ▸ ⟨rfl, rfl, rfl⟩
  exact Chip.steady_trans hcheck (Chip.steady_trans hread (Chip.steady_trans (v.notePad_steady ..) (Chip.noteBank_steady ..)))

theorem Chip.readRows_steady (r : Run) (cn now bundle : Nat) (rows : List Nat) : s.steady (s.readRows r cn now bundle rows).1 := by
  induction rows generalizing s with
  | nil => exact s.steady_refl
  | cons row rest ih =>
    simp only [Chip.readRows]
    exact Chip.steady_trans (s.readPad_steady r cn row now bundle _) (ih (s.readPad r cn row now bundle).1)

/-! ### Buffers, keys and requests -/

@[simp] theorem Chip.killHandle_steady (i : Nat) : s.steady (s.killHandle i) := by
  unfold Chip.killHandle
  split <;> simp

@[simp] theorem Chip.revokeAll_steady (i : Nat) : s.steady (s.revokeAll i) := by
  unfold Chip.revokeAll
  split <;> simp

@[simp] theorem Chip.clearRegion_steady (a n : Nat) : s.steady (s.clearRegion a n) := by
  simp [Chip.clearRegion, Chip.clearBacking]

@[simp] theorem Chip.releaseBuf_steady (handle : Nat) : s.steady (s.releaseBuf handle) := by
  unfold Chip.releaseBuf
  split
  · simp
  · dsimp only
    split
    · split <;> simp
    · simp

@[simp] theorem Chip.dropOldKeys_steady (part : Nat) : s.steady (s.dropOldKeys part) := by simp [Chip.dropOldKeys]
@[simp] theorem Chip.complete_steady (p n : Nat) (c : Completion) : s.steady (s.complete p n c) := by simp [Chip.complete]

@[simp] theorem Chip.frameOut_steady (c : Carrier) (len : Nat) : s.steady (s.frameOut c len) := by
  unfold Chip.frameOut
  split
  · simp
  · dsimp only
    split <;> simp

@[simp] theorem Chip.krpSend_steady (id : Nat) (m : KrpSent) (len : Nat) : s.steady (s.krpSend id m len) := by
  unfold Chip.krpSend
  split <;> simp

@[simp] theorem Chip.sealSubmit_steady (use : SealUse) (high : Bool) (length : Nat) :
    s.steady (s.sealSubmit use high length).1 := by
  unfold Chip.sealSubmit
  dsimp only
  split <;> simp

@[simp] theorem Chip.submitReceipt_steady (part id kind : Nat) : s.steady (s.submitReceipt part id kind) := by
  simp [Chip.submitReceipt, Chip.signLength, Chip.takeFree]

@[simp] theorem Chip.dropRequest_steady (id : Nat) : s.steady (s.dropRequest id) := ⟨rfl, rfl, rfl⟩

@[simp] theorem Chip.holdRequest_steady (q : Request) (st : Status) : s.steady (s.holdRequest q st) := by
  simp [Chip.holdRequest]

@[simp] theorem Chip.tryReceipt_steady (id : Nat) : s.steady (s.tryReceipt id) := by
  unfold Chip.tryReceipt
  split
  · simp
  · split <;> simp [Chip.sendReceipt, Chip.receiptOut]

@[simp] theorem Chip.completeRequest_steady (id : Nat) (st : Status) : s.steady (s.completeRequest id st) := by
  unfold Chip.completeRequest
  split
  · simp
  · dsimp only
    split <;> simp

/-! ### A plan that stops (R119, R122) -/

@[simp] theorem Chip.dropEngines_steady (sw : Nat) (pl : Plan) (others : List Plan) : s.steady (s.dropEngines sw pl others) := by
  refine Chip.foldl_steady (fun t e => ?_) pl.engine s
  cases e <;> simp

@[simp] theorem Chip.fieldSlots_steady (sw : Nat) (used : Plan → Nat → Bool) (p : Plan) (others : List Plan)
    (field : Nat → Nat → TaskSlot) : s.steady (s.fieldSlots sw used p others field) := by
  simp [Chip.fieldSlots]

@[simp] theorem Chip.dropPlan_steady (p slot : Nat) : s.steady (s.dropPlan p slot) := by
  unfold Chip.dropPlan
  split <;> simp [Chip.keepShadow, Chip.dropDebugLocks]

@[simp] theorem Chip.endRun_steady (r : Run) (st : Status) : s.steady (s.endRun r st) := by
  unfold Chip.endRun
  dsimp only
  split <;> simp

@[simp] theorem Chip.orphanUnits_steady (r : Run) (cn : Nat) : s.steady (s.orphanUnits r cn) := by simp [Chip.orphanUnits]
@[simp] theorem Chip.orphanQueues_steady (id : Nat) : s.steady (s.orphanQueues id) := ⟨rfl, rfl, rfl⟩

@[simp] theorem Chip.strandWeaves_steady (r : Run) : s.steady (s.strandWeaves r) := by
  refine Chip.foldl_steady (fun t m => ?_) r.weaves s
  split <;> simp

@[simp] theorem Chip.discardSwatch_steady (id sw : Nat) : s.steady (s.discardSwatch id sw) := by
  refine Chip.steady_trans (s.discardPanels_steady id sw) (Chip.foldl_steady (fun t cn => ?_) _ _)
  split <;> simp

@[simp] theorem Chip.stopPlan_steady (r : Run) (st : Status) (cell : Option Nat) (bundle : Nat) :
    s.steady (s.stopPlan r st cell bundle) := by
  unfold Chip.stopPlan
  dsimp only
  split <;> simp

@[simp] theorem Chip.ripeTraps_steady (id c : Nat) : s.steady (s.ripeTraps id c) := by
  unfold Chip.ripeTraps
  split <;> simp [Chip.doubleTrap]

@[simp] theorem Chip.recordFault_steady (r : Run) (st : Status) (cn bundle : Nat) : s.steady (s.recordFault r st cn bundle) := by
  simp [Chip.recordFault]

@[simp] theorem Chip.faultPlan_steady (id : Nat) (st : Status) (cn bundle : Nat) : s.steady (s.faultPlan id st cn bundle) := by
  unfold Chip.faultPlan
  split <;> simp

@[simp] theorem Chip.faultAt_steady (id c : Nat) (st : Status) (cn bundle : Nat) : s.steady (s.faultAt id c st cn bundle) := by
  simp [Chip.faultAt]

/-! ### What plan cycles bring by themselves -/

@[simp] theorem Chip.ripeWatch_steady (id old : Nat) : s.steady (s.ripeWatch id old) := by
  unfold Chip.ripeWatch
  split <;> simp

@[simp] theorem Chip.lineVisible_steady (r : Run) (cn th due moment : Nat) : s.steady (s.lineVisible r cn th due moment) := by
  unfold Chip.lineVisible
  dsimp only
  split <;> simp

@[simp] theorem Chip.unitMoved_steady (r : Run) (cn th last : Nat) (count : Bool) : s.steady (s.unitMoved r cn th last count) := by
  unfold Chip.unitMoved
  split <;> simp

@[simp] theorem Chip.dropUnit_steady (cn : Nat) (u : SpoolUnit) : s.steady (s.dropUnit cn u) := ⟨rfl, rfl, rfl⟩

@[simp] theorem Chip.ripeUnits_steady (id : Nat) (when_ : Nat → Nat) : s.steady (s.ripeUnits id when_) := by
  unfold Chip.ripeUnits
  split
  · simp
  · dsimp only
    split
    · simp
    · refine Chip.steady_trans (s.updRun_counted id _).steady (Chip.foldl_steady (fun t e => ?_) _ _)
      split <;> simp

@[simp] theorem Chip.ripeChecks_steady (id : Nat) : s.steady (s.ripeChecks id) := by
  unfold Chip.ripeChecks
  split
  · simp
  · dsimp only
    split
    · simp
    · refine Chip.steady_trans (s.updRun_counted id _).steady (Chip.foldl_steady (fun t e => ?_) _ _)
      split
      · simp
      · split <;> simp

@[simp] theorem Chip.seamRead_steady (r : Run) (idx : Nat) (e : WeaveEntry) (m : WeaveMove) : s.steady (s.seamRead r idx e m) := by
  have hread : s.steady (s.weaveRead r e m m.read).1 := by
    unfold Chip.weaveRead
    exact s.readRows_steady ..
  unfold Chip.seamRead
  dsimp only
  generalize s.weaveRead r e m m.read = x at hread ⊢
  split
  · simp
  · split
    · simp [Chip.weaveDrop, Chip.updMove]
    · simpa [Chip.updMove] using hread

@[simp] theorem Chip.ripeWords_steady (id n : Nat) : s.steady (s.ripeWords id n) := by
  induction n generalizing s with
  | zero => exact s.steady_refl
  | succ n ih =>
    unfold Chip.ripeWords
    split
    · simp
    · dsimp only
      split
      · simp
      · split
        · simp
        · split
          · simp
          · exact Chip.steady_trans (s.seamRead_steady ..) (ih _)

@[simp] theorem Chip.ripe_steady (old : Run) (t : Nat) : s.steady (s.ripe old t) := by simp [Chip.ripe]

@[simp] theorem Chip.runPassed_steady (old : Run) (t adv : Nat) : s.steady (s.runPassed old t adv) := by
  unfold Chip.runPassed
  dsimp only
  split <;> simp

end Steady

/-! ### The clocks -/

theorem Chip.advance_ports (s : Chip) (du : Nat) :
    (s.advance du).time = s.time + du ∧ (s.advance du).links = s.links ∧ (s.advance du).seams = s.seams := by
  simp [Chip.advance]

/-- Waiting for an A-tick ends at it or after it, with every link and port as it was. -/
theorem Chip.waitTick_ports (s : Chip) (n : Nat) :
    n ≤ (s.waitTick n).aTick ∧ (s.waitTick n).links = s.links ∧ (s.waitTick n).seams = s.seams := by
  unfold Chip.waitTick
  split
  next hearly =>
    obtain ⟨htime, hlinks, hseams⟩ := s.advance_ports (n * 10560 - s.time)
    refine ⟨?_, hlinks, hseams⟩
    unfold Chip.aTick at hearly ⊢
    omega
  next hlate => exact ⟨Nat.not_lt.1 hlate, rfl, rfl⟩

end Sys2Proof.Machine
end

section
/-! # Fabric calls (R327, R334, R338, R341, R342, R352, R355): identity, routes, link tests and lanes, owner tables, token gates -/

namespace Sys2Proof.Machine

section Calls

variable {s : Chip} {c : Call} {part link : Nat}

/-! ### Identity and routes (R327, R355) -/

/-- An unlocked fabric takes its identity, its list and its lock, and every link trains. -/
theorem tcFabricJoin_unlocked {id : Nat} {list : List (Nat × Nat)} (lock : Bool)
    (hpass : s.passes c { pf0Only := true } [(decide (4096 ≤ id), .bound)]) (hunlocked : s.fabric.lock = false)
    (hlist : list.length ≤ 4096) :
    tcFabricJoin c id list lock s = ((List.range 16).foldl (fun (t : Chip) l => t.trainLink l false)
      { s with fabric := { s.fabric with id := id, active := id, flashId := id, list := list, lock := lock } }).respond c 0x0701 .ok 0 [] := by
  rw [tcFabricJoin, Chip.call_passes hpass]
  simp only [hunlocked, Nat.not_lt.2 hlist, succeeds, Bool.false_eq_true, if_false]

/-- A route joins the route table; the grade may follow it (R34). -/
theorem tcRouteSet_stores {dest mask : Nat}
    (hpass : s.passes c { pf0Only := true } [(decide (4096 ≤ dest), .bound), (decide (65536 ≤ mask), .bound)]) :
    tcRouteSet c dest mask s = (Chip.regrade { s with fabric := { s.fabric with routes := mset 0 dest mask s.fabric.routes } }).respond
      c 0x0702 .ok 0 [] := by
  rw [tcRouteSet, Chip.call_passes hpass]
  rfl

theorem Chip.regrade_frame (s : Chip) : s.regrade.fabric = s.fabric ∧ s.regrade.mem = s.mem := by
  unfold Chip.regrade
  dsimp only
  split
  · exact ⟨rfl, rfl⟩
  · exact ⟨Chip.raiseDev_fabric .., Chip.raiseDev_mem ..⟩

/-! ### Links (R338, R352) -/

theorem tcSlvQuery_reports (hpass : s.passes c {} [(decide (16 ≤ link), .bound)]) : ∃ counters, tcSlvQuery c link s
    = s.respond c 0x0703 .ok 0 ([(s.link link).state, (s.link link).mode, (s.link link).peerPkg, b2n (s.link link).auth] ++ counters) :=
  ⟨_, by rw [tcSlvQuery, Chip.call_passes hpass]; simp only [succeeds, List.append_assoc]; rfl⟩

/-- A test with a phase to run starts on a link that no partition holds units of and that is not under test; bit 0 of the mask selects
nothing (log entry 42). -/
theorem tcSlvTest_starts {phases d : Nat} (hpass : s.passes c {} []) (hlink : link < 16) (hmask : phases < 16) (hlong : d ≤ 30)
    (hphases : 2 ≤ phases) (hfree : s.linkHeld link = false) (hidle : (s.link link).state ≠ 11) :
    tcSlvTest c link phases d s = s.startLinkTest link (phases / 2 * 2) d (some c.fn) c.tag := by
  have hselects : phases / 2 ≠ 0 := by omega
  have hrange : firstBad [(decide (16 ≤ link), Status.bound, 7), (decide (16 ≤ phases), .notSupported, 7),
      (decide (30 < d), .badShape, 7)] = none := by
    simp [firstBad, Nat.not_le.2 hlink, Nat.not_le.2 hmask, Nat.not_lt.2 hlong]
  unfold tcSlvTest
  simp only [hpass.2, hrange, if_neg hselects, hfree, beq_false_of_ne hidle, Bool.or_self, Bool.false_eq_true, if_false]

/-- A lane in use fails, leaves service and joins the User Ledger. -/
theorem tcSlvLaneRetire_in_use {dir lane : Nat}
    (hpass : s.passes c { pf0Only := true } [(decide (16 ≤ link) || decide (9 ≤ lane), .bound), (decide (1 < dir), .notSupported)])
    (huse : (if dir = 0 then (s.link link).retiredTx else (s.link link).retiredRx).contains lane = false) :
    ∃ u : Chip, tcSlvLaneRetire c link dir lane s = u.respond c 0x0705 .ok 0 []
      ∧ u.ledger.lanes = sinsert (65536 + link * 256 + dir * 128 + lane)
        (s.linkLanesFail link (if dir = 0 then [lane] else []) (if dir = 0 then [] else [lane])).ledger.lanes := by
  rw [tcSlvLaneRetire, Chip.call_passes hpass]
  simp only [huse, succeeds, Bool.false_eq_true, if_false]
  exact ⟨_, rfl, rfl⟩

/-! ### Owner tables (R341, R342) -/

/-- A handle that is current and belongs to the caller reaches its buffer, with no trace (R448). -/
theorem Chip.withHandle_own {code handle : Nat} {b : Buf} {f : Chip → Buf → Chip × Status × Nat × List Nat}
    (hbuf : s.bufOf handle = some b) (hown : (c.fn == .pf0 || b.part == c.fn.part) = true) : s.withHandle c code handle f = f s b := by
  simp only [Chip.withHandle, Chip.checkHandle, hbuf, hown, if_true]

/-- The block's entry is written under the table's next version (log entry 42); the packets to the group touch no memory. -/
theorem tcOwnerSet_writes {table block : Nat} (e : OwnerEntry) {b : Buf}
    (hpass : s.passes c { part := some part } [(decide (2 ^ 24 ≤ block), .bound)]) (hbuf : s.bufOf table = some b)
    (hown : (c.fn == .pf0 || b.part == c.fn.part) = true) (hkind : b.kind = 2) (hroom : 32 * (block + 1) ≤ 576 * b.bolts) :
    ∃ u : Chip, tcOwnerSet c part table block e s = u.respond c 0x0706 .ok 0 []
      ∧ u.mem = (s.ownerWrite part table block ((s.part part).ownerVersion + 1) e).mem := by
  rw [tcOwnerSet, Chip.call_passes hpass]
  simp only [Chip.withHandle_own hbuf hown, hkind, Nat.not_lt.2 hroom, bne_self_eq_false, decide_false, Bool.or_self,
    Bool.false_eq_true, if_false, succeeds]
  refine ⟨_, rfl, Chip.foldl_reads Chip.mem (fun t d => ?_) _ _⟩
  split <;> rfl

/-- A valid entry of this package names bolts that fit the local buffer: they are copied there. -/
theorem tcFabricFetch_copies {table block local_ bolts : Nat} (remote : List Byte) {b d : Buf} {entry : List Byte}
    (hpass : s.passes c { part := some part } [(decide (2 ^ 24 ≤ block), .bound)]) (htable : s.bufOf table = some b)
    (hown : (c.fn == .pf0 || b.part == c.fn.part) = true) (hlocal : s.bufOf local_ = some d)
    (hmine : (c.fn == .pf0 || d.part == c.fn.part) = true) (hkind : b.kind = 2) (hroom : 32 * (block + 1) ≤ 576 * b.bolts)
    (hentry : entry = memReadN s.mem (b.addr + 32 * block) 32) (hvalid : bit (leNat (entry.take 2)) 15 = true)
    (hhere : leNat (entry.take 2) % 4096 = s.fabric.active) (hbolts : bolts = leNat ((entry.drop 12).take 4))
    (hfits : 576 * bolts ≤ 576 * d.bolts) :
    tcFabricFetch c part table block local_ remote s
      = Chip.respond
          { s with mem := memWriteN s.mem d.addr (memReadN s.mem (leNat ((entry.drop 4).take 8) % 2 ^ 44) (576 * bolts)) }
          c 0x0708 .ok 0 [] := by
  subst hbolts
  rw [tcFabricFetch, Chip.call_passes hpass]
  simp only [Chip.withHandle_own htable hown, Chip.withHandle_own hlocal hmine, ← hentry, List.drop_zero, hkind, hvalid, hhere,
    Nat.not_lt.2 hroom, Nat.not_lt.2 hfits, bne_self_eq_false, decide_false, Bool.not_true, Bool.or_self, Bool.false_eq_true,
    if_false, if_true, succeeds]

/-! ### Token gates (R334) -/

@[simp] theorem Chip.respond_gates (s : Chip) (c : Call) (code : Nat) (st : Status) (detail : Nat) (result : List Nat) (p : Nat) :
    ((s.respond c code st detail result).part p).gates = (s.part p).gates := by
  unfold Chip.respond
  split
  · rfl
  · unfold Chip.updMbx
    split
    · rfl
    next n _ =>
      by_cases hp : p = n
      · rw [hp, Chip.part_updPart]
      · rw [Chip.part_updPart_other _ hp]

/-- The gate that TC_TOKEN_GATE arms: one with timeout 0 that is not open has expired. -/
def Partition.gateArmed (p : Partition) (now slot token value version timeout : Nat) : Gate :=
  let g : Gate := { slot := slot, token := token, value := value, timeout := timeout, armedAt := now, version := version }
  { g with expired := timeout == 0 && !p.gateOpen g }

/-- The gate of an installed plan takes the place of the one its slot had. -/
theorem tcTokenGate_arms {slot token : Nat} (value version timeout : Nat) {p : Plan}
    (hpass : s.passes c { part := some part } [(decide (64 ≤ slot) || decide (64 ≤ token), .bound)])
    (hplan : mfind slot (s.part part).plans = some p) :
    tcTokenGate c part slot token value version timeout s = (s.updPart part fun q => { q with
      gates := q.gates.filter (fun x => x.slot != slot)
        ++ [(s.part part).gateArmed s.aTick slot token value version timeout] }).respond c 0x0707 .ok 0 [] := by
  rw [tcTokenGate, Chip.call_passes hpass]
  simp only [hplan, Option.isNone_some, Bool.false_eq_true, if_false, succeeds]
  rfl

end Calls

/-- Settles O16: by `State.on_served` each call is its function on the package, whose outcome that function's own lemma gives. -/
theorem fabricCallsComplete : Obligations.FabricCallsComplete := by
  refine fun s c => ⟨fun id list lock hpass hunlocked hlist => ?_, fun dest mask hpass => ?_, fun link hpass => ?_,
    fun link phases d hpass hlink hmask hlong hphases hfree hidle => ?_, fun link dir lane hpass huse => ?_,
    fun part table block e b hpass hbuf hown hkind hroom => ?_, fun part slot token value version timeout p hpass hplan => ?_,
    fun part table block local_ remote b d hpass htable hown hlocal hmine hkind hroom hvalid hhere hfits => ?_⟩
  · rw [← tcFabricJoin_unlocked lock hpass hunlocked hlist]
    exact State.on_served hpass.1 _
  · refine ⟨_, State.on_served hpass.1 _, ?_⟩
    rw [State.put_chip, tcRouteSet_stores hpass]
    simp [Chip.regrade_frame]
  · obtain ⟨counters, hquery⟩ := tcSlvQuery_reports hpass
    refine ⟨counters, ?_⟩
    rw [← hquery]
    exact State.on_served hpass.1 _
  · rw [← tcSlvTest_starts hpass hlink hmask hlong hphases hfree hidle]
    exact State.on_served hpass.1 _
  · obtain ⟨u, hretire, hlanes⟩ := tcSlvLaneRetire_in_use hpass huse
    refine ⟨u, ?_, hlanes⟩
    rw [← hretire]
    exact State.on_served hpass.1 _
  · obtain ⟨u, hset, hmem⟩ := tcOwnerSet_writes e hpass hbuf hown hkind hroom
    refine ⟨u, ?_, hmem⟩
    rw [← hset]
    exact State.on_served hpass.1 _
  · refine ⟨(s.chip.part part).gateArmed s.chip.aTick slot token value version timeout, _, State.on_served hpass.1 _,
      rfl, rfl, rfl, rfl, ?_⟩
    rw [tcTokenGate_arms value version timeout hpass hplan]
    simp
  · refine ⟨_, _, ?_, rfl, rfl⟩
    rw [← tcFabricFetch_copies remote hpass htable hown hlocal hmine hkind hroom rfl hvalid hhere rfl hfits]
    exact State.on_served hpass.1 _

end Sys2Proof.Machine
end

section
/-! # Selvage packets (R326 to R342): egress, departure, the checks at the target, answers, replays, key epochs -/

namespace Sys2Proof.Machine

theorem Chip.link_congr {s t : Chip} (h : t.links = s.links) (l : Nat) : t.link l = s.link l := by rw [Chip.link, h, Chip.link]

/-! ### Egress (R329, R340, R344) -/

/-- A unit whose packet has a route and room in the egress share joins the packets of its link. -/
theorem slvEgressAccept_joins {s v : Chip} {run cn l full : Nat} {u : SpoolUnit} {r : Run} {p : SlvPacket}
    (hnext : earliest (s.fabricUnits run) = some (cn, u)) (hwait : s.waitRun run u.due = some v) (hrun : v.run? run = some r)
    (hpacket : v.packetOf r cn u = some (full, p)) (hroute : mfind p.dest r.slvTo = some l)
    (hshare : v.posted r.part l < v.egressShare r.part l)
    (hroom : ((v.link l).packets.filter fun x => x.kind != .control).length < 512) :
    ((slvEgressAccept run s).link l).packets = (v.link l).packets ++ [p] := by
  have hopen : ¬ (v.egressShare r.part l ≤ v.posted r.part l
      ∨ 512 ≤ ((v.link l).packets.filter fun x => x.kind != .control).length) := by omega
  simp only [slvEgressAccept, hnext, Chip.atCycle_eq hwait, hrun, hpacket, hroute, Bool.or_eq_true, decide_eq_true_eq, if_neg hopen]
  have hjoined (t : Chip) (ht : t.links = (v.updLink l fun x => { x with packets := x.packets ++ [p] }).links) :
      (t.link l).packets = (v.link l).packets ++ [p] := by
    rw [Chip.link_congr ht, Chip.link_updLink]
  split
  · exact hjoined _ (by simp)
  · exact hjoined _ (Chip.updRun_links ..)

/-! ### Departure (R331, R336) -/

/-- The oldest waiting packet of a partition departs in the partition's next slot. -/
theorem slvPacketSend_departs {s : Chip} {link : BitVec 4} {part : BitVec 6} {p : SlvPacket}
    (hwaits : (s.link link.toNat).packets.find? (SlvPacket.waitsOf part.toNat) = some p) (hup : (s.link link.toNat).up = true)
    (hpart : (s.part part.toNat).resetting = false) (hroom : ((s.link link.toNat).packets.filter (·.sent)).length < 512) :
    slvPacketSend link part s = (s.waitSlot link.toNat (s.packetSlot link.toNat part.toNat p)).updLink link.toNat
      fun y => y.send (s.packetSlot link.toNat part.toNat p) link.toNat part.toNat := by
  simp only [slvPacketSend, hwaits, hup, hpart, Nat.not_le.2 hroom, Bool.not_true, decide_false, Bool.or_self, Bool.false_eq_true,
    if_false]

section Send

variable {y : SlvLink} {l part i : Nat} {q : SlvPacket} (slot : Option Nat)
  (hfirst : y.packets.findIdx? (SlvPacket.waitsOf part) = some i) (hq : y.packets[i]? = some q)
include hfirst hq

/-- A packet that has no number yet takes the next SEQ of its link. -/
theorem SlvLink.send_numbers (hnew : q.numbered = false) :
    (y.send slot l part).seqTx = y.seqTx + 1 ∧ (y.send slot l part).replay = y.replay
      ∧ ∃ z, (y.send slot l part).packets = lset y.packets i z ∧ z.sent = true ∧ z.seq = y.seqTx ∧ z.data = q.data := by
  simp only [SlvLink.send, hfirst, hq, hnew, Option.getD_some, Option.any_some, Bool.false_eq_true, if_false, lupd, lset, true_and]
  exact ⟨_, rfl, rfl, rfl, rfl⟩

/-- A packet that has its number departs under it again, which counts as a replay. -/
theorem SlvLink.send_replays (hold : q.numbered = true) :
    (y.send slot l part).seqTx = y.seqTx ∧ (y.send slot l part).replay = (y.replay + 1) % 2 ^ 24
      ∧ ∃ z, (y.send slot l part).packets = lset y.packets i z ∧ z.sent = true ∧ z.seq = q.seq ∧ z.data = q.data := by
  simp only [SlvLink.send, hfirst, hq, hold, Option.getD_some, Option.any_some, Option.map_some, if_true, lupd, lset, true_and]
  exact ⟨_, rfl, rfl, rfl, rfl⟩

end Send

/-! ### The target (R327, R332, R333, R342) -/

section Target

variable {s v : Chip} {h : PacketHead} {b : Buf} {g : BufGrant}
  (hv : v = h.corrected.foldl (fun (t : Chip) lane => t.slvCorrection h.link.toNat lane.toNat) s)
  (hdest : h.dest.toNat = v.fabric.active)
include hv hdest

/-- A packet for this package is taken up once its corrections are counted (R338). -/
theorem Chip.slvHere_arrived (f : Chip → Chip) : s.slvHere h f = f v := by
  subst hv
  rw [Chip.slvHere, if_pos hdest]

variable (hform : h.wellFormed = true)
include hform

/-- A change of a replicated table whose local copy has the block is written there. -/
theorem slvControlReceive_writes {part : BitVec 6} {table block version : W32} (e : OwnerEntry) (htable : v.bufOf table.toNat = some b)
    (hpart : b.part = part.toNat) (hkind : b.kind = 2) (hroom : 32 * (block.toNat + 1) ≤ 576 * b.bolts) :
    slvControlReceive h part table block version e s = v.ownerWrite part.toNat table.toNat block.toNat version.toNat e := by
  rw [slvControlReceive, Chip.slvHere_arrived hv hdest]
  simp only [hform, htable, hpart, hkind, hroom, decide_true, Bool.and_self, Bool.not_true, Bool.false_eq_true, if_false, if_true]

variable (hgrant : v.fabricGrant h.handle.toNat = some (b, g)) (hpackage : g.package = h.src.toNat) (hsource : g.part = h.srcPart.toNat)
  (hlive : (v.part b.part).resetting = false) (hfresh : v.slvTaken h = false)
include hgrant hpackage hsource hlive hfresh

/-- A TOKEN of the grantee joins the arrivals of its link, which then settle. -/
theorem slvTokenReceive_joins (err : Bool) (status : BitVec 16) :
    slvTokenReceive h err status s = (v.slvTake h (some (b.part, err, status.toNat, g.token.getD 0))).settleArrivals := by
  rw [slvTokenReceive, Chip.slvHere_arrived hv hdest]
  simp only [hform, hgrant, hpackage, hsource, hlive, hfresh, bne_self_eq_false, Bool.or_self, Bool.false_eq_true, if_false]

variable (hbolt : h.bolt.toNat < b.bolts) (hpage : v.regionRetired (b.addr + 576 * h.bolt.toNat) 576 = false)
include hbolt hpage

/-- A WRITE, or an ADD in integer mode, that passes the checks of Table 12.6 joins its stack's queue and awaits its acknowledgement. -/
theorem Chip.slvPost_queues {add integer : Bool} (hmode : add = true → integer = true)
    (hright : (if add = true then g.add else g.write) = true) (q : Nat) (m18 : Bool) (data : List Row) (poison : List Bool) :
    ∃ r : HbmReq, s.slvPost h add integer q m18 data poison
        = (v.updStack (stackOf (b.addr + 576 * h.bolt.toNat)) fun x => { x with queue := x.queue ++ [r] }).slvTake h none
      ∧ r.op = (if add = true then .add else .write) ∧ r.integer = integer ∧ r.addr = b.addr + 576 * h.bolt.toNat ∧ r.data = data
      ∧ r.part = b.part ∧ r.origin = some h.id := by
  have hmodulus (x : Bool) : (add && !integer && x) = false := by
    cases add with
    | false => rfl
    | true => rw [hmode rfl]; rfl
  rw [Chip.slvPost, Chip.slvHere_arrived hv hdest]
  simp only [hform, hgrant, hpackage, hsource, hright, hlive, hfresh, hpage, hmodulus, Nat.not_le.2 hbolt, bne_self_eq_false,
    Bool.not_true, Bool.or_self, Bool.false_eq_true, if_false]
  exact ⟨_, rfl, rfl, rfl, rfl, rfl, rfl, rfl⟩

end Target

theorem Chip.slvTake_stack (s : Chip) (h : PacketHead) (token : Option (Nat × Bool × Nat × Nat)) (n : Nat) :
    (s.slvTake h token).stack n = s.stack n := rfl

theorem Chip.slvTake_mem (s : Chip) (h : PacketHead) (token : Option (Nat × Bool × Nat × Nat)) : (s.slvTake h token).mem = s.mem := rfl

/-! ### Answers (R332, R335) -/

theorem Chip.releaseRuns_counted (s : Chip) (keys : List Nat) (part : Option Nat) : s.counted (s.releaseRuns keys part) :=
  Chip.foldl_counted _ (fun _ _ => Chip.counted_trans (Chip.updRun_counted ..) (Chip.updRegs_counted ..)) _ s

/-- An answered packet leaves the list of its link, whose row of replays is over. -/
theorem Chip.answered_link (s : Chip) (l : Nat) (p : SlvPacket) : (s.answered l p).link l
    = { s.link l with packets := (s.link l).packets.erase p, failsInRow := 0, failSeq := none, tagFails := false } := by
  unfold Chip.answered
  rw [Chip.link_congr (Chip.releaseRuns_counted ..).links, Chip.link_updLink]

section Answers

variable {s : Chip} {link : BitVec 4} {seq : Nat} {p : SlvPacket}
  (hsent : ((s.link link.toNat).packets.find? fun p => p.numbered && p.seq == seq) = some p)
include hsent

theorem slvAckReceive_answers :
    slvAckReceive link seq s = (s.answered link.toNat p).updLink link.toNat fun x => { x with acks := x.acks + 1 } := by
  simp only [slvAckReceive, hsent]

/-- The NACK of a running plan's packet is recorded in PTN_SLV_FAULT unless that holds an earlier one. -/
theorem slvNackReceive_records {v : Chip} {id : Nat} {r : Run} (status : Nat) (pkg : BitVec 12) (hplan : p.run = some id)
    (hv : v = s.answered link.toNat p) (hrun : v.run? id = some r) :
    ((slvNackReceive link seq status pkg s).link link.toNat).packets = (s.link link.toNat).packets.erase p
      ∧ ((slvNackReceive link seq status pkg s).part r.part).cnt.slvFault
        = if (v.part r.part).cnt.slvFault.valid then (v.part r.part).cnt.slvFault
          else { valid := true, a := status, b := pkg.toNat } := by
  have hlink : (v.link link.toNat).packets = (s.link link.toNat).packets.erase p := by rw [hv, Chip.answered_link]
  simp only [slvNackReceive, hsent, ← hv, hplan, Option.bind_some, hrun]
  exact ⟨hlink, by rw [Chip.part_updCnt]; rfl⟩

end Answers

/-! ### Replays and key epochs (R328, R336) -/

/-- A link after a packet error: the packet and all later ones are to be sent again, in the old order and with their SEQ. -/
def SlvLink.resends (now seq : Nat) (y : SlvLink) : SlvLink :=
  { y with
    packets := y.packets.map fun p => if p.sent && decide (seq ≤ p.seq) then p.again false else p
    readyAt := now
    failsInRow := if y.failSeq == some seq then y.failsInRow + 1 else 0
    failSeq := some seq }

theorem SlvPacket.again_with_number (p : SlvPacket) : p.again false = { p with sent := false } := by
  rw [SlvPacket.again, Bool.not_false, Bool.and_true]

theorem SlvLink.eight_fails_iff (now seq : Nat) (y : SlvLink) :
    8 ≤ (y.resends now seq).failsInRow ↔ y.failSeq = some seq ∧ 7 ≤ y.failsInRow := by
  simp only [SlvLink.resends, beq_iff_eq]
  split
  next hrow => rw [and_iff_right hrow, Nat.succ_le_succ_iff]
  next hnew => exact iff_of_false (by decide) fun h => hnew h.1

/-- The link sends again, and retrains when the packet has failed eight times in a row. -/
theorem slvPacketError_resends {s : Chip} {link : BitVec 4} (seq : Nat) {tag : Bool} (hup : (s.link link.toNat).up = true)
    (htag : tag = true → (s.link link.toNat).tagFails = false) :
    (slvPacketError link seq tag s).link link.toNat
      = if 8 ≤ ((s.link link.toNat).resends s.time seq).failsInRow
        then { ((s.link link.toNat).resends s.time seq).enter s.aTick 9 with tagFails := tag }
        else (s.link link.toNat).resends s.time seq := by
  have hstays : (tag && (s.link link.toNat).tagFails) = false := by
    cases tag with
    | false => rfl
    | true => rw [htag rfl]; rfl
  have hsteps : slvPacketError link seq tag s =
      if 8 ≤ ((s.updLink link.toNat (SlvLink.resends s.time seq)).link link.toNat).failsInRow
      then (s.updLink link.toNat (SlvLink.resends s.time seq)).updLink link.toNat fun y => { y.enter s.aTick 9 with tagFails := tag }
      else s.updLink link.toNat (SlvLink.resends s.time seq) := by
    simp only [slvPacketError, hup, hstays, Bool.not_true, Bool.false_eq_true, if_false]
    rfl
  rw [hsteps, Chip.link_updLink]
  split
  · rw [Chip.link_updLink, Chip.link_updLink]
  · rw [Chip.link_updLink]

theorem Chip.updLink_congr {s : Chip} {l : Nat} {f f' : SlvLink → SlvLink} (h : f (s.link l) = f' (s.link l)) :
    s.updLink l f = s.updLink l f' := by rw [Chip.updLink, h, Chip.updLink]

/-- A link that has sent 2^32 packets takes a new key epoch and numbers from 0. -/
theorem slvRekey_rekeys {s : Chip} {link : BitVec 4} (hup : (s.link link.toNat).up = true) (hsent : 2 ^ 32 ≤ (s.link link.toNat).seqTx) :
    slvRekey link s = s.updLink link.toNat fun x => { x with epoch := x.epoch + 1, seqTx := 0 } :=
  Chip.updLink_congr (if_pos (by rw [hup, decide_eq_true hsent, Bool.and_self]))

/-- Settles O40: each command is its function on the package (`State.on_live`), whose outcome that function's own lemma gives. -/
theorem selvagePacketCommandsComplete : Obligations.SelvagePacketCommandsComplete := by
  refine fun s hlive => ⟨?_, ?_, ?_, ?_, ?_, ?_, ?_⟩
  · intro run cn l full u v r p hnext hwait hrun hpacket hroute hshare hroom
    exact ⟨_, State.on_live hlive _, slvEgressAccept_joins hnext hwait hrun hpacket hroute hshare hroom⟩
  · rintro link part p v y hwaits hup hpart hroom rfl rfl
    refine ⟨_, State.on_live hlive _, ?_⟩
    rw [State.put_chip, slvPacketSend_departs hwaits hup hpart hroom, Chip.link_updLink]
    exact ⟨Chip.updLink_time .., fun i q hfirst hq => ⟨SlvLink.send_numbers _ hfirst hq, SlvLink.send_replays _ hfirst hq⟩⟩
  · intro h b g data poison v hv hdest hform hgrant hpackage hsource hbolt hpage hpart hfresh
    refine ⟨fun hwrite => ?_, fun q m18 hadd => ?_, fun err status => ?_⟩
    · obtain ⟨r, hpost, hop, -, haddr, hdata, hrpart, horigin⟩ := Chip.slvPost_queues hv hdest hform hgrant hpackage hsource hpart hfresh
        hbolt hpage (add := false) (integer := false) (fun hno => absurd hno Bool.false_ne_true) hwrite 0 false data poison
      refine ⟨_, r, State.on_live hlive _, ?_, hop, haddr, hdata, hrpart, horigin, ?_⟩
      · rw [State.put_chip, slvWriteReceive, hpost, Chip.slvTake_stack, Chip.stack_updStack]
      · rw [State.put_chip, slvWriteReceive, hpost, Chip.slvTake_mem, Chip.updStack_mem]
    · obtain ⟨r, hpost, hop, hinteger, haddr, hdata, -, -⟩ := Chip.slvPost_queues hv hdest hform hgrant hpackage hsource hpart hfresh
        hbolt hpage (add := true) (integer := true) (fun _ => rfl) hadd q.toNat m18 data poison
      refine ⟨_, r, State.on_live hlive _, ?_, hop, hinteger, haddr, hdata, ?_⟩
      · rw [State.put_chip, slvAddReceive, hpost, Chip.slvTake_stack, Chip.stack_updStack]
      · rw [State.put_chip, slvAddReceive, hpost, Chip.slvTake_mem, Chip.updStack_mem]
    · exact exec_of_effect hlive rfl (slvTokenReceive_joins hv hdest hform hgrant hpackage hsource hpart hfresh err status)
  · intro h part table block version e b v hv hdest hform htable hpart hkind hroom
    exact exec_of_effect hlive rfl (slvControlReceive_writes hv hdest hform e htable hpart hkind hroom)
  · intro link seq p hsent
    refine ⟨⟨_, State.on_live hlive _, ?_⟩, fun status id pkg r v hplan hv hrun => ?_⟩
    · rw [State.put_chip, slvAckReceive_answers hsent, Chip.link_updLink, Chip.answered_link]
      exact ⟨rfl, rfl⟩
    · exact ⟨_, State.on_live hlive _, slvNackReceive_records hsent status pkg hplan hv hrun⟩
  · intro link seq tag hup htag
    refine ⟨_, State.on_live hlive _, ?_⟩
    rw [State.put_chip, slvPacketError_resends seq hup htag]
    simp only [← SlvPacket.again_with_number, ← SlvLink.eight_fails_iff s.chip.time seq]
    split
    next hfails => exact ⟨rfl, rfl, fun h => absurd hfails h, fun _ => rfl⟩
    next hfails => exact ⟨rfl, rfl, fun _ => rfl, fun h => absurd h hfails⟩
  · exact fun link hup hsent => exec_of_effect hlive rfl (slvRekey_rekeys hup hsent)

end Sys2Proof.Machine
end

section
/-! # Training, lane failures and tests of Selvage links and Seam ports (R304 to R307, R337, R338, R352) -/

namespace Sys2Proof.Machine

theorem Chip.seam_congr {s t : Chip} (h : t.seams = s.seams) (key : Nat) : t.seam key = s.seam key := by rw [Chip.seam, h, Chip.seam]

/-! ### What a fall of a link's capacity changes (R339, R368) -/

section Capacity

variable (s : Chip)

theorem Chip.suspend_counted (p r : Nat) : s.counted (s.suspend p r) :=
  Chip.counted_trans (t := { s.updPart p _ with runs := _ }) rfl (Chip.raiseBoth_counted ..)

theorem Chip.fitStrict_counted (r n : Nat) : s.counted (s.fitStrict r n) := by
  induction n generalizing s with
  | zero => exact s.counted_refl
  | succ n ih =>
    unfold Chip.fitStrict
    split
    · exact s.counted_refl
    · dsimp only
      split
      · exact s.counted_refl
      · split
        · exact Chip.counted_trans (s.suspend_counted ..) (ih _)
        · exact s.counted_refl

theorem Chip.repace_counted (p : Nat) : s.counted (s.repace p) := by
  unfold Chip.repace
  dsimp only
  split
  · exact s.counted_refl
  · exact Chip.counted_trans (Chip.updPart_counted ..) (Chip.raiseBoth_counted ..)

theorem Chip.reshare_counted : s.counted s.reshare := by
  refine Chip.counted_trans (Chip.foldl_counted _ (fun t r => ?_) _ s) (Chip.foldl_counted _ (fun t p => t.repace_counted p) _ _)
  split
  · exact t.counted_refl
  · exact Chip.foldl_counted _ (fun _ _ => Chip.updPart_counted ..) _ t

theorem Chip.rebalance_counted (r : Nat) : s.counted (s.rebalance r) := by
  rw [Chip.rebalance]
  exact Chip.counted_trans (s.fitStrict_counted r 64) (Chip.reshare_counted _)

/-- A link that narrows, or that carries nothing, changes the partitions, the runs and the grade, and no link. -/
theorem Chip.linkChanged_fall_links (l : Nat) : (s.linkChanged l false).links = s.links := by
  have hfall : s.counted (s.capacityChange [24 + l] false) := Chip.foldl_counted _ (fun t r => t.rebalance_counted r) _ s
  rw [Chip.linkChanged, (Chip.regrade_steady _).2.1, hfall.links]

/-- Training starts in DETECT; the lane map, the test's results and the packets stay with the link. -/
theorem Chip.trainLink_keeping_map (l : Nat) : (s.trainLink l true).link l
    = { (s.link l).enter s.aTick 1 with
        mode := 2, auth := false, mapAgain := false, packets := (s.link l).packets.map (SlvPacket.again true) } := by
  unfold Chip.trainLink
  rw [Chip.link_congr (Chip.linkChanged_fall_links ..), Chip.link_updLink]
  rfl

end Capacity

/-! ### Selvage training (R337) -/

section Training

variable {s : Chip} {link : BitVec 4}

theorem slvTrainStateDone_detect (tx rx : List (BitVec 4)) (peer : Option PeerInfo) (hstate : (s.link link.toNat).state = 1) :
    slvTrainStateDone link tx rx peer s = { s.updLink link.toNat fun y => y.enter s.aTick 2 with
      fabric := { s.fabric with active := s.fabric.id } } := by
  simp only [slvTrainStateDone, hstate]

theorem slvTrainStateDone_equalize (tx rx : List (BitVec 4)) (peer : Option PeerInfo) (hstate : (s.link link.toNat).state = 2) :
    slvTrainStateDone link tx rx peer s = s.updLink link.toNat fun y => y.enter s.aTick 3 := by
  simp only [slvTrainStateDone, hstate]

/-- A peer that the fabric list names under its identity brings the link up. -/
theorem slvTrainStateDone_peer (tx rx : List (BitVec 4)) {p : PeerInfo} (hstate : (s.link link.toNat).state = 5)
    (hidentity : s.trust.identity = true) (hpeer : s.peerOk link.toNat p = true) :
    slvTrainStateDone link tx rx (some p) s = Chip.linkUp (s.updLink link.toNat fun y =>
      { y with peerPkg := p.pkg.toNat, peerKey := p.key, auth := true, lat := p.latency.toNat }) link.toNat := by
  simp only [slvTrainStateDone, hstate, hidentity, hpeer, Bool.and_self, if_true]

/-- A training state that exceeds its limit for the first time is tried again from that moment. -/
theorem slvTrainTimeout_retries (hlimit : slvLimit (s.link link.toNat).state ≠ 0) (hfirst : (s.link link.toNat).retried = false) :
    ∃ u : Chip, (s.link link.toNat).stateAt + slvLimit (s.link link.toNat).state ≤ u.aTick
      ∧ slvTrainTimeout link s = u.updLink link.toNat fun x => { x with retried := true, stateAt := u.aTick } := by
  obtain ⟨hdue, hlinks, -⟩ := s.waitTick_ports ((s.link link.toNat).stateAt + slvLimit (s.link link.toNat).state)
  refine ⟨_, hdue, ?_⟩
  simp only [slvTrainTimeout, if_neg hlimit, Chip.linkFails, Chip.link_congr hlinks, hfirst, Bool.false_eq_true, if_false]

end Training

/-! ### Selvage lanes (R338) -/

theorem nodup_eraseDups (l : List Nat) : l.eraseDups.Nodup := by
  induction hlen : l.length using Nat.strong_induction_on generalizing l with
  | _ n ih =>
    cases l with
    | nil => exact List.nodup_nil
    | cons a rest =>
      have hshorter : (rest.filter fun b => !b == a).length < n := by
        rw [← hlen, List.length_cons]
        exact Nat.lt_succ_of_le (List.length_filter_le ..)
      rw [List.eraseDups_cons, List.nodup_cons]
      exact ⟨by simp, ih _ hshorter _ rfl⟩

theorem length_filter_eraseDups_le_one {l : List Nat} {p : Nat → Bool} {k : Nat} (h : ∀ x ∈ l, p x = true → x = k) :
    (l.eraseDups.filter p).length ≤ 1 := by
  have hsub : l.eraseDups.filter p ⊆ [k] := fun x hx => by
    obtain ⟨hmem, hp⟩ := List.mem_filter.1 hx
    exact List.mem_singleton.2 (h x (List.mem_eraseDups.1 hmem) hp)
  exact (List.Nodup.subperm ((nodup_eraseDups l).filter p) hsub).length_le

/-- The one transmit lane that has failed is within the spare: the link keeps its full width. -/
theorem SlvLink.allows_one_lane {x : SlvLink} (htx : x.bad false = []) (hrx : (x.bad true).length ≤ 1) (lane : Nat) :
    ({ x with tx := sinsert lane x.tx } : SlvLink).allows = 0 := by
  have hworking : ∀ y ∈ x.tx ++ x.retiredTx, ¬ y < 9 := fun y hy hlow => by
    have hbad : y ∈ x.bad false := List.mem_filter.2 ⟨List.mem_eraseDups.2 hy, decide_eq_true hlow⟩
    rw [htx] at hbad
    exact List.not_mem_nil hbad
  have hone : (({ x with tx := sinsert lane x.tx } : SlvLink).bad false).length ≤ 1 :=
    length_filter_eraseDups_le_one (k := lane) fun y hy hlow => by
      rcases List.mem_append.1 hy with hmap | hretired
      · rcases mem_sinsert.1 hmap with hlane | hold
        · exact hlane
        · exact absurd (of_decide_eq_true hlow) (hworking y (List.mem_append_left _ hold))
      · exact absurd (of_decide_eq_true hlow) (hworking y (List.mem_append_right _ hretired))
  have hwidth : max (({ x with tx := sinsert lane x.tx } : SlvLink).bad false).length
      (({ x with tx := sinsert lane x.tx } : SlvLink).bad true).length ≤ 1 := max_le hone hrx
  exact if_pos hwidth

/-- A transmit lane that fails at full width with its spare unused is repaired, which raises EV_LANE_REPAIRED. -/
theorem slvLaneFail_repairs {s : Chip} {link lane : BitVec 4} (hup : (s.link link.toNat).state = 6)
    (hlane : lane.toNat < 9) (htx : (s.link link.toNat).bad false = [])
    (hrx : ((s.link link.toNat).bad true).length ≤ 1) :
    slvLaneFail link [lane] [] s = (Chip.updLink (s.updLink link.toNat fun x => { x with tx := sinsert lane.toNat x.tx }) link.toNat
      fun x => x.enter s.aTick 8).raiseDev 12 none (some link.toNat) none 0 := by
  have htraffic : (s.link link.toNat).up = true := by simp [SlvLink.up, hup]
  have hwidth := SlvLink.allows_one_lane htx hrx lane.toNat
  have hcarries : ¬ ({ s.link link.toNat with tx := sinsert lane.toNat (s.link link.toNat).tx } : SlvLink).allows = 2 := by
    rw [hwidth]
    decide
  have hwide : ¬ (decide ((s.link link.toNat).mode = 0)
      && decide (({ s.link link.toNat with tx := sinsert lane.toNat (s.link link.toNat).tx } : SlvLink).allows = 1)) = true := by
    rw [hwidth]
    simp
  simp only [slvLaneFail, Chip.linkLanesFail, htx, htraffic, hlane, List.map_cons, List.map_nil, List.filter_cons, List.filter_nil,
    List.contains_nil, List.foldl_cons, List.foldl_nil, List.append_nil, List.isEmpty_cons, Chip.link_updLink, decide_true,
    Bool.not_false, Bool.not_true, Bool.and_self, Bool.or_self, Bool.false_eq_true, if_true, if_false]
  rw [if_neg hcarries, if_neg hwide]
  rfl

/-! ### Selvage tests (R352) -/

/-- The results are kept, and the link trains with the failed lanes in its map. -/
theorem slvTestDone_trains {s : Chip} {link : BitVec 4} (failed : List LaneResult) (margins : List Nat)
    (htest : (s.link link.toNat).state = 11) (hrunning : (s.link link.toNat).testDone = false) :
    ∃ u : Chip, (slvTestDone link failed margins s).link link.toNat = (u.trainLink link.toNat true).link link.toNat
      ∧ (u.link link.toNat).testDone = true ∧ (u.link link.toNat).testStatus = .ok := by
  simp only [slvTestDone, htest, hrunning, decide_true, Bool.not_false, Bool.and_self, if_true]
  split
  · exact ⟨_, Chip.link_congr (Chip.respond_links ..) _, by rw [Chip.link_updLink], by rw [Chip.link_updLink]⟩
  · exact ⟨_, rfl, by rw [Chip.link_updLink], by rw [Chip.link_updLink]⟩

/-! ### Seam ports (R304 to R307) -/

theorem Chip.setPort_time (s : Chip) (key : Nat) (f : SeamPort → SeamPort) : (s.setPort key f).time = s.time := by
  unfold Chip.setPort
  dsimp only
  split <;> rfl

theorem Chip.setPort_aTick (s : Chip) (key : Nat) (f : SeamPort → SeamPort) : (s.setPort key f).aTick = s.aTick := by
  rw [Chip.aTick, Chip.setPort_time, Chip.aTick]

theorem Chip.holdPort_counted (s : Chip) (key : Nat) : s.counted (s.holdPort key) :=
  Chip.foldl_counted _ (fun _ _ => Chip.counted_trans (Chip.updRun_counted ..)
    (Chip.counted_trans (Chip.raiseBoth_counted ..) (Chip.hazard_counted ..))) _ s

section Ports

variable {s : Chip} {plate : BitVec 3} {port : BitVec 2} {key : Nat} (hkey : key = portKey plate.toNat port.toNat)
  (hconnected : seamConnected key = true)
include hkey hconnected

theorem seamTrainStateDone_steps (tx rx : List (BitVec 7)) {k : Nat} (hk : k ∈ [1, 2, 3, 5]) (hstate : (s.seam key).state = k) :
    seamTrainStateDone plate port tx rx s = s.setPort key fun p => p.enter s.aTick (p.state + 1) := by
  subst hkey
  simp only [List.mem_cons, List.not_mem_nil, or_false] at hk
  rcases hk with rfl | rfl | rfl | rfl <;>
    simp only [seamTrainStateDone, hconnected, hstate, Bool.not_true, Bool.false_eq_true, if_false]

theorem seamTrainStateDone_verified (hstate : (s.seam key).state = 6) : seamTrainStateDone plate port [] [] s = s.portUp key := by
  subst hkey
  simp only [seamTrainStateDone, hconnected, hstate, List.isEmpty_nil, Bool.and_self, Bool.not_true, Bool.false_eq_true, if_false, if_true]

/-- A training state that exceeds its limit for the first time is tried again from that moment. -/
theorem seamTrainTimeout_retries (hfrom : 1 ≤ (s.seam key).state) (hto : (s.seam key).state ≤ 6) (hfirst : (s.seam key).retried = false) :
    ∃ u : Chip, (s.seam key).stateAt + trainLimit (s.seam key).state ≤ u.aTick
      ∧ seamTrainTimeout plate port s = u.setPort key fun p => { p with retried := true, stateAt := u.aTick } := by
  subst hkey
  obtain ⟨hdue, -, hseams⟩ := s.waitTick_ports ((s.seam (portKey plate.toNat port.toNat)).stateAt
    + trainLimit (s.seam (portKey plate.toNat port.toNat)).state)
  refine ⟨_, hdue, ?_⟩
  simp only [seamTrainTimeout, hconnected, hfrom, hto, Chip.trainFails, Chip.seam_congr hseams, hfirst, decide_true, Bool.and_self,
    Bool.false_eq_true, if_true, if_false]

/-- A transmit data lane that fails at full width, with the map still within the spares, begins a repair. -/
theorem seamLaneFail_repairs {lane : BitVec 7} (hstate : (s.seam key).state = 7) (hfull : (s.seam key).mode = 0) (hlane : lane.toNat < 68)
    (hworking : lane.toNat ∉ (s.seam key).tx.failed) (huse : lane.toNat ∉ (s.seam key).retiredTx)
    (hspare : (s.setPort key (SeamPort.fail [lane.toNat] [])).portSettle key = none) :
    (seamLaneFail plate port [lane] [] s).seam key = { ((s.seam key).fail [lane.toNat] []).enter s.aTick 9 with
      repairs := ((s.seam key).repairs + 1) % 65536 } := by
  subst hkey
  have hlow : lane.toNat < 70 := by omega
  have hnew : ((s.seam (portKey plate.toNat port.toNat)).tx.failed
      ++ (s.seam (portKey plate.toNat port.toNat)).retiredTx).contains lane.toNat = false := by
    simp [hworking, huse]
  simp only [seamLaneFail, hconnected, Chip.lanesFail, List.map_cons, List.map_nil, List.filter_cons, List.filter_nil, hlow, hnew, hlane,
    hstate, hfull, hspare, List.any_cons, List.any_nil, decide_true, Bool.not_false, Bool.and_self, BEq.rfl, Bool.true_or, Bool.or_false,
    if_true]
  rw [Chip.seam_congr (Chip.holdPort_counted ..).seams, Chip.seam_congr (Chip.raiseDev_seams ..), Chip.seam_setPort, Chip.seam_setPort,
    Chip.setPort_aTick]
  rfl

/-- A repaired port carries traffic again, in the mode it had. -/
theorem seamRepairDone_resumes {v : Chip} (hstate : (s.seam key).state = 9)
    (hv : v = (s.waitTick ((s.seam key).stateAt + 64)).releasePort key) (hsettled : v.portSettle key = none) :
    seamRepairDone plate port s = v.setPort key fun p => p.enter v.aTick (if p.mode = 1 then 8 else 7) := by
  subst hkey
  simp only [seamRepairDone, hconnected, hstate, ← hv, hsettled, decide_true, Bool.and_self, if_true]

/-- A retrained port whose halves have their lanes works at Fray width, and the plans that waited go on. -/
theorem seamRetrainDone_resumes {v : Chip} (hstate : (s.seam key).state = 10)
    (hv : v = (s.waitTick ((s.seam key).stateAt + 1000)).setPort key (SeamPort.pickHalves (s.seam key).entering))
    (htx : clocksGone (v.seam key).tx (v.seam key).retiredTx = false) (hrx : clocksGone (v.seam key).rx (v.seam key).retiredRx = false)
    (hhalves : (v.seam key).halvesOk = true) :
    seamRetrainDone plate port s = (v.setPort key fun p => p.enter v.aTick 8).releasePort key := by
  subst hkey
  simp only [seamRetrainDone, hconnected, hstate, ← hv, htx, hrx, hhalves, decide_true, Bool.and_self, Bool.not_true, Bool.or_self,
    Bool.false_eq_true, if_true, if_false]

end Ports

/-- Settles O41: each command is its function on the package (`State.on_live`), whose outcome that function's own lemma gives. -/
theorem linkTrainingCommandsComplete : Obligations.LinkTrainingCommandsComplete := by
  refine fun s hlive => ⟨fun link tx rx peer => ⟨fun hstate => ?_, fun hstate => ?_, fun p hstate hidentity hpeer => ?_⟩,
    fun link hlimit hfirst => ?_, fun link lane hup hfull hlane htx hrx => ?_, fun link failed margins htest hrunning => ?_,
    fun plate port key hkey hconnected => ⟨fun tx rx k hk hstate => ?_, fun hstate => ?_, fun hfrom hto hfirst => ?_,
      fun lane hstate hfull hlane hworking huse hspare => ?_, fun v hstate hv hsettled => ?_,
      fun v hstate hv htx hrx hhalves => ?_⟩⟩
  · refine ⟨_, exec_of_effect hlive rfl (slvTrainStateDone_detect tx rx peer hstate), ?_, rfl⟩
    exact congrArg SlvLink.state (Chip.link_updLink ..)
  · refine ⟨_, exec_of_effect hlive rfl (slvTrainStateDone_equalize tx rx peer hstate), ?_⟩
    rw [State.put_chip, Chip.link_updLink]
    rfl
  · exact exec_of_effect hlive rfl (slvTrainStateDone_peer tx rx hstate hidentity hpeer)
  · obtain ⟨u, hdue, hretry⟩ := slvTrainTimeout_retries hlimit hfirst
    refine ⟨_, exec_of_effect hlive rfl hretry, ?_⟩
    rw [State.put_chip, Chip.link_updLink]
    exact ⟨rfl, rfl, hdue⟩
  · refine ⟨_, exec_of_effect hlive rfl (slvLaneFail_repairs hup hlane htx hrx), ?_⟩
    rw [State.put_chip, Chip.link_congr (Chip.raiseDev_links ..), Chip.link_updLink, Chip.link_updLink]
    exact ⟨rfl, hfull, mem_sinsert.2 (.inl rfl)⟩
  · obtain ⟨u, htrains, hdone, hok⟩ := slvTestDone_trains failed margins htest hrunning
    refine ⟨_, State.on_live hlive _, ?_⟩
    rw [State.put_chip, htrains, Chip.trainLink_keeping_map]
    exact ⟨hdone, hok, rfl⟩
  · refine ⟨_, exec_of_effect hlive rfl (seamTrainStateDone_steps hkey hconnected tx rx hk hstate), ?_⟩
    rw [State.put_chip, Chip.seam_setPort]
    exact ⟨congrArg (· + 1) hstate, rfl⟩
  · exact exec_of_effect hlive rfl (seamTrainStateDone_verified hkey hconnected hstate)
  · obtain ⟨u, hdue, hretry⟩ := seamTrainTimeout_retries hkey hconnected hfrom hto hfirst
    refine ⟨_, exec_of_effect hlive rfl hretry, ?_⟩
    rw [State.put_chip, Chip.seam_setPort, Chip.setPort_aTick]
    exact ⟨rfl, hdue⟩
  · refine ⟨_, State.on_live hlive _, ?_⟩
    rw [State.put_chip, seamLaneFail_repairs hkey hconnected hstate hfull hlane hworking huse hspare]
    exact ⟨rfl, rfl⟩
  · refine ⟨_, exec_of_effect hlive rfl (seamRepairDone_resumes hkey hconnected hstate hv hsettled), ?_⟩
    rw [State.put_chip, Chip.seam_setPort]
    rfl
  · refine ⟨_, exec_of_effect hlive rfl (seamRetrainDone_resumes hkey hconnected hstate hv htx hrx hhalves), ?_⟩
    rw [State.put_chip, Chip.releasePort, Chip.seam_congr (Chip.releaseRuns_counted ..).seams, Chip.seam_setPort]
    rfl

end Sys2Proof.Machine
end

section
/-! # A package that is held (R414, R426, R616): held in Cold reset or stopped by THERMTRIP_N it stands still

Every command but those that begin or end the hold and the TAP's own passes a gate that a held package shuts (`Chip.live`); that a held package
ignores each of them, while the TAP goes on, is the model's choice (log entries 3 and 27). -/

namespace Sys2Proof.Machine

/-! ### Commands to a held package -/

/-- The gate of a command inside the package is shut while the package is held; the gates of calls, interfaces and functions are behind it. -/
theorem State.on_held {s : State} (h : s.chip.held = true) (f : Chip → Chip) : s.on (fun t => t.live f) = .next s := by
  rw [State.on_eq, s.chip.live_held h, State.put_self]

theorem State.on_host_held {s : State} (h : s.chip.held = true) (fn : Fn) (f : Chip → Chip) : s.on (fun t => t.host fn f) = .next s := by
  rw [State.on_eq, s.chip.host_held fn h, State.put_self]

/-- Settles O4: every command but the listed ones passes a gate that is shut (`State.on_held`, `State.on_host_held`); a command of the TAP writes its register alone. -/
theorem heldPackageStandsStill : Obligations.HeldPackageStandsStill := by
  intro c s hheld
  cases c
  case coldReset | refaLoss | refaReturn | railUndervoltage | railReturn => trivial
  case tapBypass | tapIdcode | tapSamplePreload | tapExtest | tapDieAccess => exact ⟨_, rfl, rfl⟩
  case msixUnmask | mailboxTailWrite | mtCmdWriteEntry | mtCmdClearEntry | mtCmdWriteChain | mtCmdClearChain | mtCmdReserved |
      dbgStitchGo | dbgPsAbort | dbgEngSwapNow | dbgEngAbort | dbgEngCmdReserved | dbgPadRead | dbgPadWrite | hbmInjectGo |
      seamTestCtrlGo | slvTestCtrlGo | pwrResetPlate | pwrResetCollarWarm | dbgEvInject | pwrForceRun | pwrForceDoze | ldgUserWrite |
      dbgCapOverrideWrite | slvPkgWrite | evAckWrite | vecRearmWrite | evRouteWrite =>
    exact State.on_host_held hheld _ _
  all_goals exact State.on_held hheld _

/-! ### After THERMTRIP_N (R426, R617) -/

/-- What a package whose clocks have stopped keeps. -/
structure Chip.Frozen (s t : Chip) : Prop where
  dead : t.boot.dead = s.boot.dead
  cells : t.cells = s.cells
  mem : t.mem = s.mem
  parts : t.parts = s.parts
  runs : t.runs = s.runs
  bufs : t.bufs = s.bufs

theorem Chip.Frozen.refl (s : Chip) : s.Frozen s := ⟨rfl, rfl, rfl, rfl, rfl, rfl⟩

theorem Chip.Frozen.trans {s t u : Chip} (h : s.Frozen t) (k : t.Frozen u) : s.Frozen u :=
  ⟨k.dead.trans h.dead, k.cells.trans h.cells, k.mem.trans h.mem, k.parts.trans h.parts, k.runs.trans h.runs, k.bufs.trans h.bufs⟩

theorem State.stopped.held {s : State} (h : s.stopped) : s.chip.held = true := by rw [Chip.held, h.1, Bool.true_or]

/-- A rail that returns marks a plate or ends its own cause of the Cold reset. -/
theorem railReturn_frozen (rail : BitVec 5) (s : Chip) : s.Frozen (railReturn rail s) := by
  unfold railReturn
  dsimp only
  split <;> exact ⟨rfl, rfl, rfl, rfl, rfl, rfl⟩

theorem Chip.tick_frozen {s : Chip} (h : s.held = true) : s.Frozen s.tick := by
  rw [Chip.tick, if_pos h]
  exact ⟨rfl, rfl, rfl, rfl, rfl, rfl⟩

/-- A command that begins no Cold reset leaves a held package frozen. -/
theorem exec_frozen {c : Instr} {s : State} (hheld : s.chip.held = true) (hcold : isColdReset c = false) :
    ∃ t : State, exec c s = .next t ∧ t.pending = s.pending ∧ s.chip.Frozen t.chip := by
  have hstill := heldPackageStandsStill c s hheld
  cases c
  case coldReset | refaLoss | railUndervoltage => exact absurd hcold (by simp [isColdReset])
  case refaReturn => exact ⟨_, rfl, rfl, ⟨rfl, rfl, rfl, rfl, rfl, rfl⟩⟩
  case railReturn rail => exact ⟨_, rfl, rfl, railReturn_frozen rail s.chip⟩
  case tapBypass | tapIdcode | tapSamplePreload | tapExtest | tapDieAccess => exact ⟨_, rfl, rfl, ⟨rfl, rfl, rfl, rfl, rfl, rfl⟩⟩
  all_goals exact ⟨s, hstill, rfl, .refl _⟩

/-- A step of a stopped package leaves it stopped and frozen. -/
theorem step_stopped {s : State} (h : s.stopped) : ∃ t : State, step s = .next t ∧ t.stopped ∧ s.chip.Frozen t.chip := by
  cases hqueue : s.pending with
  | nil =>
    have hfrozen := Chip.tick_frozen h.held
    refine ⟨s.put s.chip.tick, by rw [step_of_nil hqueue, State.idle_eq_tick (.inl h.held)], ⟨?_, h.2⟩, hfrozen⟩
    exact hfrozen.dead.trans h.1
  | cons c rest =>
    have hcold : ∀ x ∈ c :: rest, isColdReset x = false := hqueue ▸ h.2
    obtain ⟨t, hexec, hpending, hfrozen⟩ := exec_frozen (s := { s with pending := rest }) h.held (hcold c List.mem_cons_self)
    refine ⟨t, (step_of_cons hqueue).trans hexec, ⟨hfrozen.dead.trans h.1, fun x hx => ?_⟩, hfrozen⟩
    rw [hpending] at hx
    exact hcold x (List.mem_cons_of_mem c hx)

theorem run_stopped {s : State} (h : s.stopped) (n : Nat) :
    ∃ t : State, Host.Core.run Sys2Proof.core n s = .next t ∧ t.stopped ∧ s.chip.Frozen t.chip := by
  induction n generalizing s with
  | zero => exact ⟨s, run_zero s, h, .refl _⟩
  | succ n ih =>
    obtain ⟨u, hstep, hstopped, hfrozen⟩ := step_stopped h
    obtain ⟨t, hrun, hend, hrest⟩ := ih hstopped
    exact ⟨t, (run_succ_of_step n hstep).trans hrun, hend, hfrozen.trans hrest⟩

/-- Settles O5: by induction on the steps (`run_stopped`), each of which keeps a stopped package stopped and frozen (`step_stopped`). -/
theorem thermtripStopsTheClocks : Obligations.ThermtripStopsTheClocks := by
  intro s hstopped n t hrun
  obtain ⟨u, hu, hend, hfrozen⟩ := run_stopped hstopped n
  obtain rfl : u = t := Host.Outcome.next.inj (hu.symm.trans hrun)
  exact ⟨hend, hfrozen.cells, hfrozen.mem, hfrozen.parts, hfrozen.runs, hfrozen.bufs⟩

end Sys2Proof.Machine
end

section
/-! # Event registers and interrupts (R384 to R388, R443, R552): acknowledgement, routes, arming, MSI-X messages, mailbox tails -/

namespace Sys2Proof.Machine

/-! ### The events and the MSI-X state of a function -/

section Functions

variable (s : Chip) (fn : Fn)

/-- The function's event block can be written: a partition that does not exist keeps its reset state. -/
def Chip.hasEvents (s : Chip) (fn : Fn) : Prop := ∀ n, fn = .vf n → (s.part n).present = true

theorem Chip.eventsOf_updEvents {s : Chip} {fn : Fn} (h : s.hasEvents fn) (g : Events → Events) :
    (s.updEvents fn g).eventsOf fn = g (s.eventsOf fn) := by
  cases fn with
  | pf0 => rfl
  | vf n => simp [Chip.updEvents, h n rfl, Chip.eventsOf]

@[simp] theorem Chip.msixOf_updMsix (g : Msix → Msix) : (s.updMsix fn g).msixOf fn = g (s.msixOf fn) := by
  cases fn <;> simp [Chip.updMsix, Chip.msixOf]

@[simp] theorem Chip.eventsOf_updMsix (g : Msix → Msix) : (s.updMsix fn g).eventsOf fn = s.eventsOf fn := by
  cases fn <;> simp [Chip.updMsix, Chip.eventsOf]

@[simp] theorem Chip.msixOf_updEvents (g : Events → Events) : (s.updEvents fn g).msixOf fn = s.msixOf fn := by
  cases fn with
  | pf0 => rfl
  | vf n => simp only [Chip.updEvents]; split <;> simp [Chip.msixOf]

@[simp] theorem Chip.masterOf_updMsix (g : Msix → Msix) : (s.updMsix fn g).masterOf fn = s.masterOf fn := by
  cases fn <;> simp [Chip.updMsix, Chip.masterOf]

theorem Chip.hasEvents_updMsix {s : Chip} {fn : Fn} (h : s.hasEvents fn) (g : Msix → Msix) : (s.updMsix fn g).hasEvents fn := by
  rintro n rfl
  simpa [Chip.updMsix] using h n rfl

end Functions

theorem mem_sremove {x k : Nat} {l : List Nat} : x ∈ sremove k l ↔ x ∈ l ∧ x ≠ k := by
  simp [sremove]

/-! ### Acknowledgement (R385) -/

theorem evAckWrite_assigned {fn : Fn} {ev : BitVec 7} (h : eventAssigned fn ev.toNat = true) (a : W32) (s : Chip) :
    evAckWrite fn ev a s = s.updEvents fn fun x =>
      Events.arm (x.vector ev.toNat) { x with ack := mput ev.toNat (ackValue (mget 0 ev.toNat x.count) a) x.ack } := by
  simp [evAckWrite, h]

theorem Events.isPending_iff (x : Events) (e : Nat) : x.isPending e = true ↔ mget 0 e x.count ≠ mget 0 e x.ack := bne_iff_ne

/-- Settles O8: the events after `evAckWrite_assigned`, read by `Chip.eventsOf_updEvents`; the two branches are those of `ackValue`. -/
theorem acknowledgementRule : Obligations.AcknowledgementRule := by
  intro s fn ev a hadmits hassigned hpresent
  have hevents := Chip.eventsOf_updEvents hpresent fun x =>
    Events.arm (x.vector ev.toNat) { x with ack := mput ev.toNat (ackValue (mget 0 ev.toNat x.count) a) x.ack }
  refine ⟨_, State.on_host hadmits _, ?_⟩
  rw [State.put_chip, evAckWrite_assigned hassigned, hevents]
  refine ⟨fun hlate => ?_, fun hearly => ?_, Events.isPending_iff _ _, rfl, fun e he => mget_mput_other 0 he _ _, by simp, by simp, by simp⟩
  · rw [Events.arm, mget_mput_self, ackValue, if_pos hlate]
  · rw [Events.arm, mget_mput_self, ackValue, if_neg (Nat.not_lt.2 hearly)]

/-! ### Messages (R387, R388) -/

section Messages

variable {s : Chip} {fn : Fn} {v : BitVec 6}

/-- A vector asks for its message: asserted and armed, of a function that may send it. -/
structure Chip.Asks (s : Chip) (fn : Fn) (v : Nat) : Prop where
  vector : v < vectorsOf fn
  asserted : (s.eventsOf fn).asserted v = true
  armed : v ∉ (s.eventsOf fn).disarmed
  enabled : (s.msixOf fn).enabled = true
  master : s.masterOf fn = true

theorem msixSend_masked (h : s.Asks fn v.toNat) (hmask : (s.msixOf fn).fnMask = true ∨ v.toNat ∈ (s.msixOf fn).masked) :
    msixSend fn v s = s.updMsix fn fun m => { m with pba := sinsert v.toNat m.pba } := by
  simp [msixSend, h.vector, h.asserted, h.armed, h.enabled, h.master, hmask]

theorem msixSend_unmasked (h : s.Asks fn v.toNat) (hmask : ¬((s.msixOf fn).fnMask = true ∨ v.toNat ∈ (s.msixOf fn).masked)) :
    msixSend fn v s = s.sendMsix fn v.toNat := by
  simp [msixSend, h.vector, h.asserted, h.armed, h.enabled, h.master, hmask]

theorem Chip.msixOf_sendMsix (s : Chip) (fn : Fn) (v : Nat) : (s.sendMsix fn v).msixOf fn
    = { s.msixOf fn with sent := mupd 0 v (· + 1) (s.msixOf fn).sent, pba := sremove v (s.msixOf fn).pba } := by
  simp [Chip.sendMsix]

theorem Chip.eventsOf_sendMsix (h : s.hasEvents fn) (v : Nat) : (s.sendMsix fn v).eventsOf fn
    = { s.eventsOf fn with disarmed := sinsert v (s.eventsOf fn).disarmed } := by
  rw [Chip.sendMsix, Chip.eventsOf_updEvents (Chip.hasEvents_updMsix h _), Chip.eventsOf_updMsix]

/-- The package once the host has cleared a vector's mask. -/
def Chip.unmasked (s : Chip) (fn : Fn) (v : Nat) : Chip := s.updMsix fn fun m => { m with masked := sremove v m.masked }

theorem Chip.msixOf_unmasked (s : Chip) (fn : Fn) (v : Nat) :
    (s.unmasked fn v).msixOf fn = { s.msixOf fn with masked := sremove v (s.msixOf fn).masked } := Chip.msixOf_updMsix ..

/-- The message of a vector waits behind its mask and may be sent once that is clear. -/
abbrev Chip.waits (s : Chip) (fn : Fn) (v : Nat) : Prop :=
  v ∈ (s.msixOf fn).pba ∧ (s.msixOf fn).enabled = true ∧ (s.msixOf fn).fnMask = false ∧ s.masterOf fn = true

theorem msixUnmask_eq (fn : Fn) (v : BitVec 6) (s : Chip) :
    msixUnmask fn v s = if s.waits fn v.toNat then (s.unmasked fn v.toNat).sendMsix fn v.toNat else s.unmasked fn v.toNat := by
  simp [msixUnmask, Chip.unmasked, Chip.waits, and_assoc]

end Messages

/-- Settles O30: the outcome of MSIX_SEND by `msixSend_masked` and `msixSend_unmasked`, that of MSIX_UNMASK by `msixUnmask_eq`. A function that
may not master the bus sends nothing: the model's choice (log entries 9 and 48). -/
theorem interruptCommandsComplete : Obligations.InterruptCommandsComplete := by
  refine fun s fn v => ⟨fun hlive hvector hasserted harmed henabled hmaster hpresent => ?_, fun hadmits => ?_⟩
  · have hasks : s.chip.Asks fn v.toNat := ⟨hvector, hasserted, harmed, henabled, hmaster⟩
    refine ⟨_, State.on_live hlive _, ?_⟩
    rw [State.put_chip]
    split
    next hmask =>
      rw [msixSend_masked hasks hmask, Chip.msixOf_updMsix, Chip.eventsOf_updMsix]
      exact ⟨mem_sinsert.2 (.inl rfl), rfl, harmed⟩
    next hmask =>
      rw [msixSend_unmasked hasks hmask, Chip.msixOf_sendMsix, Chip.eventsOf_sendMsix hpresent]
      exact ⟨mget_mupd_self 0 _ _ _, fun h => (mem_sremove.1 h).2 rfl, mem_sinsert.2 (.inl rfl)⟩
  · refine ⟨_, State.on_host hadmits _, ?_⟩
    rw [State.put_chip, msixUnmask_eq]
    split
    next =>
      rw [Chip.msixOf_sendMsix, Chip.msixOf_unmasked]
      exact ⟨fun h => (mem_sremove.1 h).2 rfl, mget_mupd_self 0 _ _ _, fun h => (mem_sremove.1 h).2 rfl⟩
    next =>
      rw [Chip.msixOf_unmasked]
      exact ⟨fun h => (mem_sremove.1 h).2 rfl, rfl, rfl⟩

/-! ### The other registers of a function (R355, R388, R444, R552) -/

section Registers

variable {s : Chip} {fn : Fn}

/-- The entries that a tail write announces: how far the new tail is ahead of the old one on the ring of 16 (R444). -/
def Mailbox.announced (m : Mailbox) (tail : BitVec 4) : Nat := (tail.toNat + 16 - m.tail % 16) % 16

theorem mailboxTailWrite_eq {tail : BitVec 4} (hbase : (s.mbx fn).base ≠ 0) (hmaster : s.masterOf fn = true) :
    mailboxTailWrite fn tail s = if 15 < (s.mbx fn).pending + (s.mbx fn).announced tail then s.updMbx fn fun m => { m with overrun := true }
      else s.updMbx fn fun m => { m with tail := tail.toNat, pending := m.pending + (s.mbx fn).announced tail } := by
  have hserved : ¬((decide ((s.mbx fn).base = 0) || !s.masterOf fn) = true) := by simp [hbase, hmaster]
  cases fn <;> exact if_neg hserved

theorem slvPkgWrite_locked (id : BitVec 12) (lock : Bool) (h : s.fabric.lock = true) :
    slvPkgWrite id lock s = { s with tlr := { s.tlr with lockedWrites := s.tlr.lockedWrites + 1 } } := if_pos h

theorem slvPkgWrite_unlocked (id : BitVec 12) (lock : Bool) (h : s.fabric.lock = false) :
    slvPkgWrite id lock s = { s with fabric := { s.fabric with id := id.toNat, lock := lock } } := if_neg (Bool.eq_false_iff.1 h)

theorem vecRearmWrite_pf0 (mask : W64) (s : Chip) : (vecRearmWrite .pf0 mask s).tlr.events
    = { s.tlr.events with disarmed := s.tlr.events.disarmed.filter fun v => !(decide (v < 64) && bit mask.toNat v) } := rfl

theorem Events.route_setRoute (e v : Nat) (on : Bool) (x : Events) (k : Nat) :
    mget (0, false) k (x.setRoute e v on).route = if k = e then (v, on) else mget (0, false) k x.route := by
  split
  next h => subst h; exact mget_mput_self _ _ _ _
  next h => exact mget_mput_other _ h _ _

/-- A route byte: the vector, reduced to PF0's 64, and bit 7 that enables it (Table 14.9). -/
def routeByte (data : W32) (k : Nat) : Nat × Bool := (bits data.toNat (8 * k) 8 % 64, bit (bits data.toNat (8 * k) 8) 7)

/-- The routes of four events after a write of their register. -/
def Events.setRoutes (index : Nat) (data : W32) (x : Events) : Events :=
  [0, 1, 2, 3].foldl (fun (x : Events) k => x.setRoute (4 * index + k) (routeByte data k).1 (routeByte data k).2) x

theorem evRouteWrite_pf0 {index : BitVec 5} (hindex : index.toNat ≤ 4) (data : W32) (s : Chip) :
    (evRouteWrite .pf0 index data s).tlr.events = s.tlr.events.setRoutes index.toNat data := by
  have h0 : 4 * index.toNat ≤ 21 := by omega
  have h1 : 4 * index.toNat + 1 ≤ 21 := by omega
  have h2 : 4 * index.toNat + 2 ≤ 21 := by omega
  have h3 : 4 * index.toNat + 3 ≤ 21 := by omega
  simp [evRouteWrite, List.range_succ, eventAssigned, h0, h1, h2, h3, Chip.updEvents, vectorsOf, Events.setRoutes, routeByte]

theorem Events.route_setRoutes (index : Nat) (data : W32) (x : Events) {k : Nat} (hk : k < 4) :
    mget (0, false) (4 * index + k) (x.setRoutes index data).route = routeByte data k := by
  have hcases : k = 0 ∨ k = 1 ∨ k = 2 ∨ k = 3 := by omega
  rcases hcases with rfl | rfl | rfl | rfl <;> simp [Events.setRoutes, Events.route_setRoute]

theorem Events.route_setRoutes_other (index : Nat) (data : W32) (x : Events) {e : Nat} (he : e / 4 ≠ index) :
    mget (0, false) e (x.setRoutes index data).route = mget (0, false) e x.route := by
  have hother : ∀ k, k < 4 → e ≠ 4 * index + k := by omega
  have h0 := hother 0 (by decide)
  have h1 := hother 1 (by decide)
  have h2 := hother 2 (by decide)
  have h3 := hother 3 (by decide)
  simp only [Events.setRoutes, List.foldl_cons, List.foldl_nil, Events.route_setRoute, h0, h1, h2, h3, if_false]

end Registers

/-- Settles O28: by `State.on_host` each command is its function on the package, whose outcome that function's own lemma gives. That a base of
zero or a function without Bus Master Enable leaves the tail unserved is R444 and R552. -/
theorem hostRegisterCommandsComplete : Obligations.HostRegisterCommandsComplete := by
  refine fun s => ⟨fun fn tail hadmits hbase hmaster => ?_, fun id lock hadmits => ?_, fun ev value hadmits hassigned => ?_,
    fun mask hadmits => ?_, fun index data hadmits hindex => ?_, fun w hadmits => exec_registerWrite_pf0 hadmits w⟩
  · refine ⟨_, State.on_host hadmits _, ?_⟩
    rw [State.put_chip, mailboxTailWrite_eq hbase hmaster, Mailbox.announced]
    split
    · rw [Chip.mbx_updMbx]
      exact ⟨rfl, rfl, rfl⟩
    · rw [Chip.mbx_updMbx]
      exact ⟨rfl, rfl, rfl⟩
  · refine ⟨_, State.on_host hadmits _, fun hlock => ?_, fun hlock => ?_⟩
    · rw [State.put_chip, slvPkgWrite_locked id lock hlock]
      exact ⟨rfl, rfl⟩
    · rw [State.put_chip, slvPkgWrite_unlocked id lock hlock]
      exact ⟨rfl, rfl, rfl, rfl⟩
  · refine ⟨_, State.on_host hadmits _, ?_⟩
    rw [State.put_chip, evAckWrite_assigned hassigned]
    exact ⟨mget_mput_self _ _ _ _, rfl, rfl⟩
  · refine ⟨_, State.on_host hadmits _, rfl, fun v => ?_⟩
    rw [State.put_chip, vecRearmWrite_pf0]
    simp [imp_iff_not_or]
  · refine ⟨_, State.on_host hadmits _, fun k hk => ?_, fun e he => ?_⟩
    · rw [State.put_chip, evRouteWrite_pf0 hindex, Events.route_setRoutes _ _ _ hk]
      rfl
    · rw [State.put_chip, evRouteWrite_pf0 hindex, Events.route_setRoutes_other _ _ _ he]

end Sys2Proof.Machine
end

section
/-! # Partition, reset, power and Ledger calls (R356 to R380, R388, R395 to R398, R416 to R430) -/

namespace Sys2Proof.Machine

/-! ### What an answer leaves of a function's blocks: everything but its mailbox -/

section Answer

variable (s : Chip) (c : Call) (code : Nat) (st : Status) (detail : Nat) (result : List Nat)

theorem Chip.respond_tlr : ∃ m, (s.respond c code st detail result).tlr = { s.tlr with mbx := m } := by
  unfold Chip.respond Chip.updMbx
  split
  · exact ⟨_, rfl⟩
  · split <;> exact ⟨_, rfl⟩

theorem Chip.respond_part (n : Nat) : ∃ m, (s.respond c code st detail result).part n = { s.part n with mbx := m } := by
  unfold Chip.respond Chip.updMbx
  split
  · exact ⟨_, rfl⟩
  · split
    · exact ⟨_, rfl⟩
    next k _ =>
      by_cases hn : n = k
      · exact ⟨_, by rw [hn, Chip.part_updPart]⟩
      · exact ⟨_, by rw [Chip.part_updPart_other _ hn]⟩

@[simp] theorem Chip.eventsOf_respond (fn : Fn) : (s.respond c code st detail result).eventsOf fn = s.eventsOf fn := by
  cases fn with
  | pf0 =>
    obtain ⟨m, hm⟩ := s.respond_tlr c code st detail result
    simp only [Chip.eventsOf, hm]
  | vf n =>
    obtain ⟨m, hm⟩ := s.respond_part c code st detail result n
    simp only [Chip.eventsOf, hm]

@[simp] theorem Chip.plate_respond (p : Nat) : (s.respond c code st detail result).plate p = s.plate p := by
  simp only [Chip.plate, Chip.respond_plates]

end Answer

/-- A call that the package serves has its function's effect. -/
theorem exec_of_served {s : State} {c : Call} {i : Instr} {effect : Chip → Chip} {u : Chip} (h : s.chip.accepts c = true)
    (hexec : exec i s = s.on fun t => t.served c effect) (heffect : effect s.chip = u) : exec i s = .next (s.put u) := by
  rw [hexec, State.on_served h, heffect]

/-- A call none of whose own checks fails has its effect. -/
theorem checked_of_good {s : Chip} {checks : List (Bool × Status)} {f : Chip → Chip × Status × Nat × List Nat}
    (h : ∀ x ∈ checks, x.1 = false) : checked s checks f = f s := by
  have hnone : (checks.zipIdx.find? fun x => x.1.1) = none := by
    rw [List.find?_eq_none]
    rintro ⟨x, i⟩ hx
    simp [h x (List.fst_mem_of_mem_zipIdx hx)]
  rw [checked, hnone]

/-! ### Partition and Split calls (R356 to R380) -/

section Partitions

variable {s : Chip} {c : Call} {part mask : Nat}

/-- The partition that TC_PARTITION_CREATE makes of the number's old registers. -/
def Partition.created (grow : Bool) (old : Partition) : Partition :=
  { present := true, growOnInstall := grow, vfEnabled := old.vfEnabled, busMaster := old.busMaster, msix := old.msix, mbx := old.mbx,
    lockedWrites := old.lockedWrites, winErr := old.winErr }

theorem Chip.updPart_congr (s : Chip) {n : Nat} {f g : Partition → Partition} (h : f (s.part n) = g (s.part n)) :
    s.updPart n f = s.updPart n g := by
  rw [Chip.updPart, h, ← Chip.updPart]

theorem tcPartitionCreate_of_free (grow : Bool) (hpass : s.passes c { pf0Only := true, part := some part, creates := true } [])
    (halive : s.alive = true) (hfree : (s.part part).present = false) (hnamed : (maskSwatches mask).isEmpty = false)
    (hloose : ((maskSwatches mask).any fun sw => (s.swatch sw).owner.isSome) = false)
    (husable : ((maskSwatches mask).any fun sw => !s.usable sw) = false) :
    tcPartitionCreate c part mask grow s
      = (((maskSwatches mask).foldl (fun (t : Chip) sw => t.join part sw) (s.updPart part (Partition.created grow))).noteArrivals
          part).respond c 0x0801 .ok 0 [] := by
  have hcreated : s.updPart part (Partition.created grow) = s.updPart part fun _ => Partition.created grow (s.part part) :=
    s.updPart_congr rfl
  rw [tcPartitionCreate, Chip.call_passes hpass, checked_of_good (by simp [halive, hfree, hnamed, hloose, husable]), hcreated]
  simp only [succeeds, Partition.created]

theorem tcPartitionGrow_of_free (hpass : s.passes c { pf0Only := true, part := some part } []) (halive : s.alive = true)
    (hloose : ((maskSwatches mask).any fun sw => (s.swatch sw).owner.isSome) = false)
    (husable : ((maskSwatches mask).any fun sw => !s.usable sw) = false) :
    tcPartitionGrow c part mask s
      = (((maskSwatches mask).foldl (fun (t : Chip) sw => t.join part sw) s).noteArrivals part).respond c 0x0802 .ok 0 [] := by
  rw [tcPartitionGrow, Chip.call_passes hpass, checked_of_good (by simp [halive, hloose, husable])]
  simp only [succeeds]

theorem tcPartitionShrink_of_unused (hpass : s.passes c { pf0Only := true, part := some part } []) (halive : s.alive = true)
    (hown : ((maskSwatches mask).any fun sw => (s.swatch sw).owner != some part) = false)
    (husable : ((maskSwatches mask).any fun sw => !s.usable sw) = false)
    (hunused : ((maskSwatches mask).any fun sw => (s.part part).uses sw) = false) :
    tcPartitionShrink c part mask s
      = (((maskSwatches mask).foldl (fun (t : Chip) sw => t.leave sw) s).noteArrivals part).respond c 0x0803 .ok 0 [] := by
  rw [tcPartitionShrink, Chip.call_passes hpass, checked_of_good (by simp [halive, hown, husable, hunused])]
  simp only [succeeds]

/-- With no plan and no request to end, a partition is released and dissolved at once (R379). -/
theorem tcPartitionDestroy_of_idle (hpass : s.passes c { pf0Only := true, part := some part } []) (halive : s.alive = true)
    (hruns : s.runs = []) (hrequests : s.requests = []) :
    tcPartitionDestroy c part s = ((s.releasePart part).dissolve part).respond c 0x0804 .ok 0 [] := by
  simp [tcPartitionDestroy, hpass.2, halive, Chip.runsOf, hruns, hrequests]

theorem tcPartitionQuery_reports (hpass : s.passes c { part := some part } []) :
    ∃ grants, tcPartitionQuery c part s = s.respond c 0x0805 .ok 0
      ([swatchMask (s.swatchesOf part), b2n (s.part part).suspended, b2n (s.part part).resetting, (s.part part).pace,
        (s.part part).paceLimit, (s.part part).qosRes] ++ grants) :=
  ⟨_, Chip.call_passes hpass⟩

/-- A grant that rises and is admitted is stored; the resource is rebalanced (R366, R368). -/
theorem tcSplitSet_of_admitted {r cls units : Nat} {strict : Bool} (hpass : s.passes c { pf0Only := true, part := some part } [])
    (halive : s.alive = true) (hr : r < 40) (hcls : cls < resClasses r) (hunits : units ≤ 62)
    (hrise : (mget {} (grantKey r cls) (s.part part).grants).units < units)
    (hadmits : (s.updPart part (Partition.setGrant r cls units strict)).admits r = true) :
    tcSplitSet c part r cls units strict s
      = (((s.updPart part (Partition.setGrant r cls units strict)).noteArrivals part).capacityChange [r] false).respond c 0x0806 .ok 0 [] := by
  have hrises : decide (units < (mget {} (grantKey r cls) (s.part part).grants).units) = false := decide_eq_false (Nat.lt_asymm hrise)
  rw [tcSplitSet, Chip.call_passes hpass, checked_of_good, hrises]
  · simp only [succeeds]
  · simp [halive, Nat.not_le.2 hr, Nat.not_le.2 hcls, Nat.not_lt.2 hunits, hrise.not_gt, hadmits]

theorem tcSplitQuery_reports {r : Nat} (hpass : s.passes c {} [(decide (40 ≤ r), .bound)]) :
    ∃ rest, tcSplitQuery c r s = s.respond c 0x0807 .ok 0 ([(s.capacity r).getD 0, b2n (s.inFray r)] ++ rest) :=
  ⟨_, Chip.call_passes hpass⟩

end Partitions

/-- Settles O17: by `State.on_served` each call is its function on the package, whose outcome that function's own lemma gives. -/
theorem partitionCallsComplete : Obligations.PartitionCallsComplete := by
  refine fun s c part mask => ⟨fun grow hpass halive hfree hnamed hloose husable => ?_, fun hpass halive hloose husable => ?_,
    fun hpass halive hown husable hunused => ?_, fun hpass halive hruns hrequests => ?_, fun hpass => ?_,
    fun r cls units strict hpass halive hr hcls hunits hrise hadmits => ?_, fun r hpass => ?_⟩
  · exact exec_of_served hpass.1 rfl (tcPartitionCreate_of_free grow hpass halive hfree hnamed hloose husable)
  · exact exec_of_served hpass.1 rfl (tcPartitionGrow_of_free hpass halive hloose husable)
  · exact exec_of_served hpass.1 rfl (tcPartitionShrink_of_unused hpass halive hown husable hunused)
  · exact exec_of_served hpass.1 rfl (tcPartitionDestroy_of_idle hpass halive hruns hrequests)
  · obtain ⟨grants, hquery⟩ := tcPartitionQuery_reports hpass
    exact ⟨grants, exec_of_served hpass.1 rfl hquery⟩
  · exact exec_of_served hpass.1 rfl (tcSplitSet_of_admitted hpass halive hr hcls hunits hrise hadmits)
  · obtain ⟨rest, hquery⟩ := tcSplitQuery_reports hpass
    exact ⟨rest, exec_of_served hpass.1 rfl hquery⟩

/-! ### Reset, event-route, power and thermal calls (R388, R395 to R398, R416 to R424) -/

section Power

variable {s : Chip} {c : Call}

theorem tcPartitionReset_begins {part : Nat} (hpass : s.passes c { part := some part } []) :
    tcPartitionReset c part s = s.beginReset part 2 (some c.fn) c.tag := by
  simp only [tcPartitionReset, hpass.2]

theorem tcPlateReset_begins {plate : Nat} (hpass : s.passes c { pf0Only := true } [(decide (8 ≤ plate), .bound)])
    (hreset : (s.plate plate).reset = false) : tcPlateReset c plate s = s.beginPlateReset plate (some c.fn) c.tag false := by
  simp only [tcPlateReset, hpass.2, hreset, Bool.false_eq_true, if_false]

theorem tcCollarReset_resets (hpass : s.passes c { pf0Only := true } []) :
    tcCollarReset c s = collarWarmReset 1 (s.respond c 0x0903 .ok 0 []) := by
  simp only [tcCollarReset, hpass.2]

theorem tcEventRoute_pf0 {ev vector : Nat} (enable : Bool)
    (hpass : s.passes c { pf0Only := true } [(!eventAssigned .pf0 ev || decide (64 ≤ vector), .bound)]) :
    tcEventRoute c 0 ev vector enable s
      = (s.updEvents .pf0 (Events.setRoute ev vector enable)).respond c 0x0904 .ok 0 [] := by
  rw [tcEventRoute]
  exact Chip.call_passes hpass

theorem tcEventRoute_vf {n ev vector : Nat} (enable : Bool)
    (hpass : s.passes c { part := some n } [(!eventAssigned (.vf n) ev || decide (32 ≤ vector), .bound)]) :
    tcEventRoute c (n + 1) ev vector enable s
      = (s.updEvents (.vf n) (Events.setRoute ev vector enable)).respond c 0x0904 .ok 0 [] := by
  rw [tcEventRoute]
  exact Chip.call_passes hpass

theorem tcPlatePower_stores {plate delay : Nat} (allow : Bool)
    (hpass : s.passes c { pf0Only := true } [(decide (8 ≤ plate), .bound), (decide (2 ^ 30 < delay), .bound)]) :
    tcPlatePower c plate allow delay s
      = (s.updPlate plate fun p => { p with offAllowed := allow, offDelay := delay }).respond c 0x0A02 .ok 0 [] :=
  Chip.call_passes hpass

theorem tcPowerLimit_stores {watts : Nat}
    (hpass : s.passes c { pf0Only := true } [(decide (watts ≠ 0 ∧ (watts < 300 ∨ 1150 < watts)), .bound)]) :
    tcPowerLimit c watts s = (s.setLimit watts).respond c 0x0A03 .ok 0 [] := Chip.call_passes hpass

theorem tcPowerQuery_plate {index : Nat} (hpass : s.passes c {} [(decide (8 ≤ index), .bound)]) :
    tcPowerQuery c true index s = s.respond c 0x0A04 .ok 0 [b2n (s.plate index).off, b2n (s.plate index).offAllowed,
      (s.plate index).offDelay, b2n (s.plate index).fLock, (s.plate index).theta] := by
  simp only [tcPowerQuery, if_true, Chip.call_passes hpass, succeeds]

theorem tcThermalQuery_reports (hpass : s.passes c {} []) :
    ∃ readings, tcThermalQuery c s = s.respond c 0x0A05 .ok 0 (readings ++ [tempField s.power.collarTemp]) :=
  ⟨_, Chip.call_passes hpass⟩

end Power

/-- Settles O18: by `State.on_served` each call is its function on the package, whose outcome that function's own lemma gives; what a call
stores is read through its answer by `Chip.eventsOf_respond` and `Chip.plate_respond`. -/
theorem resetAndPowerCallsComplete : Obligations.ResetAndPowerCallsComplete := by
  refine fun s c => ⟨fun part hpass => exec_of_served hpass.1 rfl (tcPartitionReset_begins hpass),
    fun plate hpass hreset => exec_of_served hpass.1 rfl (tcPlateReset_begins hpass hreset),
    fun hpass => exec_of_served hpass.1 rfl (tcCollarReset_resets hpass), fun ev vector enable hpass => ?_,
    fun n ev vector enable hpass hpresent => ?_, fun part floor nap rest hpass => exec_of_served hpass.1 rfl (Chip.call_passes hpass),
    fun plate allow delay hpass => ?_, fun watts hpass => ?_, fun index hpass => exec_of_served hpass.1 rfl (tcPowerQuery_plate hpass),
    fun hpass => ?_⟩
  · refine ⟨_, exec_of_served hpass.1 rfl (tcEventRoute_pf0 enable hpass), ?_, ?_, ?_⟩
    · exact Chip.eventsOf_respond _ _ _ _ _ _ .pf0
    · simp
    · simp
  · refine ⟨_, exec_of_served hpass.1 rfl (tcEventRoute_vf enable hpass), ?_, ?_⟩
    · have hroute := Chip.eventsOf_updEvents (s := s.chip) (fn := .vf n) (fun k hk => by cases hk; exact hpresent)
        (Events.setRoute ev vector enable)
      exact (Chip.eventsOf_respond _ _ _ _ _ _ (.vf n)).trans hroute
    · simp
  · refine ⟨_, exec_of_served hpass.1 rfl (tcPlatePower_stores allow hpass), ?_⟩
    simp only [State.put_chip, Chip.plate_respond, Chip.plate_updPlate, true_and]
    exact fun q hq => Chip.plate_updPlate_other _ hq _
  · refine ⟨_, exec_of_served hpass.1 rfl (tcPowerLimit_stores hpass), ?_⟩
    rw [State.put_chip, Chip.respond_power]
    exact ⟨rfl, rfl⟩
  · obtain ⟨readings, hquery⟩ := tcThermalQuery_reports hpass
    exact ⟨readings, exec_of_served hpass.1 rfl hquery⟩

/-! ### Ledger calls (R427 to R430) -/

section Ledgers

variable {s : Chip} {c : Call}

theorem tcLedgerGet_offset {item index : Nat} (hpass : s.passes c {} [(decide (ledgerCount item ≤ index), .bound)]) (hitem : item < 13) :
    tcLedgerGet c item index s = s.respond c 0x0A06 .ok 0
      [(s.ledger.factoryOf item index % 2 ^ 16).toNat, (s.ledger.userOf item index % 2 ^ 16).toNat,
        (s.ledger.effective item index % 2 ^ 16).toNat] := by
  simp only [tcLedgerGet, Chip.call_passes hpass, hitem, if_true, succeeds]

/-- Every good item is applied; its numbering is the model's (log entries 33 and 96). -/
theorem tcLedgerSet_applies {items : List (Nat × Nat × Int)} (hpass : s.passes c { pf0Only := true } []) (hopen : s.ledgerOpen = true)
    (hgood : items.findSome? s.ledgerBad = none) :
    tcLedgerSet c items s = (items.foldl (fun (t : Chip) x => t.ledgerPut x) s).respond c 0x0A07 .ok 0 [] := by
  simp only [tcLedgerSet, Chip.call_passes hpass, hopen, hgood, Bool.not_true, Bool.false_eq_true, if_false, succeeds]

/-- The present registers as the image in working flash; that its version counts up by one is the model's choice (log entry 33). -/
def Ledger.committed (l : Ledger) : Ledger :=
  { l with image := some (l.user, l.userCells, l.lanes, ((l.image.map fun i => i.2.2.2).getD 0 + 1) % 2 ^ 16), imageValid := true }

theorem tcLedgerCommit_stores (hpass : s.passes c { pf0Only := true } []) (hopen : s.ledgerOpen = true) (hflash : s.ledger.flash = true) :
    tcLedgerCommit c s = Chip.respond { s with ledger := s.ledger.committed } c 0x0A08 .ok 0 [] := by
  simp only [tcLedgerCommit, Chip.call_passes hpass, hopen, hflash, Bool.not_true, Bool.false_eq_true, if_false, succeeds,
    Ledger.committed]

section Retirement

variable {cell : Nat} (force : Bool) (hpass : s.passes c { pf0Only := true } [(decide (32768 ≤ cell), .bound)])
  (hopen : s.ledgerOpen = true)
include hpass hopen

theorem tcCellRetire_of_out (hout : s.ledger.cellOut (physCell cell) = true) :
    tcCellRetire c cell force s = s.respond c 0x0A09 .ok 0 [] := by
  simp only [tcCellRetire, Chip.call_passes hpass, hopen, hout, Bool.not_true, Bool.false_eq_true, if_false, if_true, succeeds]

theorem tcCellRetire_of_working (hin : s.ledger.cellOut (physCell cell) = false) (hroom : s.lastCells (physCell cell) = false ∨ force = true) :
    tcCellRetire c cell force s = (s.retireCell (physCell cell)).respond c 0x0A09 .ok 0 [] := by
  have hallowed : (s.lastCells (physCell cell) && !force) = false := by
    rcases hroom with h | h <;> simp [h]
  simp only [tcCellRetire, Chip.call_passes hpass, hopen, hin, hallowed, Bool.not_true, Bool.false_eq_true, if_false, succeeds]

end Retirement

end Ledgers

/-- Settles O19: by `State.on_served` each call is its function on the package, whose outcome that function's own lemma gives. -/
theorem ledgerCallsComplete : Obligations.LedgerCallsComplete := by
  refine fun s c => ⟨fun item index hpass hitem => exec_of_served hpass.1 rfl (tcLedgerGet_offset hpass hitem),
    fun items hpass hopen hgood => exec_of_served hpass.1 rfl (tcLedgerSet_applies hpass hopen hgood), fun hpass hopen hflash => ?_,
    fun cell force hpass hopen => ⟨fun hout => exec_of_served hpass.1 rfl (tcCellRetire_of_out force hpass hopen hout),
      fun hin hroom => exec_of_served hpass.1 rfl (tcCellRetire_of_working force hpass hopen hin hroom)⟩⟩
  refine ⟨_, exec_of_served hpass.1 rfl (tcLedgerCommit_stores hpass hopen hflash), ?_⟩
  rw [State.put_chip, Chip.respond_ledger]
  exact ⟨rfl, rfl, rfl⟩

end Sys2Proof.Machine
end

section
/-! # Power states (R415 to R419): swatches enter Doze, Nap and Rest, a plate goes off, a swatch wakes -/

namespace Sys2Proof.Machine

/-! ### Time does not pass while a swatch loses or regains its state -/

section Reload

variable (s : Chip)

@[simp] theorem Chip.seedPanel_steady (p : Nat) : s.steady (s.seedPanel p) := ⟨rfl, rfl, rfl⟩
@[simp] theorem Chip.seedSwatch_steady (sw : Nat) : s.steady (s.seedSwatch sw) := by simp [Chip.seedSwatch]
@[simp] theorem Chip.wipeSwatch_steady (sw : Nat) : s.steady (s.wipeSwatch sw) := by simp [Chip.wipeSwatch]
@[simp] theorem Chip.putSeeds_steady (sw : Nat) (seeds : List (Nat × BitVec 256)) : s.steady (s.putSeeds sw seeds) := by
  simp [Chip.putSeeds]

@[simp] theorem Chip.loadEngines_steady (part : Nat) (p : Plan) : s.steady (s.loadEngines part p) := by
  unfold Chip.loadEngines
  refine Chip.foldl_steady (fun t sw => ?_) p.swatches s
  dsimp only
  refine Chip.steady_trans ?_ (Chip.settleStores_steady _ sw)
  refine Chip.steady_trans ?panels (Chip.foldl_steady (fun u e => ?yoke) p.engine _)
  case panels => simp
  case yoke => cases e <;> simp

@[simp] theorem Chip.holdSlots_steady (part : Nat) (p : Plan) : s.steady (s.holdSlots part p) := by simp [Chip.holdSlots]

@[simp] theorem Chip.reloadSwatch_steady (p sw : Nat) : s.steady (s.reloadSwatch p sw) := by simp [Chip.reloadSwatch]

/-- Entering a power state takes no time. -/
theorem Chip.enterPower_steady (sw st : Nat) : s.steady (s.enterPower sw st) := by
  have hstate : s.steady (if st = 2 then s.eachCell sw Cell.napped
      else if st = 3 then (match (s.swatch sw).owner with | some p => s.reloadSwatch p sw | none => s.wipeSwatch sw) else s) := by
    split
    · exact ⟨rfl, rfl, rfl⟩
    · split
      · split
        · exact s.reloadSwatch_steady _ sw
        · exact s.wipeSwatch_steady sw
      · exact s.steady_refl
  exact Chip.steady_trans hstate ⟨rfl, rfl, rfl⟩

end Reload

/-! ### Entering and leaving a state -/

theorem Chip.power_enterPower (s : Chip) (sw st : Nat) : ((s.enterPower sw st).swatch sw).power = st := by
  simp [Chip.enterPower]

theorem Chip.aTick_enterPower (s : Chip) (sw st : Nat) : (s.enterPower sw st).aTick = s.aTick := by
  rw [Chip.aTick, (s.enterPower_steady sw st).1, Chip.aTick]

theorem dozeEntry_enters {s : Chip} {sw : BitVec 6} (hrun : (s.swatch sw.toNat).power = 0) (hmay : s.mayEnter sw.toNat 1 = true) :
    dozeEntry sw s = s.enterPower sw.toNat 1 := by
  simp [dozeEntry, hrun, hmay]

theorem napEntry_enters {s : Chip} {sw : BitVec 6} (hdoze : (s.swatch sw.toNat).power = 1) (hmay : s.mayEnter sw.toNat 2 = true) :
    napEntry sw s = (s.waitTick ((s.swatch sw.toNat).idleSince + (s.policyOf sw.toNat).2.1)).enterPower sw.toNat 2 := by
  simp [napEntry, hdoze, hmay]

theorem restEntry_enters {s : Chip} {sw : BitVec 6} (howner : (s.swatch sw.toNat).owner.isSome = true)
    (hnap : (s.swatch sw.toNat).power = 2) (hmay : s.mayEnter sw.toNat 3 = true) :
    restEntry sw s = (s.waitTick ((s.swatch sw.toNat).idleSince + (s.policyOf sw.toNat).2.2)).enterPower sw.toNat 3 := by
  obtain ⟨p, hp⟩ := Option.isSome_iff_exists.1 howner
  simp [restEntry, hp, hnap, hmay]

/-- A waking swatch that nothing holds in Doze reaches Run. -/
theorem swatchWakeDone_runs {s : Chip} {sw : BitVec 6} (hwaking : (s.swatch sw.toNat).waking = true)
    (hforced : (s.swatch sw.toNat).forced ≠ 2) :
    ((swatchWakeDone sw s).swatch sw.toNat).power = 0 ∧ ((swatchWakeDone sw s).swatch sw.toNat).waking = false := by
  simp [swatchWakeDone, hwaking, hforced, Chip.wakeInto]

/-! ### Plate Off (R418) -/

theorem Chip.plate_updSwatches (ns : List Nat) (f : Swatch → Swatch) (s : Chip) (p : Nat) :
    (s.updSwatches ns f).plate p = s.plate p := by
  induction ns generalizing s with
  | nil => rfl
  | cons n rest ih => exact ih (s.updSwatch n f)

/-- Every swatch of a list is as a change of all of them makes it, where that is so whatever the swatch was. -/
theorem Chip.swatch_updSwatches {P : Swatch → Prop} {f : Swatch → Swatch} (hf : ∀ w, P (f w)) (ns : List Nat) (s : Chip) :
    ∀ n ∈ ns, P ((s.updSwatches ns f).swatch n) := by
  have hkeep : ∀ (ns : List Nat) (s : Chip) (n : Nat), P (s.swatch n) → P ((s.updSwatches ns f).swatch n) := by
    intro ns
    induction ns with
    | nil => exact fun _ _ h => h
    | cons m rest ih =>
      intro s n h
      refine ih (s.updSwatch m f) n ?_
      by_cases hmn : m = n
      · subst hmn; rw [Chip.swatch_updSwatch]; exact hf _
      · rwa [Chip.swatch_updSwatch_other _ (Ne.symm hmn)]
  induction ns generalizing s with
  | nil => simp
  | cons m rest ih =>
    intro n hn
    rcases List.mem_cons.1 hn with rfl | hrest
    · exact hkeep rest _ n (by rw [Chip.swatch_updSwatch]; exact hf _)
    · exact ih (s.updSwatch m f) n hrest

theorem plateOffEntry_off {s : Chip} {p : BitVec 3} (hallowed : (s.plate p.toNat).offAllowed = true)
    (hon : (s.plate p.toNat).off = false) (hreset : (s.plate p.toNat).reset = false)
    (hrest : ∀ sw ∈ plateSwatches p.toNat, (s.swatch sw).power = 3 ∧ (s.swatch sw).waking = false)
    (hplans : ∀ e ∈ s.parts, e.2.plans = [])
    (hroutes : ∀ q path, q < 8 → q ≠ p.toNat → s.controlRoute q = some path → p.toNat ∉ path) :
    ∃ n, plateOffEntry p s = ((s.waitTick n).updPlate p.toNat fun y => { y with off := true, fLock := false }).updSwatches
      (plateSwatches p.toNat) fun w => { w with power := 4 } := by
  have hidle : ((plateSwatches p.toNat).all fun sw => (s.swatch sw).power == 3 && !(s.swatch sw).waking) = true := by
    simpa using hrest
  have hslots : (s.parts.any fun e => e.2.plans.any fun pl => (platePorts p.toNat).any fun k => pl.2.seam.zipIdx.any fun l =>
      decide (0 < pl.2.units 4 l.2) && (pl.2.linkPorts l.1).any fun ks => ks.contains k) = false :=
    List.any_eq_false.2 fun e he => by simp [hplans e he]
  have hforwards : ((List.range 8).any fun q => q != p.toNat && (s.plate q).online &&
      (s.controlRoute q).any fun path => path.contains p.toNat) = false := by
    refine List.any_eq_false.2 fun q hq => ?_
    cases hroute : s.controlRoute q with
    | none => simp
    | some path =>
      by_cases hne : q = p.toNat
      · simp [hne]
      · simp [hroutes q path (List.mem_range.1 hq) hne hroute]
  refine ⟨((plateSwatches p.toNat).map fun sw => (s.swatch sw).idleSince).foldl max 0 + (s.plate p.toNat).offDelay, ?_⟩
  unfold plateOffEntry
  refine if_pos ?_
  rw [hallowed, hon, hreset, hidle, hslots, hforwards]
  rfl

/-- Settles O46: each entry's conditions hold by hypothesis, and `Chip.enterPower` and `Chip.wakeInto` end with the state of the swatch. -/
theorem powerCommandsComplete : Obligations.PowerCommandsComplete := by
  intro s hlive
  have hwaited : ∀ (n sw st : Nat), n ≤ ((s.chip.waitTick n).enterPower sw st).aTick := fun n sw st => by
    rw [Chip.aTick_enterPower]
    exact (s.chip.waitTick_ports n).1
  refine ⟨fun sw hrun hmay => ⟨_, exec_of_effect hlive rfl (dozeEntry_enters hrun hmay), Chip.power_enterPower _ _ 1, rfl⟩,
    fun sw hdoze hmay => ⟨_, exec_of_effect hlive rfl (napEntry_enters hdoze hmay), Chip.power_enterPower _ _ 2, hwaited _ _ 2⟩,
    fun sw howner hnap hmay => ⟨_, exec_of_effect hlive rfl (restEntry_enters howner hnap hmay), Chip.power_enterPower _ _ 3, hwaited _ _ 3⟩,
    fun p hallowed hon hreset hrest hplans hroutes => ?_,
    fun sw hwaking hforced => ⟨_, exec_of_effect hlive rfl rfl, swatchWakeDone_runs hwaking hforced⟩⟩
  obtain ⟨n, hoff⟩ := plateOffEntry_off hallowed hon hreset hrest hplans hroutes
  have hplate := Chip.plate_updSwatches (plateSwatches p.toNat) (fun w => { w with power := 4 })
    ((s.chip.waitTick n).updPlate p.toNat fun y => { y with off := true, fLock := false }) p.toNat
  rw [Chip.plate_updPlate] at hplate
  exact ⟨_, exec_of_effect hlive rfl hoff, congrArg Plate.off hplate, congrArg Plate.fLock hplate,
    Chip.swatch_updSwatches (P := fun w => w.power = 4) (fun w => rfl) _ _⟩

end Sys2Proof.Machine
end

section
/-! # Admission (R450, R456, R458, Table 16.5): where it succeeds -/

namespace Sys2Proof.Machine

/-- A refused request is answered with its refusal, never with a number. -/
theorem Chip.refuse_ne_ok (s u : Chip) (part : Nat) (x : Refused) (id : Nat) : s.refuse part x ≠ (u, .ok id) := by
  intro h
  cases congrArg Prod.snd h

/-- Settles O33: of the checks of Table 16.5 in order, steps 1, 3 and 4 (R456, R450) end an admission where the statement's conditions fail. -/
theorem admissionNeedsAServingPartition : Obligations.AdmissionNeedsAServingPartition := by
  intro s u a id h
  unfold Chip.admitRequest at h
  dsimp only at h
  generalize hroom : (decide (16384 ≤ s.requests.length) || decide ((s.part a.part).quotas.maxOpen ≤ s.openOf a.part) || Option.any _ _)
    = full at h
  split at h
  next => exact absurd h (s.refuse_ne_ok u _ _ id)
  next hserves =>
    split at h
    next => exact absurd h (s.refuse_ne_ok u _ _ id)
    next =>
      split at h
      next => exact absurd h (s.refuse_ne_ok u _ _ id)
      next hsuspended =>
        split at h
        next => exact absurd h (s.refuse_ne_ok u _ _ id)
        next hfull =>
          simp only [Bool.not_eq_true] at hfull
          simp only [hfull, Bool.or_eq_false_iff, decide_eq_false_iff_not, not_le] at hroom
          obtain ⟨⟨hpackage, hpart⟩, -⟩ := hroom
          simp only [Bool.or_eq_true, Bool.not_eq_true', not_or, Bool.not_eq_false, Bool.not_eq_true] at hserves hsuspended
          exact ⟨hserves.1, hserves.2, hsuspended, hpackage, hpart⟩

end Sys2Proof.Machine
end

section
/-! # Buffers of the service plane (R447 to R451, R474): the calls allocate, free, share, revoke and report

A call's own checks pass by hypothesis, and a handle reads its buffer (`Chip.withHandle_own`). -/

namespace Sys2Proof.Machine

variable {s : Chip} {c : Call}

theorem tcBufAlloc_issues {part kind place bolts : Nat} {priv : Bool} {h : Nat} {u : Chip}
    (hpass : s.passes c { part := some part }
      [(decide (2 < kind), .notSupported), (decide (kind < 2 && 7 < place && !(kind == 0 && place == 255)), .bound),
        (decide (kind = 2 ∧ place ≠ 0), .bound)])
    (halloc : s.allocBuf part kind place bolts priv = .ok (h, u)) :
    tcBufAlloc c part kind place bolts priv s = u.respond c 0x0B01 .ok 0 [h, ((u.bufOf h).map (·.addr)).getD 0] := by
  rw [tcBufAlloc, Chip.call_passes hpass]
  simp only [halloc, succeeds]

theorem tcBufFree_releases {handle : Nat} {b : Buf} (hpass : s.passes c {} []) (hbuf : s.bufOf handle = some b)
    (hown : (c.fn == .pf0 || b.part == c.fn.part) = true) (hbound : s.bound handle = false)
    (hkey : s.keyInUse b.part handle = false) (hmapped : s.mapped handle = false) :
    tcBufFree c handle s = (s.releaseBuf handle).respond c 0x0B02 .ok 0 [] := by
  rw [tcBufFree, Chip.call_passes hpass, Chip.withHandle_own hbuf hown]
  simp [hbound, hkey, hmapped, succeeds]

/-- What a local partition is given of a buffer: a view of some of its bolts, with the rights of the grant. -/
def Buf.shared (b : Buf) (handle part first bolts : Nat) (read add : Bool) : Buf := {
  gen := 1, live := true, part := part, kind := b.kind, place := b.place, addr := b.addr + 576 * first, bolts := bolts
  view := some (handle % 2 ^ 24), canRead := read, canAdd := add, canWrite := false }

theorem tcBufShare_grants {handle part first bolts : Nat} {read add : Bool} {b : Buf}
    (hpass : s.passes c {} [(decide (4096 ≤ (0 : Nat)), .bound), (decide (64 ≤ part), .bound), (decide (64 ≤ (0 : Nat)), .bound),
      (!(read || add), .notSupported)])
    (hbuf : s.bufOf handle = some b) (hown : (c.fn == .pf0 || b.part == c.fn.part) = true) (hview : b.view = none)
    (hbolts : first + bolts ≤ b.bolts) (hpart : (s.part part).present = true) (hgrants : b.grants.length < 64)
    (hroom : s.handleRoom part = true) :
    ∃ g : BufGrant, g.handle = (s.issueHandle (b.shared handle part first bolts read add)).1 ∧ g.part = part
      ∧ tcBufShare c handle false 0 part first bolts read add false 0 s =
          { (s.issueHandle (b.shared handle part first bolts read add)).2 with
            bufs := mput (handle % 2 ^ 24) { b with grants := b.grants ++ [g] }
              (s.issueHandle (b.shared handle part first bolts read add)).2.bufs }.respond c 0x0B03 .ok 0
            [(s.issueHandle (b.shared handle part first bolts read add)).1] := by
  refine ⟨{ fabric := false, package := 0, part := part, first := first, bolts := bolts, read := read, add := add, write := false
            token := none, handle := (s.issueHandle (b.shared handle part first bolts read add)).1 }, rfl, rfl, ?_⟩
  refine (Chip.call_passes hpass).trans ?_
  rw [Chip.withHandle_own hbuf hown]
  simp [hview, hbolts, hpart, hgrants, hroom, succeeds, Buf.shared, Nat.not_lt.2, Nat.not_le.2]

theorem tcBufRevoke_revokes {handle o : Nat} {v ob : Buf} (hpass : s.passes c {} []) (hbuf : s.bufOf handle = some v)
    (hview : v.view = some o) (howned : mfind o s.bufs = some ob) (hown : (c.fn == .pf0 || ob.part == c.fn.part) = true) :
    tcBufRevoke c handle s = ({ s with bufs := mput o { ob with grants := ob.grants.filter fun g => g.handle != handle } s.bufs }.killHandle
      (handle % 2 ^ 24)).respond c 0x0B04 .ok 0 [] := by
  have hpf0 : (c.fn != .pf0 && (ob.part != c.fn.part)) = false := by simpa [bne, ← Bool.not_or] using hown
  rw [tcBufRevoke, Chip.call_passes hpass]
  simp [hbuf, hview, howned, hpf0, succeeds]

theorem tcBufQuery_reports {handle : Nat} {b : Buf} (hpass : s.passes c {} []) (hbuf : s.bufOf handle = some b)
    (hown : (c.fn == .pf0 || b.part == c.fn.part) = true) :
    tcBufQuery c handle s = s.respond c 0x0B05 .ok 0 [b.part, b.kind, b.place, b.addr, b.bolts, b2n b.priv, b.grants.length] := by
  rw [tcBufQuery, Chip.call_passes hpass, Chip.withHandle_own hbuf hown]
  rfl

/-- A free, aligned range of HBM outside retired pages takes a buffer at its address (R474). -/
theorem tcBufAllocAt_issues {part addr bolts : Nat} (hpass : s.passes c { expert := true, part := some part } [])
    (hhbm : addr < 0x8000000000) (haligned : addr % 0x1000000000 % 576 = 0) (hfits : addr % 0x1000000000 + 576 * bolts ≤ 0x8F8000000)
    (hretired : 576 * bolts ≠ 0 → s.regionRetired addr (576 * bolts) = false)
    (howned : (s.owned.any fun b => decide (addr < b.addr + 576 * b.bolts) && decide (b.addr < addr + 576 * bolts)) = false)
    (hbusy : ((s.busyStack (stackOf addr)).any fun r => decide (addr % 0x1000000000 < r.2)
      && decide (r.1 < addr % 0x1000000000 + 576 * bolts) && decide (r.1 < r.2)) = false)
    (hroom : s.handleRoom part = true) (b : Buf)
    (hb : b = { gen := 1, live := true, part := part, kind := 0, place := addr / 0x1000000000, addr := addr, bolts := bolts }) :
    tcBufAllocAt c part addr bolts s = (s.issueHandle b).2.respond c 0x8B01 .ok 0 [(s.issueHandle b).1, addr] := by
  have hpages : (576 * bolts != 0 && s.regionRetired addr (576 * bolts)) = false := by
    by_cases hzero : 576 * bolts = 0
    · rw [hzero]; rfl
    · rw [hretired hzero, Bool.and_false]
  rw [tcBufAllocAt, Chip.call_passes hpass]
  dsimp only
  rw [if_pos hhbm]
  simp [haligned, Nat.not_lt.2 hfits, hpages, howned, hbusy, hroom, succeeds, hb]

/-- Settles O20: each call by the lemma above on its effect. -/
theorem bufferCallsComplete : Obligations.BufferCallsComplete := by
  intro s c
  refine ⟨fun part kind place bolts priv h u hpass halloc => exec_of_served hpass.1 rfl (tcBufAlloc_issues hpass halloc),
    fun handle b hpass hbuf hown hbound hkey hmapped => exec_of_served hpass.1 rfl (tcBufFree_releases hpass hbuf hown hbound hkey hmapped),
    fun handle b part first bolts read add hpass hbuf hown hview hbolts hpart hgrants hroom => ?_,
    fun handle v o ob hpass hbuf hview howned hown => exec_of_served hpass.1 rfl (tcBufRevoke_revokes hpass hbuf hview howned hown),
    fun handle b hpass hbuf hown => exec_of_served hpass.1 rfl (tcBufQuery_reports hpass hbuf hown),
    fun part addr bolts hpass hhbm haligned hfits hretired howned hbusy hroom => ⟨_, rfl, rfl, rfl, rfl, rfl, exec_of_served hpass.1 rfl
      (tcBufAllocAt_issues hpass hhbm haligned hfits hretired howned hbusy hroom _ rfl)⟩⟩
  obtain ⟨g, hhandle, hgranted, hshare⟩ := tcBufShare_grants hpass hbuf hown hview hbolts hpart hgrants hroom
  exact ⟨b.shared handle part first bolts read add, g, rfl, rfl, rfl, rfl, rfl, rfl, rfl, hhandle, hgranted, exec_of_served hpass.1 rfl hshare⟩

end Sys2Proof.Machine
end

section
/-! # Quotas, keys, services, receipts and time of the service plane (R450, R454, R459, R463, R464, R467, R474) -/

namespace Sys2Proof.Machine

variable {s : Chip} {c : Call} {part : Nat}

/-! ### Quotas (R450) -/

/-- A quota not below what is in use is stored; a key window whose size stays keeps its place. -/
theorem tcQuotaSet_stores {hbm keyLines lining : List Nat} {control handles maxOpen : Nat}
    (hpass : s.passes c { pf0Only := true, part := some part } [(maxOpen = 0 || 16384 < maxOpen, .bound)])
    (habove : ((List.range 8).any fun i => decide ((hbm[i]?).getD 0 < s.hbmUse part i)
      || decide ((lining[i]?).getD 0 < s.liningUse part i)
      || decide ((keyLines[i]?).getD 0 < ((s.keyBufs part i).map (·.2)).foldl max 0)
      || ((s.part part).keyRanges.any fun r => r.plate == i && decide ((keyLines[i]?).getD 0 < r.offset + r.lines))) = false)
    (hcontrol : s.controlUse part ≤ control) (hhandles : s.handleUse part ≤ handles) (hopen : s.openOf part ≤ maxOpen)
    (hkeys : ∀ i, i < 8 → (keyLines[i]?).getD 0 = mget 0 i (s.part part).quotas.keyLines) :
    ∃ u : Chip, tcQuotaSet c part hbm keyLines lining control handles maxOpen s = (u.settleKeyWin part).respond c 0x0B06 .ok 0 []
      ∧ (u.part part).quotas.control = control ∧ (u.part part).quotas.handles = handles ∧ (u.part part).quotas.maxOpen = maxOpen := by
  have hplaced : (((List.range 8).map fun i =>
      if (keyLines[i]?).getD 0 = mget 0 i (s.part part).quotas.keyLines then some (mget {} i (s.part part).keyWinShadow)
      else s.keyWindow part i ((keyLines[i]?).getD 0)).any (·.isNone)) = false := by
    rw [List.any_map, List.any_eq_false]
    intro i hi
    simp [hkeys i (List.mem_range.1 hi)]
  rw [tcQuotaSet, Chip.call_passes hpass]
  dsimp only
  rw [habove, if_neg (by simp [hcontrol, hhandles, hopen, Nat.not_lt.2]), hplaced, if_neg (by simp)]
  refine ⟨_, rfl, ?_, ?_, ?_⟩ <;> rw [Chip.part_updPart]

/-! ### Keys (R459, R526) -/

theorem Chip.trust_checkContainer (s : Chip) (handle offset : Nat) (owner : Option Nat) :
    (s.checkContainer part handle offset owner).1.trust = s.trust := by
  unfold Chip.checkContainer
  split <;> exact Chip.updCnt_trust ..

/-- While plans and keys need no signature, a checked key container in an HBM buffer is registered. -/
theorem tcKeyRegister_registers {handle bundle : Nat} {b : Buf} {u t : Chip} (hpass : s.passes c { part := some part } [])
    (hbuf : s.bufOf handle = some b) (hown : (c.fn == .pf0 || b.part == part) = true)
    (hcheck : s.checkContainer part handle 0 none = (u, none)) (hkind : b.kind = 0) (hkey : (u.headerAt b 0).isKey = true)
    (hunsigned : u.trust.keySigning = false)
    (hroom : (mfind (u.headerAt b 0).keyId (u.part part).keys).isSome = true ∨ (u.part part).keys.length < 4096)
    (hreg : u.registerKey part (u.headerAt b 0).keyId handle = some t) :
    tcKeyRegister c part handle bundle s = t.respond c 0x0B07 .ok 0 [(u.headerAt b 0).keyId] := by
  have htrust : u.trust = s.trust := by rw [← s.trust_checkContainer (part := part) handle 0 none, hcheck]
  have hplain : tcKeyRegister c part handle bundle s = s.keyRegister c part handle none := by
    unfold tcKeyRegister
    exact if_pos (by rw [← htrust, hunsigned]; rfl)
  have hhandle : s.checkHandle c part 0x0B07 handle = (s, .ok b) := by simp only [Chip.checkHandle, hbuf, hown, if_true]
  have hfull : ((mfind (u.headerAt b 0).keyId (u.part part).keys).isNone && decide (4096 ≤ (u.part part).keys.length)) = false := by
    rcases hroom with hheld | hfew
    · simp [Option.isNone_eq_false_iff.2 hheld]
    · simp [hfew]
  rw [hplain, Chip.keyRegister, Chip.call_passes hpass]
  simp only [hhandle, hcheck]
  simp [hkind, hkey, hunsigned, hfull, hreg, succeeds]

theorem tcKeyEvict_evicts {keyId : Nat} {k : KeyReg} (hpass : s.passes c { part := some part } [])
    (hkey : mfind keyId (s.part part).keys = some k) (hnamed : s.keyNamed part keyId = false) :
    tcKeyEvict c part keyId s = ((k.copies.foldl (fun t x => t.releaseBuf x.2) s).updPart part fun p =>
      { p with keys := mdel keyId p.keys, keyRanges := p.keyRanges.filter fun r => r.keyId != keyId }).respond c 0x0B08 .ok 0 [] := by
  rw [tcKeyEvict, Chip.call_passes hpass]
  simp only [hkey, hnamed, succeeds]
  rfl

theorem tcKeyQuery_reports (hpass : s.passes c { part := some part } []) :
    tcKeyQuery c part s = s.respond c 0x0B09 .ok 0 ((s.part part).keys.flatMap fun k => [k.1, k.2.handle]) := by
  rw [tcKeyQuery, Chip.call_passes hpass]
  rfl

/-! ### Services (R454, R467) -/

theorem tcServiceDefine_defines {service : Nat} {slots : List Nat} {maxOpen kind : Nat} {policy : HandoffPolicy}
    (hpass : s.passes c { part := some part }
      [(decide (256 ≤ service), .bound), (decide (8 < slots.length), .bound), (slots.any (64 ≤ ·), .bound),
        (decide (maxOpen = 0 ∨ 16384 < maxOpen), .badShape), (decide (3 < kind), .notSupported), (!policy.ok, .badShape)])
    (hslots : slots.isEmpty = false) :
    tcServiceDefine c part service slots maxOpen kind policy s = (s.updPart part fun p =>
      { p with services := mput service ⟨slots, maxOpen, kind, policy⟩ p.services }).respond c 0x0B0A .ok 0 [] := by
  rw [tcServiceDefine, Chip.call_passes hpass]
  simp only [hslots]
  rfl

theorem tcServiceRemove_removes {service : Nat} {v : Service} (hpass : s.passes c { part := some part } [(decide (256 ≤ service), .bound)])
    (hservice : mfind service (s.part part).services = some v) :
    tcServiceRemove c part service s
      = (s.updPart part fun p => { p with services := mdel service p.services }).respond c 0x0B0B .ok 0 [] := by
  rw [tcServiceRemove, Chip.call_passes hpass]
  simp only [hservice]
  rfl

theorem tcServiceQuery_reports {service : Nat} {v : Service} (hpass : s.passes c { part := some part } [(decide (256 ≤ service), .bound)])
    (hservice : mfind service (s.part part).services = some v) :
    tcServiceQuery c part service s
      = s.respond c 0x0B0C .ok 0 ([v.maxOpen, v.receiptKind, b2n v.handoff.allowed, v.slots.length] ++ v.slots) := by
  rw [tcServiceQuery, Chip.call_passes hpass]
  simp only [hservice]
  rfl

/-! ### Receipts, time and the queue's hold (R463, R464, R474) -/

theorem tcReceiptGet_reads {request : Nat} {e : Nat × Receipt} (hpass : s.passes c { part := some part } [])
    (hfind : ((s.part part).receipts.reverse.find? fun e => e.2.request == request && e.2.sigKind != 0) = some e) (hready : e.2.ready = true) :
    tcReceiptGet c part request s = s.respond c 0x0B0D .ok 0 ((e.2.body ++ e.2.signatures).map (·.toNat)) := by
  rw [tcReceiptGet, Chip.call_passes hpass]
  simp only [hfind, hready]
  rfl

theorem tcTimeSet_stores {time : Nat} (hpass : s.passes c { pf0Only := true } [(decide (2 ^ 64 ≤ time), .bound)]) :
    tcTimeSet c time s
      = { s with tlr := { s.tlr with timeBase := time, timeSetAt := s.aTick, timeSet := true } }.respond c 0x0B0E .ok 0 [] := by
  rw [tcTimeSet, Chip.call_passes hpass]
  rfl

theorem tcSchedHold_stores {hold : Bool} (hpass : s.passes c { expert := true, part := some part } []) :
    tcSchedHold c part hold s = (s.updPart part fun p => { p with schedHold := hold }).respond c 0x8B02 .ok 0 [] := by
  rw [tcSchedHold, Chip.call_passes hpass]
  rfl

/-- Settles O21: each call by the lemma above on its effect, and its answer leaves all but the caller's mailbox. -/
theorem keyAndServiceCallsComplete : Obligations.KeyAndServiceCallsComplete := by
  intro s c part
  refine ⟨fun hbm keyLines lining control handles maxOpen hpass habove hcontrol hhandles hopen hkeys => ?_,
    fun handle bundle b u t hpass hbuf hown hcheck hkind hkey hunsigned hroom hreg => exec_of_served hpass.1 rfl
      (tcKeyRegister_registers hpass hbuf hown hcheck hkind hkey hunsigned hroom hreg),
    fun keyId k hpass hkey hnamed => exec_of_served hpass.1 rfl (tcKeyEvict_evicts hpass hkey hnamed),
    fun hpass => exec_of_served hpass.1 rfl (tcKeyQuery_reports hpass),
    fun service slots maxOpen kind policy hpass hslots => ⟨_, exec_of_served hpass.1 rfl (tcServiceDefine_defines hpass hslots), ?_⟩,
    fun service v hpass hservice => ⟨exec_of_served hpass.1 rfl (tcServiceRemove_removes hpass hservice),
      exec_of_served hpass.1 rfl (tcServiceQuery_reports hpass hservice)⟩,
    fun request e hpass hfind hready => exec_of_served hpass.1 rfl (tcReceiptGet_reads hpass hfind hready),
    fun time hpass => ⟨_, exec_of_served hpass.1 rfl (tcTimeSet_stores hpass), ?_⟩,
    fun hold hpass => ⟨_, exec_of_served hpass.1 rfl (tcSchedHold_stores hpass), ?_⟩⟩
  case refine_1 =>
    obtain ⟨u, hset, hquotas⟩ := tcQuotaSet_stores hpass habove hcontrol hhandles hopen hkeys
    exact ⟨u, exec_of_served hpass.1 rfl hset, hquotas⟩
  case refine_2 =>
    obtain ⟨m, hm⟩ := Chip.respond_part (s.chip.updPart part fun p =>
      { p with services := mput service ⟨slots, maxOpen, kind, policy⟩ p.services }) c 0x0B0A .ok 0 [] part
    simp [State.put, hm]
  case refine_3 =>
    obtain ⟨m, hm⟩ := Chip.respond_tlr { s.chip with tlr := { s.chip.tlr with timeBase := time, timeSetAt := s.chip.aTick, timeSet := true } }
      c 0x0B0E .ok 0 []
    simp [State.put, hm]
  case refine_4 =>
    obtain ⟨m, hm⟩ := Chip.respond_part (s.chip.updPart part fun p => { p with schedHold := hold }) c 0x8B02 .ok 0 [] part
    simp [State.put, hm]

end Sys2Proof.Machine
end

section
/-! # The KRP calls (R475, R480, R495, R496, R501): ports, clients and sessions -/

namespace Sys2Proof.Machine

variable {s : Chip} {c : Call}

/-- A port as TC_KRP_PORT_SET configures it. -/
def KrpPort.configure (addr4 addr6 udp vlan gap : Nat) (x : KrpPort) : KrpPort :=
  { x with configured := true, addr4 := addr4, addr6 := addr6, udp := udp, vlan := vlan, gap := gap }

/-- A configured port is kept in flash where the call says so. -/
theorem tcKrpPortSet_configures {port addr4 addr6 udp vlan gap : Nat} {persist : Bool} (hpass : s.passes c { pf0Only := true }
      [(decide (1 < port), .bound), (decide (2 ^ 32 ≤ addr4), .bound), (decide (2 ^ 128 ≤ addr6), .bound),
        (decide (65536 ≤ udp), .bound), (decide (4096 ≤ vlan), .bound), (decide (2 ^ 32 ≤ gap), .bound)]) :
    tcKrpPortSet c port addr4 addr6 udp vlan gap persist s = { s with krp := { s.krp with
        ports := mupd {} port (KrpPort.configure addr4 addr6 udp vlan gap) s.krp.ports
        flashPorts := if persist then mput port (KrpPort.configure addr4 addr6 udp vlan gap {}) s.krp.flashPorts
          else s.krp.flashPorts } }.respond c 0x0C01 .ok 0 [] := by
  rw [tcKrpPortSet, Chip.call_passes hpass]
  cases persist <;> rfl

theorem tcKrpClientSet_stores {k : KrpClient} (hpass : s.passes c { pf0Only := true, part := some k.part }
      [(decide (2 ^ 384 ≤ k.keyId), .bound), (decide (k.alg = 0 ∨ 4 < k.alg), .notSupported), (decide (2 ^ 32 ≤ k.owner), .bound),
        (decide (k.maxOpen = 0 ∨ 16384 < k.maxOpen), .bound), (decide (k.sessions = 0 ∨ 8192 < k.sessions), .bound),
        (decide (k.window = 0 ∨ 65536 ≤ k.window), .bound), (decide (2 ^ 32 ≤ k.idle), .bound)])
    (hroom : (s.krp.clients.filter fun x => x.keyId != k.keyId).length < 4096) :
    tcKrpClientSet c k s = { s with krp := { s.krp with
      clients := (s.krp.clients.filter fun (x : KrpClient) => x.keyId != k.keyId) ++ [k]
      flashClients := if k.persist then (s.krp.flashClients.filter fun (x : KrpClient) => x.keyId != k.keyId) ++ [k]
        else s.krp.flashClients } }.respond c 0x0C02 .ok 0 [] := by
  rw [tcKrpClientSet, Chip.call_passes hpass]
  dsimp only
  rw [if_neg (Nat.not_le.2 hroom)]
  rfl

/-- With no session open, removing a client closes none. -/
theorem tcKrpClientRemove_removes {keyId : Nat} (hpass : s.passes c { pf0Only := true } [])
    (hclient : (s.krp.clients.any fun x => x.keyId == keyId) = true) (hsessions : s.krp.sessions = []) :
    tcKrpClientRemove c keyId s = { s with krp := { s.krp with
      clients := s.krp.clients.filter fun x => x.keyId != keyId
      flashClients := s.krp.flashClients.filter fun x => x.keyId != keyId } }.respond c 0x0C03 .ok 0 [] := by
  rw [tcKrpClientRemove, Chip.call_passes hpass]
  simp only [hclient, hsessions, succeeds]
  rfl

theorem tcKrpSessionQuery_reports {part : Nat} (hpass : s.passes c { part := some part } []) :
    tcKrpSessionQuery c part s = s.respond c 0x0C04 .ok 0 ((s.krp.sessions.filter fun x => !x.half && x.part == part).flatMap fun x =>
      x.id :: x.carrier.nums ++ [(s.openOn x.id).length, x.framesIn, x.framesOut]) := by
  rw [tcKrpSessionQuery, Chip.call_passes hpass]
  rfl

theorem tcKrpSessionClose_closes {session : Nat} {x : KrpSession} (hpass : s.passes c {} []) (hsession : s.session? session = some x)
    (hopen : x.half = false) (hown : c.fn.owns x.part = true) :
    tcKrpSessionClose c session s = (s.closeSession session (some 0)).respond c 0x0C05 .ok 0 [] := by
  rw [tcKrpSessionClose, Chip.call_passes hpass]
  simp only [hsession, hopen, hown]
  rfl

/-- Settles O22: each call by the lemma above on its effect; the answer leaves the KRP block as it is. -/
theorem krpCallsComplete : Obligations.KrpCallsComplete := by
  intro s c
  refine ⟨fun port addr4 addr6 udp vlan gap persist hpass => ⟨_, exec_of_served hpass.1 rfl (tcKrpPortSet_configures hpass), ?ports⟩,
    fun k hpass hroom => ⟨_, exec_of_served hpass.1 rfl (tcKrpClientSet_stores hpass hroom), ?client⟩,
    fun keyId hpass hclient hsessions => ⟨_, exec_of_served hpass.1 rfl (tcKrpClientRemove_removes hpass hclient hsessions), ?remove⟩,
    fun part hpass => exec_of_served hpass.1 rfl (tcKrpSessionQuery_reports hpass),
    fun session x hpass hsession hopen hown => exec_of_served hpass.1 rfl (tcKrpSessionClose_closes hpass hsession hopen hown)⟩
  case ports =>
    simp only [State.put, Chip.respond_krp, mget_mupd_self]
    refine ⟨rfl, rfl, rfl, rfl, rfl, rfl, rfl, fun hpersist => ?_, fun hnot => by rw [hnot]; rfl, trivial⟩
    rw [hpersist, if_pos rfl, mget_mput_self]
    rfl
  case client => simp only [State.put, Chip.respond_krp, and_self]
  case remove => simp only [State.put, Chip.respond_krp]

end Sys2Proof.Machine
end

section
/-! # KRP sessions (R478 to R481, R492, R495, R496): a frame is taken, stages open a session, its end removes it -/

namespace Sys2Proof.Machine

variable {s : Chip}

/-! ### A frame that passes its checks (R478) -/

theorem Carrier.same_refl (c : Carrier) : c.same c = true := by cases c <;> simp [Carrier.same]

theorem Chip.session?_id {session : Nat} {x : KrpSession} (h : s.session? session = some x) : x.id = session := by
  simpa using List.find?_some h

theorem Chip.session?_onPort (c : Carrier) (f : KrpPort → KrpPort) (id : Nat) : (s.onPort c f).session? id = s.session? id := by
  cases c <;> rfl

/-- A frame that passes the checks of R478 is handled by its session's handler. -/
theorem Chip.takeFrame_takes {f : KrpFrame} {data half : Bool} {x : KrpSession} (h : s.takesFrame f data half x)
    (handle : Chip → KrpSession → Chip) : s.takeFrame f data half handle = handle (s.frameIn f data x) x := by
  obtain ⟨hup, hsession, hcarrier, hhalf, hstage2, hframes, htag, hseen, hpn, -, htest⟩ := h
  have hcounted : (s.countFrame f).session? f.session = some x := (Chip.session?_onPort _ _ _).trans hsession
  have hkept : (data && (s.countFrame f).testDrops x) = false := by
    cases hdata : data
    · rfl
    · exact htest hdata
  have hbound : (!x.carrier.same f.carrier || x.half != half || !x.stage2 || decide (2 ^ 36 ≤ x.framesIn)) = false := by
    rw [decide_eq_false (Nat.not_le.2 hframes)]
    simp [hcarrier, Carrier.same_refl, hhalf, hstage2]
  have hnew : (x.seen.contains f.pn || decide (f.pn + 1024 < x.pnIn)) = false := by
    rw [hseen, Bool.false_or, decide_eq_false (Nat.not_lt.2 hpn)]
  unfold Chip.takeFrame
  rw [if_neg (by rw [hup]; simp)]
  dsimp only
  rw [hcounted]
  dsimp only
  rw [hkept, if_neg (by simp), hbound, if_neg (by simp), htag, if_neg (by simp), hnew, if_neg (by simp)]
  rfl

/-! ### The end of a session (R481, R495) -/

theorem Chip.session?_dropKrpSession (s : Chip) (id : Nat) : (s.dropKrpSession id).session? id = none := by
  simp [Chip.dropKrpSession, Chip.session?]

theorem Chip.session?_closeSession (s : Chip) (id : Nat) (reason : Option Nat) : (s.closeSession id reason).session? id = none := by
  unfold Chip.closeSession
  split
  next hnone => exact hnone
  next => exact Chip.session?_dropKrpSession _ id

theorem halfOpenExpiry_ends {session : Nat} {x : KrpSession} (hsession : s.session? session = some x) (hhalf : x.half = true) :
    (halfOpenExpiry session s).session? session = none := by
  simp only [halfOpenExpiry, hsession, hhalf, if_true, Chip.session?_dropKrpSession]

theorem sessionIdleTimeout_ends {session : Nat} {x : KrpSession} (hsession : s.session? session = some x) (hopen : x.half = false)
    (hidle : s.openOn session = []) : (sessionIdleTimeout session s).session? session = none := by
  have htimeout : sessionIdleTimeout session s = (s.waitTick (x.lastFrame + x.idle * 65536)).closeSession session (some 1) := by
    simp only [sessionIdleTimeout, hsession, hopen, hidle, List.isEmpty_nil, Bool.not_true, Bool.or_self, Bool.false_eq_true, if_false]
  rw [htimeout, Chip.session?_closeSession]

theorem krpSessionRekey_ends {session : Nat} {x : KrpSession} (hsession : s.session? session = some x)
    (hframes : 2 ^ 36 ≤ x.framesIn ∨ 2 ^ 36 ≤ x.framesOut) : (krpSessionRekey session s).session? session = none := by
  have hspent : (decide (x.framesIn < 2 ^ 36) && decide (x.framesOut < 2 ^ 36)) = false := by
    rw [← Bool.decide_and]
    exact decide_eq_false (by omega)
  simp only [krpSessionRekey, hsession, hspent, Bool.false_eq_true, if_false, Chip.session?_closeSession]

theorem krpReceive_close_ends {f : KrpFrame} {x : KrpSession} (h : s.takesFrame f false false x) :
    (krpReceive f .close s).session? f.session = none := by
  obtain ⟨-, hsession, -, -, -, -, -, -, -, hzero, -⟩ := id h
  simp only [krpReceive, KrpMsg.isData, Chip.takeFrame_takes h, hzero, Chip.krpBody, Bool.not_true, Bool.false_eq_true, if_false,
    Chip.session?_id hsession, Chip.session?_closeSession]

/-! ### OPEN stages (R479, R480) -/

/-- A piece of a stage is kept, and the stage is taken with the last one. -/
theorem Chip.takePiece_fits {c : Carrier} {session piece count : Nat} {body : List Byte} {u : Chip} {whole : Option (List Byte)}
    {bad : Chip → Chip} {take : Chip → List Byte → Chip} (hfits : pieceFits session piece count body = true)
    (hgather : s.gather c session piece count body = (u, whole)) :
    s.takePiece c session piece count body bad take = whole.elim u (take u) := by
  unfold Chip.takePiece
  rw [hfits, if_neg (by simp), hgather]
  cases whole <;> rfl

theorem krpReceive_open1_keeps {f : KrpFrame} {piece count : Nat} {body : List Byte} {u : Chip} {whole : Option (List Byte)}
    (hup : s.carrierUp f.carrier = true) (hboot : s.booted = true) (hzero : f.reservedZero = true) (hnew : f.session = 0)
    (hfits : pieceFits 0 piece count body = true) (hgather : (s.countFrame f).gather f.carrier 0 piece count body = (u, whole)) :
    krpReceive f (.open1 piece count body) s = whole.elim u (u.takeStage1 f.carrier) := by
  refine Eq.trans ?_ (Chip.takePiece_fits (bad := fun t => t.nackOpen f.carrier .notSupported 3 0)
    (take := fun t b => t.takeStage1 f.carrier b) hfits hgather)
  simp only [krpReceive, Chip.openStage1, hup, hboot, hzero, hnew, Bool.not_true, Bool.or_self, bne_self_eq_false, Bool.false_eq_true,
    if_false]

theorem krpReceive_open3_keeps {f : KrpFrame} {x : KrpSession} {piece count : Nat} {body : List Byte} {u : Chip}
    {whole : Option (List Byte)} (h : s.takesFrame f false true x) (hstage3 : x.stage3 = false) (hfits : pieceFits x.id piece count body = true)
    (hgather : (s.frameIn f false x).gather f.carrier x.id piece count body = (u, whole)) :
    krpReceive f (.open3 piece count body) s = whole.elim u (u.takeStage3 x) := by
  obtain ⟨-, hsession, -, hhalf, -, -, -, -, -, hzero, -⟩ := id h
  refine Eq.trans ?_ (Chip.takePiece_fits (bad := fun t => (t.nackFrame x.id x.id .notSupported).dropKrpSession x.id)
    (take := fun t b => t.takeStage3 x b) hfits hgather)
  have hwaits : ((s.session? f.session).any fun x => !x.half) = false := by simp [hsession, hhalf]
  simp only [krpReceive, Chip.openStage3, hwaits, Chip.takeFrame_takes h, hstage3, hzero, Bool.not_true, Bool.false_eq_true, if_false]

/-- The pieces of a stage are discarded together. -/
theorem openPieceTimeout_discards (c : Carrier) (session : Nat) (s : Chip) :
    ∀ p ∈ (openPieceTimeout c session s).krp.pieces, ¬(p.carrier = c ∧ p.session = session) := by
  rintro p hp ⟨rfl, rfl⟩
  have hmine : (p.carrier.same p.carrier && p.session == p.session) = true := by simp [Carrier.same_refl]
  unfold openPieceTimeout at hp
  dsimp only at hp
  split at hp
  next hnone => exact absurd hmine (List.find?_eq_none.1 hnone p hp)
  next => simp [Carrier.same_refl] at hp

/-- Settles O36: the frames by `Chip.takeFrame_takes` and `Chip.takePiece_fits`, the ends of a session by `Chip.session?_closeSession`. -/
theorem sessionCommandsComplete : Obligations.SessionCommandsComplete := by
  intro s f
  exact ⟨fun piece count body u whole hshown hup hboot hzero hnew hfits hgather => (State.on_shown hshown _).trans
      (by rw [krpReceive_open1_keeps hup hboot hzero hnew hfits hgather]; cases whole <;> rfl),
    fun x piece count body u whole hshown htakes hstage3 hfits hgather => (State.on_shown hshown _).trans
      (by rw [krpReceive_open3_keeps htakes hstage3 hfits hgather]; cases whole <;> rfl),
    fun x hshown htakes => ⟨_, State.on_shown hshown _, krpReceive_close_ends htakes⟩,
    fun session x hshown hsession hhalf => ⟨_, State.on_shown hshown _, halfOpenExpiry_ends hsession hhalf⟩,
    fun session x hshown hsession hopen hidle => ⟨_, State.on_shown hshown _, sessionIdleTimeout_ends hsession hopen hidle⟩,
    fun session x hshown hsession hframes => ⟨_, State.on_shown hshown _, krpSessionRekey_ends hsession hframes⟩,
    fun c session hshown => ⟨_, State.on_shown hshown _, openPieceTimeout_discards c session s.chip⟩⟩

end Sys2Proof.Machine
end

section
/-! # A good stage 1 of KRP (R479, R481, R492) -/

namespace Sys2Proof.Machine

variable {s : Chip}

/-! ### What stage 1 asks of the Seal -/

/-- A Seal DRBG that is instantiated serves one request while the TRNG works (R509, R510); of the KRP block and the Seal only the DRBG moves. -/
theorem Chip.sealDraw_ready (hready : s.trust.drbg.ready = true) (htrng : s.trust.trng ≠ 0) :
    ∃ k t, s.sealDraw = some (k, t) ∧ t.krp = s.krp
      ∧ t.trust = { s.trust with drbg := s.trust.drbg.draw 4096 (DrbgKey.instantiate s.seeds) } := by
  have hserves : (!s.trust.drbg.ready || (s.trust.drbg.spent 4096 && s.trust.trng == 0)) = false := by
    rw [hready, beq_false_of_ne htrng, Bool.and_false]
    rfl
  unfold Chip.sealDraw
  dsimp only
  rw [hserves, if_neg (by simp)]
  exact ⟨_, _, rfl, rfl, rfl⟩

theorem Chip.signLength_eq (s : Chip) (kind : Nat) : ∃ n t, s.signLength kind = (n, t) ∧ t.krp = s.krp ∧ t.trust = s.trust :=
  ⟨_, _, rfl, rfl, rfl⟩

/-- The choice of the next job changes which jobs run and wait, nothing else. -/
theorem Seal.next_eq (time : Nat) (x : Seal) : ∃ r h l, x.next time = { x with running := r, high := h, low := l } := by
  unfold Seal.next
  split
  · exact ⟨_, _, _, rfl⟩
  · split
    · exact ⟨_, _, _, rfl⟩
    · split <;> exact ⟨_, _, _, rfl⟩

theorem Seal.nextJob_next (time : Nat) (x : Seal) : (x.next time).nextJob = x.nextJob := by
  obtain ⟨r, h, l, heq⟩ := x.next_eq time
  rw [heq]

/-- A HIGH job joins a queue with room under the next job number (R504). -/
theorem Chip.sealSubmit_high (hroom : s.trust.high.length < 256) (use : SealUse) (length : Nat) :
    s.sealSubmit use true length = ({ s with trust := Seal.next s.time { s.trust with
      nextJob := s.trust.nextJob + 1
      high := s.trust.high ++ [{ id := s.trust.nextJob, use := use, high := true, length := length }] } }, true) := by
  have hnotFull : (true && decide (256 ≤ s.trust.high.length) || !true && decide (1024 ≤ s.trust.low.length)) = false := by
    simp [Nat.not_le.2 hroom]
  unfold Chip.sealSubmit
  dsimp only
  rw [hnotFull, if_neg (by simp), if_pos rfl]

theorem Chip.algorithm_of_none_failed (h : s.trust.katFailed = []) (n : Nat) : s.algorithm n = true := by
  simp [Chip.algorithm, h]

/-- Settles O37: no refusal of stage 1 applies, the DRBG serves (`Chip.sealDraw_ready`) and the Seal's queue has room (`Chip.sealSubmit_high`);
the session takes the next sequential number (log entry 54). -/
theorem stageOneOpensAHalfSession : Obligations.StageOneOpensAHalfSession := by
  intro s c body hlength hversion hkindLow hkindHigh hzero hlog hholdoff hsessions hhalf hkat hidentity hready htrng hroom
  have hfields : (leAt body 0 1 != 1 || decide (leAt body 2 1 = 0) || decide (3 < leAt body 2 1) || !zeroAt body 3 5) = false := by
    simp [hversion, hzero, Nat.ne_of_gt hkindLow, hkindHigh]
  have hfree : (s.krp.holdoff.find? fun h => h.1 == c && decide (s.aTick < h.2)) = none := by
    refine List.find?_eq_none.2 fun h hh => ?_
    by_cases hc : h.1 = c
    · simp [hc, hholdoff h hh hc]
    · simp [hc]
  have hlimits : (decide (8192 ≤ (s.krp.sessions.filter fun x => !x.half).length) ||
      decide (512 ≤ (s.krp.sessions.filter fun x => x.half).length)) = false := by
    rw [decide_eq_false (Nat.not_le.2 hsessions), decide_eq_false (Nat.not_le.2 hhalf)]
    rfl
  have halgorithms : (!(s.algorithm 8 && s.algorithm 9 && s.algorithm 11 && s.canSign (leAt body 2 1))) = false := by
    simp [Chip.canSign, Chip.algorithm_of_none_failed hkat]
  obtain ⟨k, t, hdraw, htkrp, httrust⟩ := Chip.sealDraw_ready hready htrng
  obtain ⟨n, u, hsign, hukrp, hutrust⟩ := t.signLength_eq (leAt body 2 1)
  unfold Chip.takeStage1
  rw [if_neg (by simp [hlength])]
  dsimp only
  rw [hfields, if_neg (by simp), if_neg (Nat.not_lt.2 hlog), hfree]
  dsimp only
  rw [hlimits, if_neg (by simp), if_neg (by simp [hidentity]), halgorithms, if_neg (by simp), hdraw]
  dsimp only
  rw [hsign]
  dsimp only
  rw [Chip.sealSubmit_high (by rw [hutrust, httrust]; exact hroom)]
  dsimp only
  rw [if_pos rfl, Seal.nextJob_next]
  exact ⟨_, by rw [hukrp, htkrp], rfl, rfl, rfl, rfl, rfl, rfl, by rw [htkrp], by rw [hutrust, httrust]⟩

end Sys2Proof.Machine
end

section
/-! # KRP transfers and timers (R482 to R485, R488, R490, R491): announcements, chunks, gap reports, downloads -/

namespace Sys2Proof.Machine

variable {s : Chip}

/-! ### What a message of the device leaves alone (R477) -/

theorem Chip.frameOut_requests (s : Chip) (c : Carrier) (len : Nat) :
    (s.frameOut c len).requests = s.requests ∧ (s.frameOut c len).nextReq = s.nextReq := by
  cases c with
  | net p a u => exact ⟨rfl, rfl⟩
  | host p pf0 n =>
    unfold Chip.frameOut
    dsimp only
    split
    · unfold Chip.complete
      dsimp only
      split
      · exact ⟨rfl, rfl⟩
      · split <;> exact ⟨rfl, rfl⟩
    · exact ⟨rfl, rfl⟩

theorem Chip.frameOut_sessions (s : Chip) (c : Carrier) (len : Nat) : (s.frameOut c len).krp.sessions = s.krp.sessions := by
  cases c with
  | net p a u => rfl
  | host p pf0 n =>
    unfold Chip.frameOut
    dsimp only
    split
    · unfold Chip.complete
      dsimp only
      split
      · rfl
      · split <;> rfl
    · rfl

theorem Chip.krpSend_requests (s : Chip) (id : Nat) (m : KrpSent) (len : Nat) :
    (s.krpSend id m len).requests = s.requests ∧ (s.krpSend id m len).nextReq = s.nextReq := by
  unfold Chip.krpSend
  split
  · exact ⟨rfl, rfl⟩
  · exact Chip.frameOut_requests ..

/-- A session reads as its change makes it, which keeps its number. -/
theorem Chip.session?_updSession {session : Nat} {y : KrpSession} {f : KrpSession → KrpSession} (h : s.session? session = some y)
    (hid : ∀ x, (f x).id = x.id) : (s.updSession session f).session? session = some (f y) := by
  have hsame : (fun x : KrpSession => (if x.id == session then f x else x).id == session) = fun x => x.id == session := by
    funext x
    split <;> simp [hid]
  have hfind : (s.krp.sessions.map fun x : KrpSession => if x.id == session then f x else x).find? (fun x => x.id == session)
      = (s.krp.sessions.find? fun x => x.id == session).map fun x => if x.id == session then f x else x := by
    rw [List.find?_map]
    exact congrArg (fun p => (s.krp.sessions.find? p).map _) hsame
  refine hfind.trans ?_
  rw [show s.krp.sessions.find? (fun x => x.id == session) = some y from h, Option.map_some, Chip.session?_id h, beq_self_eq_true, if_pos rfl]

/-- A message of the device joins what its session has sent. -/
theorem Chip.session?_krpSend {session : Nat} {y : KrpSession} (h : s.session? session = some y) (m : KrpSent) (len : Nat) :
    (s.krpSend session m len).session? session
      = some { y with sent := y.sent ++ [m], pnOut := y.pnOut + 1, framesOut := y.framesOut + 1 } := by
  unfold Chip.krpSend
  rw [h]
  dsimp only
  rw [Chip.session?, Chip.frameOut_sessions]
  exact Chip.session?_updSession h fun x => rfl

/-! ### What taking a frame leaves alone (R478): all but the KRP block -/

theorem Chip.frameIn_eq (s : Chip) (f : KrpFrame) (data : Bool) (x : KrpSession) : ∃ k, s.frameIn f data x = { s with krp := k } := by
  have hport : ∀ (t : Chip) (c : Carrier) (g : KrpPort → KrpPort), ∃ k, t.onPort c g = { t with krp := k } := fun t c g => by
    cases c <;> exact ⟨_, rfl⟩
  obtain ⟨k, hk⟩ := hport s f.carrier fun p => { p with rx := p.rx + 1 }
  unfold Chip.frameIn Chip.countFrame
  rw [hk]
  unfold Chip.countData
  split <;> exact ⟨_, rfl⟩

/-- A message on an open session has its effect. -/
theorem krpReceive_takes {f : KrpFrame} {data : Bool} {m : KrpMsg} {x : KrpSession} (h : s.takesFrame f data false x)
    (hmsg : krpReceive f m s = s.takeFrame f data false fun t y =>
      if !f.reservedZero then t.nackFrame y.id m.id .notSupported else t.krpBody y m) :
    krpReceive f m s = (s.frameIn f data x).krpBody x m := by
  obtain ⟨-, -, -, -, -, -, -, -, -, hzero, -⟩ := id h
  rw [hmsg, Chip.takeFrame_takes h]
  simp only [hzero, Bool.not_true, Bool.false_eq_true, if_false]

/-! ### Announcements (R482, R483, R490) -/

theorem Chip.krpKeys_starts {x : KrpSession} {id bytes h : Nat} {header : List Byte} {u : Chip}
    (hnew : x.repeats 2 id (natLE 8 id ++ natLE 8 bytes ++ header) = none) (hbytes : bytes ≠ 0) (hserving : s.serving = true)
    (hreset : (s.part x.part).resetting = false) (halloc : s.allocBuf x.part 0 255 (cdiv bytes 576) false = .ok (h, u)) :
    s.krpKeys x id bytes header = (u.announce x.id 2 id (natLE 8 id ++ natLE 8 bytes ++ header)).addTransfer x.id
      { id := id, kind := .key, bytes := bytes, header := header, handle := h } := by
  unfold Chip.krpKeys
  simp only [hnew, if_neg hbytes, hserving, hreset, halloc, Bool.not_true, Bool.or_self, Bool.false_eq_true, if_false]

theorem Chip.krpHandoffIn_starts {x : KrpSession} {id round bytes h : Nat} {header : List Byte} {q : Request} {u : Chip}
    (hround : s.roundOf x.id id = some q) (hq : q.round = round) (htimer : ∀ d, q.timer = some d → s.aTick < d) (hbytes : bytes ≠ 0)
    (hnew : ∀ r ∈ x.transfers, ¬(r.id = id ∧ r.kind = .handoff))
    (halloc : s.allocBuf q.part 0 255 (cdiv bytes 576) false = .ok (h, u)) :
    s.krpHandoffIn x id round bytes header = u.addTransfer x.id
      { id := id, kind := .handoff, bytes := bytes, header := header, handle := h } := by
  have hlate : (q.round != round || q.timer.any fun d => decide (d ≤ s.aTick)) = false := by
    cases ht : q.timer with
    | none => simp [hq]
    | some d => simp [hq, htimer d ht]
  have hnone : (x.transfers.find? fun t => t.id == id && t.kind == .handoff) = none :=
    List.find?_eq_none.2 fun r hr => by simpa using hnew r hr
  unfold Chip.krpHandoffIn
  simp only [hround, hlate, if_neg hbytes, hnone, halloc, Bool.false_eq_true, if_false]

/-! ### SUBMIT (R483, R488) -/

theorem Chip.addTransfers_requests (session : Nat) {α : Type} (f : α → Transfer) (l : List α) (s : Chip) :
    (l.foldl (fun (t : Chip) e => t.addTransfer session (f e)) s).requests = s.requests
      ∧ (l.foldl (fun (t : Chip) e => t.addTransfer session (f e)) s).nextReq = s.nextReq := by
  induction l generalizing s with
  | nil => exact ⟨rfl, rfl⟩
  | cons e rest ih => exact ih _

/-- A SUBMIT that is admitted leaves the requests as its admission made them. -/
theorem Chip.krpSubmit_admits {x : KrpSession} {id service rid : Nat} {inputs : List (Nat × List Byte)} {u : Chip}
    (hnew : x.repeats 3 id (natLE 8 id ++ natLE 1 service ++ inputs.flatMap fun i => natLE 8 i.1 ++ i.2) = none)
    (hrefusals : ∀ r ∈ x.refusals, r.1 = id → r.2.1 ≤ s.aTick) (hcount : inputs.length ≤ 16) (hsizes : ∀ i ∈ inputs, i.1 ≠ 0)
    (hopen : (s.openOn x.id).length < x.maxOpen) (hadmit : s.admitRequest (krpAdmission x id service inputs) = (u, .ok rid)) :
    (s.krpSubmit x id service inputs).requests = u.requests ∧ (s.krpSubmit x id service inputs).nextReq = u.nextReq := by
  obtain ⟨hserving, hreset, -⟩ := admissionNeedsAServingPartition s u _ rid hadmit
  have hreset : (s.part x.part).resetting = false := hreset
  have hfree : (x.refusals.find? fun r => r.1 == id && decide (s.aTick < r.2.1)) = none := by
    refine List.find?_eq_none.2 fun r hr => ?_
    by_cases hid : r.1 = id
    · simp [hid, hrefusals r hr hid]
    · simp [hid]
  have hshape : (decide (16 < inputs.length) || inputs.any fun i => decide (i.1 = 0)) = false := by
    simpa [Nat.not_lt.2 hcount] using hsizes
  unfold Chip.krpSubmit
  simp only [hnew, hfree, hserving, hreset, hshape, hadmit, Bool.not_true, Bool.or_self, Bool.false_eq_true, if_false]
  rw [if_neg]
  case hnc => exact Nat.not_le.2 hopen
  obtain ⟨hsent, hsentNext⟩ := Chip.krpSend_requests (((inputs.zip _).zipIdx).foldl (fun (t : Chip) (e : ((Nat × List Byte) × Nat) × Nat) =>
    t.addTransfer x.id { id := id, kind := .input e.2, bytes := e.1.1.1, header := e.1.1.2, handle := e.1.2 })
    (u.announce x.id 3 id (natLE 8 id ++ natLE 1 service ++ inputs.flatMap fun i => natLE 8 i.1 ++ i.2))) x.id
    { type := 3, id := id, status := .ok } (24 + 16 + 16)
  obtain ⟨hadded, haddedNext⟩ := Chip.addTransfers_requests x.id (fun e : ((Nat × List Byte) × Nat) × Nat =>
    { id := id, kind := .input e.2, bytes := e.1.1.1, header := e.1.1.2, handle := e.1.2 }) (inputs.zip _).zipIdx
    (u.announce x.id 3 id (natLE 8 id ++ natLE 1 service ++ inputs.flatMap fun i => natLE 8 i.1 ++ i.2))
  exact ⟨hsent.trans hadded, hsentNext.trans haddedNext⟩

/-! ### Chunks of an upload (R482) -/

/-- A chunk that does not complete its transfer lands its bytes at its place. -/
theorem Chip.krpChunk_lands {x : KrpSession} {id kind index seq : Nat} {data : List Byte} {k : TransferKind} {r : Transfer} {b : Buf}
    (hkind : chunkKind kind index = some k) (hfind : (x.transfers.find? fun r => r.id == id && r.kind == k) = some r) (hdata : data ≠ [])
    (hseq : seq < x.chunks r.bytes) (hsize : data.length = x.chunkSize r.bytes seq) (hwindow : seq < r.reported + x.window)
    (hnew : seq ∉ r.got) (hbuf : s.bufOf r.handle = some b)
    (hmore : (r.landed s.aTick (x.chunks r.bytes) seq).got.length ≠ x.chunks r.bytes) :
    (s.krpChunk x id kind index seq data).mem = memWriteN s.mem (b.addr + seq * 2 ^ x.chunkLog2) data := by
  have hshape : (data.isEmpty || decide (x.chunks r.bytes ≤ seq) || data.length != x.chunkSize r.bytes seq) = false := by
    simp [hdata, hsize, Nat.not_le.2 hseq]
  have hheld : r.got.contains seq = false := by simpa using hnew
  unfold Chip.krpChunk
  simp only [hkind, hfind, hshape, if_neg (Nat.not_le.2 hwindow), hheld, hbuf, Bool.false_eq_true, if_false]
  split <;>
  · rw [if_neg]
    case hnc => exact hmore
    rfl

/-! ### Requests of a client for chunks and receipts (R485) -/

theorem Chip.krpMissing_lists {x : KrpSession} {id stream index : Nat} {ranges : List (Nat × Nat)} {d : Download}
    (hstream : stream = 3 ∨ stream = 4) (hranges : ranges.length ≤ 64)
    (hfind : (x.downloads.find? fun d => d.requestId == id && d.index == index && d.handoff == (stream == 4)) = some d) :
    s.krpMissing x id stream index ranges = s.updSession x.id fun y => { y with
      downloads := y.downloads.map fun z => if z.requestId == id && z.index == index && z.handoff == (stream == 4)
        then { z with again := z.again ++ listed ranges (d.chunks x) } else z } := by
  have hknown : (decide (stream < 3) || decide (4 < stream)) = false := by
    rcases hstream with rfl | rfl <;> rfl
  unfold Chip.krpMissing
  simp only [hknown, if_neg (Nat.not_lt.2 hranges), hfind, Bool.false_eq_true, if_false]

theorem Chip.krpResend_sends {x : KrpSession} {id : Nat} {e : Nat × Receipt}
    (hfind : ((s.part x.part).receipts.find? fun e => e.2.request == id && e.2.session == some x.id && e.2.ready) = some e)
    (hdone : ∀ q ∈ s.requests, q.id ≠ e.1) : s.krpResend x id = s.receiptOut x.part e.1 x.id id e.2.status := by
  have hclosed : (s.requests.any fun q => q.id == e.1) = false := List.any_eq_false.2 fun q hq => by simpa using hdone q hq
  unfold Chip.krpResend
  simp only [hfind, hclosed, Bool.false_eq_true, if_false]

/-- Settles O38: the frame is taken (`krpReceive_takes`), which leaves all but the KRP block (`Chip.frameIn_eq`), and each message acts by the
lemma above. -/
theorem transferCommandsComplete : Obligations.TransferCommandsComplete := by
  intro s f x v hshown
  refine ⟨fun id bytes h header u htakes hv hnew hbytes hserving hreset halloc => (State.on_shown hshown _).trans ?keys,
    fun id service rid inputs u htakes hv hnew hrefusals hcount hsizes hopen hadmit => ⟨_, State.on_shown hshown _, ?submit⟩,
    fun id kind index seq data k r b htakes hv hkind hfind hdata hseq hsize hwindow hgot hbuf hmore => ⟨_, State.on_shown hshown _, ?chunk⟩,
    fun id round bytes h header q u htakes hv hround hq htimer hbytes hnew halloc => (State.on_shown hshown _).trans ?handoff,
    fun id stream index ranges d htakes hv hstream hranges hfind => (State.on_shown hshown _).trans ?missing,
    fun id e htakes hv hfind hdone => (State.on_shown hshown _).trans ?resend⟩
  all_goals subst hv
  case keys =>
    obtain ⟨k, hk⟩ := s.chip.frameIn_eq f false x
    rw [krpReceive_takes htakes rfl, Chip.krpBody, Chip.krpKeys_starts hnew hbytes (by rw [hk]; exact hserving) (by rw [hk]; exact hreset) halloc]
  case submit =>
    obtain ⟨k, hk⟩ := s.chip.frameIn_eq f false x
    rw [krpReceive_takes htakes rfl]
    exact Chip.krpSubmit_admits hnew (by rw [hk]; exact hrefusals) hcount hsizes hopen hadmit
  case chunk =>
    obtain ⟨k, hk⟩ := s.chip.frameIn_eq f true x
    rw [krpReceive_takes htakes rfl]
    refine (Chip.krpChunk_lands hkind hfind hdata hseq hsize hwindow hgot (by rw [hk]; exact hbuf) (by rw [hk]; exact hmore)).trans ?_
    rw [hk]
  case handoff =>
    obtain ⟨k, hk⟩ := s.chip.frameIn_eq f false x
    rw [krpReceive_takes htakes rfl, Chip.krpBody, Chip.krpHandoffIn_starts hround hq (by rw [hk]; exact htimer) hbytes hnew halloc]
  case missing => rw [krpReceive_takes htakes rfl, Chip.krpBody, Chip.krpMissing_lists hstream hranges hfind]
  case resend =>
    obtain ⟨k, hk⟩ := s.chip.frameIn_eq f false x
    rw [krpReceive_takes htakes rfl, Chip.krpBody, Chip.krpResend_sends (by rw [hk]; exact hfind) (by rw [hk]; exact hdone)]

end Sys2Proof.Machine
end

section
/-! # KRP sends and timers (R334, R464, R475, R484, R485, R491, R500) -/

namespace Sys2Proof.Machine

variable {s : Chip}

/-- A command at an interface that the package presents has its effect. -/
theorem exec_of_presents {s : State} {c : Instr} {effect : Chip → Chip} {u : Chip} (hshown : s.chip.presents = true)
    (hexec : exec c s = s.on fun t => t.shown effect) (heffect : effect s.chip = u) : exec c s = .next (s.put u) := by
  rw [hexec, State.on_shown hshown, heffect]

/-- A chunk of a result that more follow is sent at the session's pace. -/
theorem resultChunkSend_sends {session seq : Nat} {x y : KrpSession} {d : Download} {again : Bool} {v : Chip}
    (hsession : s.session? session = some x)
    (hnext : (x.downloads.findSome? fun d => (d.nextSeq x).map fun k => (d, k)) = some (d, seq, again))
    (hresult : d.handoff = false) (hmore : ((d.sent again).nextSeq x).isSome = true)
    (hv : v = if s.time < x.sendAt then s.advance (x.sendAt - s.time) else s) (hy : v.session? session = some y) :
    ∃ z, (resultChunkSend session s).session? session = some z ∧ z.framesOut = y.framesOut + 1
      ∧ z.sent = y.sent ++ [{ type := 5, id := d.requestId, status := .ok, index := d.index, seq := seq }] := by
  have hdone : ((d.sent again).nextSeq x).isNone = false := by simpa [Option.isNone_eq_false_iff] using hmore
  have hsent := Chip.session?_krpSend hy { type := 5, id := d.requestId, status := .ok, index := d.index, seq := seq }
    (24 + 32 + x.chunkSize d.bytes seq + 16)
  unfold resultChunkSend
  simp only [hsession, hnext, ← hv, hresult, hdone, Bool.false_eq_true, if_false]
  cases again
  · exact ⟨_, Chip.session?_updSession hsent fun x => rfl, rfl, rfl⟩
  · exact ⟨_, Chip.session?_updSession hsent fun x => rfl, rfl, rfl⟩

/-- A gap report of a transfer that has drawn fewer than eight is sent when it is due (R484). -/
theorem krpGapTimer_reports {session id kind index : Nat} {x y : KrpSession} {k : TransferKind} {r : Transfer} {v : Chip}
    (hsession : s.session? session = some x) (hkind : chunkKind kind index = some k)
    (hfind : (x.transfers.find? fun r => r.id == id && r.kind == k) = some r) (hnacks : r.nacks < 8)
    (hv : v = s.waitTick (r.due (s.gapTicks x.carrier))) (hy : v.session? session = some y) :
    ∃ z, (krpGapTimer session id kind index s).session? session = some z ∧ z.framesOut = y.framesOut + 1
      ∧ z.sent = y.sent ++ [⟨0x0A, id, .ok, 2, index, kind, 0, missingRanges r.got (x.chunks r.bytes)⟩] := by
  unfold krpGapTimer
  simp only [hsession, hkind, hfind, ← hv, if_neg (Nat.not_le.2 hnacks)]
  refine ⟨_, Chip.session?_krpSend (Chip.session?_updSession hy ?keepsId) _ _, rfl, rfl⟩
  case keepsId => exact fun x => rfl

theorem handoffTimeout_fails {request deadline : Nat} {q : Request}
    (hfind : (s.requests.find? fun q => q.id == request && q.phase == .handoff) = some q) (htimer : q.timer = some deadline) :
    handoffTimeout request s = (s.waitTick deadline).failRound request := by
  simp only [handoffTimeout, hfind, Option.bind_some, htimer]

theorem receiptExpiry_drops {p : BitVec 6} {id : Nat} {r : Receipt} (hfind : mfind id (s.part p.toNat).receipts = some r) :
    receiptExpiry p id s = (s.waitTick (r.doneAt + 2 ^ 26)).dropReceipt p.toNat id := by
  simp only [receiptExpiry, hfind]

/-- A gate that its token has not opened by its timeout expires, with every other gate of the slot on that token (R334). -/
theorem tokenGateTimeout_expires {p slot : BitVec 6} {g : Gate} {v : Chip}
    (hfind : ((s.part p.toNat).gates.find? fun g => g.slot == slot.toNat && !g.expired) = some g)
    (hv : v = s.waitTick (g.armedAt + g.timeout)) (hshut : (v.part p.toNat).gateOpen g = false) :
    ∀ h ∈ ((tokenGateTimeout p slot s).part p.toNat).gates, h.slot = g.slot → h.token = g.token → h.expired = true := by
  have hexpire : tokenGateTimeout p slot s = v.updPart p.toNat fun q => { q with gates := q.gates.map fun (x : Gate) =>
      if x.slot == g.slot && x.token == g.token then { x with expired := true } else x } := by
    simp only [tokenGateTimeout, hfind, ← hv, hshut, Bool.false_eq_true, if_false]
  rw [hexpire, Chip.part_updPart]
  intro h hh hslot htoken
  obtain ⟨x, -, rfl⟩ := List.mem_map.1 hh
  by_cases hmine : (x.slot == g.slot && x.token == g.token) = true
  · rw [if_pos hmine]
  · rw [if_neg hmine] at hslot htoken
    simp [hslot, htoken] at hmine

/-! ### Ethernet (R475, R500) -/

theorem netHousekeepingFrame_answers {port : BitVec 1} {kind : HouseFrame} (hup : s.carrierUp (.net port.toNat 0 0) = true)
    (hkind : kind ≠ .fragment) (hconfigured : (mget {} port.toNat s.krp.ports).configured = true) :
    netHousekeepingFrame port kind s = s.updKrpPort port.toNat fun x => { x with answers := x.answers + 1 } := by
  simp only [netHousekeepingFrame, hup, if_neg hkind, hconfigured, Bool.not_true, Bool.false_eq_true, if_false, if_true]

theorem netHousekeepingFrame_drops {port : BitVec 1} (hup : s.carrierUp (.net port.toNat 0 0) = true) :
    netHousekeepingFrame port .fragment s = s.updKrpPort port.toNat fun x => { x with frag := (x.frag + 1) % 2 ^ 8 } := by
  simp only [netHousekeepingFrame, hup, Bool.not_true, Bool.false_eq_true, if_false, if_true]

/-- Settles O39: each timer by the lemma above on what it does when its time has come. -/
theorem krpTimerCommandsComplete : Obligations.KrpTimerCommandsComplete := by
  intro s hlive
  have hshown : s.chip.boot.mute = false → s.chip.presents = true := fun hmute => by simp [Chip.presents, hlive, hmute]
  refine ⟨fun session seq x y d again v hmute hsession hnext hresult hmore hv hy => ?result,
    fun session id kind index x y k r v hmute hsession hkind hfind hnacks hv hy => ?gap,
    fun request deadline q hmute hfind htimer =>
      exec_of_presents (hshown hmute) rfl (handoffTimeout_fails hfind htimer),
    fun port hmute hup => ⟨fun kind hkind hconfigured => ?answer, ?drop⟩,
    fun p id r hfind => exec_of_effect hlive rfl (receiptExpiry_drops hfind),
    fun p slot g v hfind hv hshut => ⟨_, exec_of_effect hlive rfl rfl, tokenGateTimeout_expires hfind hv hshut⟩,
    fun port up => ⟨_, exec_of_effect hlive rfl rfl, ?link, rfl, rfl⟩⟩
  case result =>
    obtain ⟨z, hz⟩ := resultChunkSend_sends hsession hnext hresult hmore hv hy
    exact ⟨_, z, State.on_shown (hshown hmute) _, hz⟩
  case gap =>
    obtain ⟨z, hz⟩ := krpGapTimer_reports hsession hkind hfind hnacks hv hy
    exact ⟨_, z, State.on_shown (hshown hmute) _, hz⟩
  case link => exact congrArg KrpPort.link (mget_mupd_self {} port.toNat (fun x => { x with link := up }) s.chip.krp.ports)
  case answer =>
    refine ⟨_, exec_of_presents (hshown hmute) rfl (netHousekeepingFrame_answers hup hkind hconfigured), ?_, rfl⟩
    exact congrArg KrpPort.answers (mget_mupd_self {} port.toNat (fun x => { x with answers := x.answers + 1 }) s.chip.krp.ports)
  case drop =>
    refine ⟨_, exec_of_presents (hshown hmute) rfl (netHousekeepingFrame_drops hup), ?_⟩
    exact congrArg KrpPort.frag (mget_mupd_self {} port.toNat (fun x => { x with frag := (x.frag + 1) % 2 ^ 8 }) s.chip.krp.ports)

end Sys2Proof.Machine
end

section
/-! # Key residency and the jobs of the Seal (R228, R461, R504, R505) -/

namespace Sys2Proof.Machine

variable {s : Chip}

/-! ### Residency (R228, R461) -/

theorem residencyLoadStart_takes {part : BitVec 6} {pl : Plan} {k : KeyEntry} {h : Nat} (hnext : s.nextLoad part.toNat = some (pl, k, h))
    (hfree : s.rangeHeld part.toNat (pl.plate k.vplate) k.offset (k.offset + s.keyLines part.toNat h) h = false) :
    { keyId := k.keyId, plate := pl.plate k.vplate, offset := k.offset, lines := s.keyLines part.toNat h, handle := h, loaded := false }
        ∈ ((residencyLoadStart part s).part part.toNat).keyRanges
      ∧ (residencyLoadStart part s).mem = s.mem := by
  simp only [residencyLoadStart, hnext, hfree, Bool.false_eq_true, if_false]
  refine ⟨?_, rfl⟩
  rw [Chip.part_updPart]
  exact List.mem_append_right _ (List.mem_singleton_self _)

theorem residencyLoadDone_marks {part : BitVec 6} {r : KeyRange} {b : Buf} {v : Chip}
    (hfind : ((s.part part.toNat).keyRanges.find? fun r => !r.loaded) = some r) (hbuf : s.bufOf r.handle = some b)
    (hv : v = (s.keepShadow part.toNat).updPart part.toNat fun x => { x with keyRanges := x.keyRanges.map fun (g : KeyRange) =>
      if g == r then { g with loaded := true, staged := some (memReadN s.mem b.addr (min (144 * r.lines) (576 * b.bolts))) } else g }) :
    residencyLoadDone part s = ((v.bindSeed part.toNat r.keyId r.handle).settleKeyWin part.toNat).dropOldKeys part.toNat := by
  simp only [residencyLoadDone, hfind, hbuf, ← hv]

/-- A finished load lands at its range when no plan of the partition runs: its window commits with it (R238). -/
theorem Chip.settleKeyWin_lands {v : Chip} {p : Nat} {r : KeyRange} {bytes : List Byte} (hidle : v.runsOf p = [])
    (hranges : (v.part p).keyRanges = [r]) (hstaged : r.staged = some bytes) :
    (v.settleKeyWin p).mem
        = memWriteN v.mem (liningBase r.plate + 144 * ((mget {} r.plate (v.part p).keyWinShadow).base + r.offset)) bytes
      ∧ ((v.settleKeyWin p).part p).keyRanges = [{ r with staged := none }]
      ∧ ((v.settleKeyWin p).part p).keyWin = (v.part p).keyWinShadow := by
  have hmoved : (v.part p).keyRanges.map (fun r : KeyRange =>
      if r.loaded && r.staged.isNone && (mget {} r.plate (v.part p).keyWin).base != (mget {} r.plate (v.part p).keyWinShadow).base then
        { r with staged := some (memReadN v.mem (liningBase r.plate + 144 * ((mget {} r.plate (v.part p).keyWin).base + r.offset))
          (144 * r.lines)) }
      else r) = [r] := by
    simp [hranges, hstaged]
  unfold Chip.settleKeyWin
  rw [hidle, List.isEmpty_nil, if_pos rfl]
  unfold Chip.commitKeys
  dsimp only
  rw [hmoved, Chip.part_updPart]
  simp only [List.foldl_cons, List.foldl_nil, List.map_cons, List.map_nil, hstaged]
  exact ⟨rfl, trivial, trivial⟩

/-! ### Jobs of the Seal (R504, R505) -/

theorem sealJobDone_takes {j : SealJob} {v : Chip} (hrunning : s.trust.running = some j) (hmark : s.yieldMark = none)
    (hv : v = s.advance (j.since + (j.length - j.done) * 165 - s.time)) :
    sealJobDone s = ({ v with trust := Seal.next v.time { v.trust with running := none } }.jobEffect j.use).resubmit := by
  simp only [sealJobDone, hrunning, hmark, ← hv]

/-- With HIGH jobs waiting and none running, the first of them starts. -/
theorem Seal.next_high {x : Seal} {first : SealJob} {rest : List SealJob} (hidle : x.running = none) (hhigh : x.high = first :: rest)
    (time : Nat) : x.next time = { x with running := some { first with since := time }, high := rest } := by
  simp only [Seal.next, hidle, hhigh]

theorem sealYield_yields {j : SealJob} {m : Nat} {v : Chip} {first : SealJob} {rest : List SealJob} (hmark : s.yieldMark = some (j, m))
    (hv : v = s.advance (j.since + (m - j.done) * 165 - s.time)) (hhigh : v.trust.high = first :: rest) :
    sealYield s = { v with trust := { v.trust with
      running := some { first with since := v.time + 64 * 165 }, high := rest
      low := { j with done := m, yielded := true } :: v.trust.low } } := by
  simp only [sealYield, hmark, ← hv]
  exact congrArg (fun x => { v with trust := x }) (Seal.next_high (x := { v.trust with
    running := none, low := { j with done := m, yielded := true } :: v.trust.low }) rfl hhigh (v.time + 64 * 165))

/-- Settles O49: each command by the lemma above on its effect. -/
theorem residencyAndSealCommandsComplete : Obligations.ResidencyAndSealCommandsComplete := by
  intro s hlive
  refine ⟨fun part pl k h hnext hfree => ⟨_, exec_of_effect hlive rfl rfl, residencyLoadStart_takes hnext hfree⟩,
    fun part r b v hfind hbuf hv => exec_of_effect hlive rfl (residencyLoadDone_marks hfind hbuf hv),
    fun v p r bytes hidle hranges hstaged => Chip.settleKeyWin_lands hidle hranges hstaged,
    fun j v hrunning hmark hv => exec_of_effect hlive rfl (sealJobDone_takes hrunning hmark hv),
    fun j first rest m v hmark hv hhigh => ⟨_, _, exec_of_effect hlive rfl (sealYield_yields hmark hv hhigh), rfl, rfl, rfl, rfl⟩⟩

end Sys2Proof.Machine
end

section
/-! # The Seal and trust calls (R503, R504, R514, R518 to R525, R538) -/

namespace Sys2Proof.Machine

variable {s : Chip} {c : Call}

/-- A LOW job joins a queue with room under the next job number (R504). -/
theorem Chip.sealSubmit_low (hroom : s.trust.low.length < 1024) (use : SealUse) (length : Nat) :
    s.sealSubmit use false length = ({ s with trust := Seal.next s.time { s.trust with
      nextJob := s.trust.nextJob + 1
      low := s.trust.low ++ [{ id := s.trust.nextJob, use := use, high := false, length := length }] } }, true) := by
  have hnotFull : (false && decide (256 ≤ s.trust.high.length) || !false && decide (1024 ≤ s.trust.low.length)) = false := by
    simp [Nat.not_le.2 hroom]
  unfold Chip.sealSubmit
  dsimp only
  rw [hnotFull, if_neg (by simp), if_neg (by simp)]

theorem Chip.sealSubmit_low_takes (hroom : s.trust.low.length < 1024) (use : SealUse) (length : Nat) :
    s.sealSubmit use false length = ((s.sealSubmit use false length).1, true) := by
  rw [Chip.sealSubmit_low hroom]

/-! ### Queries and attestation (R503, R518, R519) -/

theorem tcSealQuery_reports (hpass : s.passes c {} []) :
    tcSealQuery c s = s.respond c 0x0D01 .ok 0 ([s.trust.high.length, s.trust.low.length, s.trust.trng.toNat, s.enabledMask]
      ++ (List.range 5).map fun k => mget 0 (k + 2) s.trust.svn) := by
  rw [tcSealQuery, Chip.call_passes hpass]
  rfl

/-- The report's LOW job is submitted; only the length of its signatures is drawn before. -/
theorem tcAttest_submits {nonce : List Byte} (hpass : s.passes c {} []) (hidentity : s.trust.identity = true)
    (hsign : s.canSign 1 = true) (hroom : s.trust.low.length < 1024) :
    ∃ (n : Nat) (u : Chip), tcAttest c nonce s = (u.sealSubmit (.attest c (s.reportBody nonce)) false n).1 ∧ u.trust = s.trust := by
  obtain ⟨n, u, hlength, -, htrust⟩ := s.signLength_eq 1
  refine ⟨n, u, ?_, htrust⟩
  have htakes := Chip.sealSubmit_low_takes (s := u) (by rw [htrust]; exact hroom) (.attest c (s.reportBody nonce)) n
  unfold tcAttest
  rw [hpass.2]
  dsimp only
  rw [if_neg (by simp [hidentity]), if_neg (by simp [hsign]), hlength]
  dsimp only
  rw [htakes]
  exact if_pos rfl

theorem tcMeasLog_reports {first count : Nat} (hpass : s.passes c {} []) :
    ∃ recs, tcMeasLog c first count s = s.respond c 0x0D03 .ok 0 (recs ++ [s.trust.planDigest.toNat, s.trust.planSeq - 1]) := by
  rw [tcMeasLog, Chip.call_passes hpass]
  exact ⟨_, rfl⟩

/-! ### The lifecycle (R512, R521, R531) -/

theorem tcLifecycleSet_provision {token : Token} (hpass : s.passes c { pf0Only := true } [(decide (3 < 1), .bound)])
    (hlife : s.life = .manufacturing) (hfactory : s.ledger.factoryOk = true) (hhuk : s.trust.hukKilled = false) (htrng : s.trust.trng ≠ 0)
    (hsign : s.canSign 1 = true) (hroom : s.trust.low.length < 1024) :
    tcLifecycleSet c 1 token s = (s.sealSubmit (.identity c) false 96000).1 := by
  have htakes := Chip.sealSubmit_low_takes hroom (.identity c) 96000
  unfold tcLifecycleSet
  rw [hpass.2, hlife]
  dsimp only
  rw [if_neg (by simp [hfactory, hhuk]), if_neg htrng, if_neg (by simp [hsign]), htakes]
  exact if_pos rfl

/-- The identity job fuses Provisioned with the keys that the Seal draws. -/
theorem Chip.makeIdentity_provisions {w : Chip} {k : Nat} (hlife : s.life = .manufacturing) (htrng : s.trust.trng ≠ 0)
    (hdraw : s.sealDraw = some (k, w)) :
    ∃ v : Chip, s.makeIdentity c = (v.remeasure 8).respond c 0x0D04 .ok 8 ((Config.identityKeys k).map (·.toNat))
      ∧ v.life = .provisioned ∧ v.trust.identity = true ∧ v.trust.identityNo = k := by
  unfold Chip.makeIdentity
  rw [if_neg (by simp [hlife]), if_neg htrng, hdraw]
  exact ⟨_, rfl, rfl, rfl, rfl⟩

theorem tcLifecycleSet_deploy {token : Token} (hpass : s.passes c { pf0Only := true } [(decide (3 < 2), .bound)])
    (hlife : s.life = .provisioned) (henrolled : s.trust.enrolled = true) :
    tcLifecycleSet c 2 token s = (Chip.remeasure { s with life := .deployed } 8).respond c 0x0D04 .ok 8 [] := by
  unfold tcLifecycleSet
  rw [hpass.2, hlife]
  exact if_pos henrolled

theorem tcLifecycleSet_return {token : Token} (hpass : s.passes c { pf0Only := true } [(decide (3 < 3), .bound)])
    (hlife : s.life = .manufacturing) : tcLifecycleSet c 3 token s = s.erase.respond c 0x0D04 .ok 8 [] := by
  unfold tcLifecycleSet
  rw [hpass.2, hlife]
  rfl

/-! ### The policy (R523, R525) -/

section Policy

variable {code : Nat} {op : PolicyOp} {token : Token} (hpass : s.passes c { pf0Only := true } []) (hgood : s.changeFail op = none)
  (hop : (op == .returned) = false)
include hpass hgood hop

/-- Outside Deployed a change needs no token. -/
theorem Chip.policyCall_applies (hlife : s.life ≠ .deployed) :
    s.policyCall c code op token = (s.applyChange op).respond c code .ok 0 [] := by
  unfold Chip.policyCall
  simp only [hpass.2, hgood, hop, Bool.false_eq_true, if_false, beq_false_of_ne hlife, Bool.not_false, if_true]

/-- In Deployed the Seal checks the token of a change first. -/
theorem Chip.policyCall_submits {u : Chip} (hlife : s.life = .deployed)
    (hsubmit : s.sealSubmit (.token c code op token) false (blockCycles ((signatureBlock token.block).getD [])) = (u, true)) :
    s.policyCall c code op token = u := by
  unfold Chip.policyCall
  simp only [hpass.2, hgood, hop, Bool.false_eq_true, if_false, hlife, beq_self_eq_true, Bool.not_true, hsubmit, if_true]

end Policy

/-! ### Counters, known-answer tests and raw values (R514, R538) -/

theorem Chip.svn_remeasure (s : Chip) (i : Nat) : (s.remeasure i).trust.svn = s.trust.svn := rfl

/-- The counters that a commit of the running image makes. -/
def Seal.committedSvn (x : Seal) : SMap Nat := x.imageSvn.foldl (fun (m : SMap Nat) e => mput e.1 (max e.2 (mget 0 e.1 m)) m) x.svn

theorem tcSvnCommit_raises (hpass : s.passes c { pf0Only := true } []) : (tcSvnCommit c s).trust.svn = s.trust.committedSvn := by
  rw [tcSvnCommit, Chip.call_passes hpass, Chip.respond_trust]
  dsimp only
  split
  next hsame => exact hsame.symm
  next => rfl

theorem tcSealKat_submits {failed : List (BitVec 4)} {u : Chip} (hpass : s.passes c { expert := true } [])
    (hsubmit : s.takeFree.2.sealSubmit (.kat c (failed.map (·.toNat))) false (Config.freeNat s.free) = (u, true)) :
    tcSealKat c failed s = u := by
  unfold tcSealKat
  rw [hpass.2]
  dsimp only [Chip.takeFree] at hsubmit ⊢
  rw [hsubmit]
  exact if_pos rfl

theorem tcTrngRaw_answers {source count : Nat}
    (hpass : s.passes c { expert := true } [(decide (3 < source), .bound), (decide (4096 < count), .bound)]) :
    tcTrngRaw c source count s = Chip.respond { s with free := s.free + count } c 0x8D02 .ok 0
      ((List.range count).map fun i => Config.freeNat (s.free + i)) := by
  rw [tcTrngRaw, Chip.call_passes hpass]
  rfl

/-- Settles O23: each call by the lemma above on its effect; a LOW job's length, for TC_ATTEST and tokens, is log entry 57. -/
theorem sealCallsComplete : Obligations.SealCallsComplete := by
  intro s c
  refine ⟨fun hpass => exec_of_served hpass.1 rfl (tcSealQuery_reports hpass),
    fun nonce hpass hidentity hsign hroom => ⟨?attest, fun v => rfl⟩,
    fun first count hpass => ?log,
    fun token => ⟨fun hpass hlife hfactory hhuk htrng hsign hroom => ⟨exec_of_served hpass.1 rfl
        (tcLifecycleSet_provision hpass hlife hfactory hhuk htrng hsign hroom),
        fun u w k hlife htrng hdraw => Chip.makeIdentity_provisions hlife htrng hdraw⟩,
      fun hpass hlife henrolled => exec_of_served hpass.1 rfl (tcLifecycleSet_deploy hpass hlife henrolled),
      fun hpass hlife => exec_of_served hpass.1 rfl (tcLifecycleSet_return hpass hlife)⟩,
    fun value lock token hpass hgood => ⟨fun hlife => exec_of_served hpass.1 rfl (Chip.policyCall_applies hpass hgood rfl hlife),
      fun u hlife hsubmit => exec_of_served hpass.1 rfl (Chip.policyCall_submits hpass hgood rfl hlife hsubmit)⟩,
    fun slot key token hpass hgood => ⟨fun hlife => exec_of_served hpass.1 rfl (Chip.policyCall_applies hpass hgood rfl hlife),
      fun u hlife hsubmit => exec_of_served hpass.1 rfl (Chip.policyCall_submits hpass hgood rfl hlife hsubmit)⟩,
    fun keyKind slot alg key mask enable token hpass hgood =>
      ⟨fun hlife => exec_of_served hpass.1 rfl (Chip.policyCall_applies hpass hgood rfl hlife),
      fun u hlife hsubmit => exec_of_served hpass.1 rfl (Chip.policyCall_submits hpass hgood rfl hlife hsubmit)⟩,
    fun hpass => ⟨_, exec_of_served hpass.1 rfl rfl, tcSvnCommit_raises hpass⟩,
    fun failed u hpass hsubmit => exec_of_served hpass.1 rfl (tcSealKat_submits hpass hsubmit),
    fun source count hpass => exec_of_served hpass.1 rfl (tcTrngRaw_answers hpass)⟩
  case attest =>
    obtain ⟨n, u, hattest, htrust⟩ := tcAttest_submits (nonce := nonce) hpass hidentity hsign hroom
    refine ⟨n, u, exec_of_served hpass.1 rfl hattest, htrust, ?_⟩
    rw [Chip.sealSubmit_low (by rw [htrust]; exact hroom)]
    exact (Seal.nextJob_next _ _).trans (by rw [htrust])
  case log =>
    obtain ⟨recs, hlog⟩ := tcMeasLog_reports (first := first) (count := count) hpass
    exact ⟨recs, exec_of_served hpass.1 rfl hlog⟩

end Sys2Proof.Machine
end

section
/-! # SPDM (R520, Table 18.5): the negotiation, what it makes readable, and the signed responses -/

namespace Sys2Proof.Machine

variable {s : Chip}

/-! ### The gates of a request -/

theorem Chip.spdmUp_booted (h : s.booted = true) (f : Chip → Chip) : s.spdmUp f = f s := if_pos h

theorem Chip.spdmReady_settled (h : s.booted = true) (hsettled : s.trust.spdm.algorithms = true) (f : Chip → Chip) :
    s.spdmReady f = f s := by
  rw [Chip.spdmReady, Chip.spdmUp_booted h, if_pos hsettled]

theorem Chip.spdmInside_finished (h : s.booted = true) (hsettled : s.trust.spdm.algorithms = true)
    (hsession : s.trust.spdm.session.isSome = true) (hfinished : s.trust.spdm.finished = true) (f : Chip → Chip) :
    s.spdmInside f = f s := by
  rw [Chip.spdmInside, Chip.spdmReady_settled h hsettled, hsession, hfinished]
  rfl

/-! ### Negotiation -/

section Requests

variable (hboot : s.booted = true)
include hboot

theorem spdmGetVersion_offers :
    spdmGetVersion s = (s.updSpdm fun x => { certs := x.certs, version := 1 }).spdmSay .version [0x12, 0x13] :=
  Chip.spdmUp_booted hboot _

theorem spdmGetCapabilities_settles {v : Byte} (hv : v = 0x12 ∨ v = 0x13) (hversion : s.trust.spdm.version ≠ 0) :
    spdmGetCapabilities v s
      = (s.updSpdm fun x => { x with version := v.toNat, capable := true }).spdmSay .capabilities [v.toNat] := by
  have hoffered : (v != 0x12 && v != 0x13) = false := by rcases hv with rfl | rfl <;> rfl
  rw [spdmGetCapabilities, Chip.spdmUp_booted hboot, if_neg hversion, hoffered, if_neg (by simp)]

theorem spdmNegotiateAlgorithms_settles {dhe aead : Bool} (hcapable : s.trust.spdm.capable = true) :
    spdmNegotiateAlgorithms true true dhe aead s
      = (s.updSpdm fun x => { x with algorithms := true }).spdmSay .algorithms [1, 1, b2n dhe, b2n aead] := by
  rw [spdmNegotiateAlgorithms, Chip.spdmUp_booted hboot, if_neg (by simp [hcapable])]
  rfl

/-! ### What the negotiation makes readable -/

variable (hsettled : s.trust.spdm.algorithms = true)
include hsettled

theorem spdmGetCertificate_returns {slot : BitVec 3} {off len : BitVec 16} {c : List Byte}
    (hcert : mfind slot.toNat s.trust.spdm.certs = some c) :
    spdmGetCertificate slot off len s = s.spdmSay .certificate ([slot.toNat, ((c.drop off.toNat).take (min len.toNat 4096)).length,
      c.length - off.toNat - ((c.drop off.toNat).take (min len.toNat 4096)).length]
        ++ ((c.drop off.toNat).take (min len.toNat 4096)).map (·.toNat)) := by
  rw [spdmGetCertificate, Chip.spdmReady_settled hboot hsettled]
  simp only [hcert]

theorem spdmGetMeasurements_counts (nonce : BitVec 256) : spdmGetMeasurements 0 false nonce s = s.spdmSay .measurements [17] := by
  rw [spdmGetMeasurements, Chip.spdmReady_settled hboot hsettled]
  rfl

omit hboot hsettled in
/-- Of the 17 registers an SPDM index from 1 to 17 names one. -/
theorem measured_one {n : Nat} (hlow : 1 ≤ n) (hhigh : n ≤ 17) :
    ((List.range 17).filter fun k => n = 255 || k + 1 = n) = [n - 1] := by
  interval_cases n <;> rfl

theorem spdmGetMeasurements_reads {i : Byte} (nonce : BitVec 256) (hlow : 1 ≤ i.toNat) (hhigh : i.toNat ≤ 17) :
    spdmGetMeasurements i false nonce s
      = s.spdmSay .measurements [i.toNat, (s.measurement (i.toNat - 1)).toNat, s.trust.planSeq - 1] := by
  rw [spdmGetMeasurements, Chip.spdmReady_settled hboot hsettled]
  dsimp only
  rw [if_neg (by simp [Nat.not_lt.2 hhigh]), if_neg (by simp), if_neg (Nat.ne_of_gt hlow), measured_one hlow hhigh]
  simp only [List.flatMap_cons, List.flatMap_nil, List.append_nil, List.cons_append, List.nil_append, Nat.sub_add_cancel hlow]

theorem spdmSetCertificate_writes {slot : BitVec 3} {chain : List Byte} (hslot : slot ≠ 0) (hlife : s.life = .provisioned) :
    spdmSetCertificate slot chain s
      = (s.updSpdm fun x => { x with certs := mput slot.toNat chain x.certs }).spdmSay .setCertificate [slot.toNat] := by
  rw [spdmSetCertificate, Chip.spdmReady_settled hboot hsettled, if_neg]
  simpa [hlife] using hslot

/-! ### Signed responses: a HIGH job of the Seal (R504) -/

omit hboot hsettled in
theorem Chip.spdmSigned_submits (hidentity : s.trust.identity = true) (halgorithm : s.algorithm 4 = true)
    (hroom : s.trust.high.length < 256) (k : SpdmKind) (data body : List Nat) (more : Nat) :
    (s.spdmSigned k data body more).trust.nextJob = s.trust.nextJob + 1 ∧ (s.spdmSigned k data body more).trust.spdm = s.trust.spdm
      ∧ (s.spdmSigned k data body more).trust.drbg = s.trust.drbg := by
  unfold Chip.spdmSigned
  rw [if_neg (by simp [hidentity, halgorithm])]
  dsimp only
  rw [Chip.sealSubmit_high hroom]
  dsimp only
  rw [if_pos rfl]
  dsimp only
  obtain ⟨r, h, l, heq⟩ := Seal.next_eq s.time { s.trust with
    nextJob := s.trust.nextJob + 1
    high := s.trust.high ++ [{
      id := s.trust.nextJob
      use := .spdm ⟨k, data ++ (Config.ecdsaSign s.trust.identityNo (body.flatMap fun n => natLE 48 n)).map (·.toNat)⟩
      high := true, length := 64000 + more }] }
  rw [heq]
  exact ⟨rfl, rfl, rfl⟩

theorem spdmChallenge_submits {slot : BitVec 3} {c : List Byte} (hcert : mfind slot.toNat s.trust.spdm.certs = some c)
    (hidentity : s.trust.identity = true) (halgorithm : s.algorithm 4 = true) (hroom : s.trust.high.length < 256) (nonce : BitVec 256) :
    (spdmChallenge slot nonce s).trust.nextJob = s.trust.nextJob + 1 ∧ (spdmChallenge slot nonce s).trust.spdm = s.trust.spdm := by
  rw [spdmChallenge, Chip.spdmReady_settled hboot hsettled]
  simp only [hcert]
  obtain ⟨hjob, hspdm, -⟩ := Chip.spdmSigned_submits hidentity halgorithm hroom .challengeAuth _ _ 0
  exact ⟨hjob, hspdm⟩

theorem spdmGetMeasurements_submits {i : Byte} (hidentity : s.trust.identity = true) (halgorithm : s.algorithm 4 = true)
    (hroom : s.trust.high.length < 256) (nonce : BitVec 256) (hhigh : i.toNat ≤ 17) :
    (spdmGetMeasurements i true nonce s).trust.nextJob = s.trust.nextJob + 1
      ∧ (spdmGetMeasurements i true nonce s).trust.spdm = s.trust.spdm := by
  rw [spdmGetMeasurements, Chip.spdmReady_settled hboot hsettled]
  dsimp only
  rw [if_neg (c := (decide (17 < i.toNat) && i.toNat != 255) = true) (by simp [Nat.not_lt.2 hhigh]), if_pos rfl]
  obtain ⟨hjob, hspdm, -⟩ := Chip.spdmSigned_submits hidentity halgorithm hroom .measurements _ _ 0
  exact ⟨hjob, hspdm⟩

theorem spdmKeyExchange_begins {slot : BitVec 3} {session : BitVec 16} {exchange c : List Byte}
    (hcert : mfind slot.toNat s.trust.spdm.certs = some c) (hidentity : s.trust.identity = true) (halgorithm : s.algorithm 4 = true)
    (hroom : s.trust.high.length < 256) (hready : s.trust.drbg.ready = true) (htrng : s.trust.trng ≠ 0) :
    (spdmKeyExchange slot session exchange s).trust.nextJob = s.trust.nextJob + 1
      ∧ (spdmKeyExchange slot session exchange s).trust.spdm.session = some session.toNat
      ∧ (spdmKeyExchange slot session exchange s).trust.spdm.finished = false
      ∧ (spdmKeyExchange slot session exchange s).trust.drbg = s.trust.drbg.draw 4096 (DrbgKey.instantiate s.seeds) := by
  obtain ⟨k, t, hdraw, -, htrust⟩ := Chip.sealDraw_ready hready htrng
  rw [spdmKeyExchange, Chip.spdmReady_settled hboot hsettled]
  simp only [hcert, hdraw]
  have hbegun : (t.updSpdm fun x => { x with session := some session.toNat, finished := false, phase := 0 }).trust
      = { s.trust with
          drbg := s.trust.drbg.draw 4096 (DrbgKey.instantiate s.seeds)
          spdm := { s.trust.spdm with session := some session.toNat, finished := false, phase := 0 } } := by
    simp only [Chip.updSpdm, htrust]
  obtain ⟨hjob, hspdm, hdrbg⟩ := Chip.spdmSigned_submits
    (s := t.updSpdm fun x => { x with session := some session.toNat, finished := false, phase := 0 })
    (by rw [hbegun]; exact hidentity) (by rw [Chip.algorithm, hbegun]; exact halgorithm) (by rw [hbegun]; exact hroom) .keyExchange
    [session.toNat, leNat (Config.kexReply k exchange).2] [session.toNat, leNat (Config.kexReply k exchange).2] 128000
  exact ⟨by rw [hjob, hbegun], by rw [hspdm, hbegun], by rw [hspdm, hbegun], by rw [hdrbg, hbegun]⟩

/-! ### The session -/

theorem spdmFinish_establishes (hsession : s.trust.spdm.session.isSome = true) (hopen : s.trust.spdm.finished = false) :
    spdmFinish true s = (s.updSpdm fun x => { x with finished := true }).spdmSay .finish [] := by
  rw [spdmFinish, Chip.spdmReady_settled hboot hsettled, hsession, hopen]
  rfl

theorem spdmKeyUpdate_updates (hsession : s.trust.spdm.session.isSome = true) (hfinished : s.trust.spdm.finished = true) {op : BitVec 2}
    (hop : op ≠ 0) : spdmKeyUpdate op s
      = (s.updSpdm fun x => if op = 3 then x else { x with phase := x.phase + 1 }).spdmSay .keyUpdateAck [op.toNat] := by
  rw [spdmKeyUpdate, Chip.spdmInside_finished hboot hsettled hsession hfinished, if_neg hop]

end Requests

/-- Settles O43: with the gates open (`Chip.spdmReady_settled`) each request by the lemma above, and the signed ones submit their job
(`Chip.spdmSigned_submits`). -/
theorem spdmCommandsComplete : Obligations.SpdmCommandsComplete := by
  intro s hshown hboot
  refine ⟨⟨⟨_, exec_of_presents hshown rfl (spdmGetVersion_offers hboot), rfl, rfl, rfl, rfl, rfl, rfl⟩,
    fun v hv hversion => ⟨_, exec_of_presents hshown rfl (spdmGetCapabilities_settles hboot hv hversion), rfl, rfl, rfl⟩,
    fun dhe aead hcapable => ⟨_, exec_of_presents hshown rfl (spdmNegotiateAlgorithms_settles hboot hcapable), rfl, rfl⟩,
    exec_of_presents hshown rfl (Chip.spdmUp_booted hboot _), fun hsettled => ?readable⟩, fun hsettled => ?signed⟩
  case readable =>
    exact ⟨exec_of_presents hshown rfl (Chip.spdmReady_settled hboot hsettled _),
      fun slot off len c hcert => ⟨_, _, exec_of_presents hshown rfl (spdmGetCertificate_returns hboot hsettled hcert), rfl, rfl, rfl⟩,
      fun nonce => exec_of_presents hshown rfl (spdmGetMeasurements_counts hboot hsettled nonce),
      fun i nonce hlow hhigh => exec_of_presents hshown rfl (spdmGetMeasurements_reads hboot hsettled nonce hlow hhigh),
      fun slot chain hslot hlife => ⟨_, exec_of_presents hshown rfl (spdmSetCertificate_writes hboot hsettled hslot hlife),
        mfind_mput_self _ _ _, rfl⟩⟩
  case signed =>
    refine ⟨fun slot c hcert hidentity halgorithm hroom => ⟨
        fun nonce => ⟨_, exec_of_presents hshown rfl rfl, spdmChallenge_submits hboot hsettled hcert hidentity halgorithm hroom nonce⟩,
        fun i nonce hhigh =>
          ⟨_, exec_of_presents hshown rfl rfl, spdmGetMeasurements_submits hboot hsettled hidentity halgorithm hroom nonce hhigh⟩,
        fun session exchange hready htrng => ⟨_, exec_of_presents hshown rfl rfl,
          spdmKeyExchange_begins hboot hsettled hcert hidentity halgorithm hroom hready htrng⟩⟩,
      fun hsession hopen => ⟨_, exec_of_presents hshown rfl (spdmFinish_establishes hboot hsettled hsession hopen), rfl, rfl, rfl⟩,
      fun hsession hfinished => ⟨exec_of_presents hshown rfl (Chip.spdmInside_finished hboot hsettled hsession hfinished _),
        fun op hop => ⟨_, exec_of_presents hshown rfl (spdmKeyUpdate_updates hboot hsettled hsession hfinished hop), ?update, rfl⟩,
        _, exec_of_presents hshown rfl (Chip.spdmInside_finished hboot hsettled hsession hfinished _), rfl, rfl, rfl⟩⟩
    case update =>
      by_cases hcheck : op = 3
      · subst hcheck; rfl
      · simp only [State.put, Chip.updSpdm, Chip.spdmSay, if_neg hcheck]

end Sys2Proof.Machine
end

section
/-! # Rings, windows, grades, self-tests and the error log: the calls (R554, R557, R570, R576, R577, R581, R598, R601, R602) -/

namespace Sys2Proof.Machine

variable {s : Chip} {c : Call}

/-! ### Rings (R557) -/

theorem Chip.ring_updRing (s : Chip) (p n : Nat) (f : Ring → Ring) : (s.updRing p n f).ring p n = f (s.ring p n) := by
  rw [Chip.ring, Chip.updRing, Chip.part_updPart, mget_mupd_self, Chip.ring]

theorem Chip.ring_respond (s : Chip) (c : Call) (code : Nat) (st : Status) (detail : Nat) (result : List Nat) (p n : Nat) :
    (s.respond c code st detail result).ring p n = s.ring p n := by
  obtain ⟨m, hm⟩ := s.respond_part c code st detail result p
  rw [Chip.ring, hm, Chip.ring]

theorem tcRingSet_configures {part ring : Nat} {krp : Bool} {sqBase sqSize cqBase cqSize : Nat}
    (hpass : s.passes c { part := some part } [(decide (8 ≤ ring), .bound)]) (hsq : sqBase ≠ 0) (hcq : cqBase ≠ 0)
    (hsqSize : ringSize sqSize = true) (hcqSize : ringSize cqSize = true) (hsqPage : sqBase % 4096 = 0) (hcqPage : cqBase % 4096 = 0)
    (hempty : (s.ring part ring).taken = 0) :
    tcRingSet c part ring krp sqBase sqSize cqBase cqSize s = (s.updRing part ring fun _ => {
      enabled := true, krp := krp, ownerPf0 := c.fn == Fn.pf0, sqBase := sqBase, cqBase := cqBase, sqSize := sqSize
      cqSize := cqSize }).respond c 0x0E01 .ok 0 [] := by
  rw [tcRingSet, Chip.call_passes hpass]
  simp only [hsq, hcq, hsqSize, hcqSize, hsqPage, hcqPage, hempty]
  rfl

theorem tcRingQuery_reports {part ring : Nat} (hpass : s.passes c { part := some part } [(decide (8 ≤ ring), .bound)]) :
    ∃ rest, tcRingQuery c part ring s = s.respond c 0x0E02 .ok 0
      ([b2n (s.ring part ring).ownerPf0, b2n (s.ring part ring).krp, (s.ring part ring).sqSize, (s.ring part ring).cqSize,
        (s.ring part ring).sqHead, (s.ring part ring).sqTail, (s.ring part ring).cqHead, (s.ring part ring).cqTail,
        (s.ring part ring).seq] ++ rest) := by
  rw [tcRingQuery, Chip.call_passes hpass]
  exact ⟨_, rfl⟩

/-! ### Windows (R554, R570, R576, R577) -/

theorem tcWindowMap_maps {function aperture handle offset : Nat} {b : Buf}
    (hpass : s.passes c (windowShape function) [(decide (64 < function), .bound), (decide (1024 ≤ aperture), .bound)])
    (hbuf : s.bufOf handle = some b) (hown : (c.fn == .pf0 || b.part == c.fn.part) = true)
    (htarget : function = 0 ∨ (b.part + 1 = function ∧ b.view = none ∧ b.kind ≠ 1)) (hinside : offset ≤ 576 * b.bolts)
    (hpage : offset % 4096 = 0) :
    tcWindowMap c function aperture handle offset s
      = (s.mapAperture function aperture ⟨some handle, offset⟩).respond c 0x0E03 .ok 0 [] := by
  have hhandle : s.checkHandle c c.fn.part 0x0E03 handle = (s, .ok b) := by simp only [Chip.checkHandle, hbuf, hown, if_true]
  have howner : (function != 0 && (b.part != function - 1 || (b.view.isSome && b.grants.any (·.fabric)))) = false := by
    rcases htarget with rfl | ⟨rfl, hview, -⟩
    · rfl
    · simp [hview]
  have hkind : (function != 0 && decide (b.kind = 1)) = false := by
    rcases htarget with rfl | ⟨-, -, hk⟩
    · rfl
    · simp [hk]
  rw [tcWindowMap, Chip.call_passes hpass]
  simp only [hhandle, howner, hkind]
  simp [Nat.not_lt.2 hinside, hpage, succeeds]

theorem tcWindowUnmap_removes {function aperture : Nat}
    (hpass : s.passes c (windowShape function) [(decide (64 < function), .bound), (decide (1024 ≤ aperture), .bound)]) :
    tcWindowUnmap c function aperture s = { s with pci := { s.pci with
      windows := mdel (1024 * function + aperture) s.pci.windows } }.respond c 0x0E04 .ok 0 [] := by
  rw [tcWindowUnmap, Chip.call_passes hpass]
  rfl

theorem tcWindowQuery_reports {function : Nat} (hpass : s.passes c (windowShape function) [(decide (64 < function), .bound)]) :
    tcWindowQuery c function s = s.respond c 0x0E05 .ok 0 ((s.pci.windows.filter fun w => w.1 / 1024 == function).flatMap fun w =>
      [w.1 % 1024, w.2.handle.getD 0, w.2.offset]) := by
  rw [tcWindowQuery, Chip.call_passes hpass]
  rfl

theorem tcWindowMapPhys_maps {aperture addr : Nat} (hpass : s.passes c { expert := true } [(decide (1024 ≤ aperture), .bound)])
    (hpage : addr % 4096 = 0) (hregion : windowRegion addr 1 = true) :
    tcWindowMapPhys c aperture addr s = (s.mapAperture 0 aperture ⟨none, addr⟩).respond c 0x8E01 .ok 0 [] := by
  rw [tcWindowMapPhys, Chip.call_passes hpass]
  simp only [hpage, hregion]
  rfl

/-! ### Grade and self-test (R581, R601) -/

theorem tcGradeQuery_reports (hpass : s.passes c {} []) : ∃ rest, tcGradeQuery c s = s.respond c 0x0F01 .ok 0
    ([s.grade.code, ((List.range 64).filter fun sw => (s.swatch sw).inService).length] ++ rest) := by
  rw [tcGradeQuery, Chip.call_passes hpass]
  simp only [succeeds, List.append_assoc]
  exact ⟨_, rfl⟩

/-- The swatches that a mask names. -/
def maskedSwatches (mask : Nat) : List Nat := (List.range 64).filter fun sw => bit mask sw

theorem tcSelftest_begins {mask : Nat} (hpass : s.passes c { pf0Only := true } [(decide (2 ^ 64 ≤ mask), .bound)])
    (hnone : s.boot.testFn = none) (hfree : ((maskedSwatches mask).any fun sw => (s.swatch sw).owner.isSome || (s.swatch sw).testing) = false)
    (hreset : ((maskedSwatches mask).any fun sw => (s.swatch sw).resetting) = false)
    (honline : ((maskedSwatches mask).any fun sw => !(s.plate (plateOf sw)).online) = false) (hsome : (maskedSwatches mask).isEmpty = false) :
    ∃ u v : Chip, tcSelftest c mask s = v.updSwatches (maskedSwatches mask) (fun w => { w with power := 0 })
      ∧ v = (((maskedSwatches mask).map plateOf).eraseDups.foldl (fun (t : Chip) p => t.plateOn p)
        (u.updSwatches (maskedSwatches mask) fun w => { w with testing := true, waking := false, power := 0 }))
      ∧ u.boot.testFn = some c.fn ∧ u.boot.testTag = c.tag ∧ u.boot.testMask = mask ∧ u.swatches = s.swatches := by
  refine ⟨{ s with boot := { s.boot with testFn := some c.fn, testTag := c.tag, testMask := mask } }, _, ?_, rfl, rfl, rfl, rfl, rfl⟩
  unfold maskedSwatches at hfree hreset honline hsome
  unfold tcSelftest
  rw [hpass.2]
  simp only [hsome, hnone, hfree, hreset, honline, Option.isSome_none, Bool.or_self, Bool.false_eq_true, if_false]
  rfl

theorem selftestDone_ends {swatch : BitVec 6} {failing : List Nat} (htesting : (s.swatch swatch.toNat).testing = true) :
    selftestDone swatch failing s = ((s.endTest swatch.toNat
      (if (failing.filter fun c => !s.ledger.cellOut c).isEmpty then .ok else .poison) failing).regrade).selfTestAnswer swatch.toNat := by
  simp only [selftestDone, htesting, Bool.not_true, Bool.false_eq_true, if_false]

/-! ### The error log (R598, R602) -/

theorem tcErrorLog_reads {first count : Nat} {flash : Bool} (hpass : s.passes c {} [(decide (64 < count), .bound)]) :
    ∃ seq recs, tcErrorLog c first count flash s = s.respond c 0x0F03 .ok 0 (seq :: List.flatMap LogRec.nums recs)
      ∧ recs.length ≤ count ∧ ∀ r ∈ recs, first ≤ r.seq ∧ r ∈ (if flash then s.tlr.flash else s.tlr.errLog) := by
  rw [tcErrorLog, Chip.call_passes hpass]
  refine ⟨_, _, rfl, List.length_take_le .., fun r hr => ?_⟩
  obtain ⟨hin, hkeep⟩ := List.mem_filter.1 (List.mem_of_mem_take hr)
  rw [Bool.and_eq_true, decide_eq_true_eq] at hkeep
  exact ⟨hkeep.1, List.mem_reverse.1 hin⟩

theorem tcErrlogClear_clears (hpass : s.passes c { expert := true } []) :
    tcErrlogClear c s
      = (Chip.logRec { s with tlr := { s.tlr with flash := [] } } 0 2 none none none 0).respond c 0x8F01 .ok 0 [] := by
  rw [tcErrlogClear, Chip.call_passes hpass]
  rfl

/-- Settles O24: each call by the lemma above on its effect; the answer leaves rings, windows and buffers as they are. -/
theorem hostCallsComplete : Obligations.HostCallsComplete := by
  intro s c
  refine ⟨fun part ring krp sqBase sqSize cqBase cqSize hpass hsq hcq hsqSize hcqSize hsqPage hcqPage hempty => ⟨_, exec_of_served hpass.1 rfl
      (tcRingSet_configures hpass hsq hcq hsqSize hcqSize hsqPage hcqPage hempty), ?ring⟩,
    fun part ring hpass => ?ringQuery,
    fun function aperture handle offset b hpass hbuf hown htarget hinside hpage => exec_of_served hpass.1 rfl
      (tcWindowMap_maps hpass hbuf hown htarget hinside hpage),
    fun function aperture hpass => ⟨_, exec_of_served hpass.1 rfl (tcWindowUnmap_removes hpass), ?unmap⟩,
    fun function hpass => exec_of_served hpass.1 rfl (tcWindowQuery_reports hpass),
    fun aperture addr hpass hpage hregion => exec_of_served hpass.1 rfl (tcWindowMapPhys_maps hpass hpage hregion),
    fun hpass => ?grade,
    fun mask hpass hnone hfree hreset honline hsome => ?selftest,
    fun swatch failing hlive htesting => exec_of_effect hlive rfl (selftestDone_ends htesting),
    fun first count flash hpass => ?log,
    fun hpass => exec_of_served hpass.1 rfl (tcErrlogClear_clears hpass)⟩
  case ring =>
    simp only [State.put, Chip.ring_respond, Chip.ring_updRing, true_and, beq_iff_eq]
  case ringQuery =>
    obtain ⟨rest, hquery⟩ := tcRingQuery_reports hpass
    exact ⟨rest, exec_of_served hpass.1 rfl hquery⟩
  case unmap => exact ⟨by simp only [State.put, Chip.respond_pci], by simp only [State.put, Chip.respond_bufs]⟩
  case grade =>
    obtain ⟨rest, hquery⟩ := tcGradeQuery_reports hpass
    exact ⟨rest, exec_of_served hpass.1 rfl hquery⟩
  case selftest =>
    obtain ⟨u, v, htest, hrest⟩ := tcSelftest_begins hpass hnone hfree hreset honline hsome
    exact ⟨u, v, exec_of_served hpass.1 rfl htest, hrest⟩
  case log =>
    obtain ⟨seq, recs, hlog, hrest⟩ := tcErrorLog_reads (first := first) (flash := flash) hpass
    exact ⟨seq, recs, exec_of_served hpass.1 rfl hlog, hrest⟩

end Sys2Proof.Machine
end

section
/-! # Rings (R450, R452, R557 to R562, R571): doorbells, DMA errors, the entries a ring takes -/

namespace Sys2Proof.Machine

variable {s : Chip}

/-! ### Rings and the other parts of a partition -/

theorem Chip.ring_updRing_other {p q n k : Nat} (h : q ≠ p ∨ k ≠ n) (f : Ring → Ring) : (s.updRing p n f).ring q k = s.ring q k := by
  unfold Chip.ring Chip.updRing
  by_cases hq : q = p
  · subst hq
    rw [Chip.part_updPart, mget_mupd_other _ (h.resolve_left fun hne => hne rfl)]
  · rw [Chip.part_updPart_other _ hq]

theorem Chip.part_updRing_other {p q n : Nat} (h : q ≠ p) (f : Ring → Ring) : (s.updRing p n f).part q = s.part q :=
  Chip.part_updPart_other s h _

theorem Chip.ring_raisePart (s : Chip) (p i q n : Nat) : (s.raisePart p i).ring q n = s.ring q n := by
  unfold Chip.ring Chip.raisePart
  by_cases hq : q = p
  · subst hq; rw [Chip.part_updPart]
  · rw [Chip.part_updPart_other _ hq]

/-- The host reaches a function that admits its commands. -/
theorem Chip.fromHost_admits {fn : Fn} (h : s.admitsHost fn = true) (f : Chip → Chip) : s.fromHost fn f = f s := by
  obtain ⟨-, -, hreach, hheld⟩ := Chip.admits_parts h
  simp only [Chip.fromHost, hreach, Chip.hostAccess, hheld, if_true, Bool.false_eq_true, if_false]

theorem Chip.presents_admits {fn : Fn} (h : s.admitsHost fn = true) : s.presents = true := by
  obtain ⟨hlive, hmute, -⟩ := Chip.admits_parts h
  simp [Chip.presents, hlive, hmute]

/-! ### Doorbells (R557) -/

/-- An owner's doorbell acts on its ring. -/
theorem Chip.doorbell_owner {fn : Fn} {p n : Nat} (hadmits : s.admitsHost fn = true) (howns : fn.owns p = true)
    (henabled : (s.ring p n).enabled = true) (howned : (s.ring p n).ownedBy fn = true) (sq : Bool) (f : Ring → Ring) :
    s.doorbell fn p n sq f = s.updRing p n f := by
  rw [Chip.doorbell, Chip.fromHost_admits hadmits]
  simp only [howns, henabled, howned, Bool.not_true, Bool.or_self, Bool.false_eq_true, if_false]

theorem sqDoorbell_moves {fn : Fn} {p : BitVec 6} {n : BitVec 3} {tail : BitVec 12} (hadmits : s.admitsHost fn = true)
    (howns : fn.owns p.toNat = true) (henabled : (s.ring p.toNat n.toNat).enabled = true)
    (howned : (s.ring p.toNat n.toNat).ownedBy fn = true) :
    sqDoorbell fn p n tail s = s.updRing p.toNat n.toNat fun r =>
      if max 1 r.sqSize - 1 < (r.sqTail + max 1 r.sqSize - r.sqHead) % max 1 r.sqSize
          + (tail.toNat % max 1 r.sqSize + max 1 r.sqSize - r.sqTail) % max 1 r.sqSize then { r with overrun := true }
      else { r with sqTail := tail.toNat % max 1 r.sqSize, marks := r.marks ++ [(tail.toNat % max 1 r.sqSize, s.time / 165)] } :=
  Chip.doorbell_owner hadmits howns henabled howned true _

theorem cqDoorbell_releases {fn : Fn} {p : BitVec 6} {n : BitVec 3} {head : BitVec 12} (hadmits : s.admitsHost fn = true)
    (howns : fn.owns p.toNat = true) (henabled : (s.ring p.toNat n.toNat).enabled = true)
    (howned : (s.ring p.toNat n.toNat).ownedBy fn = true) :
    cqDoorbell fn p n head s = s.updRing p.toNat n.toNat fun r =>
      if r.written.length < (head.toNat % max 1 r.cqSize + max 1 r.cqSize - r.cqHead) % max 1 r.cqSize then r
      else { r with
        cqHead := head.toNat % max 1 r.cqSize
        written := r.written.drop ((head.toNat % max 1 r.cqSize + max 1 r.cqSize - r.cqHead) % max 1 r.cqSize) } :=
  Chip.doorbell_owner hadmits howns henabled howned false _

/-- A failed DMA halts the ring; a failed write discards the completion last written (log entry 60). -/
theorem ringDmaError_halts {p : BitVec 6} {n : BitVec 3} {write : Bool} (henabled : (s.ring p.toNat n.toNat).enabled = true)
    (hopen : s.ringOpen p.toNat (s.ring p.toNat n.toNat) = true)
    (hentry : write = false → (s.ring p.toNat n.toNat).sqHead ≠ (s.ring p.toNat n.toNat).sqTail) :
    ringDmaError p n write s = s.updRing p.toNat n.toNat fun r =>
      { r with err := true, errIndex := if r.err then r.errIndex else r.sqHead
               written := if write then r.written.dropLast else r.written } := by
  have hacts : (!(s.ring p.toNat n.toNat).enabled || !s.ringOpen p.toNat (s.ring p.toNat n.toNat)
      || (!write && decide ((s.ring p.toNat n.toNat).sqHead = (s.ring p.toNat n.toNat).sqTail))) = false := by
    rw [henabled, hopen]
    cases write
    · simpa using hentry rfl
    · rfl
  unfold ringDmaError
  dsimp only
  rw [hacts, if_neg (by simp)]

/-- Settles O31: `Chip.doorbell_owner` for the doorbells, and a change of one ring leaves every other (`Chip.ring_updRing_other`). -/
theorem doorbellCommandsComplete : Obligations.DoorbellCommandsComplete := by
  intro s fn p n
  refine ⟨fun tail r hadmits howns hr henabled howned hsize => ?sq, fun head r hadmits howns hr henabled howned hsize hread => ?cq,
    fun write r hshown hr henabled hopen hentry => ?dma⟩
  all_goals subst hr
  case sq =>
    refine ⟨_, exec_of_presents (Chip.presents_admits hadmits) rfl (sqDoorbell_moves hadmits howns henabled howned), ?_,
      fun k hk => Chip.ring_updRing_other (Or.inr hk) _, fun q hq => Chip.part_updRing_other hq _, rfl, rfl⟩
    rw [State.put, Chip.ring_updRing, Nat.max_eq_right hsize]
  case cq =>
    refine ⟨_, exec_of_presents (Chip.presents_admits hadmits) rfl (cqDoorbell_releases hadmits howns henabled howned), ?_,
      fun q hq => Chip.part_updRing_other hq _, rfl⟩
    rw [State.put, Chip.ring_updRing, Nat.max_eq_right hsize, if_neg (Nat.not_lt.2 hread)]
  case dma =>
    refine ⟨_, exec_of_presents hshown rfl (ringDmaError_halts henabled hopen hentry), ?_⟩
    rw [State.put, Chip.ring_updRing]
    exact ⟨rfl, rfl, rfl, rfl⟩

/-! ### Entries (R558, R559, R571) -/

/-- A completion of a ring that is open is written at once. -/
theorem Chip.complete_writes {p n : Nat} (henabled : (s.ring p n).enabled = true) (hopen : s.ringOpen p (s.ring p n) = true)
    (x : Completion) : s.complete p n x = (s.updRing p n (Ring.write x)).raisePart p (24 + n) := by
  unfold Chip.complete
  dsimp only
  rw [show mget {} n (s.part p).rings = s.ring p n from rfl, henabled, hopen]
  rfl

theorem Chip.mayTake_canTake {p n : Nat} (h : s.mayTake p n = true) : s.canTake p (s.ring p n) = true := by
  unfold Chip.mayTake at h
  rw [Bool.and_eq_true] at h
  exact h.1

theorem Chip.canTake_parts {p : Nat} {r : Ring} (h : s.canTake p r = true) : r.enabled = true ∧ s.ringOpen p r = true := by
  unfold Chip.canTake at h
  simp only [Bool.and_eq_true] at h
  exact ⟨h.1.1.1.1, h.1.1.2⟩

theorem Chip.ring_took (s : Chip) (p n : Nat) : (s.took p n).ring p n = (s.ring p n).next := s.ring_updRing p n Ring.next

/-- Taking an entry leaves its ring open. -/
theorem Chip.ringOpen_took {p n : Nat} (h : s.mayTake p n = true) :
    ((s.took p n).ring p n).enabled = true ∧ (s.took p n).ringOpen p ((s.took p n).ring p n) = true := by
  obtain ⟨henabled, hopen⟩ := Chip.canTake_parts (Chip.mayTake_canTake h)
  rw [Chip.ring_took]
  refine ⟨henabled, ?_⟩
  unfold Chip.ringOpen Chip.took Chip.updRing at *
  rw [Chip.part_updPart]
  exact hopen

section Entry

variable {p n tag : Nat}

theorem Chip.take_runs (hmay : s.mayTake p n = true) (hreset : (s.part p).resetting = false) (f : Chip → Ring → Chip) :
    s.take p n tag f = f (s.took p n) (s.ring p n) := by
  simp only [Chip.take, hmay, hreset, Bool.not_true, Bool.false_eq_true, if_false]

/-- While its partition is in reset an entry completes with ST_RESET_IN_PROGRESS. -/
theorem Chip.take_resetting (hmay : s.mayTake p n = true) (hreset : (s.part p).resetting = true) (f : Chip → Ring → Chip) :
    s.take p n tag f = (s.took p n).complete p n
      { status := .resetInProgress, kind := 1, tag := tag, requestId := (s.ring p n).requestId n } := by
  simp only [Chip.take, hmay, hreset, Bool.not_true, Bool.false_eq_true, if_false, if_true]

end Entry

section Kinds

variable {p : BitVec 6} {n : BitVec 3} {tag len : W32} (hmay : s.mayTake p.toNat n.toNat = true)
  (hreset : (s.part p.toNat).resetting = false)
include hmay hreset

theorem sqNop_completes : sqNop p n true tag s = (s.took p.toNat n.toNat).complete p.toNat n.toNat
    { status := .ok, kind := 4, tag := tag.toNat, requestId := (s.ring p.toNat n.toNat).requestId n.toNat } := by
  unfold sqNop
  exact Chip.take_runs hmay hreset _

theorem sqRxbuf_posts (hkrp : (s.ring p.toNat n.toNat).krp = true) (hlen : 8264 ≤ len.toNat) (hheld : (s.ring p.toNat n.toNat).rxHeld = []) :
    sqRxbuf p n true tag len s = (s.took p.toNat n.toNat).updRing p.toNat n.toNat fun r => { r with rx := r.rx ++ [tag.toNat] } := by
  have hnone : ((s.took p.toNat n.toNat).ring p.toNat n.toNat).rxHeld = [] := by rw [Chip.ring_took]; exact hheld
  unfold sqRxbuf
  refine (Chip.take_runs hmay hreset _).trans ?_
  simp only [hkrp, Bool.not_true, Bool.or_self, Bool.false_eq_true, if_false, if_neg (Nat.not_lt.2 hlen), hnone]

theorem sqFrameTx_receives {f : KrpFrame} {m : KrpMsg} (hkrp : (s.ring p.toNat n.toNat).krp = true) (hlow : 24 ≤ len.toNat)
    (hhigh : len.toNat ≤ 8264) :
    sqFrameTx p n true tag len f m s = krpReceive { f with carrier := .host p.toNat (s.ring p.toNat n.toNat).ownerPf0 n.toNat } m
      ((s.took p.toNat n.toNat).complete p.toNat n.toNat { status := .ok, kind := 3, tag := tag.toNat }) := by
  have hsize : (decide (len.toNat < 24) || decide (8264 < len.toNat)) = false := by
    rw [decide_eq_false (Nat.not_lt.2 hlow), decide_eq_false (Nat.not_lt.2 hhigh)]
    rfl
  unfold sqFrameTx
  refine (Chip.take_runs hmay hreset _).trans ?_
  simp only [hkrp, Bool.not_true, Bool.or_self, Bool.false_eq_true, if_false, hsize]

theorem sqStart_admits {service : Bool} {target : BitVec 16} {k : Byte} {indirect : Bool} {handles : List W32} {u : Chip} {id : Nat}
    (hhost : (s.ring p.toNat n.toNat).krp = false) (hcount : k.toNat ≤ if indirect then 64 else 10)
    (hrange : target.toNat < if service then 256 else 64)
    (hadmit : (s.took p.toNat n.toNat).admitRequest { hostAdmission p.toNat
        (if service then Target.service target.toNat else Target.slot target.toNat)
        (.ring n.toNat tag.toNat (s.ring p.toNat n.toNat).seq)
        ((s.took p.toNat n.toNat).targetOwner p.toNat (if service then Target.service target.toNat else Target.slot target.toNat)
          ((handles.take k.toNat).map (·.toNat))) ((handles.take k.toNat).map (·.toNat))
      with came := some (s.ring p.toNat n.toNat).stamp } = (u, .ok id)) :
    sqStart p n true service target tag k indirect handles s = u := by
  have hhandles : (decide (64 < k.toNat) || (!indirect && decide (10 < k.toNat))) = false := by
    cases indirect <;> simp at hcount ⊢ <;> omega
  unfold sqStart
  refine (Chip.take_runs hmay hreset _).trans ?_
  simp only [hhost, hhandles, if_neg (Nat.not_le.2 hrange), hadmit, Bool.not_true, Bool.or_self, Bool.false_eq_true, if_false]

end Kinds

/-- Settles O32: an entry that may be taken runs its kind (`Chip.take_runs`, R559), or in a partition reset completes with
ST_RESET_IN_PROGRESS (`Chip.take_resetting`, R571); the completion's request number is R558 with log entry 60. -/
theorem ringEntriesComplete : Obligations.RingEntriesComplete := by
  intro s p n tag len hshown hmay
  refine ⟨fun hreset x hx => ?reset, fun hreset => ⟨⟨_, exec_of_presents hshown rfl (sqNop_completes hmay hreset), ?nop⟩,
    fun hkrp hlen hheld => ⟨_, exec_of_presents hshown rfl (sqRxbuf_posts hmay hreset hkrp hlen hheld), ?rxbuf⟩,
    fun f m hkrp hlow hhigh => exec_of_presents hshown rfl (sqFrameTx_receives hmay hreset hkrp hlow hhigh),
    fun service target k indirect handles u id hhost hcount hrange hadmit => exec_of_presents hshown rfl
      (sqStart_admits hmay hreset hhost hcount hrange hadmit)⟩⟩
  case reset =>
    rcases List.mem_pair.1 hx with rfl | rfl
    · exact exec_of_presents hshown rfl (by unfold sqNop; exact Chip.take_resetting hmay hreset _)
    · exact exec_of_presents hshown rfl (by unfold sqRxbuf; exact Chip.take_resetting hmay hreset _)
  case nop =>
    obtain ⟨henabled, hopen⟩ := Chip.ringOpen_took hmay
    simp only [State.put, Chip.complete_writes henabled hopen, Chip.ring_raisePart, Chip.ring_updRing, Chip.ring_took]
    exact ⟨rfl, _, rfl, rfl, rfl, rfl, rfl⟩
  case rxbuf =>
    simp only [State.put, Chip.ring_updRing, Chip.ring_took]
    exact ⟨rfl, rfl⟩

end Sys2Proof.Machine
end

section
/-! # Memory windows (R279, R555): reads, writes and AtomicOps of the host -/

namespace Sys2Proof.Machine

variable {s : Chip}

/-! ### A controller's read changes no byte (R281, R296) -/

theorem Chip.mem_ite (p : Prop) [Decidable p] (s t : Chip) : (if p then s else t).mem = if p then s.mem else t.mem := apply_ite ..

theorem Chip.pageCe_mem (s : Chip) (h page : Nat) : (s.pageCe h page).mem = s.mem := by
  simp only [Chip.pageCe, Chip.mem_ite, Chip.raiseDev_mem, Chip.updStack_mem, ite_self]

theorem Chip.atomCe_mem (s : Chip) (h atom : Nat) : (s.atomCe h atom).mem = s.mem := by
  unfold Chip.atomCe
  dsimp only
  rw [Chip.pageCe_mem]
  split
  · rw [Chip.updCnt_mem, Chip.updStack_mem]
  · rw [Chip.updStack_mem]

theorem Chip.atomUe_mem (s : Chip) (h atom : Nat) : (s.atomUe h atom).mem = s.mem := by
  unfold Chip.atomUe
  dsimp only
  split
  · rw [Chip.raiseBoth_mem, Chip.updCnt_mem, Chip.updStack_mem]
  · rw [Chip.raiseDev_mem, Chip.updStack_mem]

theorem Chip.touchAtoms_mem (s : Chip) (h off n : Nat) : (s.touchAtoms h off n).mem = s.mem := by
  refine Chip.foldl_reads Chip.mem (fun t atom => ?_) (atomsOf off n) s
  have hinjected : ∀ (b : Prop) [Decidable b], (if b then t.updStack h fun x => { x with injArmed := false } else t).mem = t.mem :=
    fun b _ => by split <;> rfl
  dsimp only
  split
  · exact hinjected _
  · split
    · exact (Chip.atomUe_mem ..).trans (hinjected _)
    · split
      · exact (Chip.atomCe_mem ..).trans (hinjected _)
      · exact hinjected _

theorem Chip.touchControl_mem (s : Chip) (a n : Nat) : (s.touchControl a n).mem = s.mem := by
  refine Chip.foldl_reads Chip.mem (fun t line => ?_) _ s
  dsimp only
  split
  · rw [Chip.updStack_mem, Chip.touchAtoms_mem]
  · rw [Chip.touchAtoms_mem]

/-! ### Stores (R245, R280) -/

/-- A store to HBM or control memory writes exactly its bytes. -/
theorem Chip.storeMem_mem {a : Nat} {data : List Byte} (hregion : a < 0x8000000000 ∨ controlBase ≤ a) :
    (s.storeMem a data).mem = memWriteN s.mem a data := by
  unfold Chip.storeMem
  dsimp only
  split
  next hempty => rw [List.length_eq_zero_iff.1 hempty, memWriteN]
  next =>
    split
    next hhbm =>
      refine congrArg (memWriteN · a data) ?_
      split
      · rfl
      · exact Chip.touchAtoms_mem ..
    next hhigh =>
      rw [if_pos (hregion.resolve_left hhigh)]
      exact congrArg (memWriteN · a data) (Chip.touchControl_mem ..)

/-! ### Accesses that Table 20.3 allows -/

theorem natLE_length (n v : Nat) : (natLE n v).length = n := by
  induction n generalizing v with
  | zero => rfl
  | succ n ih => rw [natLE, List.length_cons, ih]

section Access

variable {fn : Fn} {ap : BitVec 10} {off : BitVec 22} {a : Nat} (hadmits : s.admitsHost fn = true) (hgrade : s.boot.gradeReported = true)
include hadmits hgrade

/-- An access inside a 4 KiB page that reaches its address is carried out there. -/
theorem Chip.window_reaches {aperture offset n : Nat} {op : WinOp} (hpage : offset % 4096 + n ≤ 4096)
    (haddr : s.winAddr fn aperture offset (max 1 n) op = .ok a) (f : Chip → Nat → Chip) : s.window fn aperture offset n op f = f s a := by
  rw [Chip.window, Chip.fromHost_admits hadmits]
  simp only [hgrade, if_neg (Nat.not_lt.2 hpage), haddr, Bool.not_true, Bool.false_eq_true, if_false]

theorem windowRead_returns {n : Nat} (hpage : off.toNat % 4096 + n ≤ 4096)
    (haddr : s.winAddr fn ap.toNat off.toNat (max 1 n) .read = .ok a) :
    windowRead fn ap off n s = (s.senseMem a n).ends
      (if 0 < n ∧ (s.senseMem a n).regionPoisoned a n = true then endPoisoned else endData) (leNat (memReadN (s.senseMem a n).mem a n)) := by
  refine (Chip.window_reaches hadmits hgrade hpage haddr _).trans ?_
  simp only [Bool.and_eq_true, decide_eq_true_eq]

theorem windowWrite_stores {data : List Byte} (hpage : off.toNat % 4096 + data.length ≤ 4096)
    (haddr : s.winAddr fn ap.toNat off.toNat (max 1 data.length) .write = .ok a) :
    windowWrite fn ap off data s = (s.storeMem a data).ends endData :=
  Chip.window_reaches hadmits hgrade hpage haddr _

/-- A 64-bit AtomicOp on an unpoisoned word of control memory (R279). -/
theorem atomicOp_acts {op : AtomicOp} (haddr : s.winAddr fn ap.toNat off.toNat 8 .atomic = .ok a) (haligned : a % 8 = 0)
    (hcontrol : controlBase ≤ a) (hsound : (s.touchControl a 8).regionPoisoned a 8 = false) :
    atomicOp fn ap off true op s = ({ s.touchControl a 8 with
      mem := memWriteN s.mem a (natLE 8 (op.result (BitVec.ofNat 64 (leNat (memReadN s.mem a 8)))).toNat) }).ends endData
        (leNat (memReadN s.mem a 8)) := by
  rw [atomicOp, Chip.fromHost_admits hadmits]
  simp only [hgrade, haddr, haligned, if_neg (Nat.not_lt.2 hcontrol), hsound, Chip.touchControl_mem, Bool.not_true, Bool.false_eq_true,
    if_false, if_true, bne_self_eq_false]

end Access

/-- Settles O34: the access reaches its address (`Chip.window_reaches`), and what it writes are its own bytes (`Chip.storeMem_mem`). -/
theorem windowCommandsComplete : Obligations.WindowCommandsComplete := by
  intro s fn ap off a hadmits hgrade
  have hshown := Chip.presents_admits hadmits
  refine ⟨fun n hpage haddr => ⟨_, rfl, exec_of_presents hshown rfl (windowRead_returns hadmits hgrade hpage haddr)⟩,
    fun data hpage haddr hregion => ⟨_, exec_of_presents hshown rfl (windowWrite_stores hadmits hgrade hpage haddr), ?write, rfl, fun c hc => ?kept⟩,
    fun op haddr haligned hcontrol hsound =>
      ⟨_, exec_of_presents hshown rfl (atomicOp_acts hadmits hgrade haddr haligned hcontrol hsound), rfl, rfl, fun c hc => ?word⟩⟩
  case write => exact Chip.storeMem_mem hregion
  case kept =>
    refine (congrArg (memRead · c) (Chip.storeMem_mem hregion)).trans ?_
    exact memRead_memWriteN_other _ _ _ _ hc
  case word => exact memRead_memWriteN_other _ _ _ _ (by rwa [natLE_length])

end Sys2Proof.Machine
end

section
/-! # PCIe (R395, R550 to R552, R575, R579): configuration requests, Bus Master Enable, Hot Reset, function resets, the link -/

namespace Sys2Proof.Machine

variable {s : Chip}

/-- A change of every value that keeps the default changes the value at every key. -/
theorem mget_mapValues {α : Type} {d : α} {f : α → α} (hf : f d = d) (k : Nat) (m : SMap α) :
    mget d k (m.map fun e : Nat × α => (e.1, f e.2)) = f (mget d k m) := by
  induction m with
  | nil => exact hf.symm
  | cons e rest ih =>
    obtain ⟨j, v⟩ := e
    by_cases hj : j = k
    · simp [mget, mfind, hj]
    · simpa [mget, mfind, hj] using ih

/-! ### Configuration requests (R579) -/

theorem pcieConfigRequest_retries {fn : Fn} {op : ConfigOp} (hreach : s.reach fn = true) (hretries : s.retriesConfig = true) :
    pcieConfigRequest fn op s = { s with pci := { s.pci with retries := s.pci.retries + 1 } } := by
  simp only [pcieConfigRequest, hreach, hretries, Bool.not_true, Bool.false_eq_true, if_false, if_true]

theorem pcieConfigRequest_msixEnable {fn : Fn} {on mask : Bool} (hreach : s.reach fn = true) (hserved : s.retriesConfig = false) :
    pcieConfigRequest fn (.msixEnable on mask) s = (s.updMsix fn fun m => { m with enabled := on, fnMask := mask }).sendPending fn := by
  simp only [pcieConfigRequest, hreach, hserved, Bool.not_true, Bool.false_eq_true, if_false]

theorem pcieConfigRequest_vfEnable {count : BitVec 7} (hup : s.pci.up = true) (hserved : s.retriesConfig = false) (hcount : count.toNat ≤ 64) :
    pcieConfigRequest .pf0 (.vfEnable count) s = s.enableVfs count.toNat := by
  simp only [pcieConfigRequest, Chip.reach, hup, hserved, hcount, Bool.not_true, Bool.false_eq_true, if_false, decide_true, Bool.and_self,
    if_true]

/-- Sending what is pending leaves a function's enable and masks. -/
theorem Chip.msixOf_sendPending (s : Chip) (fn : Fn) : ((s.sendPending fn).msixOf fn).enabled = (s.msixOf fn).enabled
    ∧ ((s.sendPending fn).msixOf fn).fnMask = (s.msixOf fn).fnMask ∧ ((s.sendPending fn).msixOf fn).masked = (s.msixOf fn).masked := by
  unfold Chip.sendPending
  dsimp only
  split
  · exact ⟨Chip.foldl_reads (fun t => (t.msixOf fn).enabled) (fun t v => by rw [Chip.msixOf_sendMsix]) _ s,
      Chip.foldl_reads (fun t => (t.msixOf fn).fnMask) (fun t v => by rw [Chip.msixOf_sendMsix]) _ s,
      Chip.foldl_reads (fun t => (t.msixOf fn).masked) (fun t v => by rw [Chip.msixOf_sendMsix]) _ s⟩
  · exact ⟨rfl, rfl, rfl⟩

/-! ### VF Enable -/

/-- What VF Enable does to one VF. -/
def Chip.enableVf (count : Nat) (s : Chip) (n : Nat) : Chip :=
  if n < count then s.updPart n fun p => { p with vfEnabled := true }
  else if (s.part n).vfEnabled then s.updPart n fun p => { p.unconfigured with vfEnabled := false }
  else s

theorem Chip.enableVfs_eq (s : Chip) (count : Nat) : s.enableVfs count = (List.range 64).foldl (Chip.enableVf count) s := rfl

theorem Chip.vfEnabled_enableVf (count : Nat) (s : Chip) (n : Nat) : ((s.enableVf count n).part n).vfEnabled = decide (n < count) := by
  unfold Chip.enableVf
  split
  next hlow => rw [Chip.part_updPart, decide_eq_true hlow]
  next hhigh =>
    rw [decide_eq_false hhigh]
    split
    · rw [Chip.part_updPart]
    next hoff => exact Bool.not_eq_true _ ▸ hoff

theorem Chip.part_enableVf_other (count : Nat) (s : Chip) {n m : Nat} (h : m ≠ n) : (s.enableVf count n).part m = s.part m := by
  unfold Chip.enableVf
  split
  · exact Chip.part_updPart_other s h _
  · split
    · exact Chip.part_updPart_other s h _
    · rfl

theorem Chip.rings_enableVf (count : Nat) (s : Chip) (n m : Nat) : ((s.enableVf count n).part m).rings = (s.part m).rings := by
  by_cases h : m = n
  · subst h
    unfold Chip.enableVf
    split
    · rw [Chip.part_updPart]
    · split
      · rw [Chip.part_updPart]; rfl
      · rfl
  · rw [Chip.part_enableVf_other count s h]

theorem Chip.vfEnabled_enableVfs (s : Chip) (count : Nat) {n : Nat} (hn : n < 64) :
    ((s.enableVfs count).part n).vfEnabled = decide (n < count) := by
  have hlist : ∀ (l : List Nat) (s : Chip), n ∈ l ∨ (s.part n).vfEnabled = decide (n < count) →
      ((l.foldl (Chip.enableVf count) s).part n).vfEnabled = decide (n < count) := by
    intro l
    induction l with
    | nil => exact fun s h => h.resolve_left (by simp)
    | cons m rest ih =>
      intro s h
      refine ih _ ?_
      by_cases hm : n = m
      · exact Or.inr (hm ▸ Chip.vfEnabled_enableVf count s n)
      · rw [Chip.part_enableVf_other count s hm]
        exact h.imp_left fun hin => (List.mem_cons.1 hin).resolve_left hm
  rw [Chip.enableVfs_eq]
  exact hlist _ s (Or.inl (List.mem_range.2 hn))

theorem Chip.rings_enableVfs (s : Chip) (count m : Nat) : ((s.enableVfs count).part m).rings = (s.part m).rings :=
  Chip.foldl_reads (fun t => (t.part m).rings) (fun t n => Chip.rings_enableVf count t n m) (List.range 64) s

theorem Chip.pci_tlr_enableVfs (s : Chip) (count : Nat) : (s.enableVfs count).pci = s.pci ∧ (s.enableVfs count).tlr = s.tlr := by
  have hone : ∀ (t : Chip) (n : Nat), (t.enableVf count n).pci = t.pci ∧ (t.enableVf count n).tlr = t.tlr := fun t n => by
    unfold Chip.enableVf
    split
    · exact ⟨rfl, rfl⟩
    · split <;> exact ⟨rfl, rfl⟩
  exact ⟨Chip.foldl_reads Chip.pci (fun t n => (hone t n).1) (List.range 64) s,
    Chip.foldl_reads Chip.tlr (fun t n => (hone t n).2) (List.range 64) s⟩

/-! ### Bus Master Enable (R552) -/

theorem Chip.masterOf_updPart {p : Nat} {f : Partition → Partition} (h : ∀ x, (f x).busMaster = x.busMaster) (s : Chip) (fn : Fn) :
    (s.updPart p f).masterOf fn = s.masterOf fn := by
  cases fn with
  | pf0 => rfl
  | vf n =>
    by_cases hn : n = p
    · subst hn; exact (congrArg Partition.busMaster (Chip.part_updPart ..)).trans (h _)
    · exact congrArg Partition.busMaster (Chip.part_updPart_other s hn f)

theorem Chip.masterOf_updRing (s : Chip) (p n : Nat) (f : Ring → Ring) (fn : Fn) : (s.updRing p n f).masterOf fn = s.masterOf fn := by
  unfold Chip.updRing
  rw [Chip.masterOf_updPart]
  intro x; rfl

theorem Chip.masterOf_raisePart (s : Chip) (p i : Nat) (fn : Fn) : (s.raisePart p i).masterOf fn = s.masterOf fn := by
  unfold Chip.raisePart
  rw [Chip.masterOf_updPart]
  intro x; rfl

theorem Chip.masterOf_complete (s : Chip) (p n : Nat) (x : Completion) (fn : Fn) : (s.complete p n x).masterOf fn = s.masterOf fn := by
  unfold Chip.complete
  dsimp only
  split
  · rfl
  · split
    · rw [Chip.masterOf_raisePart, Chip.masterOf_updRing]
    · rw [Chip.masterOf_updRing]

theorem Chip.masterOf_flushRing (s : Chip) (p n : Nat) (fn : Fn) : (s.flushRing p n).masterOf fn = s.masterOf fn := by
  unfold Chip.flushRing
  dsimp only
  rw [Chip.foldl_reads (fun t => t.masterOf fn) (fun v x => v.masterOf_complete p n x fn), Chip.masterOf_updRing]

theorem Chip.masterOf_flushRings (s : Chip) (g fn : Fn) : (s.flushRings g).masterOf fn = s.masterOf fn := by
  unfold Chip.flushRings
  refine Chip.foldl_reads (fun t => t.masterOf fn) (fun t p => ?_) _ s
  exact Chip.foldl_reads (fun t => t.masterOf fn) (fun u (e : Nat × Ring) => u.masterOf_flushRing p e.1 fn) _ t

theorem Chip.masterOf_setMaster (s : Chip) (fn : Fn) (on : Bool) : (s.setMaster fn on).masterOf fn = on := by
  cases fn with
  | pf0 => rfl
  | vf n => exact congrArg Partition.busMaster (Chip.part_updPart ..)

theorem busMasterEnableChange_sets {fn : Fn} {on : Bool} (hreach : s.reach fn = true) : (busMasterEnableChange fn on s).masterOf fn = on := by
  simp only [busMasterEnableChange, hreach, Bool.not_true, Bool.false_eq_true, if_false]
  split
  · rw [Chip.masterOf_flushRings, Chip.masterOf_setMaster]
  · exact Chip.masterOf_setMaster s fn on

/-! ### Hot Reset and function resets (R395, R550, R551) -/

/-- A partition whose VF has lost its configuration and its enable. -/
def Partition.vfLost (p : Partition) : Partition := { p.unconfigured with vfEnabled := false }

/-- Hot Reset clears a partition's configuration state and leaves its plans. -/
theorem part_pcieHotReset (s : Chip) (n : Nat) : ((pcieHotReset s).part n).vfEnabled = false ∧ ((pcieHotReset s).part n).busMaster = false
    ∧ ((pcieHotReset s).part n).plans = (s.part n).plans := by
  have hpart : (pcieHotReset s).part n = (s.part n).vfLost := mget_mapValues (f := Partition.vfLost) rfl n s.parts
  rw [hpart]
  exact ⟨rfl, rfl, rfl⟩

/-- Each answer takes one pending entry of a mailbox. -/
theorem Mailbox.pending_answers {α : Type} (r : Response) (l : List α) (m : Mailbox) :
    (l.foldl (fun (m : Mailbox) _ => m.answer r) m).pending = m.pending - l.length := by
  induction l generalizing m with
  | nil => rfl
  | cons x rest ih =>
    have hone : (m.answer r).pending = m.pending - 1 := by
      unfold Mailbox.answer
      split
      · rfl
      next hnone => simp only [Nat.eq_zero_of_not_pos hnone]
    rw [List.foldl_cons, ih, hone, List.length_cons, Nat.sub_sub, Nat.add_comm]

/-- A ring as PF0's FLR leaves it. -/
def Ring.afterPf0Flr (r : Ring) : Ring := if r.ownerPf0 then { r with flr := true } else r

/-- A partition as PF0's FLR leaves it. -/
def Partition.afterPf0Flr (p : Partition) : Partition := { p with
  rings := p.rings.map fun r : Nat × Ring => (r.1, r.2.afterPf0Flr)
  resetSt := { p.resetSt with fn := notPf0 p.resetSt.fn } }

/-- Before it disables the VFs, PF0's FLR has cleared PF0's state and changed every partition. -/
theorem pf0Flr_eq (hup : s.pci.up = true) : ∃ t : Chip, pf0Flr s = t.enableVfs 0
    ∧ t.pci.busMaster = false ∧ t.tlr.msix.enabled = false ∧ t.tlr.mbx.pending = 0
    ∧ t.parts = s.parts.map fun e : Nat × Partition => (e.1, e.2.afterPf0Flr) := by
  have hring : (fun r : Nat × Ring => if r.2.ownerPf0 then (r.1, { r.2 with flr := true }) else r) = fun r => (r.1, r.2.afterPf0Flr) := by
    funext r
    unfold Ring.afterPf0Flr
    split <;> rfl
  unfold pf0Flr
  rw [if_neg (by simp [hup])]
  dsimp only
  rw [hring]
  refine ⟨_, rfl, rfl, rfl, ?_, rfl⟩
  rw [Mailbox.pending_answers, List.length_range, Nat.sub_self]

/-- PF0's FLR stops the rings that PF0 owns. -/
theorem pf0Flr_rings (hup : s.pci.up = true) {p n : Nat} (h : (s.ring p n).ownerPf0 = true) : ((pf0Flr s).ring p n).flr = true := by
  obtain ⟨t, hflr, -, -, -, hparts⟩ := pf0Flr_eq hup
  have hpart : t.part p = (s.part p).afterPf0Flr := by
    rw [Chip.part, hparts]
    exact mget_mapValues rfl p s.parts
  have hring : t.ring p n = (s.ring p n).afterPf0Flr := by
    rw [Chip.ring, hpart]
    exact mget_mapValues rfl n (s.part p).rings
  have hkept : (pf0Flr s).ring p n = t.ring p n := by rw [hflr, Chip.ring, Chip.rings_enableVfs, Chip.ring]
  rw [hkept, hring, Ring.afterPf0Flr, if_pos h]

theorem Chip.part_updSwatches (ns : List Nat) (f : Swatch → Swatch) (s : Chip) (p : Nat) : (s.updSwatches ns f).part p = s.part p := by
  induction ns generalizing s with
  | nil => rfl
  | cons n rest ih => exact ih (s.updSwatch n f)

theorem Chip.part_beginReset (s : Chip) (p cause : Nat) (fn : Option Fn) (tag : Nat) : ((s.beginReset p cause fn tag).part p).resetting = true
    ∧ ((s.beginReset p cause fn tag).part p).resetSt.step = 2 ∧ ((s.beginReset p cause fn tag).part p).resetSt.cause = cause
    ∧ ((s.beginReset p cause fn tag).part p).resetSt.fn = fn := by
  unfold Chip.beginReset
  dsimp only
  rw [Chip.part_updSwatches, Chip.part_updPart]
  exact ⟨rfl, rfl, rfl, rfl⟩

/-- A VF's FLR begins the reset of its partition. -/
theorem vfFlr_begins {vf : BitVec 6} (hpresent : (s.part vf.toNat).present = true) (hidle : (s.part vf.toNat).resetting = false) :
    ((vfFlr vf s).part vf.toNat).resetting = true ∧ ((vfFlr vf s).part vf.toNat).resetSt.step = 2
      ∧ ((vfFlr vf s).part vf.toNat).resetSt.cause = 1 ∧ ((vfFlr vf s).part vf.toNat).resetSt.fn = none := by
  unfold vfFlr
  dsimp only
  rw [Chip.part_updPart, hpresent, hidle, if_neg (by simp)]
  exact Chip.part_beginReset ..

theorem pcieLinkUp_trains {speed : BitVec 3} {width : BitVec 5} {flit : Bool} (hphase : s.boot.phase ≠ 1) :
    pcieLinkUp speed width flit s
      = { s with pci := { s.pci with up := true, speed := speed.toNat, width := width.toNat, flit := flit } } := if_neg hphase

/-- A command to a function that the host reaches has its effect. -/
theorem exec_of_reached {s : State} {c : Instr} {fn : Fn} {effect : Chip → Chip} (hlive : s.chip.held = false)
    (hreach : s.chip.reach fn = true) (hexec : exec c s = s.on fun t => t.reached fn effect) : exec c s = .next (s.put (effect s.chip)) := by
  rw [hexec, State.on_eq, Chip.reached_reach hlive hreach]

/-- Settles O35: each command by the lemma above; VF Enable goes with PF0's FLR (log entry 59). -/
theorem pcieCommandsComplete : Obligations.PcieCommandsComplete := by
  intro s hlive
  refine ⟨fun fn op hreach hretries => exec_of_effect hlive rfl (pcieConfigRequest_retries hreach hretries),
    fun fn on mask hreach hserved => ⟨_, exec_of_effect hlive rfl (pcieConfigRequest_msixEnable hreach hserved), ?msix⟩,
    fun count hup hserved hcount => ⟨_, exec_of_effect hlive rfl (pcieConfigRequest_vfEnable hup hserved hcount),
      fun n hn => Chip.vfEnabled_enableVfs _ _ hn⟩,
    fun fn on hreach => ⟨_, exec_of_effect hlive rfl rfl, busMasterEnableChange_sets hreach⟩,
    ⟨_, exec_of_effect hlive rfl rfl, rfl, rfl, rfl, rfl, rfl, rfl, rfl, part_pcieHotReset s.chip⟩,
    fun hup => ?pf0,
    fun vf hreach hpresent hidle => ⟨_, exec_of_reached hlive hreach rfl, vfFlr_begins hpresent hidle⟩,
    fun speed width flit hphase => exec_of_effect hlive rfl (pcieLinkUp_trains hphase)⟩
  case msix =>
    obtain ⟨henabled, hfnMask, hmasked⟩ := Chip.msixOf_sendPending (s.chip.updMsix fn fun m => { m with enabled := on, fnMask := mask }) fn
    rw [Chip.msixOf_updMsix] at henabled hfnMask hmasked
    exact ⟨henabled, hfnMask, hmasked⟩
  case pf0 =>
    obtain ⟨t, hflr, hmaster, hmsix, hpending, -⟩ := pf0Flr_eq hup
    obtain ⟨hpci, htlr⟩ := t.pci_tlr_enableVfs 0
    refine ⟨_, exec_of_effect hlive rfl rfl, ?_⟩
    refine ⟨?_, ?_, ?_, fun n hn => ?_, fun p n h => pf0Flr_rings hup h⟩
    · rw [State.put, hflr, hpci, hmaster]
    · rw [State.put, hflr, htlr, hmsix]
    · rw [State.put, hflr, htlr, hpending]
    · rw [State.put, hflr, Chip.vfEnabled_enableVfs t 0 hn]
      rfl

end Sys2Proof.Machine
end

section
/-! # Power figures and stack heat stay (R420 to R426): what shares capacity, ends plans, serves stacks and passes time reads them only

`Chip.cool` states that frame, once per shared operation, up to the clocks themselves (`Chip.waitTick_cool`). -/

namespace Sys2Proof.Machine

/-- No power figure and no stack's heat changes. -/
@[simp] abbrev Chip.cool (s t : Chip) : Prop := t.power = s.power ∧ t.heat = s.heat

theorem Chip.cool_refl (s : Chip) : s.cool s := ⟨rfl, rfl⟩

theorem Chip.cool_trans {s t u : Chip} (h : s.cool t) (k : t.cool u) : s.cool u := ⟨k.1.trans h.1, k.2.trans h.2⟩

@[simp] theorem Chip.power_ite (p : Prop) [Decidable p] (s t : Chip) :
    (if p then s else t).power = if p then s.power else t.power := apply_ite ..

@[simp] theorem Chip.heat_ite (p : Prop) [Decidable p] (s t : Chip) :
    (if p then s else t).heat = if p then s.heat else t.heat := apply_ite ..

@[simp] theorem Chip.foldl_cool {α : Type} {f : Chip → α → Chip} (h : ∀ (t : Chip) (x : α), t.cool (f t x)) (l : List α) (s : Chip) :
    s.cool (l.foldl f s) := by
  induction l generalizing s with
  | nil => exact s.cool_refl
  | cons x rest ih => exact Chip.cool_trans (h s x) (ih _)

theorem Chip.counted.power {s t : Chip} (h : s.counted t) : t.power = s.power := by unfold Chip.counted at h; rw [h]
theorem Chip.counted.heat {s t : Chip} (h : s.counted t) : t.heat = s.heat := by unfold Chip.counted at h; rw [h]
theorem Chip.counted.stack {s t : Chip} (h : s.counted t) (n : Nat) : t.stack n = s.stack n := by simp [Chip.stack, h.moved.hbm]

theorem Chip.counted.cool {s t : Chip} (h : s.counted t) : s.cool t := ⟨h.power, h.heat⟩

section Cool

variable (s : Chip)

/-! ### Counts, events and holds -/

@[simp] theorem Chip.hazard_cool (r : Run) (kind cell bundle : Nat) : s.cool (s.hazard r kind cell bundle) :=
  (s.hazard_counted r kind cell bundle).cool
@[simp] theorem Chip.notePad_cool (id part cn now : Nat) (e : PadErr) (bundle : Nat) :
    s.cool (s.notePad id part cn now e bundle) := (s.notePad_counted id part cn now e bundle).cool
@[simp] theorem Chip.overflow_cool (id : Nat) (demand : List (Nat × Nat)) (cell bundle : Nat) :
    s.cool (s.overflow id demand cell bundle) := (s.overflow_counted id demand cell bundle).cool
@[simp] theorem Chip.countStalls_cool (r : Run) (stalls cycles cell bundle : Nat) :
    s.cool (s.countStalls r stalls cycles cell bundle) := (s.countStalls_counted r stalls cycles cell bundle).cool

@[simp] theorem Chip.regrade_cool : s.cool s.regrade := by simp [Chip.regrade]
@[simp] theorem Chip.noteArrival_cool (p h : Nat) : s.cool (s.noteArrival p h) := by simp [Chip.noteArrival]
@[simp] theorem Chip.noteArrivals_cool (p : Nat) : s.cool (s.noteArrivals p) := by simp [Chip.noteArrivals]

/-! ### Pads, panels, swatches -/

@[simp] theorem Chip.updSwatches_cool (ns : List Nat) (f : Swatch → Swatch) : s.cool (s.updSwatches ns f) := by
  simp [Chip.updSwatches]
@[simp] theorem Chip.freePadRow_cool (cn row : Nat) : s.cool (s.freePadRow cn row) := ⟨rfl, rfl⟩
@[simp] theorem Chip.freePadRows_cool (cn : Nat) (rows : List Nat) : s.cool (s.freePadRows cn rows) := by
  simp [Chip.freePadRows]
@[simp] theorem Chip.setTasks_cool (cn : Nat) (ts : List TaskSlot) : s.cool (s.setTasks cn ts) := by simp [Chip.setTasks]
@[simp] theorem Chip.commitStores_cool (sw : Nat) : s.cool (s.commitStores sw) := by simp [Chip.commitStores]
@[simp] theorem Chip.settleStores_cool (sw : Nat) : s.cool (s.settleStores sw) := by simp [Chip.settleStores]
@[simp] theorem Chip.discardPanel_cool (id p : Nat) : s.cool (s.discardPanel id p) := by simp [Chip.discardPanel]
@[simp] theorem Chip.discardPanels_cool (id sw : Nat) : s.cool (s.discardPanels id sw) := by simp [Chip.discardPanels]

@[simp] theorem Chip.noteBank_cool (id cn row cycle now bundle : Nat) : s.cool (s.noteBank id cn row cycle now bundle) := by
  simp [Chip.noteBank]

/-- A Pad read counts what it finds and holds the runs. -/
theorem Chip.readPad_cool (r : Run) (cn row now bundle : Nat) (mask : BitVec 8) :
    s.cool (s.readPad r cn row now bundle mask).1 := by
  unfold Chip.readPad
  dsimp only
  generalize hu : s.checkRead r cn row now bundle mask = u
  have hcheck : s.cool u := hu ▸ (s.checkRead_counted r cn row now bundle mask).cool
  generalize (u.cell cn).pad.read now row (maskPairs mask) = x
  generalize hv : u.setCell cn { u.cell cn with pad := x.1 } = v
  have hread : u.cool v := hv ▸ ⟨rfl, rfl⟩
  exact Chip.cool_trans hcheck (Chip.cool_trans hread (Chip.cool_trans (v.notePad_cool ..) (Chip.noteBank_cool ..)))

theorem Chip.readRows_cool (r : Run) (cn now bundle : Nat) (rows : List Nat) : s.cool (s.readRows r cn now bundle rows).1 := by
  induction rows generalizing s with
  | nil => exact s.cool_refl
  | cons row rest ih =>
    simp only [Chip.readRows]
    exact Chip.cool_trans (s.readPad_cool r cn row now bundle _) (ih (s.readPad r cn row now bundle).1)

/-! ### Buffers, keys and requests -/

@[simp] theorem Chip.killHandle_cool (i : Nat) : s.cool (s.killHandle i) := by
  unfold Chip.killHandle
  split <;> simp

@[simp] theorem Chip.revokeAll_cool (i : Nat) : s.cool (s.revokeAll i) := by
  unfold Chip.revokeAll
  split <;> simp

@[simp] theorem Chip.clearRegion_cool (a n : Nat) : s.cool (s.clearRegion a n) := by
  simp [Chip.clearRegion, Chip.clearBacking]

@[simp] theorem Chip.releaseBuf_cool (handle : Nat) : s.cool (s.releaseBuf handle) := by
  unfold Chip.releaseBuf
  split
  · simp
  · dsimp only
    split
    · split <;> simp
    · simp

@[simp] theorem Chip.dropOldKeys_cool (part : Nat) : s.cool (s.dropOldKeys part) := by simp [Chip.dropOldKeys]
@[simp] theorem Chip.complete_cool (p n : Nat) (c : Completion) : s.cool (s.complete p n c) := by simp [Chip.complete]

@[simp] theorem Chip.frameOut_cool (c : Carrier) (len : Nat) : s.cool (s.frameOut c len) := by
  unfold Chip.frameOut
  split
  · simp
  · dsimp only
    split <;> simp

@[simp] theorem Chip.krpSend_cool (id : Nat) (m : KrpSent) (len : Nat) : s.cool (s.krpSend id m len) := by
  unfold Chip.krpSend
  split <;> simp

@[simp] theorem Chip.sealSubmit_cool (use : SealUse) (high : Bool) (length : Nat) :
    s.cool (s.sealSubmit use high length).1 := by
  unfold Chip.sealSubmit
  dsimp only
  split <;> simp

@[simp] theorem Chip.submitReceipt_cool (part id kind : Nat) : s.cool (s.submitReceipt part id kind) := by
  simp [Chip.submitReceipt, Chip.signLength, Chip.takeFree]

@[simp] theorem Chip.dropRequest_cool (id : Nat) : s.cool (s.dropRequest id) := ⟨rfl, rfl⟩

@[simp] theorem Chip.holdRequest_cool (q : Request) (st : Status) : s.cool (s.holdRequest q st) := by
  simp [Chip.holdRequest]

@[simp] theorem Chip.tryReceipt_cool (id : Nat) : s.cool (s.tryReceipt id) := by
  unfold Chip.tryReceipt
  split
  · simp
  · split <;> simp [Chip.sendReceipt, Chip.receiptOut]

@[simp] theorem Chip.completeRequest_cool (id : Nat) (st : Status) : s.cool (s.completeRequest id st) := by
  unfold Chip.completeRequest
  split
  · simp
  · dsimp only
    split <;> simp

/-! ### A plan that stops (R119, R122) -/

@[simp] theorem Chip.dropEngines_cool (sw : Nat) (pl : Plan) (others : List Plan) : s.cool (s.dropEngines sw pl others) := by
  refine Chip.foldl_cool (fun t e => ?_) pl.engine s
  cases e <;> simp

@[simp] theorem Chip.fieldSlots_cool (sw : Nat) (used : Plan → Nat → Bool) (p : Plan) (others : List Plan)
    (field : Nat → Nat → TaskSlot) : s.cool (s.fieldSlots sw used p others field) := by
  simp [Chip.fieldSlots]

@[simp] theorem Chip.dropPlan_cool (p slot : Nat) : s.cool (s.dropPlan p slot) := by
  unfold Chip.dropPlan
  split <;> simp [Chip.keepShadow, Chip.dropDebugLocks]

@[simp] theorem Chip.endRun_cool (r : Run) (st : Status) : s.cool (s.endRun r st) := by
  unfold Chip.endRun
  dsimp only
  split <;> simp

@[simp] theorem Chip.orphanUnits_cool (r : Run) (cn : Nat) : s.cool (s.orphanUnits r cn) := by simp [Chip.orphanUnits]
@[simp] theorem Chip.orphanQueues_cool (id : Nat) : s.cool (s.orphanQueues id) := ⟨rfl, rfl⟩

@[simp] theorem Chip.strandWeaves_cool (r : Run) : s.cool (s.strandWeaves r) := by
  refine Chip.foldl_cool (fun t m => ?_) r.weaves s
  split <;> simp

@[simp] theorem Chip.discardSwatch_cool (id sw : Nat) : s.cool (s.discardSwatch id sw) := by
  refine Chip.cool_trans (s.discardPanels_cool id sw) (Chip.foldl_cool (fun t cn => ?_) _ _)
  split <;> simp

@[simp] theorem Chip.stopPlan_cool (r : Run) (st : Status) (cell : Option Nat) (bundle : Nat) :
    s.cool (s.stopPlan r st cell bundle) := by
  unfold Chip.stopPlan
  dsimp only
  split <;> simp

@[simp] theorem Chip.ripeTraps_cool (id c : Nat) : s.cool (s.ripeTraps id c) := by
  unfold Chip.ripeTraps
  split <;> simp [Chip.doubleTrap]

@[simp] theorem Chip.recordFault_cool (r : Run) (st : Status) (cn bundle : Nat) : s.cool (s.recordFault r st cn bundle) := by
  simp [Chip.recordFault]

@[simp] theorem Chip.faultPlan_cool (id : Nat) (st : Status) (cn bundle : Nat) : s.cool (s.faultPlan id st cn bundle) := by
  unfold Chip.faultPlan
  split <;> simp

@[simp] theorem Chip.faultAt_cool (id c : Nat) (st : Status) (cn bundle : Nat) : s.cool (s.faultAt id c st cn bundle) := by
  simp [Chip.faultAt]

/-! ### What plan cycles bring by themselves -/

@[simp] theorem Chip.ripeWatch_cool (id old : Nat) : s.cool (s.ripeWatch id old) := by
  unfold Chip.ripeWatch
  split <;> simp

@[simp] theorem Chip.lineVisible_cool (r : Run) (cn th due moment : Nat) : s.cool (s.lineVisible r cn th due moment) := by
  unfold Chip.lineVisible
  dsimp only
  split <;> simp

@[simp] theorem Chip.unitMoved_cool (r : Run) (cn th last : Nat) (count : Bool) : s.cool (s.unitMoved r cn th last count) := by
  unfold Chip.unitMoved
  split <;> simp

@[simp] theorem Chip.dropUnit_cool (cn : Nat) (u : SpoolUnit) : s.cool (s.dropUnit cn u) := ⟨rfl, rfl⟩

@[simp] theorem Chip.ripeUnits_cool (id : Nat) (when_ : Nat → Nat) : s.cool (s.ripeUnits id when_) := by
  unfold Chip.ripeUnits
  split
  · simp
  · dsimp only
    split
    · simp
    · refine Chip.cool_trans (s.updRun_counted id _).cool (Chip.foldl_cool (fun t e => ?_) _ _)
      split <;> simp

@[simp] theorem Chip.ripeChecks_cool (id : Nat) : s.cool (s.ripeChecks id) := by
  unfold Chip.ripeChecks
  split
  · simp
  · dsimp only
    split
    · simp
    · refine Chip.cool_trans (s.updRun_counted id _).cool (Chip.foldl_cool (fun t e => ?_) _ _)
      split
      · simp
      · split <;> simp

@[simp] theorem Chip.seamRead_cool (r : Run) (idx : Nat) (e : WeaveEntry) (m : WeaveMove) : s.cool (s.seamRead r idx e m) := by
  have hread : s.cool (s.weaveRead r e m m.read).1 := by
    unfold Chip.weaveRead
    exact s.readRows_cool ..
  unfold Chip.seamRead
  dsimp only
  generalize s.weaveRead r e m m.read = x at hread ⊢
  split
  · simp
  · split
    · simp [Chip.weaveDrop, Chip.updMove]
    · simpa [Chip.updMove] using hread

@[simp] theorem Chip.ripeWords_cool (id n : Nat) : s.cool (s.ripeWords id n) := by
  induction n generalizing s with
  | zero => exact s.cool_refl
  | succ n ih =>
    unfold Chip.ripeWords
    split
    · simp
    · dsimp only
      split
      · simp
      · split
        · simp
        · split
          · simp
          · exact Chip.cool_trans (s.seamRead_cool ..) (ih _)

@[simp] theorem Chip.ripe_cool (old : Run) (t : Nat) : s.cool (s.ripe old t) := by simp [Chip.ripe]

@[simp] theorem Chip.runPassed_cool (old : Run) (t adv : Nat) : s.cool (s.runPassed old t adv) := by
  unfold Chip.runPassed
  dsimp only
  split <;> simp

end Cool

/-! ### The clocks -/

@[simp] theorem Chip.advance_cool (s : Chip) (du : Nat) : s.cool (s.advance du) := by simp [Chip.advance]

@[simp] theorem Chip.waitTick_cool (s : Chip) (n : Nat) : s.cool (s.waitTick n) := by
  unfold Chip.waitTick
  split
  · exact s.advance_cool _
  · exact s.cool_refl

end Sys2Proof.Machine
end

section
/-! # Heat, rails, trips and random sources (R198, R420 to R426, R508, R616, R619) -/

namespace Sys2Proof.Machine

/-! ### Capacity and grade (R368 to R370, R423, R580) -/

section Shares

variable (s : Chip)

theorem Chip.restore_counted : s.counted s.restore := by
  unfold Chip.restore
  refine Chip.counted_trans (Chip.foldl_counted _ (fun t p => ?_) _ s) (Chip.reshare_counted _)
  split
  · exact Chip.counted_trans (t.updPart_counted ..) (Chip.raiseBoth_counted ..)
  · exact t.counted_refl

theorem Chip.capacityChange_counted (rs : List Nat) (rise : Bool) : s.counted (s.capacityChange rs rise) := by
  have hrebalance := Chip.foldl_counted _ (fun (t : Chip) r => t.rebalance_counted r) rs s
  cases rise with
  | false => exact hrebalance
  | true => exact Chip.counted_trans hrebalance (Chip.restore_counted _)

theorem Chip.heatSuspend_counted (plate : Nat) : s.counted (s.heatSuspend plate) := by
  unfold Chip.heatSuspend
  split
  · exact Chip.counted_trans (s.updPart_counted ..) (Chip.counted_trans (Chip.suspend_counted ..) (Chip.reshare_counted _))
  · exact s.counted_refl

theorem Chip.heatRestore_counted (plate : Nat) : s.counted (s.heatRestore plate) := by
  unfold Chip.heatRestore
  dsimp only
  split
  · split
    · split
      · exact Chip.counted_trans (s.updPart_counted ..) (Chip.counted_trans (Chip.updPart_counted ..)
          (Chip.counted_trans (Chip.raiseBoth_counted ..) (Chip.reshare_counted _)))
      · exact s.updPart_counted ..
    · exact s.counted_refl
  · exact s.counted_refl

@[simp] theorem Chip.stack_regrade (n : Nat) : s.regrade.stack n = s.stack n := by
  unfold Chip.regrade Chip.stack
  dsimp only
  split
  · rfl
  · rw [Chip.raiseDev_hbm]

@[simp] theorem Chip.stack_reservice (plate n : Nat) : (s.reservice plate).stack n = s.stack n := by
  unfold Chip.reservice
  refine Chip.foldl_reads (fun t => t.stack n) (fun t i => ?_) (List.range 8) s
  rfl

@[simp] theorem Chip.reservice_cool (plate : Nat) : s.cool (s.reservice plate) := by
  simp [Chip.reservice]

end Shares

/-! ### A stack that serves what it has accepted (R277, R281, R332, R395) -/

section Flush

variable (s : Chip)

@[simp] theorem Chip.pageCe_cool (h page : Nat) : s.cool (s.pageCe h page) := by simp [Chip.pageCe]

@[simp] theorem Chip.atomUe_cool (h atom : Nat) : s.cool (s.atomUe h atom) := by
  unfold Chip.atomUe
  dsimp only
  split <;> simp

@[simp] theorem Chip.atomCe_cool (h atom : Nat) : s.cool (s.atomCe h atom) := by
  unfold Chip.atomCe
  dsimp only
  split <;> simp

@[simp] theorem Chip.touchAtoms_cool (h off n : Nat) : s.cool (s.touchAtoms h off n) := by simp [Chip.touchAtoms]

@[simp] theorem Chip.writeBolt_cool (addr : Nat) (rows : List Row) (poison : List Bool) : s.cool (s.writeBolt addr rows poison) :=
  ⟨rfl, rfl⟩

@[simp] theorem Chip.addBolt_cool (addr : Nat) (integer : Bool) (m : Modulus) (rows : List Row) (poison : List Bool) :
    s.cool (s.addBolt addr integer m rows poison) := by
  simp [Chip.addBolt]

@[simp] theorem Chip.slvReply_cool (l seq : Nat) (nack : Option Status) : s.cool (s.slvReply l seq nack) := ⟨rfl, rfl⟩
@[simp] theorem Chip.tokenArrives_cool (part : Nat) (err : Bool) (status token : Nat) :
    s.cool (s.tokenArrives part err status token) := ⟨rfl, rfl⟩

@[simp] theorem Chip.settleLink_cool (l n : Nat) : s.cool (s.settleLink l n) := by
  induction n generalizing s with
  | zero => exact s.cool_refl
  | succ n ih =>
    unfold Chip.settleLink
    dsimp only
    split
    · simp
    · split
      · exact Chip.cool_trans (by simp) (ih _)
      · simp

@[simp] theorem Chip.settleArrivals_cool : s.cool s.settleArrivals := Chip.foldl_cool (fun t l => t.settleLink_cool l _) _ s

@[simp] theorem Chip.flush_cool (mine : HbmReq → Bool) : s.cool (s.flush mine) := by
  refine Chip.cool_trans (Chip.foldl_cool (fun t h => ?_) _ s) (Chip.settleArrivals_cool _)
  have hqueue : t.cool (t.updStack h fun x => { x with queue := x.queue.filter fun q => !mine q }) := ⟨rfl, rfl⟩
  refine Chip.cool_trans hqueue (Chip.foldl_cool (fun u q => ?_) _ _)
  split <;> simp

end Flush

/-! ### Stack trips (R426) -/

variable {s : Chip}

/-- Stopping those of some runs that are still there leaves power and heat, time, links and ports. -/
theorem Chip.stopRuns_cool (s : Chip) (st : Status) (rs : List Run) :
    s.cool (rs.foldl (fun (t : Chip) r => if (t.run? r.id).isSome then t.stopPlan r st none 0 else t) s) := by simp

theorem Chip.stopRuns_steady (s : Chip) (st : Status) (rs : List Run) :
    s.steady (rs.foldl (fun (t : Chip) r => if (t.run? r.id).isSome then t.stopPlan r st none 0 else t) s) := by simp

/-- A change of capacity on a stack changes the heat and the readiness of none, nor does a change of service. -/
theorem Chip.capacity_reservice_stack (s : Chip) (h n : Nat) (rise : Bool) :
    (((s.capacityChange [h] rise).reservice h).regrade).stack n = s.stack n
      ∧ (((s.reservice h).capacityChange [h] rise).regrade).stack n = s.stack n := by
  simp [(Chip.capacityChange_counted _ [h] rise).stack]

theorem Chip.capacity_reservice_heat (s : Chip) (h : Nat) (rise : Bool) :
    (((s.capacityChange [h] rise).reservice h).regrade).heat = s.heat
      ∧ (((s.reservice h).capacityChange [h] rise).regrade).heat = s.heat := by
  simp [(Chip.capacityChange_counted _ [h] rise).heat]

/-- A tripped stack stays marked through the end of its plans, and out of service through the change of capacity. -/
theorem stackTempTrip_trips {h : BitVec 3} (htripped : (mget {} h.toNat s.heat).tripped = false) (hready : (s.stack h.toNat).ready = true) :
    (mget {} h.toNat (stackTempTrip h s).heat).tripped = true ∧ ((stackTempTrip h s).stack h.toNat).ready = false := by
  unfold stackTempTrip
  rw [if_neg (by simp [htripped, hready])]
  dsimp only
  rw [(Chip.capacity_reservice_heat _ _ _).1, (Chip.capacity_reservice_stack _ _ _ _).1, Chip.stack_updStack, Chip.updStack_heat,
    (Chip.flush_cool _ _).2, (Chip.stopRuns_cool ..).2, Chip.logRec_heat, mget_mupd_self]
  exact ⟨rfl, rfl⟩

/-- A released stack is marked so, and is ready. -/
theorem stackTripRelease_releases {h : BitVec 3} (htripped : (mget {} h.toNat s.heat).tripped = true) :
    (mget {} h.toNat (stackTripRelease h s).heat).tripped = false ∧ ((stackTripRelease h s).stack h.toNat).ready = true := by
  unfold stackTripRelease
  rw [if_neg (by simp [htripped])]
  dsimp only
  rw [(Chip.capacity_reservice_heat _ _ _).2, (Chip.capacity_reservice_stack _ _ _ _).2, Chip.stack_updStack, Chip.updStack_heat,
    mget_mupd_self]
  exact ⟨rfl, rfl⟩

theorem plateRailUndervoltage_trips {plate : BitVec 3} (hgood : (s.plate plate.toNat).railLow = false) :
    plateRailUndervoltage plate s = ((s.updPlate plate.toNat fun x => { x with railLow := true }).logRec Status.clockAbsent.code 3 none
      (some plate.toNat) none 0).tripPlate plate.toNat := by
  unfold plateRailUndervoltage
  rw [if_neg (by simp [hgood])]

theorem plateTempTrip_trips {plate : BitVec 3} (hgood : (s.plate plate.toNat).tripped = false) :
    plateTempTrip plate s = ((s.updPlate plate.toNat fun x => { x with tripped := true, hot := true }).logRec Status.clockAbsent.code 3 none
      (some plate.toNat) none 0).tripPlate plate.toNat := by
  unfold plateTempTrip
  rw [if_neg (by simp [hgood])]

/-! ### Rails (R616) -/

/-- A rail out of regulation holds the Cold reset. -/
theorem railUndervoltage_holds {rail : BitVec 5} (hlow : 8 ≤ rail.toNat) (hhigh : rail.toNat ≤ 19) :
    rail.toNat ∈ (railUndervoltage rail s).boot.cold ∧ (railUndervoltage rail s).held = true ∧ (railUndervoltage rail s).requests = []
      ∧ (railUndervoltage rail s).parts = [] := by
  have hrail : ¬(rail.toNat < 8 || 19 < rail.toNat) = true := by simp [hlow, hhigh]
  unfold railUndervoltage
  rw [if_neg hrail]
  have hmem : rail.toNat ∈ sinsert rail.toNat ((s.logRec Status.clockAbsent.code 3 none none none 0).cold).boot.cold :=
    mem_sinsert.2 (.inl rfl)
  refine ⟨hmem, ?_, rfl, rfl⟩
  simp [Chip.held, List.ne_nil_of_mem hmem]

theorem railReturn_frees {rail : BitVec 5} (hlow : 8 ≤ rail.toNat) :
    railReturn rail s = { s with boot := { s.boot with cold := sremove rail.toNat s.boot.cold } } := by
  unfold railReturn
  rw [if_neg (Nat.not_lt.2 hlow)]

/-! ### Evaluation (R420 to R425) -/

/-- Time, the package's power average and its comparison with the limit are as they were. -/
def Chip.metered (s t : Chip) : Prop := t.time = s.time ∧ t.power.avg = s.power.avg ∧ t.power.overLimit = s.power.overLimit

theorem Chip.metered_trans {s t u : Chip} (h : s.metered t) (k : t.metered u) : s.metered u :=
  ⟨k.1.trans h.1, k.2.1.trans h.2.1, k.2.2.trans h.2.2⟩

theorem Chip.counted.metered {s t : Chip} (h : s.counted t) : s.metered t :=
  ⟨h.time, congrArg Power.avg h.power, congrArg Power.overLimit h.power⟩

theorem Chip.foldl_metered {α : Type} {f : Chip → α → Chip} (h : ∀ (t : Chip) (x : α), t.metered (f t x)) (l : List α) (s : Chip) :
    s.metered (l.foldl f s) := by
  induction l generalizing s with
  | nil => exact ⟨rfl, rfl, rfl⟩
  | cons x rest ih => exact Chip.metered_trans (h s x) (ih _)

theorem Chip.setLevel_metered (s : Chip) (h level : Nat) : s.metered (s.setLevel h level) := by
  unfold Chip.setLevel
  dsimp only
  split
  · exact ⟨rfl, rfl, rfl⟩
  · obtain ⟨htime, havg, hover⟩ := (Chip.capacityChange_counted _ [h] _).metered
    exact ⟨htime, havg, hover⟩

theorem Chip.evalPlate_metered (s : Chip) (p : Nat) : s.metered (s.evalPlate p) := by
  unfold Chip.evalPlate
  dsimp only
  split
  · exact ⟨rfl, rfl, rfl⟩
  · split
    · exact (s.heatSuspend_counted p).metered
    · split
      · exact (s.heatRestore_counted p).metered
      · split <;> exact ⟨rfl, rfl, rfl⟩

/-- Waiting for an A-tick that is still to come ends at it. -/
theorem Chip.waitTick_aTick {n : Nat} (h : s.aTick < n) : (s.waitTick n).aTick = n := by
  unfold Chip.waitTick
  rw [if_pos h]
  unfold Chip.aTick at h ⊢
  rw [(s.advance_ports _).1]
  omega

/-- The evaluation's sensor reading leaves power as it is; the average is taken next, and what follows keeps it. -/
theorem thermalEvaluation_metered (plates : List (List Int)) (hs collar : List Int) (watts : BitVec 11) :
    ∃ v : Chip, v.time = (s.waitTick ((s.aTick / 2 ^ 14 + 1) * 2 ^ 14)).time ∧ v.power.avg = watts.toNat
      ∧ v.power.overLimit = decide (s.power.limit < watts.toNat) ∧ v.metered (thermalEvaluation plates hs collar watts s) := by
  unfold thermalEvaluation
  dsimp only
  refine ⟨_, ?_, ?_, ?_, Chip.metered_trans (Chip.metered_trans (Chip.foldl_metered (fun t h => ?_) _ _)
    (Chip.foldl_metered (fun t p => t.evalPlate_metered p) _ _)) (Chip.reshare_counted _).metered⟩
  case refine_1 =>
    dsimp only
    rw [Chip.foldl_reads Chip.time (fun _ _ => Chip.updPlate_time ..)]
  case refine_2 => rfl
  case refine_3 =>
    dsimp only
    rw [Chip.foldl_reads Chip.power (fun _ _ => Chip.updPlate_power ..), (s.waitTick_cool _).1]
  case refine_4 => exact Chip.metered_trans ⟨rfl, rfl, rfl⟩ (Chip.setLevel_metered _ _ _)

theorem thermalEvaluation_measures (plates : List (List Int)) (hs collar : List Int) (watts : BitVec 11) :
    (thermalEvaluation plates hs collar watts s).power.avg = watts.toNat
      ∧ (thermalEvaluation plates hs collar watts s).power.overLimit = decide (s.power.limit < watts.toNat)
      ∧ (thermalEvaluation plates hs collar watts s).aTick = (s.aTick / 2 ^ 14 + 1) * 2 ^ 14 := by
  obtain ⟨v, hwait, havg, hover, htime, hkeepsAvg, hkeepsOver⟩ := thermalEvaluation_metered (s := s) plates hs collar watts
  refine ⟨hkeepsAvg.trans havg, hkeepsOver.trans hover, ?_⟩
  have hnext : s.aTick < (s.aTick / 2 ^ 14 + 1) * 2 ^ 14 := by omega
  rw [Chip.aTick, htime, hwait]
  exact Chip.waitTick_aTick hnext

/-! ### Withdrawals (R425) -/

/-- A withdrawal that has run its time is struck off, and the plans that still wait stop. -/
theorem withdrawalTimeout_ends {p : BitVec 6} {w : Withdrawal}
    (hfound : (s.power.withdrawals.find? fun w => w.part == p.toNat) = some w) :
    (∀ x ∈ (withdrawalTimeout p s).power.withdrawals, x.part ≠ p.toNat) ∧ w.since + 2 ^ 18 ≤ (withdrawalTimeout p s).aTick := by
  unfold withdrawalTimeout
  dsimp only
  rw [hfound]
  dsimp only
  rw [(Chip.stopRuns_cool ..).1, Chip.aTick, (Chip.stopRuns_steady ..).1]
  refine ⟨fun x hx => ?_, (s.waitTick_ports _).1⟩
  simpa using (List.mem_filter.1 hx).2

/-! ### Random sources (R198, R508 to R510) -/

theorem trngSourceFail_disables (source : BitVec 2) :
    (trngSourceFail source s).trust.trng.getLsbD source.toNat = false ∧ (trngSourceFail source s).trust.drbg = s.trust.drbg := by
  refine ⟨?_, rfl⟩
  simp [trngSourceFail]

theorem drbgReseed_seal (hworks : s.trust.trng ≠ 0) :
    (drbgReseed none s).seeds = s.seeds + 1 ∧ (drbgReseed none s).trust.drbg
      = if s.trust.drbg.ready then { s.trust.drbg with next := some (DrbgKey.instantiate s.seeds) }
        else { ready := true, cur := DrbgKey.instantiate s.seeds } := by
  simp only [drbgReseed, beq_false_of_ne hworks, Bool.false_eq_true, if_false, Bool.false_or]
  refine ⟨trivial, ?_⟩
  split <;> rfl

theorem drbgReseed_panel {panel : BitVec 9} (hworks : s.trust.trng ≠ 0) (hready : (s.panel panel.toNat).drbg.ready = true) :
    ((drbgReseed (some panel) s).panel panel.toNat).drbg.next = some (DrbgKey.instantiate s.seeds)
      ∧ (drbgReseed (some panel) s).seeds = s.seeds + 1 := by
  simp only [drbgReseed, beq_false_of_ne hworks, Bool.false_eq_true, if_false, Chip.panel_updPanel]
  have hsame : ({ s with seeds := s.seeds + 1 } : Chip).panel panel.toNat = s.panel panel.toNat := rfl
  rw [hsame, if_pos hready]
  exact ⟨rfl, rfl⟩

/-- The Seal's DRBG, reseeded: a new one serves at once, a running one takes over its replacement at a request boundary. -/
theorem drbgReseed_seal_serves (hworks : s.trust.trng ≠ 0) :
    (drbgReseed none s).trust.drbg.ready = true ∧ (drbgReseed none s).seeds = s.seeds + 1
      ∧ (s.trust.drbg.ready = false → (drbgReseed none s).trust.drbg.cur = DrbgKey.instantiate s.seeds)
      ∧ (s.trust.drbg.ready = true → (drbgReseed none s).trust.drbg.next = some (DrbgKey.instantiate s.seeds)
        ∧ (drbgReseed none s).trust.drbg.cur = s.trust.drbg.cur) := by
  obtain ⟨hseeds, hdrbg⟩ := drbgReseed_seal hworks
  rw [hdrbg]
  cases hready : s.trust.drbg.ready with
  | true => simp [hready, hseeds]
  | false => simp [hseeds]

/-- Settles O47, command by command; the frames of power, heat and stacks carry what a trip or an evaluation sets past its consequences. -/
theorem thermalAndRailCommandsComplete : Obligations.ThermalAndRailCommandsComplete := by
  unfold Obligations.ThermalAndRailCommandsComplete
  refine fun s => ⟨fun rail hlow hhigh => ⟨⟨_, rfl, railUndervoltage_holds hlow hhigh⟩, ?railReturn⟩, fun hlive => ?live⟩
  case railReturn =>
    refine ⟨s.put (railReturn rail s.chip), rfl, ?_⟩
    rw [State.put_chip, railReturn_frees hlow]
    exact ⟨fun h => (mem_sremove.1 h).2 rfl, rfl⟩
  case live =>
    refine ⟨fun plate hgood => exec_of_effect hlive rfl (plateRailUndervoltage_trips hgood),
      fun plate hgood => exec_of_effect hlive rfl (plateTempTrip_trips hgood),
      fun h htripped hready => ⟨_, exec_of_effect hlive rfl rfl, stackTempTrip_trips htripped hready⟩,
      fun h htripped => ⟨_, exec_of_effect hlive rfl rfl, stackTripRelease_releases htripped⟩,
      ⟨_, exec_of_effect hlive rfl rfl, rfl, rfl, Bool.true_or _, rfl, rfl⟩,
      fun plates hs collar watts => ?evaluation,
      fun p w hfound => ⟨_, exec_of_effect hlive rfl rfl, withdrawalTimeout_ends hfound⟩,
      fun plate => ?avs,
      fun source => ⟨_, exec_of_effect hlive rfl rfl, trngSourceFail_disables source⟩,
      fun hworks => ⟨⟨_, exec_of_effect hlive rfl rfl, drbgReseed_seal_serves hworks⟩,
        fun panel hready => ⟨_, exec_of_effect hlive rfl rfl, drbgReseed_panel hworks hready⟩⟩⟩
    case evaluation =>
      obtain ⟨havg, hover, htick⟩ := thermalEvaluation_measures (s := s.chip) plates hs collar watts
      refine ⟨_, exec_of_effect hlive rfl rfl, ?_⟩
      rw [State.put_chip, htick]
      exact ⟨havg, hover, by omega, by omega⟩
    case avs =>
      refine ⟨⟨_, exec_of_effect hlive rfl rfl, ?_⟩, ⟨_, exec_of_effect hlive rfl rfl, ?_⟩, ⟨_, exec_of_effect hlive rfl rfl, ?_⟩⟩
      · simp [avsLimitTimeout]
      · simp [avsMarginReturn]
      · simp [avsbusTransactionError]

end Sys2Proof.Machine
end
